-- ==== Sys2Proof/Word.lean ====
section
/-! DEFINITION. The word types of the node and the sparse tables its state is made of. -/

namespace Sys2Proof

/-- A byte of a record, a frame, an image or the flash. -/
abbrev Byte := BitVec 8

/-- A register word: registers are 32 bits wide (00_scope, Registers and access codes). -/
abbrev Word := BitVec 32

/-- A binary64 bit pattern (13 R401), or 64 raw bits of a double-word register pair. -/
abbrev B64 := BitVec 64

/-- A sparse table: entries in strictly rising key order, none equal to the value an unlisted key reads as.
The value an unlisted key reads as is given at each use. The operations stand in Machine/Ops.lean. -/
abbrev Tab (α : Type) := List (Nat × α)

/-- A count that stops at `m` (the manual's "stops at"). -/
def satInc (m n : Nat) : Nat := if n < m then n + 1 else m

/-- Bit `i` of a number. -/
def natBit (n i : Nat) : Bool := n.testBit i

/-- One bit as a number. -/
def b2n (b : Bool) : Nat := if b then 1 else 0

/-- `n` cut to `w` bits and put at bit `lo` of a register. -/
def fieldAt (lo w n : Nat) : Nat := (n % 2 ^ w) * 2 ^ lo

/-- The bits [lo + w - 1 : lo] of a register value. -/
def bitsOf (lo w : Nat) (v : Word) : Nat := (v.toNat / 2 ^ lo) % 2 ^ w

/-- A register word from a sum of placed fields. -/
def regOf (l : List Nat) : Word := BitVec.ofNat 32 (l.foldl (· + ·) 0)

/-- A signed number as `w` raw bits. -/
def intBits (w : Nat) (x : Int) : Nat := (x % (2 ^ w : Nat)).toNat

/-- `n` little-endian bytes of a number (00 R8). -/
def leBytes : Nat → Nat → List Byte
  | 0, _ => []
  | n + 1, x => BitVec.ofNat 8 (x % 256) :: leBytes n (x / 256)

/-- The number that little-endian bytes spell. -/
def leNat : List Byte → Nat
  | [] => 0
  | b :: r => b.toNat + 256 * leNat r

end Sys2Proof
end

