-- ==== Sys2Proof/Types.lean ====
section
/-! DEFINITION. The data that commands and state share: records, frames, network messages, and the names of the manual's
small enumerations. -/

namespace Sys2Proof

/-- Where a command enters the system (10 R325, R326): the own host port, the own host port with REMOTE set for an owner,
a network port, or a panel input. -/
inductive Origin where
  | host
  | remote (owner : Fin 16)
  | net (port : Fin 6)
  | panel
deriving DecidableEq, Repr

/-- The scope of a call acknowledgement (11 R353, R354). -/
inductive CallScope where
  | ladder (l : Fin 16)
  | all
  | engineer (e : Fin 8)
  | room (r : Fin 4)
deriving DecidableEq, Repr

/-- A switched clock domain (04, Domain clock paths). -/
inductive Domain where
  | core | field | solv
deriving DecidableEq, Repr

/-- A ring port (15 R449). -/
inductive RingPort where
  | ta | tb
deriving DecidableEq, Repr

/-- How a host frame arrived (18 R557, R558, Table 18.2), with the CRC of its bytes 7 and 8 where it has them. -/
inductive FrameForm where
  | full (crc : BitVec 16)                 -- 72 edges
  | early                                  -- begins while the previous frame's operation is in progress
  | badLength                              -- not 72 edges
  | badCmd (cmd : Byte) (crc : BitVec 16)  -- 72 edges, CMD not in R556
deriving DecidableEq, Repr

/-- Bytes 0 to 6 of a host frame (18 Table 18.1). -/
structure HostFrame where
  cmd : Byte
  addr : BitVec 16
  data : Word
deriving DecidableEq, Repr

/-- The event record of 14 Table 14.1, less its CRC: `node` issued it, `space` numbers it. -/
structure Record where
  seq : Nat
  node : Nat
  space : Nat
  type : Nat
  time : Nat
  source : Nat
  old : Nat
  new : Nat
  detail : List Byte
deriving DecidableEq, Repr

/-- What an event says before it has a number and a time: also the form of a notice (16 R488). -/
structure RecBody where
  type : Nat
  source : Nat
  old : Nat
  new : Nat
  detail : List Byte
deriving DecidableEq, Repr

/-- A fabric or call command in the owner's queue (10 R325, R326; 11 R353). `op` is the OP of FAB_CMD, or 0x10 plus the OP
of CALL_CMD. `target` is the point, group, ladder scope or engineer; `arg` the duration or mask. `reason` is the refusal code of a
command that its owner could not accept on arrival, 0 for none: its record waits for step 3. -/
structure QCmd where
  op : Nat
  target : Nat
  arg : Nat
  path : Nat
  orig : Nat
  cmdId : Nat
  reason : Nat
deriving DecidableEq, Repr

/-- A beacon (15 R451, R453): the timestamps are node times of the delay measurement in 10 ns units. -/
structure Beacon where
  node : Nat
  ringState : Nat
  insertReq : Bool
  rxOk : Bool
  t1 : Nat
  t2 : Nat
  t3 : Nat
  t4 : Nat
deriving DecidableEq, Repr

/-- The payload of a TOKEN frame (15 Table 15.2). -/
structure TokenFrame where
  master : Nat
  spliced : Bool
  dissolve : Bool
  gen : Nat
  view : BitVec 16
  visited : BitVec 16
  boundary : Nat
deriving DecidableEq, Repr

/-- The payload of a STATUS frame (15 Table 15.2). -/
structure StatusFrame where
  ringState : Nat
  trust : Nat
  refEligible : Bool
  lowerRing : Bool
  role : Nat
  hashTag : BitVec 32
  members : BitVec 16
deriving DecidableEq, Repr

/-- The payload of a TIME frame (15 Table 15.2): `tx` in µs, `txNs` ns within it, `corr` in ns. -/
structure TimeFrame where
  tx : Nat
  txNs : Nat
  corr : Nat
  stepPending : Bool
  leapCnt : Nat
  step : Int
deriving DecidableEq, Repr

/-- The payload of a COMMAND frame (15 Table 15.2, 01 R35): a forwarded command, an activation notice, a lane sync command
with RING set, or a record notice of a pair member. -/
inductive CommandLoad where
  | forward (owner : Nat) (c : QCmd)
  | activation (hash : BitVec 256) (boundary : Nat)
  | laneSync (lanes : BitVec 8) (boundary : Nat)
  | notice (b : RecBody)
deriving DecidableEq, Repr

/-- A frame a node sends on the ring, by class (15 Table 15.2, 16 Table 16.4). -/
inductive RingLoad where
  | token (t : TokenFrame)
  | claim (n : Nat)
  | status (f : StatusFrame)
  | time (f : TimeFrame)
  | drop (fseq : Nat)
  | splice (neighbour joining : Nat)
  | records (l : List Record)
  | command (c : CommandLoad)
  | epochData (final handover : Bool) (tag idx count : Nat) (bytes : List Byte)
  | epochCommit (final handover : Bool) (tag count : Nat) (crc hashTag : BitVec 32) (last fo : Nat)
  | epochAck (result tag : Nat) (confirm : BitVec 32)
  | highQuery (space : Nat)
  | highReply (space n : Nat)
deriving DecidableEq, Repr

/-- A ring frame in a node's keeping: FSEQ, RETRY, the nodes it addresses (15 Table 15.1). -/
structure RingFrame where
  fseq : Nat
  retry : Nat
  dst : BitVec 16
  load : RingLoad
deriving DecidableEq, Repr

/-- The kinds of sentence of 17 R522 and what the node puts in them (R523 to R525); `bmn` is the manufacturer mnemonic "BMN", left empty for a
standardised identifier; ALF is always sentence 1 of 1. -/
inductive Sentence where
  | alf (msgId : Nat) (time : Nat) (category priority state : Nat) (bmn : Bool) (ident inst : Nat) (revision escalation : Nat) (text : List Byte)
  | alc (entries : List (Bool × Nat × Nat × Nat))
  | alr (time : Nat) (num : Nat) (cond ackn : Bool) (text : List Byte)
  | arc (ident inst : Nat) (cmd : Nat)
deriving DecidableEq, Repr

/-- What a port puts on its line (17): sentences under their talker ID, IEC 61162-450 datagrams with the SFI and the transmission group of
their TAG block and address (R533), NMEA 2000 messages, Modbus answers, record-service datagrams with the header of Table 17.7, and the answers of the
network layer. -/
inductive NetMsg where
  | sentence (talker : List Byte) (x : Sentence)
  | udpbc (sfi group : Nat) (talker : List Byte) (x : Sentence)
  | n2kAlert (category ident occ type state : Nat)
  | n2kText (ident occ : Nat) (text : List Byte)
  | n2kClaim (addr : Nat)
  | n2kProduct
  | n2kHeartbeat
  | n2kEngine (pgn inst : Nat) (fields : List (Option Int))
  | arpReply
  | icmpReply
  | modbus (unit fn : Nat) (data : List Nat)
  | modbusExc (unit fn code : Nat)
  | tcpAccept (conn : Nat)
  | tcpRefuse
  | tcpClose (conn : Nat)
  | kvrs (head : List Byte) (l : List Record)
  | kvrn (head : List Byte)
deriving DecidableEq, Repr

/-- A sentence received in an IEC 61162-450 datagram (17 R533): an ACK by ALR number, or an ACN by identifier, instance and
command letter code. -/
inductive RxSentence where
  | ack (num : Nat)
  | acn (ident inst : Nat) (cmd : Nat)
  | other
deriving DecidableEq, Repr

/-- The commands of an ACN (17 R528): A acknowledge, Q query, O and S refused. -/
def acnA : Nat := 0
def acnQ : Nat := 1
def acnO : Nat := 2
def acnS : Nat := 3

/-- The LO registers whose read latches their HI half (18 R557 and each chapter's tables). -/
inductive LoReg where
  | serial | nodeTime | syncTime | jrnlNewest | jrnlFlashed | jrnlOldest | jrnlPos | pairLast | pairFo
deriving DecidableEq, Repr

/-- What a lane visit finds at the front end (06 Table 6.8). -/
structure VisitReport where
  excOff : Bool        -- measured excitation differs from the code by more than 10 %
  compliant : Bool     -- the current source reaches its code
  overload : Bool      -- voltage excitation at its 30 mA limit
deriving DecidableEq, Repr

/-- Why a network port changes state (17 R549). -/
inductive PortEvent where
  | down | up | busOff
deriving DecidableEq, Repr

/-- A resistance or impedance reading of the IMU (06 R216): |Z| in 0.1 Ω and phase in 0.1° for the loop, |Z| in 10 kΩ for
the insulation. -/
structure ImpReading where
  zloop : Nat
  phase : Int
  ziso : Nat
deriving DecidableEq, Repr

end Sys2Proof
end

