-- ==== Sys2Proof/Syntax.lean ====
section
/-! DEFINITION. The commands of the block: one constructor per row of spec/opcode_table.json, in the table's order, with the
row's operands. -/

namespace Sys2Proof

/-- The commands (95_what_each_step_holds.md: each whole and indivisible). Operands named `t` are the node time in µs at which
the command executes. -/
inductive Instr where
  /-- TICK_BOUNDARY (R23). At each 50 ms node-time multiple the node performs the seven steps of fabric-tick work in order. -/
  | tickBoundary
  /-- EPOCH_BOUNDARY (R21). At each 1 s node-time multiple the epoch closes and epoch-boundary work falls due. -/
  | epochBoundary
  /-- ON_DELAY_EXPIRY (R316). The on-counter reaches ON_DELAY and F becomes 1. -/
  | onDelayExpiry (p : Fin 1024)
  /-- OFF_DELAY_EXPIRY (R316). The off-counter reaches OFF_DELAY and F becomes 0. -/
  | offDelayExpiry (p : Fin 1024)
  /-- SUPP_HOLD_EXPIRY (R321). The suppression hold counter reaches 0 and suppression ends. -/
  | suppHoldExpiry (p : Fin 1024)
  /-- SHELVE_EXPIRY (R323). A shelving clock reaches 0 and the point leaves Shelved by the return rule. -/
  | shelveExpiry (p : Fin 1024)
  /-- ACK (R326). Acknowledge an alarm point. -/
  | ack (p : Fin 1024) (o : Origin)
  /-- ACK_GROUP (R326). Acknowledge every member of a group in increasing point number. -/
  | ackGroup (g : Fin 1024) (o : Origin)
  /-- SHELVE (R323). Shelve an alarm point for a duration up to SHELVE_MAX. -/
  | shelve (p : Fin 1024) (o : Origin)
  /-- UNSHELVE (R326). Return a shelved point by the return rule. -/
  | unshelve (p : Fin 1024) (o : Origin)
  /-- RESET (R318). Clear LATCHED on a latched point whose condition is gone. -/
  | resetPoint (p : Fin 1024) (o : Origin)
  /-- OUT_OF_SERVICE (R324). Put an alarm point out of service, in maintenance mode only. -/
  | outOfService (p : Fin 1024) (o : Origin)
  /-- IN_SERVICE (R324). Return an out-of-service point by the return rule. -/
  | inService (p : Fin 1024) (o : Origin)
  /-- FO_RESET (R331). Clear and re-arm a quiet group's first-out capture. -/
  | foReset (g : Fin 1024) (o : Origin)
  /-- WIN_READ (R332). Start a FAB window READ of a cell item or tunable bound. -/
  | winRead
  /-- WIN_WRITE (R334). Start a FAB window WRITE of a tunable, pending until the next epoch boundary. -/
  | winWrite
  /-- WIN_OP_DONE (R332). A window operation completes within 50 µs, BUSY clears and RESULT is shown. -/
  | winOpDone
  /-- TUNABLE_APPLY (R333). A pending tunable write applies at the epoch boundary with one configuration record. -/
  | tunableApply
  /-- FAB_ECC_ERROR (R339). An ECC error in cell or netlist memory is corrected or, if uncorrectable, forces Breakwater. -/
  | fabEccError (uncorrectable : Bool)
  /-- CALL_ACK (R353). A call acknowledgement ends calling of the ladders in its scope. -/
  | callAck (scope : CallScope) (o : Origin)
  /-- SET_DUTY (R344). Change the duty engineer. -/
  | setDuty (e : BitVec 8)
  /-- SET_PRESENT (R344). Change the present mask of the roster. -/
  | setPresent (mask : BitVec 8)
  /-- DM_START (R356). Start the dead-man watch. -/
  | dmStart
  /-- DM_STOP (R356). Stop the dead-man watch unless it has expired. -/
  | dmStop
  /-- DM_RESET (R356). Reload the dead-man watch timer and clear prewarn and expiry. -/
  | dmReset
  /-- DM_PREWARN (R356). The watch timer reaches DM_WARN and DM_PREWARN is set. -/
  | dmPrewarn
  /-- DM_EXPIRY (R356). The watch timer reaches 0 and DM_EXPIRED is set. -/
  | dmExpiry
  /-- RUNG_TIMER_EXPIRY (R349). A rung timer reaches 0 and the ladder moves to the next rung or repeats the last. -/
  | rungTimerExpiry (l : Fin 16)
  /-- SEC_UNLOCK (R62). A write of an unlock value advances or restarts the maintenance unlock sequence. -/
  | secUnlock (v : Word) (t : Nat)
  /-- UNLOCK_LOCKOUT_EXPIRY (R63). The 60 s lockout after three restarted unlock sequences ends. -/
  | unlockLockoutExpiry
  /-- KEY_SWITCH_CHANGE (R603). The key switch loop on X9.3 closes or opens. -/
  | keySwitchChange (ohms : Nat)
  /-- KEY_SWITCH_SETTLED (R62). X9.3 has stayed closed or open for 100 ms; an open switch ends maintenance mode. -/
  | keySwitchSettled
  /-- MAINT_TIMEOUT (R64). 60 min pass with no SEC write and the node leaves maintenance mode. -/
  | maintTimeout
  /-- ERASE (R67). Erase the inactive bank. -/
  | erase
  /-- ERASE_DONE (R582). A bank erase completes and the bank becomes EMPTY. -/
  | eraseDone
  /-- OPEN (R67). Open an EMPTY inactive bank for image writes. -/
  | openBank
  /-- CLOSE (R67). Close a WRITING bank, making it WRITTEN. -/
  | closeBank
  /-- CHECK (R70). Start the loader checks on the inactive bank. -/
  | checkBank
  /-- CHECK_DONE (R70). The loader checks finish and the bank becomes CHECKED or FAILED. -/
  | checkDone
  /-- ACTIVATE (R74). Schedule activation of the checked inactive bank at the second epoch boundary. -/
  | activate
  /-- EXIT (R64). Leave maintenance mode. -/
  | exitMaint
  /-- ENROL (R60). Enrol the integrator key from a verified certificate and blow the ENROLLED fuse. -/
  | enrol
  /-- SEC_IMG_DATA (R570). A write stores 4 image bytes at OFFSET and advances it. -/
  | secImgData (w : Word)
  /-- ACTIVATION_CONFIRM_TIMEOUT (R77). Without the standby's confirmation by the first epoch boundary the duty refuses the activation. -/
  | activationConfirmTimeout
  /-- ACTIVATION_APPLY (R75). At the activation boundary the generation is written, the image applied and the configuration record
  issued. `ok` says the bank record write passed its verify (R92). -/
  | activationApply (ok : Bool)
  /-- VIN_LOW (R96). VIN stays below 6.2 V for 200 µs and the node enters Hold-up. -/
  | vinLow (t : Nat)
  /-- SUPPLY_VALID (R96). VIN stays above 6.8 V for 50 ms and the supply becomes valid. -/
  | supplyValid
  /-- OV_WARNING (R96). VIN rises above 60.0 V and OV_SEEN and OV_ACTIVE are set. -/
  | ovWarning
  /-- OVP_TRIP (R96). Over-voltage persists or exceeds 82 V and the input switch opens. -/
  | ovpTrip (t : Nat)
  /-- OVP_RELEASE (R96). After a trip VIN stays below 60.0 V for 50 ms and the switch closes. -/
  | ovpRelease
  /-- HOLDUP_ENTRY (R105). At t0 the solver refuses submissions and the journal begins its flush. -/
  | holdupEntry (t : Nat)
  /-- HOLDUP_SOLVER_ABORT (R398). At t0 + 100 ms unfinished jobs end ABORTED and SOLV turns off. -/
  | holdupSolverAbort
  /-- JOURNAL_FLUSH_DONE (R105). Hold-up step 2 completes and a duty sends the FINAL epoch copy. -/
  | journalFlushDone
  /-- HOLDUP_PARK (R105). At t0 + 1.2 s or the park level the node parks outputs, stops fabric and issues the park record. -/
  | holdupPark
  /-- HOLDUP_STORE_EXHAUSTED (R108). After parking CORE and FIELD turn off when the store is exhausted, by t0 + 1.5 s. -/
  | holdupStoreExhausted
  /-- HOLDUP_RESTART (R111). With the supply back after parking the node restarts from phase C at t0 + 1.5 s with cause HOLDUP. -/
  | holdupRestart
  /-- STORE_CHARGED (R98). The hold-up store reaches its 1.5 s level and HOLDUP_RDY is set. -/
  | storeCharged
  /-- BOR (R119). A CORE rail falls out of regulation, outputs are clamped and the node restarts from phase C. -/
  | bor
  /-- MODE_RUN (R101). Request Run mode. -/
  | modeRun
  /-- MODE_SLEEP (R101). Request Sleep mode. -/
  | modeSleep
  /-- MODE_DEEP_SLEEP (R101). Request Deep sleep mode. -/
  | modeDeepSleep
  /-- MODE_CHANGE_APPLY (R102). An accepted mode change takes effect at the epoch boundary with a configuration record. -/
  | modeChangeApply
  /-- DEEP_WAKE (R113). An enabled wake source in Deep sleep runs the power-up sequence from phase B. -/
  | deepWake (src : Fin 4)
  /-- POWER_UP_SEQUENCE (R121). From a valid supply the node runs phases A to G with their output states. -/
  | powerUpSequence
  /-- STARTUP_BANK_CHECK (R93). Phase D checks the ACTIVE bank and, if it fails, the PREVIOUS bank. -/
  | startupBankCheck
  /-- RC_COUNT_COMPLETE (R130). The RC stability count completes and RC becomes READY or FAILED. -/
  | rcCountComplete (ok : Bool)
  /-- XTAL_COUNT_COMPLETE (R132). The crystal completes 65,536 cycles and becomes READY. -/
  | xtalCountComplete
  /-- PLL_LOCK_COMPLETE (R130). The PLL lock count ends locked, moving BRIDGE domains to the PLL or continuing start-up or return. -/
  | pllLockComplete
  /-- PLL_LOCK_FAIL (R151). A PLL lock count fails, relocking in coast or latching. -/
  | pllLockFail
  /-- XTAL_PLL_TRIP (R142). The monitor trips XTAL or PLL; the PLL goes to coast on RC and domains move by Table 4.6. -/
  | xtalPllTrip (pll : Bool)
  /-- RC_TRIP (R137). The monitor trips RC, restarting it once or latching domains that run on it. -/
  | rcTrip
  /-- LSE_TRIP (R136). The monitor trips LSE, setting OSF and changing references. -/
  | lseTrip
  /-- RC_TRIM_WINDOW (R126). Each judging window the node trims the RC against LSE or XTAL. -/
  | rcTrimWindow (code : BitVec 10) (xtalCnt rcCnt : Nat)
  /-- CLOCK_SWITCH_DONE (R140). The glitch-free multiplexer starts the new clock after two of its falling edges. -/
  | clockSwitchDone (d : Domain)
  /-- FORCED_SWITCH (R141). The old clock gives no two edges in 64 new-clock cycles, so the switch is forced and the source marked FAILED. -/
  | forcedSwitch (d : Domain)
  /-- RAMP_STEP (R138). A ramp divider hold of 256 cycles ends and the Ebb or Flood takes its next step or completes. -/
  | rampStep (d : Domain)
  /-- RETURN_POINT (R149). After a clean epoch the return sequence to the crystal starts. -/
  | returnPoint
  /-- LATCH_RESTART (R170). A latched node that lost its supply restarts from phase A at t0 + 1.5 s. -/
  | latchRestart
  /-- CLKOUT_WRITE (R158). A CLK_CLKOUT write takes effect at the end of the output period or is refused. -/
  | clkoutWrite (w : Word)
  /-- RTC_HALT_SET (R190). Writing HALT 1 stops the RTC for a host set. -/
  | rtcHaltSet
  /-- RTC_HALT_CLEAR (R190). Writing HALT 0 applies RTC_SET_SEC as a correction target or refuses it. -/
  | rtcHaltClear
  /-- HALT_TIMEOUT (R190). HALT held for 100 ms is cleared by the node with result HALT_TIMEOUT. -/
  | haltTimeout
  /-- LEAP_CNT_WRITE (R192). A LEAP_CNT write is accepted on the reference or an uninserted node. -/
  | leapCntWrite (v : BitVec 8)
  /-- LEAP_CNT_APPLY (R192). A LEAP_CNT change takes effect at the epoch boundary with a time record. -/
  | leapCntApply
  /-- TIME_STEP (R185). A whole-second step of node time applies at an epoch boundary. -/
  | timeStep
  /-- SLEW_END (R184). A coarse or fine slew reaches its offset limit and the next correction stage begins. -/
  | slewEnd
  /-- LOW_BATTERY (R181). The AON store falls below 1.9 V and LBV is set. -/
  | lowBattery
  /-- TIME_REF_LOSS (R466). No TIME frame for 10 rotations and the node behaves as if there were no reference. -/
  | timeRefLoss
  /-- LANE_VISIT (R209). A scanned slot begins, switching the matrix to the new channel and starting its conversion. -/
  | laneVisit (l : Fin 8) (slot : Fin 16) (r : VisitReport)
  /-- RESULT_PUBLISH (R234). A decimated output is published to the result register, FIFO and engineering value. -/
  | resultPublish (l : Fin 8) (raw : BitVec 32) (overrange parity : Bool) (t : Nat)
  /-- LANE_UNLOCK (R240). Lane clock and node time differ by more than 0.3 %, so the lane becomes UNLOCKED. -/
  | laneUnlock (l : Fin 8)
  /-- SYNC_RESET (R243). At the sync instant the chain resets, a SYNC marker enters the FIFO and settling begins. -/
  | syncReset (l : Fin 8) (t : Nat)
  /-- LANE_SYNC_CMD (R241). A write schedules a node-wide or ring-wide lane sync at an epoch boundary. -/
  | laneSyncCmd (lanes : BitVec 8) (ring : Bool)
  /-- RESYNC (R242). Request a sync reset of one lane. -/
  | resync (l : Fin 8)
  /-- FLUSH (R261). Empty a lane's FIFO and clear DROPPED. -/
  | flush (l : Fin 8)
  /-- SUSPEND (R264). Stop a lane at its next grid instant, in maintenance mode. -/
  | suspend (l : Fin 8)
  /-- LANE_STOP (R264). A suspended lane stops at its grid instant, opening paths and turning excitation off. -/
  | laneStop (l : Fin 8)
  /-- RESUME (R265). Return a suspended or failed lane to service with a lane reset. -/
  | resume (l : Fin 8)
  /-- RESULT_LO_READ (R249). A read of LANEn_RES_LO takes a snapshot of the rest of the result. -/
  | resultLoRead (l : Fin 8)
  /-- RESULT_HI_READ (R249). A read of LANEn_RES_HI returns the shadow with SNAP set and ends the snapshot. -/
  | resultHiRead (l : Fin 8)
  /-- FIFO_READ (R253). A read of LANEn_FIFO_LO removes the oldest entry and latches its other words. -/
  | fifoRead (l : Fin 8)
  /-- ENG_LO_READ (R258). A read of LANE_CHc_ENG_LO copies ENG_HI into a shadow. -/
  | engLoRead (c : Fin 48)
  /-- ENG_HI_READ (R258). A read of LANE_CHc_ENG_HI returns the shadow. -/
  | engHiRead (c : Fin 48)
  /-- CJ_READ (R212). Every 100 ms each cold-junction sensor is read and judged. -/
  | cjRead (k : Fin 6) (reading : Int)
  /-- CHECK_DUE (R215). An input's impedance-check period expires and the check falls due. -/
  | checkDue (c : Fin 48)
  /-- IMPEDANCE_CHECK_START (R215). The IMU starts the longest-due check in a gap of the input's lane schedule. -/
  | impedanceCheckStart (gap : Bool)
  /-- CHECK_GAP_TIMEOUT (R215). 1 s after a check fell due without a gap, the IMU takes the input off its lane. -/
  | checkGapTimeout (c : Fin 48)
  /-- IMPEDANCE_CHECK_END (R217). A check ends and OPEN, SHORT, ISO_LOW, TREND and the baseline are judged. -/
  | impedanceCheckEnd (z : ImpReading)
  /-- CHECK_NOW (R229). Request an impedance check of an input ahead of due checks. -/
  | checkNow (c : BitVec 6)
  /-- REBASE (R218). Restart an input's impedance baseline, in maintenance mode. -/
  | rebase (c : BitVec 6)
  /-- IMU_SELF_TEST (R230). Every 60 s the IMU self-tests against its references. -/
  | imuSelfTest (pass : Bool)
  /-- EXCITATION_STEP (R221). At each epoch boundary the adaptive loop steps a channel's excitation code. -/
  | excitationStep (c : Fin 48)
  /-- EXC_WRITE (R227). A write to AFE_CHn_EXC is accepted as pending or refused. -/
  | excWrite (c : Fin 48) (w : Word)
  /-- EXC_APPLY (R227). A pending excitation write applies at the epoch boundary with a configuration record. -/
  | excApply (c : Fin 48)
  /-- ISLAND_FRAME (R276). Every 10 ms the node sends each island a command frame and the island acts on it. -/
  | islandFrame (a : Fin 8) (crcOk : Bool)
  /-- ISLAND_REPLY (R282). An island reply updates state, readback and fault judgements. -/
  | islandReply (a : Fin 8) (rdbk : BitVec 16) (low : Bool)
  /-- ISLAND_HEARTBEAT_EXPIRY (R276). An island's timer expires and it drives its failure current in FAIL. -/
  | islandHeartbeatExpiry (a : Fin 8)
  /-- ISLAND_POWER_UP (R276). Island terminal voltage reaches 7.5 V and it enters UNCONFIGURED at 3.5 mA. -/
  | islandPowerUp (a : Fin 8)
  /-- ISLAND_POWER_LOSS (R276). Island terminal voltage below 6.0 V for 1 ms loses its settings. -/
  | islandPowerLoss (a : Fin 8)
  /-- LOOP_FORCE (R277). Force an island's current, in maintenance mode. -/
  | loopForce (a : Fin 8) (cur : BitVec 16)
  /-- LOOP_RELEASE (R277). Release an island's force. -/
  | loopRelease (a : Fin 8)
  /-- DIO_FRAME (R285). Every 1 ms CORE sends each bank a frame that the field side obeys. -/
  | dioFrame (b : Fin 4) (crcOk : Bool)
  /-- DIO_REPLY (R285). A bank reply updates inputs, readback, supply, fault and watchdog state. -/
  | dioReply (b : Fin 4) (levels : BitVec 8) (vf : BitVec 8)
  /-- INPUT_FILTER_CHANGE (R289). FILTER consecutive samples agree and an input's filtered state changes. -/
  | inputFilterChange (pin : Fin 32) (samples : List (BitVec 16 × BitVec 16))
  /-- WIRE_BREAK (R291). A monitored input becomes BROKEN or stops being BROKEN after its sample count. -/
  | wireBreak (pin : Fin 32) (broken : Bool)
  /-- OUTPUT_LATCH_OFF (R293). An output in current limit for 2 ms or over its thermal limit latches off. -/
  | outputLatchOff (pin : Fin 32) (thermal : Bool)
  /-- BACKFEED (R294). An off output stays above 7.0 V for 10 samples, or returns, and BACKFEED changes. -/
  | backfeed (pin : Fin 32) (on : Bool)
  /-- WATCHDOG_EXPIRY (R296). A bank watchdog expires and the field side drives its safe states. -/
  | watchdogExpiry (b : Fin 4)
  /-- FIELD_SUPPLY_LOSS (R305). A bank's field supply falls below 14 V and the field side resets. -/
  | fieldSupplyLoss (b : Fin 4)
  /-- DIO_SWEEP (R301). A START write begins a diagnostic sweep of one bank. -/
  | dioSweep (b : Fin 4)
  /-- SWEEP_SLOT_END (R301). A 20 ms sweep slot ends, reporting and clearing the pin's sticky cause. -/
  | sweepSlotEnd
  /-- DIO_FORCE_ON (R307). Force an output on, in maintenance mode. -/
  | dioForceOn (pin : Fin 32)
  /-- DIO_FORCE_OFF (R307). Force an output off, in maintenance mode. -/
  | dioForceOff (pin : Fin 32)
  /-- DIO_RELEASE (R307). Release a forced output. -/
  | dioRelease (pin : Fin 32)
  /-- CLEAR_LATCH (R293). Clear the overcurrent and thermal latches of a bank. -/
  | clearLatch (b : Fin 32)
  /-- SUBMIT (R377). A SOLV_SUBMIT write accepts or refuses a host job and returns its job ID. -/
  | submit (q : BitVec 2) (t : Nat)
  /-- JOB_END (R380). A job ends with its status, completion entry, publication or carry. -/
  | jobEnd (t : Nat)
  /-- DEADLINE_EXPIRY (R382). A running job's deadline passes and it is stopped. -/
  | deadlineExpiry (t : Nat)
  /-- SOLVER_FAULT_DETECTED (R391). A residue or memory fault discards the job's results and re-runs it once. -/
  | solverFaultDetected
  /-- CQ_POP (R373). Retire the head completion entry of a queue and free its slot. -/
  | cqPop (q : BitVec 2)
  /-- MEM_WRITE (R378). A SOLV_MEM_HI write stores a solver memory word or is refused. -/
  | memWrite (hi : Word)
  /-- MEM_READ (R365). A SOLV_MEM_LO read returns the low half and latches the high half. -/
  | memRead
  /-- JOURNAL_FLASH_WRITE (R436). Records are programmed into the flash journal in SEQ order. -/
  | journalFlashWrite
  /-- RAM_ECC_ERROR (R446). An uncorrectable RAM-ring error is served from flash or named by a RAM_ECC GAP. -/
  | ramEccError (seq : Nat)
  /-- SEEK (R442). Load the held record numbered by JRNL_SEEK. -/
  | seek
  /-- NEXT (R442). Load the held record with the smallest number above C. -/
  | next
  /-- NEWEST (R442). Load the newest held record. -/
  | newest
  /-- OLDEST (R442). Load the oldest held record. -/
  | oldest
  /-- CURSOR_LOAD_DONE (R443). A cursor load completes and the window and result are updated. -/
  | cursorLoadDone
  /-- LO_LATCH_READ (R557). A read of a LO register latches its HI half, as for node time, journal and PAIR numbers. -/
  | loLatchRead (r : LoReg)
  /-- BEACON_SEND (R451). Every 1 ms the node sends a beacon on both transmit pairs. -/
  | beaconSend
  /-- BEACON_RX (R453). A received beacon feeds link supervision and delay measurement; `none` is one whose CRC fails (R452). -/
  | beaconRx (rp : RingPort) (b : Option Beacon)
  /-- LINK_DOWN (R452). A link is declared DOWN and its port wraps. -/
  | linkDown (rp : RingPort)
  /-- LINK_UP (R452). A link has carried valid beacons for 1 s and becomes UP. -/
  | linkUp (rp : RingPort)
  /-- LINK_RESTORED (R477). A link UP for 1 s is unwrapped by a splice with joining node 0xFF. -/
  | linkRestored (rp : RingPort)
  /-- ROTATION_BOUNDARY (R457). At each 10 ms multiple the master starts its hold. -/
  | rotationBoundary
  /-- TOKEN (R457). A node receives the token, sets VISITED and starts its hold. -/
  | token (tk : TokenFrame)
  /-- HOLD_END (R458). A node's HOLD ends and it passes the token, splicing a requester where due. -/
  | holdEnd
  /-- CLAIM (R475). A CLAIM frame is repeated if lower, or returns to win token regeneration. -/
  | claim (n : Fin 16)
  /-- TOKEN_SILENCE (R475). After two silent rotations every inserted node sends CLAIM. -/
  | tokenSilence
  /-- STATUS (R464). A STATUS frame updates ring state, trust and pair role knowledge. -/
  | status (src : Fin 16) (fseq : BitVec 16) (f : StatusFrame)
  /-- TIME (R465). A TIME frame gives the offset to the reference and step announcements. -/
  | time (src : Fin 16) (fseq : BitVec 16) (rp : RingPort) (f : TimeFrame) (rx rxNs : Nat)
  /-- DROP (R461). A DROP frame declares a frame lost and releases held records. -/
  | drop (src : Fin 16) (fseq : BitVec 16) (lost : BitVec 16)
  /-- SPLICE (R469). A SPLICE frame arriving by the old path lets the far node unwrap. -/
  | splice (src : Fin 16) (fseq : BitVec 16) (neighbour joining : BitVec 8)
  /-- RECORDS (R440). A RECORDS frame passes records to journal and interfaces in SEQ order. -/
  | records (src : Fin 16) (fseq : BitVec 16) (recs : List Record)
  /-- COMMAND (R35). A COMMAND frame delivers forwarded commands, activation notices, sync commands or notices. -/
  | command (src : Fin 16) (fseq : BitVec 16) (load : CommandLoad)
  /-- FRAME_RETURN (R460). A returning frame is removed and retransmitted or declared lost if uncopied. -/
  | frameReturn (fseq : BitVec 16) (copied : BitVec 16)
  /-- FSEQ_MISSING_TIMEOUT (R468). An uninserted node treats an FSEQ missing one rotation as lost. -/
  | fseqMissingTimeout (src : Fin 16) (fseq : BitVec 16)
  /-- INSERT_REQUEST (R467). Its conditions met, a LISTEN node sets INSERT_REQ. -/
  | insertRequest
  /-- LISTEN_TIMEOUT (R467). No token for 3 rotations and a LISTEN node forms its own ring as master. -/
  | listenTimeout
  /-- LEAVE (R467). Leave the ring, in maintenance mode. -/
  | leave
  /-- JOIN (R467). Return a held-out or refused node to LISTEN. -/
  | join
  /-- EPOCH_DATA (R492). A DATA chunk is written into the partner's inactive buffer. -/
  | epochData (src : Fin 16) (fseq : BitVec 16) (final handover : Bool) (tag : Nat) (idx count : Nat) (bytes : List Byte)
  /-- EPOCH_COMMIT (R492). A COMMIT makes the inactive buffer the committed state or is rejected. -/
  | epochCommit (src : Fin 16) (fseq : BitVec 16) (final handover : Bool) (tag : Nat) (count : Nat) (crc hashTag : BitVec 32)
      (last fo : Nat)
  /-- EPOCH_ACK (R493). An ACK gives the copy result and any activation confirmation to the duty. -/
  | epochAck (src : Fin 16) (fseq : BitVec 16) (result : Nat) (tag : Nat) (confirm : BitVec 32)
  /-- HIGH_QUERY (R495). A HIGH_QUERY asks every inserted node for its highest number in a space. -/
  | highQuery (src : Fin 16) (fseq : BitVec 16) (space : Fin 16)
  /-- HIGH_REPLY (R495). A HIGH_REPLY gives a node's highest number heard in a space. -/
  | highReply (src : Fin 16) (fseq : BitVec 16) (space : Fin 16) (n : Nat)
  /-- COPY_MISSED (R492). A copy not committed by the next epoch boundary is abandoned and counted. -/
  | copyMissed
  /-- QUERY_WAIT_END (R495). All replies arrive or a rotation passes, fixing H for the takeover. -/
  | queryWaitEnd
  /-- TAKE_DUTY (R496). The node takes duty at the takeover tick, replaying and advancing state. -/
  | takeDuty
  /-- DEMOTE (R504). A duty loses its ring, majority or rank and demotes with a DEMOTE record. -/
  | demote
  /-- SWITCHOVER (R509). Hand duty over to the standby at the next epoch boundary. -/
  | switchover
  /-- ACK_SENTENCE (R528). An ACK sentence queues an ACK of the point it names. -/
  | ackSentence (port : Fin 6) (num : Nat)
  /-- ACN_SENTENCE (R528). An ACN sentence acknowledges, queries or is refused with ARC. -/
  | acnSentence (port : Fin 6) (ident inst : Nat) (cmd : Fin 4)
  /-- ALF_REPEAT (R525). Every 60 s ALF is repeated for each alert not Normal. -/
  | alfRepeat (port : Fin 6)
  /-- ALC_CYCLE (R525). Every 30 s ALC lists every alert of the port not Normal. -/
  | alcCycle (port : Fin 6)
  /-- ALR_REPEAT (R525). Every 30 s ALR is repeated for each alarm not Normal. -/
  | alrRepeat (port : Fin 6)
  /-- SENTENCE_SENT (R526). A sentence finishes on an S port and the next is taken from the queue. -/
  | sentenceSent (port : Fin 6)
  /-- ADDRESS_CLAIM (R529). A received ISO address claim is answered or makes the port try the next address. -/
  | addressClaim (addr : BitVec 8) (name : BitVec 64)
  /-- ISO_REQUEST (R529). An ISO Request for PGN 60928 or 126996 is answered. -/
  | isoRequest (pgn : Nat)
  /-- HEARTBEAT (R529). Every 60 s the CAN port sends PGN 126993. -/
  | heartbeat
  /-- ALERT_REPEAT (R530). Every 10 s PGN 126983 is repeated for each alert not Normal. -/
  | alertRepeat
  /-- ALERT_RESPONSE (R530). A PGN 126984 acknowledge is handled as an ACN command A. -/
  | alertResponse (ident occ cmd : Nat)
  /-- ENGINE_RAPID_UPDATE (R530). Every 100 ms PGN 127488 is sent. -/
  | engineRapidUpdate
  /-- ENGINE_DYNAMIC (R530). Every 500 ms PGN 127489 is sent. -/
  | engineDynamic
  /-- ARP_ICMP (R532). An ARP request or ICMP echo is answered. -/
  | arpIcmp (port : Fin 6) (arp : Bool)
  /-- UDPBC_DATAGRAM (R533). An IEC 61162-450 datagram from a listed SFI delivers ACK or ACN sentences. -/
  | udpbcDatagram (port : Fin 6) (sfi : Nat) (x : List RxSentence)
  /-- READ_COILS (R537). Modbus function 1 reads coils. -/
  | readCoils (port : Fin 6) (unit start n : Nat)
  /-- READ_DISCRETE_INPUTS (R537). Modbus function 2 reads discrete inputs. -/
  | readDiscreteInputs (port : Fin 6) (unit start n : Nat)
  /-- READ_HOLDING_REGISTERS (R537). Modbus function 3 reads holding registers. -/
  | readHoldingRegisters (port : Fin 6) (unit start n : Nat)
  /-- READ_INPUT_REGISTERS (R537). Modbus function 4 reads input registers. -/
  | readInputRegisters (port : Fin 6) (unit start n : Nat)
  /-- WRITE_SINGLE_COIL (R539). Modbus function 5 writes a coil, queuing its command. -/
  | writeSingleCoil (port : Fin 6) (unit addr : Nat) (on : Bool)
  /-- WRITE_SINGLE_REGISTER (R540). Modbus function 6 on a tunable is refused. -/
  | writeSingleRegister (port : Fin 6) (unit addr : Nat) (v : BitVec 16)
  /-- WRITE_MULTIPLE_COILS (R539). Modbus function 15 queues one command per coil set. -/
  | writeMultipleCoils (port : Fin 6) (unit start : Nat) (vs : List Bool)
  /-- WRITE_MULTIPLE_REGISTERS (R540). Modbus function 16 writes a whole tunable. -/
  | writeMultipleRegisters (port : Fin 6) (unit start : Nat) (vs : List (BitVec 16))
  /-- READ_WRITE_REGISTERS (R541). Modbus function 23 writes, then reads. -/
  | readWriteRegisters (port : Fin 6) (unit rstart rn wstart : Nat) (vs : List (BitVec 16))
  /-- TCP_CONNECT (R536). A Modbus TCP connection is accepted or a fifth refused. -/
  | tcpConnect (port : Fin 6)
  /-- TCP_IDLE_CLOSE (R536). A connection idle for 60 s is closed. -/
  | tcpIdleClose (port : Fin 6) (conn : Fin 4)
  /-- REPLAY_REQUEST (R545). A KVRQ datagram starts a replay or is refused with KVRN. -/
  | replayRequest (port : Fin 6) (space : Fin 16) (first : Nat) (n : Nat)
  /-- REPLAY_SEND (R545). At most once per ms the next replay datagram is sent. -/
  | replaySend
  /-- PORT_STATE_CHANGE (R549). A port goes DOWN, BUS_OFF or back UP, discarding or refreshing its queue. -/
  | portStateChange (port : Fin 6) (ev : PortEvent) (t : Nat)
  /-- BUS_OFF_RESTART (R549). A bus-off CAN port restarts after 1 s or 60 s. -/
  | busOffRestart
  /-- DISABLE (R549). Disable a network port, in maintenance mode. -/
  | disable (port : BitVec 3)
  /-- ENABLE (R549). Enable a network port, in maintenance mode. -/
  | enable (port : BitVec 3)
  /-- CLEAR_COUNTS (R549). Clear a port's counters. -/
  | clearCounts (port : BitVec 3)
  /-- NOP (R556). A host frame that executes nothing and returns SYS_SUM. -/
  | nop (f : BitVec 16 × Word × FrameForm)
  /-- READ (R557). A host frame that reads a register at execution. -/
  | read (addr : BitVec 16) (f : Word × FrameForm)
  /-- WRITE (R557). A host frame that writes a register at execution. -/
  | write (addr : BitVec 16) (data : Word) (f : FrameForm)
  /-- HOST_FRAME_TIMEOUT (R563). HCS_N low for over 1 ms abandons the frame, answered TIMEOUT. -/
  | hostFrameTimeout
  /-- HOST_RESET (R567). Request a host reset at the next tick boundary. -/
  | hostReset (key : BitVec 16)
  /-- HOST_RESET_EXECUTE (R567). At the tick boundary the node leaves the ring, flushes the journal and restarts with cause HOST. -/
  | hostResetExecute
  /-- HP_CLEAR (R569). Clear the host-port error counts. -/
  | hpClear
  /-- HVIO_LOSS (R600). HVIO below 1.6 V makes the node treat the host port as absent. -/
  | hvioLoss
  /-- REGISTER_WRITE (R9). A write to a register with no behaviour of its own acts by its fields' access codes. -/
  | registerWrite (addr : BitVec 16) (data : Word)
  /-- FLASH_PROGRAM_DONE (R577). A page program ends, verified, retried or failed, and the next flash operation is chosen. -/
  | flashProgramDone (ok : Bool)
  /-- FLASH_ERASE_DONE (R576). A sector erase ends, blank-checked and marked ERASED_OK, or the sector is retired. -/
  | flashEraseDone (blank : Bool)
  /-- FLASH_TIMEOUT (R577). A page program or sector erase exceeds its timeout. -/
  | flashTimeout
  /-- BACKGROUND_REERASE (R592). After phase F BLANK and UNKNOWN sectors are re-erased in the background. -/
  | backgroundReerase
  /-- STORE_FAILED (R595). The flash store enters FAILED and rejects writes. -/
  | storeFailed (noId : Bool)
  /-- PROBE (R596). Probe a FAILED flash device. -/
  | probe (answers : Bool)
  /-- EPOCH_PROBE (R596). At each epoch boundary a FAILED store probes its device. -/
  | epochProbe (answers : Bool)
  /-- FIELD_SUPPLY_RETURN (R305). A bank's field supply returns above 14 V; the field side restarts and drives every output off until the mode lines or a valid frame direct otherwise. -/
  | fieldSupplyReturn (b : Fin 4) (vf : BitVec 8)
  /-- HVIO_RESTORED (R600). HVIO rises back to 1.6 V or above and the node serves the host port again. -/
  | hvioRestored
  /-- OV_ACTIVE_END (R96). VIN falls back to 60.0 V or below without a trip and PWR_STAT.OV_ACTIVE clears. -/
  | ovActiveEnd
  /-- AON_STORE_EXHAUSTED (R201). The AON store runs out while the supply is absent, so AON loses power, the mode lines fall to OFF, the RTC stops, and the next start is a POR. -/
  | aonStoreExhausted
  /-- EDGES_RESUME (R130). A failed XTAL or LSE gives edges again; it begins its stability count, or for LSE becomes READY and the RTC resumes. -/
  | edgesResume (lse : Bool)
  /-- MEM_HI_READ (R365). A read of SOLV_MEM_HI with AUTOINC set advances SOLV_MEM_ADDR. -/
  | memHiRead
deriving DecidableEq, Repr

end Sys2Proof
end

