-- ==== Sys2Proof/Machine/Image.lean ====
section
/-! DEFINITION. What a structure image builds (02 Table 2.1): its sections as data, each a list of entries in the order in
which they are stored (02 R71), and the running image. The byte encoding inside a section is Evoelalet's and not in the spec. -/

namespace Sys2Proof.Machine

/-- A fabric source or cell output (10 R308, R309; 06 R219; 08; 09 R300; 11 R356; 12 R371). -/
inductive Source where
  | laneE (ch : Nat)
  | zLoop (ch : Nat)
  | zIso (ch : Nat)
  | solvOut (t k : Nat)
  | loopBand (ch : Nat)
  | aoState (a : Nat)
  | chOpen (ch : Nat)
  | chShort (ch : Nat)
  | chIsoLow (ch : Nat)
  | chTrend (ch : Nat)
  | chPinned (ch : Nat)
  | loopFail (ch : Nat)
  | loopSat (ch : Nat)
  | aoLinkLost (a : Nat)
  | aoMismatch (a : Nat)
  | aoCompliance (a : Nat)
  | dioIn (pin : Nat)
  | bankFault (b : Nat)
  | faultAny
  | wdExpired (b : Nat)
  | solvFault (t : Nat)
  | solvCarrying (t : Nat)
  | dmPrewarn
  | dmExpired
  | condOut (c : Nat)
  | apActive (p : Nat)
  | apUnack (p : Nat)
  | apPresent (p : Nat)
  | grpActive (g : Nat)
  | grpUnack (g : Nat)
  | grpFoValid (g : Nat)
  | staleOf (x : Source)
deriving DecidableEq, Repr

inductive Sense where
  | high | low | on1 | on0
deriving DecidableEq, Repr

inductive StaleMode where
  | hold | setTrue | setFalse
deriving DecidableEq, Repr

inductive CondOp where
  | and | or | not | kofn
deriving DecidableEq, Repr

/-- An input of a condition cell (10 R312). -/
structure CondInput where
  src : Source
  invert : Bool
  sv : Bool
deriving DecidableEq, Repr

structure CondCfg where
  num : Nat
  op : CondOp
  k : Nat
  inputs : List CondInput
deriving DecidableEq, Repr

/-- An alarm point's items (10 Table 10.7). Times are in fabric ticks. -/
structure PointCfg where
  num : Nat
  src : Source
  sense : Sense
  th : B64
  hys : B64
  onDelay : Nat
  offDelay : Nat
  suppHold : Nat
  prio : Nat
  latch : Bool
  group : Option Nat
  supp : Option Source
  suppSense : Bool
  suppSv : Bool
  staleMode : StaleMode
  staleAge : Nat
  shelveMax : Nat
  carryKey : BitVec 32
deriving DecidableEq, Repr

structure GroupCfg where
  num : Nat
  foAuto : Bool
deriving DecidableEq, Repr

inductive CellRef where
  | cond (n : Nat) | point (n : Nat) | group (n : Nat)
deriving DecidableEq, Repr

/-- The entries of the FABRIC section. -/
inductive FabItem where
  | point (c : PointCfg)
  | cond (c : CondCfg)
  | group (c : GroupCfg)
  | order (l : List CellRef)
deriving DecidableEq, Repr

/-- A TUNE entry (02 R615, 10 Table 10.7). `item` is the window item 0x02 to 0x06; values are binary64 bits for TH and HYS and
tick counts for the others. -/
structure TuneCfg where
  cell : Nat
  item : Nat
  lo : B64
  hi : B64
  dflt : Option B64
  maintOnly : Bool
deriving DecidableEq, Repr

inductive Target where
  | duty | next | all | room (r : Nat) | bridge
deriving DecidableEq, Repr

inductive Trigger where
  | point (p : Nat) | group (g : Nat) | src (x : Source)
deriving DecidableEq, Repr

/-- A rung (11 R345, R346): `pulse` is the pattern of the target. -/
structure RungCfg where
  targets : List (Target × Bool)
  timer : Nat
deriving DecidableEq, Repr

structure EngineerCfg where
  num : Nat
  cabin : Nat
  ackIn : Option Nat
  present : Bool
deriving DecidableEq, Repr

structure RoomCfg where
  num : Nat
  sounder : Nat
  ackIn : Option Nat
deriving DecidableEq, Repr

structure LadderCfg where
  num : Nat
  triggers : List Trigger
  stopClear : Bool
  fastEscalate : Bool
  rungs : List RungCfg
deriving DecidableEq, Repr

/-- The dead-man watch (11 Table 11.3): pins, and DM_PERIOD and DM_WARN in seconds. -/
structure WatchCfg where
  startIn : Option Nat
  stopIn : Option Nat
  resetIn : Option Nat
  prewarnOut : Option Nat
  period : Nat
  warn : Nat
deriving DecidableEq, Repr

/-- The entries of the CALL section. -/
inductive CallItem where
  | engineer (c : EngineerCfg)
  | dutyAtStart (e : Nat)
  | room (c : RoomCfg)
  | ladder (c : LadderCfg)
  | watch (c : WatchCfg)
deriving DecidableEq, Repr

/-- Scaling of a measurand (07 R257, 12 R371). -/
inductive Scaling where
  | none
  | linear (a b : B64)
  | pwl (pts : List (B64 × B64))
deriving DecidableEq, Repr

/-- A ROUTE input entry (06 Table 6.6, Table 6.11). Limits are in the units of the readings: 0.1 Ω, 10 kΩ, 0.1 %, 0.01. -/
structure InputCfg where
  num : Nat
  type : Nat
  subtype : Nat
  lane : Nat
  sole : Bool
  period : Nat
  openLim : Nat
  shortLim : Nat
  isoMin : Nat
  trendLoop : Nat
  trendIso : Nat
  adaptEn : Bool
  snrTgt : Nat
  excLo : Nat
  excHi : Nat
  excMin : Nat
  excMax : Nat
  forceVal : Nat
  forceEn : Bool
  scaling : Scaling
deriving DecidableEq, Repr

/-- A ROUTE lane entry (07 Table 7.7). -/
structure LaneCfg where
  num : Nat
  mode : Nat
  rate : Nat
  cycle : Nat
  slots : List Nat
  sleep : BitVec 16
deriving DecidableEq, Repr

inductive RouteItem where
  | input (c : InputCfg)
  | lane (c : LaneCfg)
deriving DecidableEq, Repr

/-- A LOOP entry of an input (08 Table 8.4): CLR_TIME in 0.1 s. -/
structure LoopInCfg where
  num : Nat
  lo : B64
  hi : B64
  clrTime : Nat
deriving DecidableEq, Repr

/-- A LOOP entry of an island: modes 0 low, 1 high, 2 hold-last; HB_TIMEOUT in 10 ms. -/
structure IslandCfg where
  num : Nat
  src : Source
  lo : B64
  hi : B64
  hbMode : Nat
  badMode : Nat
  hbTimeout : Nat
deriving DecidableEq, Repr

inductive LoopItem where
  | input (c : LoopInCfg)
  | island (c : IslandCfg)
deriving DecidableEq, Repr

/-- The source of a DIO output (09 R295): a call-ladder rung or a fabric cell. -/
inductive OutSrc where
  | call | cell (x : Source)
deriving DecidableEq, Repr

structure PinCfg where
  num : Nat
  out : Bool
  safe : Bool
  wbEn : Bool
  wake : Bool
  src : Option OutSrc
deriving DecidableEq, Repr

/-- WD_TIMEOUT in 10 ms, FILTER in ms (09). -/
structure BankCfg where
  num : Nat
  wdTimeout : Nat
  filter : Nat
deriving DecidableEq, Repr

inductive DioItem where
  | pin (c : PinCfg)
  | bank (c : BankCfg)
deriving DecidableEq, Repr

/-- An input word of a scheduled template (12 R370). -/
inductive TInput where
  | const (v : B64)
  | src (x : Source) (required : Bool)
  | tmpl (t k : Nat) (required : Bool)
deriving DecidableEq, Repr

/-- An output element (12 R371): word `word` of matrix `mat`. -/
structure TOutput where
  mat : Nat
  word : Nat
  scaling : Scaling
deriving DecidableEq, Repr

/-- A solver template (12 Table 12.5): deadline in 10 µs, PERIOD and PHASE in ticks. -/
structure TemplateCfg where
  num : Nat
  host : Bool
  op : Nat
  b : Nat
  m : Nat
  n : Nat
  k : Nat
  tol : B64
  f : Option (List B64)
  q : Option (List B64)
  deadline : Nat
  carry : Bool
  carryMax : Nat
  faultAp : Option Nat
  thr : B64
  period : Nat
  phase : Nat
  inputs : List TInput
  initX : List B64
  initP : List B64
  outputs : List TOutput
  hostMax : Nat
  carryKey : BitVec 32
deriving DecidableEq, Repr

/-- SOLVER entries: templates, and the host region in units of 1,024 words. -/
inductive SolvItem where
  | template (c : TemplateCfg)
  | region (base size : Nat)
deriving DecidableEq, Repr

/-- What an alert entry of MAP is about (17 R515). -/
inductive AlertItem where
  | point (p : Nat) | ladder (l : Nat)
deriving DecidableEq, Repr

/-- A port entry of MAP (17 Table 17.9, R547). `sfis` are the accepted SFIs, `ip` the address of an Ethernet port,
`recSpaces` the record-service spaces. -/
structure PortCfg where
  num : Nat
  kind : Nat
  services : Nat
  alertSet : Nat
  ackAccept : Bool
  duplicate : Bool
  rate : Nat
  mbAddr : Nat
  ip : BitVec 32
  sfis : List Nat
  recSpaces : List Nat
  prefAddr : Nat
  name : BitVec 64
  talker : List Byte
  sfi : Nat
  group : Nat
  engineInst : Nat
  recIp : BitVec 32
deriving DecidableEq, Repr

/-- An alert entry of MAP: the ports that carry it, its owner's space, and its identifiers. -/
structure AlertCfg where
  ports : List Nat
  owner : Nat
  item : AlertItem
  alrNum : Option Nat
  ident : Nat
  inst : Nat
  n2kIdent : Nat
  n2kOcc : Nat
  category : Nat
  text : List Byte
  standard : Bool
deriving DecidableEq, Repr

inductive ModSpace where
  | coil | discrete | input | holding
deriving DecidableEq, Repr

/-- What a discrete input shows of an alarm point (17 Table 17.6). -/
inductive PointBit where
  | active | unack | present
deriving DecidableEq, Repr

/-- A Modbus item (17 Table 17.6); a point, group or ladder is named with its owning node (R515). -/
inductive ModItem where
  | bool (x : Source)
  | value (x : Source)
  | scaled (x : Source) (scale : B64)
  | pointBit (owner p : Nat) (k : PointBit)
  | stateWord (owner p : Nat)
  | ackPoint (owner p : Nat)
  | ackGroup (owner g : Nat)
  | callAck (owner l : Nat)
  | tunable (cell item : Nat)
deriving DecidableEq, Repr

structure ModbusCfg where
  space : ModSpace
  addr : Nat
  item : ModItem
deriving DecidableEq, Repr

/-- The NMEA 2000 engine fields (17 R531): PGN, width in bits, source and scale. -/
structure EngineField where
  pgn : Nat
  width : Nat
  src : Option Source
  scale : B64
deriving DecidableEq, Repr

inductive MapItem where
  | port (c : PortCfg)
  | alert (c : AlertCfg)
  | modbus (c : ModbusCfg)
  | engine (c : EngineField)
deriving DecidableEq, Repr

/-- A RING entry of one node (15 R471, 16 R511): HOLD in 10 µs. -/
structure RingCfg where
  node : Nat
  hold : Nat
  refEligible : Bool
  members : BitVec 16
  partner : Option Nat
deriving DecidableEq, Repr

/-- The CLOCK section (04 Table 4.15): policy bit 1 is Breakwater. -/
structure ClockCfg where
  policy : BitVec 3
  runEn : Word
  sleepEn : Word
  deepEn : Word
deriving DecidableEq, Repr, Inhabited

/-- The POWER section (03). -/
structure PowerCfg where
  sleepAllowed : Bool
  deepAllowed : Bool
  wakeOnAlarm : Bool
  losDio : BitVec 32
  losAo : BitVec 16
  wakeEn : BitVec 4
deriving DecidableEq, Repr, Inhabited

/-- The IDENT section (02 Table 2.1): the image title, the vessel name and the approval reference text, as bytes. -/
structure IdentCfg where
  title : List Byte
  vessel : List Byte
  approval : List Byte
deriving DecidableEq, Repr, Inhabited

/-- The sections of an image (02 Table 2.1). A block whose section is absent has no entries. -/
structure Sections where
  ident : IdentCfg
  clock : ClockCfg
  power : PowerCfg
  route : List RouteItem
  loop : List LoopItem
  dio : List DioItem
  fabric : List FabItem
  tune : List TuneCfg
  call : List CallItem
  solver : List SolvItem
  map : List MapItem
  ring : List RingCfg
deriving DecidableEq, Repr, Inhabited

/-- The running image: its sections, its hash, the generation it was activated with and the node mask. -/
structure Image where
  sec : Sections
  hash : BitVec 256
  gen : Nat
  nodeMask : BitVec 16
deriving DecidableEq, Repr

end Sys2Proof.Machine
end

