-- ==== Sys2Proof/Config.lean ====
section
/-! DEFINITION. What the manual leaves open, as constants without a body: free values, and the functions whose definition the manual
places outside itself. Nothing can evaluate them, so a claim about them holds whatever they are. -/

namespace Sys2Proof.Config

open Sys2Proof.Machine

/-- A free value: 64 bits nothing constrains, by the model's counter (log entry 5). -/
opaque freeWord : Nat → BitVec 64

/-! How the bytes of a section spell its entries is Evoelalet's and not in the manual (02): for each type of Table 2.1, what its bytes
build (log entry 6). -/

opaque parseIdent : List Byte → IdentCfg
opaque parseClock : List Byte → ClockCfg
opaque parsePower : List Byte → PowerCfg
opaque parseRoute : List Byte → List RouteItem
opaque parseLoop : List Byte → List LoopItem
opaque parseDio : List Byte → List DioItem
opaque parseFabric : List Byte → List FabItem
opaque parseTune : List Byte → List TuneCfg
opaque parseCall : List Byte → List CallItem
opaque parseSolver : List Byte → List SolvItem
opaque parseMap : List Byte → List MapItem
opaque parseRing : List Byte → List RingCfg

/-- The enrolment certificate of 02 R60: integrator public key (64 bytes), integrator ID, and the signature (r, s) under the
root key over the SHA-256 of the signed part. Its byte layout is not in the manual (log entry 7). -/
opaque parseCertificate : List Byte → Option (List Byte × Word × List Byte × Nat × Nat)

/-- Bamwen's root public key, 64 bytes x then y (02 Keys and signing), fused at manufacture. -/
opaque rootKey : List Byte

/-- Which sign the Householder reflection of a column gives the diagonal element of R, of the two that 12 Table 12.1 leaves open: true for
the negative one (log entry 8). -/
opaque reflectsNegative : List (BitVec 64) → Bool

/-- Where the key switch loop measures between 100 Ω and 10 kΩ, 20 R603 gives no reading: closed or not, from the measured
loop and the reading before (log entry 9). -/
opaque keyReads : Nat → Bool → Bool

/-- IEC 60584-1: the EMF in nV of a thermocouple type at a temperature in 0.01 °C, and the temperature in 0.001 °C of an EMF
(06 R213). The standard's tables are not in the manual (log entry 10). -/
opaque tcEmf : Nat → Int → Int
opaque tcTemp : Nat → Int → Int

/-- 06 R222: the full scale of a sensor type's measurand, to which its results are ratios; the manual does not give it as a number (log
entry 11). -/
opaque fullScale : Nat → Rat

/-- 06 Table 6.8: whether the switch test of a start finds the matrix switch of an input failed; no command reports it (log entry
16). -/
opaque switchFails : Nat → Nat → Bool

end Sys2Proof.Config
end

