-- ==== Sys2Proof/Machine/B64.lean ====
section
/-! DEFINITION. IEEE 754 binary64 as the solver uses it (13 R401 to R403, R407, R408, R415): fused multiply-add, add, subtract,
multiply, divide, square root, each correctly rounded to nearest even, with the sticky flags of Table 13.1. -/

namespace Sys2Proof.Machine

/-- Sticky flags: bit 0 IX, 1 UF, 2 OF, 3 DZ, 4 NV (13 Table 13.1, from status word bit 4). -/
abbrev Flags := BitVec 5

def fIX : Flags := 0b00001
def fUF : Flags := 0b00010
def fOF : Flags := 0b00100
def fDZ : Flags := 0b01000
def fNV : Flags := 0b10000

/-- The default NaN (13 R415). -/
def b64NaN : B64 := 0x7FF8000000000000
def b64Zero : B64 := 0
def b64One : B64 := 0x3FF0000000000000
def b64Inf : B64 := 0x7FF0000000000000

def b64Exp (x : B64) : Nat := (x.toNat / 2 ^ 52) % 2048
def b64Man (x : B64) : Nat := x.toNat % 2 ^ 52
def b64Neg (x : B64) : Bool := x.msb
def b64IsNaN (x : B64) : Bool := b64Exp x == 2047 && b64Man x != 0
/-- A signalling NaN: its quiet bit is 0. -/
def b64IsSNaN (x : B64) : Bool := b64IsNaN x && b64Man x < 2 ^ 51
def b64IsInf (x : B64) : Bool := b64Exp x == 2047 && b64Man x == 0
def b64IsZero (x : B64) : Bool := x.toNat % 2 ^ 63 == 0
def b64Finite (x : B64) : Bool := b64Exp x != 2047
def b64Abs (x : B64) : B64 := x &&& 0x7FFFFFFFFFFFFFFF
def b64Negate (x : B64) : B64 := x ^^^ 0x8000000000000000
def b64SignZero (neg : Bool) : B64 := if neg then 0x8000000000000000 else 0
def b64SignInf (neg : Bool) : B64 := if neg then 0xFFF0000000000000 else b64Inf

/-- A finite value as (m, e): the value is m × 2^e. -/
def b64Mant (x : B64) : Nat := if b64Exp x = 0 then b64Man x else b64Man x + 2 ^ 52
def b64Pow (x : B64) : Int := if b64Exp x = 0 then -1074 else (b64Exp x : Int) - 1075
def b64Int (x : B64) : Int := if b64Neg x then -(b64Mant x : Int) else b64Mant x

/-- The quotient and remainder of num × 2^e / den at the unit 2^k, and the divisor. -/
def scaleDiv (num den : Nat) (e k : Int) : Nat × Nat × Nat :=
  let s := e - k
  let a := if 0 ≤ s then num * 2 ^ s.toNat else num
  let b := if 0 ≤ s then den else den * 2 ^ (-s).toNat
  (a / b, a % b, b)

/-- The binary64 nearest to ± (num / den) × 2^e, ties to even, with its flags (13 R401, R403, Table 13.1). -/
def roundQ (neg : Bool) (num den : Nat) (e : Int) : B64 × Flags :=
  if num = 0 then (b64SignZero neg, 0)
  else
    let k0 := max ((Nat.log2 num : Int) - Nat.log2 den + e - 53) (-1074)
    let k := if (scaleDiv num den e k0).1 < 2 ^ 53 then k0 else k0 + 1
    let (q, r, b) := scaleDiv num den e k
    let q1 := if 2 * r > b || (2 * r == b && q % 2 == 1) then q + 1 else q
    let (q2, k2) := if q1 = 2 ^ 53 then (2 ^ 52, k + 1) else (q1, k)
    if k2 + 1075 ≥ 2047 then (b64SignInf neg, fOF ||| fIX)
    else
      let body := if q2 < 2 ^ 52 then q2 else (k2 + 1075).toNat * 2 ^ 52 + (q2 - 2 ^ 52)
      let ix := r != 0
      let s := e + 1076
      let tiny := (if 0 ≤ s then num * 2 ^ s.toNat else num) < (2 ^ 54 - 1) * (if 0 ≤ s then den else den * 2 ^ (-s).toNat)
      (BitVec.ofNat 64 body ||| b64SignZero neg,
        (if ix then fIX else 0) ||| (if ix && tiny then fUF else 0))

/-- NV for a signalling operand (13 R415). -/
def snanFlag (l : List B64) : Flags := if l.any b64IsSNaN then fNV else 0

/-- a × b + c, rounded once (13 R402). -/
def b64Fma (a b c : B64) : B64 × Flags :=
  let bad := (b64IsInf a && b64IsZero b) || (b64IsZero a && b64IsInf b)
  let nv := if bad then fNV else 0
  if b64IsNaN a || b64IsNaN b || b64IsNaN c then (b64NaN, snanFlag [a, b, c] ||| nv)
  else if bad then (b64NaN, fNV)
  else
    let ps := b64Neg a != b64Neg b
    if b64IsInf a || b64IsInf b then
      if b64IsInf c && b64Neg c != ps then (b64NaN, fNV) else (b64SignInf ps, 0)
    else if b64IsInf c then (c, 0)
    else
      let pe := b64Pow a + b64Pow b
      let pm := b64Int a * b64Int b
      let e := min pe (b64Pow c)
      let m := pm * 2 ^ (pe - e).toNat + b64Int c * 2 ^ (b64Pow c - e).toNat
      if m = 0 then
        let pz := b64IsZero a || b64IsZero b
        (b64SignZero (pz && b64IsZero c && ps && b64Neg c), 0)
      else roundQ (m < 0) m.natAbs 1 e

def b64Add (a b : B64) : B64 × Flags := b64Fma a b64One b
def b64Sub (a b : B64) : B64 × Flags := b64Fma a b64One (b64Negate b)
def b64Mul (a b : B64) : B64 × Flags := b64Fma a b (b64SignZero (b64Neg a != b64Neg b))

def b64Div (a b : B64) : B64 × Flags :=
  let s := b64Neg a != b64Neg b
  if b64IsNaN a || b64IsNaN b then (b64NaN, snanFlag [a, b])
  else if (b64IsInf a && b64IsInf b) || (b64IsZero a && b64IsZero b) then (b64NaN, fNV)
  else if b64IsInf a || b64IsZero b then (b64SignInf s, 0)
  else if b64IsInf b || b64IsZero a then (b64SignZero s, 0)
  else roundQ s (b64Mant a) (b64Mant b) (b64Pow a - b64Pow b)

/-- The integer square root, one bit of `r` at a time from bit `k`. -/
def isqrtFrom (n : Nat) : Nat → Nat → Nat
  | 0, r => if r + 1 ≤ n && (r + 1) * (r + 1) ≤ n then r + 1 else r
  | k + 1, r => isqrtFrom n k (if (r + 2 ^ (k + 1)) * (r + 2 ^ (k + 1)) ≤ n then r + 2 ^ (k + 1) else r)

def isqrt (n : Nat) : Nat := isqrtFrom n (Nat.log2 n / 2 + 1) 0

/-- The square root of m × 2^e, with a sticky bit below the integer root of 2^140 × m. -/
def rootQ (m : Nat) (e : Int) : B64 × Flags :=
  let (m1, e1) := if e % 2 = 0 then (m, e) else (2 * m, e - 1)
  let n := m1 * 2 ^ 140
  let r := isqrt n
  roundQ false (2 * r + (if r * r = n then 0 else 1)) 1 (e1 / 2 - 71)

def b64Sqrt (a : B64) : B64 × Flags :=
  if b64IsNaN a then (b64NaN, snanFlag [a])
  else if b64IsZero a then (a, 0)
  else if b64Neg a then (b64NaN, fNV)
  else if b64IsInf a then (a, 0)
  else rootQ (b64Mant a) (b64Pow a)

/-- The order of the values of numbers that are not NaN; ±0 are equal. -/
def b64Key (x : B64) : Int := if b64Neg x then -((x.toNat % 2 ^ 63 : Nat) : Int) else x.toNat

def b64Lt (a b : B64) : Bool := !b64IsNaN a && !b64IsNaN b && b64Key a < b64Key b
def b64Le (a b : B64) : Bool := !b64IsNaN a && !b64IsNaN b && b64Key a ≤ b64Key b
def b64Gt (a b : B64) : Bool := b64Lt b a
def b64Ge (a b : B64) : Bool := b64Le b a
def b64Eq (a b : B64) : Bool := !b64IsNaN a && !b64IsNaN b && b64Key a == b64Key b

/-- The nearest binary64 of an integer and of a fraction. -/
def b64OfInt (i : Int) : B64 := (roundQ (i < 0) i.natAbs 1 0).1
def b64OfNat (i : Nat) : B64 := (roundQ false i 1 0).1
def b64OfQ (num : Int) (den : Nat) : B64 := (roundQ (num < 0) num.natAbs den 0).1
def b64OfBool (b : Bool) : B64 := if b then b64One else b64Zero

/-- A finite value as an exact fraction (num, den). -/
def b64Num (x : B64) : Int := if 0 ≤ b64Pow x then b64Int x * 2 ^ (b64Pow x).toNat else b64Int x
def b64Den (x : B64) : Nat := if 0 ≤ b64Pow x then 1 else 2 ^ (-b64Pow x).toNat

/-- The nearest integer of a finite value, halves rounded up. -/
def b64RoundUp (x : B64) : Int := (2 * b64Num x + b64Den x) / (2 * b64Den x)

/-- The binary32 bits nearest to an exact fraction, for the checkpoint's impedance entries (19 Table 19.4). -/
def b32OfQ (num : Int) (den : Nat) : Nat :=
  let neg := if num < 0 then 2 ^ 31 else 0
  if num = 0 then 0
  else
    let k0 := max ((Nat.log2 num.natAbs : Int) - Nat.log2 den - 24) (-149)
    let k := if (scaleDiv num.natAbs den 0 k0).1 < 2 ^ 24 then k0 else k0 + 1
    let (q, r, b) := scaleDiv num.natAbs den 0 k
    let q1 := if 2 * r > b || (2 * r == b && q % 2 == 1) then q + 1 else q
    let (q2, k2) := if q1 = 2 ^ 24 then (2 ^ 23, k + 1) else (q1, k)
    neg + (if q2 < 2 ^ 23 then q2 else min ((k2 + 150).toNat * 2 ^ 23 + (q2 - 2 ^ 23)) 0x7F800000)

/-- The exact value of finite binary32 bits. -/
def b32Num (x : Nat) : Rat :=
  let e := (x / 2 ^ 23) % 256
  let m : Nat := if e = 0 then x % 2 ^ 23 else x % 2 ^ 23 + 2 ^ 23
  let e1 : Nat := if e = 0 then 1 else e
  let v : Rat := (m : Rat) * (2 : Rat) ^ e1 / (2 : Rat) ^ (150 : Nat)
  if x / 2 ^ 31 = 1 then -v else v

end Sys2Proof.Machine
end

