-- ==== Sys2Proof/Machine/BlocksAlarm.lean ====
section
/-! DEFINITION. The state of the FAB, CALL and SOLV blocks (10, 11, 12). Each field's default is its value after reset. -/

namespace Sys2Proof.Machine

/-- The reported state codes of 10 Table 10.4. -/
abbrev stNormal : Nat := 0
abbrev stActUnack : Nat := 1
abbrev stActAck : Nat := 2
abbrev stRectUnack : Nat := 3
abbrev stShelved : Nat := 4
abbrev stSuppressed : Nat := 5
abbrev stOutOfService : Nat := 6

/-- One alarm point (10 R313 to R324). `restore` is the overlay state a start has restored and step 4 of the first tick takes
(R340), 0 for none. `shelfSet` says that step 3 of this tick set the shelving clock (R323). `prev` is the reported state at the end of the previous evaluated tick (R317). -/
structure PointSt where
  r : Bool := false
  f : Bool := false
  running : Bool := false
  cnt : Nat := 0
  runStart : Nat := 0
  supp : Bool := false
  hold : Nat := 0
  st : Nat := stNormal
  latched : Bool := false
  stale : Bool := false
  shelf : Nat := 0
  shelfSet : Bool := false
  value : B64 := 0
  prev : Nat := stNormal
  restore : Nat := 0
  mustRecord : Bool := false
deriving DecidableEq, Repr

/-- A condition cell: OUT and its input values after inversion (10 R312, Table 10.11). -/
structure CondSt where
  out : Bool := false
  ins : List Bool := []
deriving DecidableEq, Repr

/-- A group (10 R329 to R331). -/
structure GrpSt where
  active : Bool := false
  unack : Bool := false
  top : Nat := 3
  nActive : Nat := 0
  captured : Nat := 0
  foValid : Bool := false
  armed : Bool := true
  foTime : Nat := 0
deriving DecidableEq, Repr

/-- The cells as they stand: live, and as the window and the bitmaps show them since the last step 5 (10 R332, R342). -/
structure Cells where
  points : Tab PointSt := []
  conds : Tab CondSt := []
  grps : Tab GrpSt := []
deriving DecidableEq, Repr

/-- A tunable write waiting for its epoch boundary (10 R333). -/
structure TunePend where
  cell : Nat
  item : Nat
  value : B64
deriving DecidableEq, Repr

/-- FAB (10 Table 10.10). `arg`, `winSel` hold the writable bits only. `winRun` is the running
window operation with the selector and the data it started with (R332, R336). `shownSrc` holds the sources that the
Modbus map reads, with value, boolean and staleness, since that step 5 (17 R538). `tuned` holds the values in force of tunables, by
cell × 8 + item. `cmdId` is the CMD_ID the next command gets (R326). -/
structure Fab where
  role : Nat := 0
  flags : BitVec 4 := 0
  tick : Nat := 0
  cells : Cells := {}
  shown : Cells := {}
  shownSrc : List (Source × B64 × Bool × Bool) := []
  chg : BitVec 1024 := 0
  ecc : Nat := 0
  queue : List QCmd := []
  cmdId : Nat := 1
  arg : Nat := 0
  cmdResult : Nat := 0
  cmdStatId : Nat := 0
  winSel : Word := 0
  winRun : Option (Nat × Word × B64) := none
  winResult : Nat := 0
  winData : B64 := 0
  tunePend : List TunePend := []
  lastApply : Nat := 0
  tuned : Tab (Option B64) := []
deriving DecidableEq, Repr

/-- One call ladder (11 R349, R350). Rung 0 is IDLE. `prev` holds the previous readings of its triggers (R347). -/
structure LadderSt where
  rung : Nat := 0
  shortened : Bool := false
  repeats : Nat := 0
  timer : Nat := 0
  prev : List Bool := []
deriving DecidableEq, Repr

/-- CALL (11 Table 11.6). The watch: 0 OFF, 1 RUNNING, 2 PREWARN, 3 EXPIRED; `dmSnap` is its state at the
last step-2 snapshot, which its fabric sources give; `dmLoaded` that its
timer was loaded in the tick under way. `inPrev` holds the DIO inputs of the previous
snapshot, from which panel and watch edges are found (R353, R356).
`fresh` says that the next evaluated tick is the first after a start or after taking duty (R317, R347, R353). `roster` is the duty engineer
and the present mask to which the last step 6 resolved the targets (R345). -/
structure Call where
  flags : BitVec 3 := 0
  cmdResult : Nat := 0
  cmdStatId : Nat := 0
  duty : Nat := 0
  next : Option Nat := none
  present : BitVec 8 := 0
  dmState : Nat := 0
  dmTimer : Nat := 0
  dmSnap : Nat := 0
  dmLoaded : Bool := false
  ladders : Tab LadderSt := []
  inPrev : BitVec 32 := 0
  bridgeOn : Bool := false
  fresh : Bool := true
  roster : Nat × BitVec 8 := (0, 0)
deriving DecidableEq, Repr

/-- A job (12 R373). `cfg` is the template it was accepted under (R396). `slot` and `gen` give its job ID (R375). `deadline`
and `start` are node times. `ins` are the input words of a scheduled job as its invocation latched them, with their REQUIRED
staleness; an input that names another template stays `none` until the job starts (R370). `tick` is the invoking boundary. -/
structure Job where
  slot : Nat
  gen : Nat
  queue : Nat
  cfg : TemplateCfg
  b : Nat
  m : Nat
  n : Nat
  inB : Nat := 0
  outB : Nat := 0
  deadline : Nat
  warm : Bool := false
  start : Nat := 0
  rerun : Bool := false
  ended : Bool := false
  ins : List (Option (B64 × Bool)) := []
  tick : Nat := 0
  x0 : Option (List (List B64)) := none
deriving DecidableEq, Repr

/-- A completion entry, E0 and E1 (12 R380, Table 12.8), and the slot it holds. -/
structure CqEntry where
  slot : Nat
  jobId : Nat
  template : Nat
  status : Nat
  flags : BitVec 5
  rerun : Bool
  warmUsed : Bool
  firstBad : Nat
  iter : Nat
  time : Nat
deriving DecidableEq, Repr

/-- A template's state (12 R384 to R390). `committed` is x per matrix of the last job ending OK. `base` is the published output
words per matrix. `elems` are the published output elements, `ts` their timestamp. `okSeen` says a job ended OK since start or
activation. -/
structure TmplSt where
  last : Nat := 0
  fault : Bool := false
  carrying : Bool := false
  carryCnt : Nat := 0
  hostUsed : Nat := 0
  misses : Nat := 0
  okSeen : Bool := false
  published : Bool := false
  committed : Option (List (List B64)) := none
  base : Option (List (List B64)) := none
  elems : List B64 := []
  ts : Nat := 0
deriving DecidableEq, Repr

/-- A job slot: its generation count and its unretired job (12 R373, R375). -/
structure SlotSt where
  gen : Nat := 0
  job : Option Job := none
deriving DecidableEq, Repr

/-- SOLV (12 Table 12.8). `order` holds the slots of jobs not ended, in order of acceptance; `running` the slot of the running
job, `stopped` that of a job that stopped when SOLV was held (R397); `memLo` and `memHi` the staged LO half of the memory window, and its
HI half as the last LO read latched or the last HI write left it. -/
structure Solv where
  flags : BitVec 8 := 0
  descOp : Word := 0
  descIn : Nat := 0
  descOut : Nat := 0
  descDl : Nat := 0
  subJobId : Nat := 0xFF
  subResult : Nat := 0
  subQueue : Nat := 0
  memAddr : Nat := 0
  autoinc : Bool := false
  memLo : Word := 0
  memHi : Word := 0
  memResult : Nat := 0
  mem : Tab B64 := []
  irqCq : BitVec 3 := 0
  irqFault : Bool := false
  faultReq : Bool := false
  corrected : Nat := 0
  reruns : Nat := 0
  hwfaults : Nat := 0
  tsel : Nat := 0
  slots : Tab SlotSt := []
  order : List Nat := []
  running : Option Nat := none
  stopped : Option Nat := none
  cq1 : List CqEntry := []
  cq2 : List CqEntry := []
  cq3 : List CqEntry := []
  tmpl : Tab TmplSt := []
deriving DecidableEq, Repr

end Sys2Proof.Machine
end

