-- ==== Sys2Proof/Machine/BlocksField.lean ====
section
/-! DEFINITION. The state of the AFE, LANE, LOOP and DIO blocks (06, 07, 08, 09). Each field's default is its value after reset. -/

namespace Sys2Proof.Machine

/-- One input of the front end (06 Table 6.11). The baseline and short-term values are exact; `ticks` counts the period,
`dueFor` the ticks since the check fell due, `age` the ticks since the last completed check. `offLane` says the IMU has
taken the input off its lane, `ckDirty` that B or S changed since the last entry. -/
structure AfeCh where
  mag : Nat := 0
  phase : Int := 0
  iso : Nat := 0
  opened : Bool := false
  short : Bool := false
  isoLow : Bool := false
  trend : Bool := false
  stale : Bool := false
  seq : Nat := 0
  nBase : Nat := 0
  baseL : Rat := 0
  baseI : Rat := 0
  shortL : Rat := 0
  shortI : Rat := 0
  ticks : Nat := 0
  due : Bool := false
  dueFor : Nat := 0
  age : Nat := 0
  checkNow : Bool := false
  offLane : Bool := false
  ckDirty : Bool := false
deriving DecidableEq, Repr

/-- The excitation of an input (06 Table 6.11, R221 to R227). `want` is the last wanted code; `visitBad` the front-end fault status of
the last visit, `cjTemp` and `cjBad` the cold-junction value and status it began with (R213). `epochRes` and `lastEpoch` are the
results of the epoch under way and of the one just closed. -/
structure AfeExc where
  excMin : Nat := 0
  excMax : Nat := 0
  forceVal : Nat := 0
  forceEn : Bool := false
  pend : Option Word := none
  code : Nat := 0
  want : Nat := 0
  pinCnt : Nat := 0
  pinned : Bool := false
  pinDir : Bool := false
  compliance : Bool := false
  snr : Nat := 0
  overload : Bool := false
  visitBad : Bool := false
  cjTemp : Option Int := none
  cjBad : Bool := false
  epochRes : List Int := []
  lastEpoch : List Int := []
deriving DecidableEq, Repr

/-- A cold-junction sensor (06 R212, Table 6.8): its last reading in 0.01 °C, the readings of the last second, whether it has
failed, and how many valid readings have come since. `used` is what the bank has used, newest first: from which node time, the temperature,
and whether with the front-end fault status (R213). -/
structure CjSt where
  read : Bool := false
  temp : Int := 0
  recent : List Int := []
  failed : Bool := false
  good : Nat := 0
  used : List (Nat × Option Int × Bool) := []
deriving DecidableEq, Repr

/-- AFE (06 Table 6.10). `shunts` are the AON-held 50 Ω shunts, a bit per input (R211); `badSwitch` the inputs whose matrix switch failed
its test (Table 6.8). -/
structure Afe where
  imuCh : Option Nat := none
  imuFault : Bool := false
  excFault : BitVec 8 := 0
  flags : BitVec 6 := 0
  cmdResult : Nat := 0
  excResult : Nat := 0
  excCh : Nat := 0
  cj : Tab CjSt := []
  chans : Tab AfeCh := []
  exc : Tab AfeExc := []
  shunts : BitVec 48 := 0
  badSwitch : BitVec 48 := 0
deriving DecidableEq, Repr

/-- A result or a SYNC marker (07 Table 7.2). -/
structure LaneRes where
  lo : BitVec 32 := 0
  seq : Nat := 0
  flags : BitVec 8 := 0
  ch : Nat := 0
  ts : Nat := 0
deriving DecidableEq, Repr

/-- One lane (07 Table 7.7). `sync` is the sync instant of a pending lane reset, `resetAt` that of the last one; `settle` how many outputs
are still to be discarded, and `chain` that the chain runs; `conv` the channel under conversion, `routed` the channel whose path is closed,
`exc` the code that the lane's excitation source applies (06 R206); `stopPend` the grid instant for which a SUSPEND waits. -/
structure LaneSt where
  res : Option LaneRes := none
  shadow : LaneRes := {}
  snapPend : Bool := false
  ovwr : Bool := false
  running : Bool := false
  settling : Bool := false
  suspended : Bool := false
  failed : Bool := false
  unlocked : Bool := false
  resync : Nat := 0
  fifo : List LaneRes := []
  latch : LaneRes := {}
  ovf : Bool := false
  underrun : Bool := false
  markerPend : Option LaneRes := none
  dropped : Nat := 0
  level : Nat := 0
  irqEn : Bool := false
  sync : Option Nat := none
  settle : Nat := 0
  slot : Nat := 0
  chain : Bool := false
  conv : Option Nat := none
  routed : Option Nat := none
  exc : Option Nat := none
  resetAt : Option Nat := none
  stopPend : Option Nat := none
  parityAt : List Nat := []
deriving DecidableEq, Repr

/-- A channel's results (07 R246 to R258): the SEQ its next scheduled output takes, E, the ENG_HI shadow, its latest result,
the SEQs last delivered to the result register and to the FIFO, a channel reset waiting for
its next visit, and whether the next result there carries SKIP. -/
structure LaneCh where
  seq : Nat := 0
  eng : B64 := 0x7FF8000000000000
  engHi : Word := 0x7FF80000
  last : Option LaneRes := none
  resSeq : Option Nat := none
  fifoSeq : Option Nat := none
  chReset : Bool := false
  resSkip : Bool := false
  fifoSkip : Bool := false
deriving DecidableEq, Repr

/-- A node-wide or ring-wide sync waiting for its epoch boundary (07 Table 7.6). -/
structure SyncPend where
  lanes : BitVec 8
  ring : Bool
  boundary : Nat
deriving DecidableEq, Repr

structure Lanes where
  ovfFlags : BitVec 8 := 0
  parityFlags : BitVec 8 := 0
  syncResult : Nat := 0
  syncPend : List SyncPend := []
  syncTime : Nat := 0
  syncHi : Word := 0
  cmdResult : Nat := 0
  lanes : Tab LaneSt := []
  chans : Tab LaneCh := []
deriving DecidableEq, Repr

/-- A current-loop input (08 R267 to R270): the last classified current in 0.1 µA, its band, and the first timestamp of the
clear run. -/
structure LoopIn where
  cur : Int := 0
  band : Nat := 0
  clrPend : Bool := false
  clrStart : Nat := 0
deriving DecidableEq, Repr

/-- An island as the node sees it (08 R277, R282). `cause`: 0 computed, 1 source bad, 2 forced, 3 park. `cmd`, `hbMode` and `hbTimeout` are
what its frames carry from the last step 7 on; `wasReset` an island reset that its state has not yet left behind. -/
structure AoSt where
  cmd : Nat := 0
  cause : Nat := 0
  forced : Option Nat := none
  rdbk : Nat := 0
  state : Nat := 0
  lastState : Nat := 0
  linkLost : Bool := false
  compliance : Bool := false
  mismatch : Bool := false
  resets : Nat := 0
  missed : Nat := 0
  misRun : Nat := 0
  okRun : Nat := 0
  hbMode : Nat := 0
  hbTimeout : Nat := 0
  wasReset : Bool := false
deriving DecidableEq, Repr

inductive IslandState where
  | unpowered | unconfigured | run | fail | parked
deriving DecidableEq, Repr

/-- An island itself, on its loop's own power (08 R276). `cur` is the current it sinks in µA; `run3` the valid frames of a run
of three; `cmd` the last commanded current. -/
structure Island where
  state : IslandState := .unpowered
  cur : Nat := 0
  cmd : Nat := 3500
  hbMode : Nat := 0
  hbTimeout : Nat := 0
  timer : Bool := false
  run3 : Nat := 0
deriving DecidableEq, Repr

structure Loops where
  flags : BitVec 6 := 0
  cmdResult : Nat := 0
  framesOn : Bool := false
  ins : Tab LoopIn := []
  aos : Tab AoSt := []
  islands : Tab Island := []
deriving DecidableEq, Repr

/-- A bank as CORE sees it, with the drive mode AON selects: 0 OFF, 1 FOLLOW, 2 SAFE, 3 KEEP (09 Table 9.7, R287). -/
structure DioBank where
  pinFault : Bool := false
  supplyOk : Bool := false
  wdExpired : Bool := false
  linkLost : Bool := false
  shownFault : Bool := false
  mode : Nat := 0
  vf : Nat := 0
  missed : Nat := 0
deriving DecidableEq, Repr

/-- The field side of a bank (09 R285 to R299). `held` are the outputs as they stood when KEEP was entered; `cause` packs the
sticky causes of Table 9.4, a number below 16 for each pin. `wdTimeout` and `filter` are stored from frames; `reading` is what each input's
last sample read, and `agree` how many samples in a row have read otherwise than the filtered state. `reports` are the sweep results that
wait for a reply, as pin index and code. -/
structure DioField where
  powered : Bool := true
  stored : Bool := false
  dir : BitVec 8 := 0
  safe : BitVec 8 := 0
  wb : BitVec 8 := 0
  cmd : BitVec 8 := 0
  parked : Bool := false
  wdOn : Bool := false
  wdExpired : Bool := false
  run3 : Nat := 0
  held : BitVec 8 := 0
  latched : BitVec 8 := 0
  thermal : BitVec 8 := 0
  broken : BitVec 8 := 0
  backfeed : BitVec 8 := 0
  filtered : BitVec 8 := 0
  cause : BitVec 32 := 0
  wdTimeout : Nat := 0
  filter : Nat := 0
  reading : BitVec 8 := 0
  agree : Tab Nat := []
  reports : List (Nat × Nat) := []
deriving DecidableEq, Repr

/-- DIO (09 Table 9.7). `forces` holds the forced state of a forced pin; `safeHold` the pins held safe until the end of the first tick under
a new image (R304). `sweepReq` is a sweep that waits for the bank's next frame, `sweepAcc` the codes that the sweep has brought, and
`sweepLow` that the field supply has been out of range in the slot under way. -/
structure Dio where
  flags : BitVec 4 := 0
  inp : BitVec 32 := 0
  outCmd : BitVec 32 := 0
  rdbk : BitVec 32 := 0
  sweepResult : Nat := 0
  sweepDone : Bool := false
  sweepSlot : Nat := 0
  sweepBank : Nat := 0
  sweepBusy : Bool := false
  sweepRes : BitVec 32 := 0
  sweepReq : Bool := false
  sweepAcc : BitVec 32 := 0
  sweepLow : Bool := false
  cmdResult : Nat := 0
  forces : Tab (Option Bool) := []
  safeHold : BitVec 32 := 0
  banks : Tab DioBank := []
  field : Tab DioField := []
deriving DecidableEq, Repr

end Sys2Proof.Machine
end

