-- ==== Sys2Proof/Machine/BlocksNet.lean ====
section
/-! DEFINITION. The state of the TIDE, PAIR and EXT blocks (15, 16, 17). Each field's default is its value after reset. -/

namespace Sys2Proof.Machine

inductive RingSt where
  | off | listen | request | inserted | refused | heldOut
deriving DecidableEq, Repr

/-- A ring link at one port (15 R452, R453, Table 15.7). `wasDown` says the link came back after being DOWN and waits for its
unwrap; `unwrapEpoch` the last epoch in which it unwrapped (R477); `samples` the delay samples of R453 in 10 ns; `sentAt` and `gotAt`
the instants of the neighbour's last beacon, as it was sent and as it was received; `badRun` the beacons in a row with a bad CRC, up to 8. -/
structure LinkSt where
  rxOk : Bool := false
  txOk : Bool := false
  up : Bool := false
  insertReq : Bool := false
  neighbour : Nat := 0
  delay : Nat := 0
  samples : List Int := []
  sentAt : Nat := 0
  gotAt : Nat := 0
  wasDown : Bool := false
  unwrapEpoch : Option Nat := none
  badRun : Nat := 0
deriving DecidableEq, Repr

/-- What a node keeps of another sender: the highest FSEQ passed on, the FSEQs missing below those that follow, the frames held
behind them (15 R461, 14 R440), and its last STATUS (15 R464). -/
structure Peer where
  high : Option Nat := none
  missing : List Nat := []
  held : List (Nat × RingLoad) := []
  status : Option StatusFrame := none
deriving DecidableEq, Repr

/-- TIDE (15 Table 15.7). `hold` is the token while this node holds it and `budget` what is left of the hold in 0.1 µs; `kept` the token
a master keeps until its next boundary. `tx` are the frames queued, `recs` the records queued (R459), `sent` the frames awaiting their return (R460), `line`
what the last command put on the ring, and `wait` the frames that idle transmitters keep back (04 R154). `lastToken` names the last token judged by its GEN and boundary, `genSeen` says a GEN has been seen;
`tokenSeen` says a current token passed since the last boundary; `noTime` counts rotations without TIME (R466). `restorePend` is a link
waiting for its unwrap (R477), `spliceFor` the joining node of the last SPLICE heard, `issuers` by space the last FAILOVER or START heard and its node (16
R503), `beacons` the last beacons sent on TA and TB. -/
structure Tide where
  st : RingSt := .off
  master : Bool := false
  masterNode : Nat := 0
  wrapA : Bool := false
  wrapB : Bool := false
  view : BitVec 16 := 0
  viewStable : Bool := false
  splicePend : Option RingPort := none
  refNode : Nat := 0
  listenRot : Nat := 0
  flags : BitVec 8 := 0
  ta : LinkSt := {}
  tb : LinkSt := {}
  gen : Nat := 0
  silent : Nat := 0
  retx : Nat := 0
  lost : Nat := 0
  wraps : Nat := 0
  regens : Nat := 0
  crcTa : Nat := 0
  crcTb : Nat := 0
  cmdResult : Nat := 0
  hold : Option TokenFrame := none
  budget : Nat := 0
  kept : Option TokenFrame := none
  lastRot : Option Nat := none
  lastToken : Option (Nat × Nat) := none
  genSeen : Bool := false
  fseq : Nat := 0
  tx : List RingFrame := []
  recs : List Record := []
  sent : List RingFrame := []
  line : List RingFrame := []
  wait : List RingFrame := []
  beacons : Option (Beacon × Beacon) := none
  insertReq : Bool := false
  peers : Tab Peer := []
  lowerRing : Bool := false
  dissolve : Bool := false
  tokenSeen : Bool := false
  claiming : Bool := false
  noTime : Nat := 0
  restorePend : Option RingPort := none
  spliceFor : Option Nat := none
  issuers : Tab (Option (Nat × Nat)) := []
deriving DecidableEq, Repr

/-- The partner's committed epoch state (16 R492): its tick tag, last SEQ and bytes. -/
structure Commit where
  tag : Nat
  last : Nat
  bytes : List Byte
deriving DecidableEq, Repr

/-- A takeover query (16 R495): the replies so far, and why duty is taken: 0 at a start, 1 partner absent, 2
partner's DEMOTE. -/
structure Query where
  cause : Nat
  replies : List (Nat × Nat)
deriving DecidableEq, Repr

/-- A copy in progress at the duty (16 R489, R491). -/
structure CopySt where
  tag : Nat
  last : Nat
  final : Bool
  handover : Bool
deriving DecidableEq, Repr

/-- PAIR (16 Table 16.6). Roles: 0 NONE, 1 WAIT, 2 UNSYNCED, 3 STANDBY, 4 DUTY, 5 OUT, 6 MISMATCH. `absent` counts the
consecutive VIEWs without the partner; `chunks` is the inactive buffer and `chunkTag` its tick tag; `takeDue` holds H and the cause once the query has
ended (R496); `handover` a SWITCHOVER waiting for its boundary; `finalDue` a FINAL copy that waits for the copy in progress (03 R109); `notices` are held notices, `received` those a duty has received (R488); `noMajFirst` the first
number issued after the majority was last held (R506); `demoteDue` the cause of a demotion due at the next tick; `foSeq` the SEQ of
the node's own FAILOVER since it took duty. -/
structure Pair where
  role : Nat := 0
  absent : Nat := 0
  finalHeld : Bool := false
  noMaj : Nat := 0
  flags : BitVec 5 := 0
  tag : Nat := 0
  last : Nat := 0
  lastHi : Word := 0
  fo : Nat := 0
  foHi : Word := 0
  takeovers : Nat := 0
  demotes : Nat := 0
  missed : Nat := 0
  voided : Nat := 0
  cmdResult : Nat := 0
  commit : Option Commit := none
  chunks : List (Nat × List Byte) := []
  chunkTag : Option Nat := none
  copy : Option CopySt := none
  query : Option Query := none
  takeDue : Option (Nat × Nat) := none
  handover : Bool := false
  finalDue : Bool := false
  notices : List RecBody := []
  received : List RecBody := []
  noMajFirst : Option Nat := none
  demoteDue : Nat := 0
  foSeq : Nat := 0
deriving DecidableEq, Repr

/-- The classes of queued messages (17 R526); `answer` is an uncounted answer that waits for an idle transmitter (04 R154). -/
inductive QKind where
  | state | arc | rep | answer
deriving DecidableEq, Repr

/-- A message queued on a port: its class, the alert it is about (an index into MAP), and the message. -/
structure QMsg where
  kind : QKind
  alert : Nat
  msg : NetMsg
deriving DecidableEq, Repr

/-- A network port (17 Table 17.9). States: 0 OFF, 1 UP, 2 DOWN, 3 BUS_OFF, 4 SILENT, 5 DISABLED. `cur` is the sentence an
S port is sending, `failed` says its line or link is down whatever the state, `line` what the last command that sent put on the lines; `conns` the Modbus TCP connections open, a bit each. -/
structure PortSt where
  state : Nat := 0
  failed : Bool := false
  cur : Option QMsg := none
  queue : List QMsg := []
  coalesced : Nat := 0
  sent : Nat := 0
  accepted : Nat := 0
  rejected : Nat := 0
  refresh : Bool := false
  msgId : Nat := 0
  cmds : Nat := 0
  busOffAt : List Nat := []
  conns : BitVec 4 := 0
  line : List NetMsg := []
deriving DecidableEq, Repr

/-- The state of a mapped alert as the ports hold it (17 R515, R520, R521): the alarm-point state code, its priority, the
TIME and SEQ of the record it comes from, and a ladder's REPEATS. -/
structure AlertSt where
  state : Nat := 0
  prio : Nat := 0
  time : Nat := 0
  seq : Nat := 0
  repeats : Nat := 0
deriving DecidableEq, Repr

/-- What the ports know of another node's alarm point from its ALARM records (17 R515, 14 R424). -/
structure FarPoint where
  st : Nat := 0
  prio : Nat := 0
  latched : Bool := false
  stale : Bool := false
deriving DecidableEq, Repr

/-- A running replay (17 R545): the port, the space, the next number and the last. -/
structure Replay where
  port : Nat
  space : Nat
  next : Nat
  last : Nat
deriving DecidableEq, Repr

/-- The ship network interfaces; `far` holds the other nodes' points that the Modbus map places, `farShown` what the map shows of them until the next
tick (17 R538). -/
structure Ext where
  flags : BitVec 7 := 0
  cmdResult : Nat := 0
  n2kAddr : Nat := 0xFE
  claimed : Bool := false
  tried : Nat := 0
  ports : Tab PortSt := []
  alerts : Tab AlertSt := []
  far : Tab FarPoint := []
  farShown : Tab FarPoint := []
  replay : Option Replay := none
deriving DecidableEq, Repr

end Sys2Proof.Machine
end

