-- ==== Sys2Proof/Machine/BlocksNode.lean ====
section
/-! DEFINITION. The state of the SYS, PWR, CLK, RTC, SEC, JRNL and STOR blocks (18, 03, 04, 05, 02, 14, 19). Each field's default is
its value after a POR. -/

namespace Sys2Proof.Machine

/-- A response of the host port (18 Table 18.1): CODE, FCNT, ADDR and DATA. -/
structure Resp where
  code : Nat
  fcnt : Nat
  addr : Nat
  data : Word
deriving DecidableEq, Repr

/-- SYS and the host port (18 Table 18.6). `straps` is ADDR3 to ADDR0 with ADDR_P as bit 4, 1 for an open strap (20 R604). `resp`
is the response waiting for the next frame, `miso` and `misoIrq` what the last frame carried, `wait` a frame whose operation waits for CORE's
BRIDGE to end (Table 18.4). `irq` holds the event sources of Table 18.3. -/
structure Sys where
  issue : Nat := 0
  serial : Nat := 0
  serialHi : Word := 0
  cause : Nat := 0
  unconfigured : Bool := false
  irq : BitVec 9 := 0
  irqEn : BitVec 9 := 1
  cmdResult : Nat := 0
  hpCrc : Nat := 0
  hpLen : Nat := 0
  hpTime : Nat := 0
  hpNotReady : Nat := 0
  scratch : Word := 0
  straps : BitVec 5 := 0b10000
  node : Nat := 0
  strapBad : Bool := false
  fcnt : Nat := 0
  resp : Option Resp := none
  miso : Resp := ⟨8, 7, 0, 0⟩
  misoIrq : Bool := false
  wait : Option HostFrame := none
  hvio : Bool := true
  resetPend : Bool := false
deriving DecidableEq, Repr

/-- The node's operating modes (03 R100); `off` is the node without CORE after Hold-up or before a supply. -/
inductive PwrMode where
  | run | sleep | holdup | deep | off
deriving DecidableEq, Repr

/-- The power-up phases of 03 Table 3.7; `done` is phase G onward. -/
inductive Phase where
  | a | b | c | d | e | f | done
deriving DecidableEq, Repr

/-- PWR (03 Tables 3.10 to 3.16). `left` is the mode Hold-up left; `pend` an accepted mode change; `t0` the start of Hold-up;
`parked` that step 4 has run; `flushed` that step 2 is complete; `back` that the supply came back after it; `solvHold` that the solver refuses submissions until
the next epoch boundary (R110); `solvWake` that it refuses them until the next tick (R102); `solvOut` that this Hold-up has turned SOLV off;
`tripped` that an over-voltage trip began this Hold-up; `cause` the cause code of the start under way. -/
structure Pwr where
  mode : PwrMode := .run
  left : PwrMode := .run
  phase : Phase := .a
  step : Nat := 0
  rdy : Bool := false
  vinOk : Bool := true
  ovActive : Bool := false
  domOn : BitVec 4 := 0xF
  flags : BitVec 5 := 0
  vin : Nat := 0
  store : Nat := 0
  lastCmd : Nat := 0
  pend : Option PwrMode := none
  result : Nat := 0
  wakeSrc : BitVec 4 := 0
  wakeTime : Nat := 0
  holdups : Nat := 0
  trips : Nat := 0
  switchOpen : Bool := false
  tripped : Bool := false
  t0 : Nat := 0
  parked : Bool := false
  flushed : Bool := false
  back : Bool := false
  solvHold : Bool := false
  solvWake : Bool := false
  solvOut : Bool := false
  cause : Nat := 1
deriving DecidableEq, Repr

inductive SrcSt where
  | off | counting | ready | failed
deriving DecidableEq, Repr

inductive PllSt where
  | off | locking | nominal | failed | coast
deriving DecidableEq, Repr

inductive DomSt where
  | off | nominal | bridge | coast | slack | slackCoast | latched
deriving DecidableEq, Repr

/-- What a domain's multiplexer switches to: the RC, or the PLL in its coast or its nominal setting (04 R139, R140). -/
inductive SwTo where
  | rc | coast | nominal
deriving DecidableEq, Repr

/-- A switched domain's clock (04 Table 4.14). `ratio`: 0 is ÷2, 1 ÷3, 2 ÷4, 3 ÷6, 4 ÷8. `ramp`: a running Ebb (`some false`)
or Flood (`some true`); `sw` a switch under way. `releasing` is a domain out of Slack whose clamps wait for the end of a complete tick (R145). -/
structure DomClk where
  st : DomSt := .off
  ratio : Nat := 0
  ramp : Option Bool := none
  sw : Option SwTo := none
  clamp : Bool := false
  releasing : Bool := false
deriving DecidableEq, Repr

/-- CLK (04 Tables 4.12 to 4.16). `lockCoast` says what setting the PLL's lock count is for, `rcRestarted` that the RC count
is the restart of R137. `ret` is the step of the return sequence, 0 for none; `clean` says neither XTAL nor PLL tripped and XTAL was READY since the epoch began; `held` counts the tick
boundaries that passed while CORE was held, and `slackEnd` that it has left Slack since. `due` says the epoch just closed was clean, so
that its boundary is a return point (R149); `maskDue` that the masks of a mode change wait for the end of a return, and `heldMode` the mode whose
masks hold meanwhile (R168). -/
structure Clk where
  forced : Bool := false
  latched : Bool := false
  noFallback : Bool := false
  retLimit : Bool := false
  clkoutErr : Bool := false
  xtal : SrcSt := .off
  pll : PllSt := .off
  lockCoast : Bool := false
  rc : SrcSt := .off
  lse : SrcSt := .off
  xtalFails : Nat := 0
  core : DomClk := {}
  field : DomClk := {}
  solv : DomClk := {}
  sel : Nat := 0
  div : Nat := 0
  xtalCnt : Nat := 0
  rcCnt : Nat := 0
  trim : BitVec 10 := 0x200
  latchCause : BitVec 4 := 0
  rcRestarted : Bool := false
  ret : Nat := 0
  clean : Bool := false
  held : Nat := 0
  slackEnd : Bool := false
  due : Bool := false
  maskDue : Bool := false
  heldMode : Option PwrMode := none
deriving DecidableEq, Repr

/-- RTC and node time (05 Table 5.5). `now` is node time; `lastTick` the last tick boundary that began; `slewing` 0 none, 1 fine,
2 coarse back, 3 coarse forward; `stepPend` a step of whole seconds and the boundary at which it applies;
`tracked` says TIME frames of the present reference arrive. `sec` and `subsec` are the RTC as it stood when the corrected time was `mark`, in µs;
`slewFrom` is the node time at which the slew stage began; `steps` the boundaries E and jumps of the steps since the last commit (R186). -/
structure Rtc where
  halt : Bool := false
  osf : Bool := true
  lbv : Bool := false
  trust : Nat := 0
  reference : Bool := false
  setResult : Nat := 0
  sec : Nat := 0
  subsec : Nat := 0
  setSec : Nat := 0
  now : Nat := 0
  ntHi : Word := 0
  offset : Int := 0
  slewRem : Int := 0
  slewing : Nat := 0
  leap : Nat := 5
  leapPend : Option Nat := none
  trim : Int := 0
  storeLow : Bool := false
  stepPend : Option (Int × Nat) := none
  lastTick : Option Nat := none
  tracked : Bool := false
  mark : Int := 0
  slewFrom : Nat := 0
  steps : List (Nat × Nat) := []
deriving DecidableEq, Repr

/-- An image bank (02 Table 2.4; the state codes of SEC_LOAD_STAT). `written` is the count of bytes written (18 R570); `stuck`
says a reset found it in WRITING, so that it is never loadable; `bad` that a page failed its last program (19 R579). -/
structure BankSt where
  state : Nat := 0
  gen : Nat := 0
  hash : BitVec 256 := 0
  bytes : Tab Byte := []
  written : Nat := 0
  stuck : Bool := false
  bad : Bool := false
deriving DecidableEq, Repr

/-- A scheduled activation (02 R74, R77). -/
structure ActPend where
  bank : Bool
  boundary : Nat
  confirmed : Bool
deriving DecidableEq, Repr

/-- SEC (18 Table 18.8). `busy`: 0 none, 1 ERASE, 2 CHECK. `keyClosed` is the loop on X9.3 now, `keySw` its level settled for
100 ms. `lastWrite` is the time of the last SEC write in maintenance mode. `notice` is the activation notice a standby holds (R77). -/
structure Sec where
  maint : Bool := false
  keyClosed : Bool := false
  keySw : Bool := false
  enrolled : Bool := false
  lockout : Bool := false
  unlockStep : Bool := false
  unlockAt : Nat := 0
  restarts : Nat := 0
  bufUsed : Nat := 0
  lastWrite : Nat := 0
  flags : BitVec 5 := 0
  a : BankSt := {}
  b : BankSt := {}
  result : Nat := 0
  code : Nat := 0
  detSection : Nat := 0
  detItem : Nat := 0
  fallback : Bool := false
  runB : Bool := false
  busy : Nat := 0
  act : Option ActPend := none
  notice : Option (BitVec 256 × Nat) := none
  confirmDue : Bool := false
  offset : Nat := 0
  keyId : BitVec 64 := 0
  integrator : Word := 0
  hashSel : Nat := 0
deriving DecidableEq, Repr

/-- A record of the RAM ring, and whether it has reached flash (14 R435). -/
structure RamRec where
  item : Record
  flashed : Bool
deriving DecidableEq, Repr

/-- A range of lost numbers waiting for its GAP records (14 R433). -/
structure GapDue where
  cause : Nat
  first : Nat
  count : Nat
deriving DecidableEq, Repr

/-- JRNL (14 Table 14.7). `last` is the AON copy of the last number issued or received, `nextSeq` the next number to issue.
`op` and `asked` are the running cursor command.
`heard` holds the highest number heard in each space (16 R487). `due` and `gaps` are the records that belong to no step
(R432), `voids` the ranges of own records that 16 R503 makes not held, `firstRecs` those of step 1 of the next tick; `tickRecs` the records of the tick under way. `startGaps` follow START (R431). -/
structure Jrnl where
  flags : BitVec 6 := 0
  last : Nat := 0
  nextSeq : Nat := 1
  heard : Tab Nat := []
  ram : List RamRec := []
  newestHi : Word := 0
  flashedHi : Word := 0
  oldestHi : Word := 0
  posHi : Word := 0
  seek : Nat := 0
  pos : Nat := 0
  busy : Bool := false
  op : Nat := 0
  asked : Nat := 0
  skipped : Bool := false
  fromFlash : Bool := false
  result : Nat := 0
  window : Option Record := none
  irqLevel : Nat := 0
  irqOn : Bool := false
  gapCnt : Nat := 0
  lost : Nat := 0
  crcBad : Nat := 0
  writeThrough : Bool := false
  flashOk : Bool := false
  firstRecs : List RecBody := []
  due : List RecBody := []
  gaps : List GapDue := []
  tickRecs : List Record := []
  startDue : Bool := false
  startGaps : List GapDue := []
  voids : List (Nat × Nat) := []
deriving DecidableEq, Repr

inductive SecClass where
  | erasedOk | data | retired | blank | unknown
deriving DecidableEq, Repr

/-- A checkpoint entry (19 R586), its value as a number of 14 little-endian bytes. -/
structure CkEntry where
  kind : Nat
  item : Nat
  tag : Nat
  time : Nat
  value : Nat
deriving DecidableEq, Repr

/-- A bank record entry (19 R580). -/
structure BankEntry where
  state : Nat
  gen : Nat
  hash : BitVec 256
deriving DecidableEq, Repr

/-- A flash sector (19 R574 to R588): its header class, ERASES and SERIAL, and what it holds. `slots` are the journal's, from
slot 1; a slot whose program was cut holds none. `torn` counts the checkpoint or bank record slots that a cut or failed program used up. -/
structure Sector where
  cls : SecClass := .erasedOk
  erases : Nat := 0
  serial : Nat := 0
  slots : List (Option Record) := []
  cks : List CkEntry := []
  banks : List BankEntry := []
  torn : Nat := 0
deriving DecidableEq, Repr

/-- The identity sector's appends (19 Table 19.5). -/
inductive IdEntry where
  | leap (v : Nat) | era (v : Nat) | retired (s : Nat) | holdup | trip | cert (l : List Byte)
deriving DecidableEq, Repr

/-- A flash operation (19 R591). A bank erase is at its `k`th sector, the record sector first (R582). -/
inductive FlashOp where
  | jrnl (recs : List Record)
  | ck (e : CkEntry)
  | ident (e : IdEntry)
  | bank (b : Bool) (e : BankEntry)
  | eraseAhead (sector : Nat)
  | compact (sector : Nat)
  | image (b : Bool) (addr : Nat) (bytes : List Byte)
  | bankErase (b : Bool) (k : Nat)
  | repair (sector : Nat)
deriving DecidableEq, Repr

/-- The identity sector (19 R589). Logs are oldest first. -/
structure Ident where
  serial : Nat := 0
  issue : Nat := 1
  cert : Option (List Byte) := none
  leapLog : List Nat := []
  eraLog : List Nat := []
  retired : List Nat := []
  holdups : Nat := 0
  trips : Nat := 0
deriving DecidableEq, Repr

/-- STOR (19 Table 19.7). `cur` is the running operation and `tries` its failed attempts; `susp` a suspended erase; `wait` the
waiting operations in order of arrival. At manufacture the identity sector and the bank record sectors are DATA (R589; log entry
3). `failCause`: 0 none, 1 timeouts, 2 no device ID, 3 too few journal sectors.
`eraPend` is an era not yet in its log (14 R430). `tornLeap`, `tornEra` and `tornRetired` count the torn entries of the identity sector's
logs, which the next append follows (R589). -/
structure Stor where
  state : Nat := 0
  flags : BitVec 7 := 0
  cmdResult : Nat := 0
  rsel : Nat := 0
  reerased : Nat := 0
  sectors : Tab Sector := [(0, { cls := .data, serial := 1 }), (384, { cls := .data, serial := 1, banks := [⟨0, 0, 0⟩] }),
    (512, { cls := .data, serial := 1, banks := [⟨0, 0, 0⟩] })]
  ident : Ident := {}
  cur : Option FlashOp := none
  tries : Nat := 0
  susp : Option FlashOp := none
  wait : List FlashOp := []
  timeouts : Nat := 0
  failCause : Nat := 0
  eraPend : Option Nat := none
  tornLeap : Nat := 0
  tornEra : Nat := 0
  tornRetired : Nat := 0
deriving DecidableEq, Repr

end Sys2Proof.Machine
end

