-- ==== Sys2Proof/Machine/State.lean ====
section
/-! DEFINITION. The state of the block: the node's blocks as 01 Table 1.1 lists them, the queue of waiting commands, the reasons a
step can stop, and the state after reset. -/

namespace Sys2Proof.Machine

/-- The node: one record for each block of 01 Table 1.1, the running image, and the model's own counter of free values taken. -/
structure Node where
  sys : Sys := {}
  pwr : Pwr := {}
  clk : Clk := {}
  rtc : Rtc := {}
  afe : Afe := {}
  lane : Lanes := {}
  loop : Loops := {}
  dio : Dio := {}
  fab : Fab := {}
  call : Call := {}
  solv : Solv := {}
  jrnl : Jrnl := {}
  tide : Tide := {}
  pair : Pair := {}
  ext : Ext := {}
  stor : Stor := {}
  sec : Sec := {}
  img : Option Image := none
  free : Nat := 0
deriving DecidableEq, Repr

/-- The block and the commands that wait, first in, first out. -/
structure State where
  node : Node
  pending : List Instr
deriving DecidableEq, Repr

/-- The reasons for a stop. The manual gives the node no failure from which it does not go on, and no command's effect is left
unstated whole, so no meaning raises a fault: the constructor keeps the type inhabited. Safe. -/
inductive Fault where
  /-- Raised by no meaning and by no step. Safe: nothing rests on it. -/
  | none
deriving DecidableEq, Repr

/-- The reasons for refusing a command. -/
inductive Refusal where
  /-- A command whose meaning is not modelled, by its mnemonic: raised by an arm of `exec` alone. Safe: a claim about a next
  state says nothing there. -/
  | notModelled (mnemonic : String)
deriving DecidableEq, Repr

/-- The block at the start of phase A after a POR (03 R121, 00 R14): every field at the Reset column's value, flash as at
manufacture with both image banks EMPTY, the straps of node 0, the key switch open (log entries 3, 4). -/
def State.reset : State := { node := {}, pending := [] }

end Sys2Proof.Machine
end

