-- ==== Sys2Proof/Machine/Ops.lean ====
section
/-! DEFINITION. The shared operations: sparse tables, running a command on the node, node time, the running image's entries, the
node's role, and issuing records (14, 16 R488). -/

namespace Sys2Proof.Machine

/-- What a table holds at a key; `d` is what an unlisted key reads as. -/
def tget {α : Type} (d : α) : Tab α → Nat → α
  | [], _ => d
  | (j, v) :: r, k => if k = j then v else if k < j then d else tget d r k

/-- A table with `v` at `k`, kept in canonical form: an entry equal to `d` is dropped. -/
def tset {α : Type} [DecidableEq α] (d : α) : Tab α → Nat → α → Tab α
  | [], k, v => if v = d then [] else [(k, v)]
  | (j, w) :: r, k, v =>
    if k < j then (if v = d then (j, w) :: r else (k, v) :: (j, w) :: r)
    else if k = j then (if v = d then r else (k, v) :: r)
    else (j, w) :: tset d r k v

def tupd {α : Type} [DecidableEq α] (d : α) (m : Tab α) (k : Nat) (f : α → α) : Tab α :=
  tset d m k (f (tget d m k))

/-- The canonical form: keys strictly rising from `lo` on, no entry equal to the default. -/
def twfFrom {α : Type} [DecidableEq α] (d : α) : Nat → Tab α → Bool
  | _, [] => true
  | lo, (k, v) :: r => decide (lo ≤ k) && decide (v ≠ d) && twfFrom d (k + 1) r

def twf {α : Type} [DecidableEq α] (d : α) (m : Tab α) : Bool := twfFrom d 0 m

/-- Insertion sort by a number, stable. -/
def insertBy {α : Type} (f : α → Nat) (x : α) : List α → List α
  | [] => [x]
  | y :: r => if f x < f y then x :: y :: r else y :: insertBy f x r

def sortBy {α : Type} (f : α → Nat) (l : List α) : List α := l.foldl (fun a x => insertBy f x a) []

/-- A command's effect on the node: everything but the queue. -/
def State.run (s : State) (f : Node → Node) : Host.Outcome State Fault Refusal :=
  .next { s with node := f s.node }

def setBit {w : Nat} (v : BitVec w) (i : Nat) : BitVec w := v ||| (1#w <<< i)
def clrBit {w : Nat} (v : BitVec w) (i : Nat) : BitVec w := v &&& ~~~(1#w <<< i)
def putBit {w : Nat} (v : BitVec w) (i : Nat) (b : Bool) : BitVec w := if b then setBit v i else clrBit v i
def bit {w : Nat} (v : BitVec w) (i : Nat) : Bool := v.getLsbD i

namespace Node

def mSys (n : Node) (f : Sys → Sys) : Node := { n with sys := f n.sys }
def mPwr (n : Node) (f : Pwr → Pwr) : Node := { n with pwr := f n.pwr }
def mClk (n : Node) (f : Clk → Clk) : Node := { n with clk := f n.clk }
def setDom (n : Node) (d : Domain) (v : DomClk) : Node :=
  n.mClk fun c =>
    match d with
    | .core => { c with core := v }
    | .field => { c with field := v }
    | .solv => { c with solv := v }
def mRtc (n : Node) (f : Rtc → Rtc) : Node := { n with rtc := f n.rtc }
def mAfe (n : Node) (f : Afe → Afe) : Node := { n with afe := f n.afe }
def mLane (n : Node) (f : Lanes → Lanes) : Node := { n with lane := f n.lane }
def mLoop (n : Node) (f : Loops → Loops) : Node := { n with loop := f n.loop }
def mDio (n : Node) (f : Dio → Dio) : Node := { n with dio := f n.dio }
def mFab (n : Node) (f : Fab → Fab) : Node := { n with fab := f n.fab }
def mCall (n : Node) (f : Call → Call) : Node := { n with call := f n.call }
def mSolv (n : Node) (f : Solv → Solv) : Node := { n with solv := f n.solv }
def mJrnl (n : Node) (f : Jrnl → Jrnl) : Node := { n with jrnl := f n.jrnl }
def mTide (n : Node) (f : Tide → Tide) : Node := { n with tide := f n.tide }
def mPair (n : Node) (f : Pair → Pair) : Node := { n with pair := f n.pair }
def mExt (n : Node) (f : Ext → Ext) : Node := { n with ext := f n.ext }
def mStor (n : Node) (f : Stor → Stor) : Node := { n with stor := f n.stor }
def mSec (n : Node) (f : Sec → Sec) : Node := { n with sec := f n.sec }

/-- A free value and the node with the counter moved on. -/
def fresh (n : Node) : BitVec 64 × Node := (Config.freeWord n.free, { n with free := n.free + 1 })

/-- Node time moves to `t`, and never back (05 R178). -/
def setNow (n : Node) (t : Nat) : Node := n.mRtc fun r => { r with now := max r.now t }

def now (n : Node) : Nat := n.rtc.now

/-- The first multiple of `p` µs that is not before now and has not begun a tick (01 R21). -/
def nextMultiple (n : Node) (p : Nat) : Nat :=
  let m := (n.now + p - 1) / p * p
  match n.rtc.lastTick with
  | some l => if m ≤ l then (l / p + 1) * p else m
  | none => m

/-! The RTC (05 R174, R175) and the correction still to slew (05 Table 5.2). -/

/-- Node time that passes per µs corrected: at 1.05, at 0.95, at 1.0005 and at 0.9995 of its rate. -/
def slewSpan (r : Rtc) : Nat :=
  if r.slewing = 3 then 21 else if r.slewing = 2 then 19 else if 0 < r.slewRem then 2001 else 1999

/-- The correction still to slew: what the stage began with, less what it has corrected since, and never less than the stage's limit. -/
def slewLeft (r : Rtc) : Int :=
  if r.slewing = 0 then r.slewRem
  else
    let limit : Nat := if r.slewing = 1 then 10 else 1000
    let gone := (r.now - r.slewFrom) / slewSpan r
    let left : Nat := max (r.slewRem.natAbs - gone) (min limit r.slewRem.natAbs)
    if r.slewRem < 0 then -(left : Int) else left

/-- Node time plus the correction still to slew: it runs at the true rate. -/
def targetTime (r : Rtc) : Int := (r.now : Int) + slewLeft r

def rtcCounts (n : Node) : Bool := n.clk.lse == .ready && !n.rtc.halt

/-- The RTC now, in LSE cycles. -/
def rtcCycles (n : Node) : Nat :=
  let r := n.rtc
  (r.sec * 32768 + r.subsec + (if n.rtcCounts then ((targetTime r - r.mark).toNat * 32768) / 1000000 else 0)) % 2 ^ 47

/-- The RTC's count is taken down, before HALT, LSE or node time changes without time passing. -/
def rtcHold (n : Node) : Node :=
  let c := n.rtcCycles
  n.mRtc fun r => { r with sec := c / 32768, subsec := c % 32768, mark := targetTime r }

/-- A change of time fields that takes no time: the RTC does not move with it. -/
def retime (n : Node) (f : Rtc → Rtc) : Node :=
  (n.rtcHold.mRtc f).mRtc fun r => { r with mark := targetTime r }

/-- The mode whose lane schedule and clock mask hold: that of the mode Hold-up left (log entry 105). -/
def schedMode (n : Node) : PwrMode := if n.pwr.mode = .holdup then n.pwr.left else n.pwr.mode

/-! The entries of the running image. A block whose section is absent has none. -/

def route (n : Node) : List RouteItem := match n.img with | some i => i.sec.route | none => []
def inputs (n : Node) : List InputCfg := n.route.filterMap fun | .input c => some c | .lane _ => none
def laneCfgs (n : Node) : List LaneCfg := n.route.filterMap fun | .lane c => some c | .input _ => none
def input (n : Node) (c : Nat) : Option InputCfg := n.inputs.find? (·.num == c)
def laneCfg (n : Node) (l : Nat) : Option LaneCfg := n.laneCfgs.find? (·.num == l)
def loopItems (n : Node) : List LoopItem := match n.img with | some i => i.sec.loop | none => []
def loopIn (n : Node) (c : Nat) : Option LoopInCfg :=
  n.loopItems.findSome? fun | .input x => if x.num = c then some x else none | .island _ => none
def islands (n : Node) : List IslandCfg := n.loopItems.filterMap fun | .island x => some x | .input _ => none
def island (n : Node) (a : Nat) : Option IslandCfg := n.islands.find? (·.num == a)
def dioItems (n : Node) : List DioItem := match n.img with | some i => i.sec.dio | none => []
def pins (n : Node) : List PinCfg := n.dioItems.filterMap fun | .pin x => some x | .bank _ => none
def pin (n : Node) (p : Nat) : Option PinCfg := n.pins.find? (·.num == p)
def bankCfg (n : Node) (b : Nat) : Option BankCfg :=
  n.dioItems.findSome? fun | .bank x => if x.num = b then some x else none | .pin _ => none
def fabItems (n : Node) : List FabItem := match n.img with | some i => i.sec.fabric | none => []
def points (n : Node) : List PointCfg := n.fabItems.filterMap fun | .point c => some c | _ => none
def conds (n : Node) : List CondCfg := n.fabItems.filterMap fun | .cond c => some c | _ => none
def groups (n : Node) : List GroupCfg := n.fabItems.filterMap fun | .group c => some c | _ => none
def evalOrder (n : Node) : List CellRef := n.fabItems.flatMap fun | .order l => l | _ => []
def point (n : Node) (p : Nat) : Option PointCfg := n.points.find? (·.num == p)
def cond (n : Node) (c : Nat) : Option CondCfg := n.conds.find? (·.num == c)
def group (n : Node) (g : Nat) : Option GroupCfg := n.groups.find? (·.num == g)
def members (n : Node) (g : Nat) : List PointCfg :=
  sortBy (·.num) (n.points.filter (·.group == some g))
def tunes (n : Node) : List TuneCfg := match n.img with | some i => i.sec.tune | none => []
def tune (n : Node) (cell item : Nat) : Option TuneCfg := n.tunes.find? fun t => t.cell == cell && t.item == item
def callItems (n : Node) : List CallItem := match n.img with | some i => i.sec.call | none => []
def engineers (n : Node) : List EngineerCfg := n.callItems.filterMap fun | .engineer c => some c | _ => none
def engineer (n : Node) (e : Nat) : Option EngineerCfg := n.engineers.find? (·.num == e)
def rooms (n : Node) : List RoomCfg := n.callItems.filterMap fun | .room c => some c | _ => none
def ladders (n : Node) : List LadderCfg :=
  sortBy (·.num) (n.callItems.filterMap fun | .ladder c => some c | _ => none)
def ladder (n : Node) (l : Nat) : Option LadderCfg := n.ladders.find? (·.num == l)
def watch (n : Node) : Option WatchCfg := n.callItems.findSome? fun | .watch c => some c | _ => none
def dutyAtStart (n : Node) : Nat := (n.callItems.findSome? fun | .dutyAtStart e => some e | _ => none).getD 0
def solvItems (n : Node) : List SolvItem := match n.img with | some i => i.sec.solver | none => []
def templates (n : Node) : List TemplateCfg := n.solvItems.filterMap fun | .template c => some c | .region _ _ => none
def template (n : Node) (t : Nat) : Option TemplateCfg := n.templates.find? (·.num == t)
/-- The host region, first word and size in words (12 R376). -/
def region (n : Node) : Nat × Nat :=
  (n.solvItems.findSome? fun | .region b s => some (b * 1024, s * 1024) | .template _ => none).getD (0, 0)
def mapItems (n : Node) : List MapItem := match n.img with | some i => i.sec.map | none => []
def ports (n : Node) : List PortCfg := n.mapItems.filterMap fun | .port c => some c | _ => none
def port (n : Node) (p : Nat) : Option PortCfg := n.ports.find? (·.num == p)
def alertCfgs (n : Node) : List AlertCfg := n.mapItems.filterMap fun | .alert c => some c | _ => none
def modItems (n : Node) : List ModbusCfg := n.mapItems.filterMap fun | .modbus c => some c | _ => none
def engineFields (n : Node) : List EngineField := n.mapItems.filterMap fun | .engine c => some c | _ => none
def ringCfg (n : Node) : Option RingCfg :=
  match n.img with | some i => i.sec.ring.find? (·.node == n.sys.node) | none => none
def memberSet (n : Node) : BitVec 16 := match n.ringCfg with | some c => c.members | none => 0
def partner (n : Node) : Option Nat := match n.ringCfg with | some c => c.partner | none => none
def clockCfg (n : Node) : Option ClockCfg := n.img.map (·.sec.clock)
def powerCfg (n : Node) : Option PowerCfg := n.img.map (·.sec.power)
/-- The hash tag of the running image: the first 4 bytes of its hash (02 R58), as a little-endian number; 0 with no image. -/
def hashTag (n : Node) : Nat := match n.img with | some i => i.hash.toNat % 2 ^ 32 | none => 0

/-! Roles and spaces. -/

def paired (n : Node) : Bool := n.partner.isSome
/-- The node is unpaired or the DUTY of its pair (10 R311). -/
def ownDuty (n : Node) : Bool := !n.paired || n.pair.role == 4
/-- The sequence space of the node (14 R426). -/
def space (n : Node) : Nat := match n.partner with | some p => min p n.sys.node | none => n.sys.node
/-- The node issues its space's numbers (14 R427): from phase F of a start on, with an image. -/
def issuer (n : Node) : Bool := n.ownDuty && n.img.isSome

def coreHeld (n : Node) : Bool :=
  match n.clk.core.st with | .slack | .slackCoast | .latched => true | _ => false
def fieldHeld (n : Node) : Bool :=
  n.clk.field.clamp || (match n.clk.field.st with | .slack | .slackCoast | .latched => true | _ => false)
def solvHeld (n : Node) : Bool :=
  match n.clk.solv.st with | .nominal | .bridge | .coast => !bit n.pwr.domOn 3 | _ => true
/-- SOLV stays on in Sleep until the jobs in flight at its boundary have ended (03 Table 3.3, log entry 115). -/
def solvDrains (n : Node) : Bool := n.pwr.mode == .sleep && bit n.pwr.domOn 3
/-- CORE is in BRIDGE or on its way there: its clock runs from RC (04 Table 4.6). -/
def bridges (n : Node) : Bool := n.clk.core.st == .bridge || n.clk.core.sw == some .rc
/-- CORE's transmitters hold idle: its clock is held, its clamps are applied after Slack, or it is in BRIDGE (04 Table 4.7, R144, R154). In
a start the ports' own states keep them silent (03 Table 3.8). -/
def txIdle (n : Node) : Bool :=
  n.coreHeld || (n.clk.core.clamp && n.pwr.phase == .done) || n.bridges

def fieldCoasts (n : Node) : Bool := match n.clk.field.st with | .coast => true | .bridge => true | _ => false

/-- CORE is powered and runs: the modes of 03 Table 3.2 in which the fabric is evaluated. -/
def coreRuns (n : Node) : Bool :=
  (match n.pwr.mode with | .run | .sleep | .holdup => true | _ => false) && !n.coreHeld && !n.clk.latched

/-- The node evaluates its fabric at a tick (01 Table 1.2, 10 R341, 16 Table 16.2). -/
def evaluates (n : Node) : Bool :=
  n.coreRuns && !n.pwr.parked && n.img.isSome && n.ownDuty &&
    (match n.pwr.phase with | .f | .done => true | _ => false)

/-! Records (14 R421 to R438). -/

/-- DETAIL of ten bytes: the bytes given, then zeros (14 Table 14.1). -/
def detail (l : List Byte) : List Byte := (l ++ List.replicate 10 0).take 10

/-- A record enters the RAM ring (14 R435). A record it overwrites before reaching flash is counted, and on the issuer named
in a FLASH_LOST GAP (R438); consecutive numbers share one. -/
def addGap (g : GapDue) : List GapDue → List GapDue
  | [] => [g]
  | h :: r =>
    if h.cause = g.cause ∧ h.first + h.count = g.first then { h with count := h.count + g.count } :: r
    else h :: addGap g r

def pushRam (n : Node) (r : Record) (own : Bool) : Node :=
  n.mJrnl fun j =>
    let gone := if j.ram.length < 4096 then none else j.ram.head?
    let keep := if j.ram.length < 4096 then j.ram else j.ram.tail
    let lostRec := match gone with | some o => if o.flashed then none else some o.item | none => none
    { j with
      ram := keep ++ [⟨r, false⟩]
      flags := if lostRec.isSome then setBit j.flags 1 else j.flags
      lost := if lostRec.isSome then satInc 0xFF j.lost else j.lost
      gaps := match lostRec with
        | some o => if own then addGap ⟨2, o.seq, 1⟩ j.gaps else j.gaps
        | none => j.gaps }

/-- Number and issue a record in the current tick (14 R424 to R427, 01 R24). -/
def issueNow (n : Node) (b : RecBody) : Node :=
  let r : Record := ⟨n.jrnl.nextSeq, n.sys.node, n.space, b.type, n.rtc.lastTick.getD n.rtc.now, b.source, b.old, b.new,
    detail b.detail⟩
  let n := n.pushRam r true
  n.mJrnl fun j =>
    { j with
      last := j.nextSeq
      nextSeq := j.nextSeq + 1
      heard := tset 0 j.heard n.space j.nextSeq
      tickRecs := j.tickRecs ++ [r] }

/-- The record types a pair member without duty reports by notice (16 R488); RING and PORT events it only counts. -/
def noticed (type : Nat) : Bool :=
  [0x52, 0x10, 0x11, 0x12, 0x13, 0x20, 0x21, 0x22, 0x23, 0x30].contains type

/-- A ring frame enters the transmit queue (15 R459); it takes its FSEQ when it is sent. -/
def sendFrame (n : Node) (dst : BitVec 16) (l : RingLoad) : Node :=
  n.mTide fun t => { t with tx := t.tx ++ [⟨0, 0, dst, l⟩] }

/-- All nodes: the broadcast destination. -/
def allNodes : BitVec 16 := 0xFFFF

/-- The partner has DUTY, as its last STATUS says (15 R464). -/
def peerStatus (n : Node) (k : Nat) : Option StatusFrame := (tget {} n.tide.peers k).status
def partnerDuty (n : Node) : Bool :=
  match n.partner with | some p => (n.peerStatus p).any (·.role == 4) | none => false

/-- A member without DUTY sends the duty a notice, or holds up to 64 in order while no partner is DUTY (16 R488). -/
def notify (n : Node) (b : RecBody) : Node :=
  if !noticed b.type then n
  else match n.partner with
    | none => n
    | some p =>
      if n.partnerDuty && n.tide.st == .inserted then n.sendFrame (1#16 <<< p) (.command (.notice b))
      else
        let full := n.pair.notices.length ≥ 64
        let n := if full then n.mJrnl fun j => { j with lost := satInc 0xFF j.lost } else n
        n.mPair fun q => { q with notices := (if full then q.notices.tail else q.notices) ++ [b] }

/-- A record that belongs to no step of the tick: issued after step 6 of the next evaluated tick (14 R432), or sent as a
notice by a pair member without DUTY. -/
def later (n : Node) (b : RecBody) : Node :=
  if n.ownDuty then n.mJrnl fun j => { j with due := j.due ++ [b] } else n.notify b

/-- The order of step 1's records: CONFIG, then a step's time record, then the others (01 Table 1.2, 05 R185, R194). -/
def firstOrder (l : List RecBody) : List RecBody :=
  sortBy (fun b => if b.type = 0x10 then 0 else if b.type = 0x13 ∧ b.new = 2 then 1 else 2) l

/-- The records that a reset of CORE leaves to the first tick: CLOCK and TIME records (04 R173, 05 R182). -/
def keptRecords (n : Node) : List RecBody :=
  (n.jrnl.due ++ n.pair.notices).filter fun b => b.type == 0x12 || (b.type == 0x13 && b.new == 1)

/-- A record of step 1 of the tick at the epoch boundary (01 Table 1.2), or a notice. -/
def stepOne (n : Node) (b : RecBody) : Node :=
  if n.ownDuty then n.mJrnl fun j => { j with firstRecs := j.firstRecs ++ [b] } else n.notify b

/-- A record issued in the step of the tick under way, or sent as a notice. -/
def issue (n : Node) (b : RecBody) : Node := if n.ownDuty then n.issueNow b else n.notify b

/-- GAP records of one range: each names at most 2^32 − 1 numbers (14 R433, R434). -/
def issueGap (n : Node) (g : GapDue) : Node :=
  let full := g.count / (2 ^ 32 - 1)
  let parts := (List.range (full + 1)).filterMap fun i =>
    let c := min (2 ^ 32 - 1) (g.count - i * (2 ^ 32 - 1))
    if c = 0 then none else some (g.first + i * (2 ^ 32 - 1), c)
  parts.foldl (fun n (f, c) =>
    let n := n.issueNow ⟨0x50, g.cause, 0, 0, leBytes 6 f ++ leBytes 4 c⟩
    n.mJrnl fun j => { j with flags := setBit j.flags 0, gapCnt := satInc 0xFFFF j.gapCnt }) n

def laterGap (n : Node) (g : GapDue) : Node := n.mJrnl fun j => { j with gaps := addGap g j.gaps }

/-- An interrupt event source is set (18 R566). -/
def irqEvent (n : Node) (i : Nat) : Node := n.mSys fun s => { s with irq := setBit s.irq i }

/-- CONFIG records (14 R425): the hash tag, then DETAIL by subtype. -/
def configBody (n : Node) (source sub new : Nat) (rest : List Byte) : RecBody :=
  ⟨0x10, source, sub, new, leBytes 4 n.hashTag ++ rest⟩

/-! Flash operations wait their turn (19 R591). -/

/-- An operation starts when none runs, and otherwise waits. A FAILED store rejects writes (R595). -/
def flashAdd (n : Node) (op : FlashOp) : Node :=
  n.mStor fun s =>
    if s.state = 2 then s
    else match s.cur with
      | none => { s with cur := some op, tries := 0 }
      | some _ => { s with wait := s.wait ++ [op] }

/-- A checkpoint entry of the running image (19 R586). -/
def ckpt (n : Node) (kind item value : Nat) : Node :=
  n.flashAdd (.ck ⟨kind, item, n.hashTag, n.now, value⟩)

/-- The time stamp of the tick under way (01 R24). -/
def tickTime (n : Node) : Nat := n.rtc.lastTick.getD n.rtc.now

end Node

end Sys2Proof.Machine
end

