-- ==== Sys2Proof/Machine/Operands.lean ====
section
/-! DEFINITION. What the operands of the fabric, the ladders, the islands, the outputs, the solver inputs and the message maps read:
fabric sources and when they are stale (10 R308 to R310, R616), tunable values in force, and scalings (07 R257, 08 R268). -/

namespace Sys2Proof.Machine

/-- What a source reads as: a value, a boolean, and whether it is stale. -/
structure Reading where
  val : B64
  b : Bool
  stale : Bool
deriving DecidableEq, Repr

def boolReading (b : Bool) : Reading := ⟨b64OfBool b, b, false⟩

/-- Continuous output periods and scanned cycles in µs, by code (07 Table 7.1). -/
def contPeriods : List Nat := [100000, 50000, 40000, 20000, 10000, 5000, 4000, 2000, 1000]
def cyclePeriods : List Nat := [10000, 20000, 25000, 40000, 50000, 100000]

/-- The nominal publish period of a lane in µs: its output period, or its cycle P (10 R616). -/
def LaneCfg.period (c : LaneCfg) : Nat :=
  if c.mode = 1 then contPeriods.getD c.rate 0 else cyclePeriods.getD c.cycle 0

/-- Template periods in ticks, by code (12 Table 12.8). -/
def tmplPeriods : List Nat := [1, 2, 4, 5, 10, 20]

/-- Three publish periods at the coast rate, which is 7.5 nominal periods (10 R616), in µs. -/
def defaultAge (period : Nat) : Nat := period * 15 / 2

/-- The codes of a 4–20 mA channel's failure bands (08 Table 8.1). -/
def failBand (b : Nat) : Bool := b == 1 || b == 5
/-- The saturation bands. -/
def satBand (b : Nat) : Bool := b == 2 || b == 4

namespace Node

def laneSt (n : Node) (l : Nat) : LaneSt := tget {} n.lane.lanes l
def laneCh (n : Node) (c : Nat) : LaneCh := tget {} n.lane.chans c
def afeCh (n : Node) (c : Nat) : AfeCh := tget {} n.afe.chans c
def afeExc (n : Node) (c : Nat) : AfeExc := tget {} n.afe.exc c
def loopInSt (n : Node) (c : Nat) : LoopIn := tget {} n.loop.ins c
def aoSt (n : Node) (a : Nat) : AoSt := tget {} n.loop.aos a
def bankSt (n : Node) (b : Nat) : DioBank := tget {} n.dio.banks b
def fieldSide (n : Node) (b : Nat) : DioField := tget {} n.dio.field b
def pointSt (n : Node) (p : Nat) : PointSt := tget {} n.fab.cells.points p
def condSt (n : Node) (c : Nat) : CondSt := tget {} n.fab.cells.conds c
def grpSt (n : Node) (g : Nat) : GrpSt := tget {} n.fab.cells.grps g
def ladderSt (n : Node) (l : Nat) : LadderSt := tget {} n.call.ladders l
def tmplSt (n : Node) (t : Nat) : TmplSt := tget {} n.solv.tmpl t
def slotSt (n : Node) (s : Nat) : SlotSt := tget {} n.solv.slots s
def portSt (n : Node) (p : Nat) : PortSt := tget {} n.ext.ports p

/-- A bank's FAULT (09 R299, R306): a sticky cause, the supply out of range, or the link lost. -/
def bankFault (n : Node) (b : Nat) : Bool := (n.bankSt b).shownFault
def faultAny (n : Node) : Bool := (List.range 4).any n.bankFault

/-- Staleness of a lane channel's E at a snapshot (10 Table 10.2), the reader's age in µs. -/
def laneStale (n : Node) (c : Nat) (age : Option Nat) : Bool :=
  match n.input c with
  | none => true
  | some i =>
    let l := n.laneSt i.lane
    let ch := n.laneCh c
    let a := age.getD (defaultAge ((n.laneCfg i.lane).elim 0 LaneCfg.period))
    b64IsNaN ch.eng || l.suspended || l.failed || n.fieldHeld ||
      (match ch.last with | none => true | some r => bit r.flags 1 || r.ts + a < n.now) ||
      (i.type == 5 && failBand (n.loopInSt c).band)

/-- A template is suspended while Sleep lasts (03 R104). -/
def solvSuspended (n : Node) : Bool := n.pwr.mode == .sleep

/-- Staleness of a solver output element (12 R387). -/
def solvStale (n : Node) (t k : Nat) (age : Option Nat) : Bool :=
  let s := n.tmplSt t
  let a := age.getD (defaultAge (50000 * ((n.template t).elim 0 (·.period))))
  b64IsNaN (s.elems.getD k b64NaN) || s.fault || n.solvSuspended || s.ts + a < n.now

/-- A fabric source as it stands (10 R308, R309). `age` is the age in µs a reading alarm point applies; every other reader gives
none and gets the source's default age (R616). -/
def readSrc (n : Node) (age : Option Nat) : Source → Reading
  | .laneE c => let v := (n.laneCh c).eng; ⟨v, false, n.laneStale c age⟩
  | .zLoop c => ⟨b64OfQ (n.afeCh c).mag 10, false, (n.afeCh c).stale⟩
  | .zIso c => ⟨b64OfNat ((n.afeCh c).iso * 10000), false, (n.afeCh c).stale⟩
  | .solvOut t k => ⟨(n.tmplSt t).elems.getD k b64NaN, false, n.solvStale t k age⟩
  | .loopBand c => ⟨b64OfNat (n.loopInSt c).band, (n.loopInSt c).band != 0, false⟩
  | .aoState a => ⟨b64OfNat (n.aoSt a).state, (n.aoSt a).state != 0, false⟩
  | .chOpen c => boolReading (n.afeCh c).opened
  | .chShort c => boolReading (n.afeCh c).short
  | .chIsoLow c => boolReading (n.afeCh c).isoLow
  | .chTrend c => boolReading (n.afeCh c).trend
  | .chPinned c => boolReading (n.afeExc c).pinned
  | .loopFail c => boolReading (failBand (n.loopInSt c).band)
  | .loopSat c => boolReading (satBand (n.loopInSt c).band)
  | .aoLinkLost a => boolReading (n.aoSt a).linkLost
  | .aoMismatch a => boolReading (n.aoSt a).mismatch
  | .aoCompliance a => boolReading (n.aoSt a).compliance
  | .dioIn p => { boolReading (bit n.dio.inp p) with stale := (n.bankSt (p / 8)).linkLost }
  | .bankFault b => boolReading (n.bankFault b)
  | .faultAny => boolReading n.faultAny
  | .wdExpired b => boolReading (n.bankSt b).wdExpired
  | .solvFault t => boolReading (n.tmplSt t).fault
  | .solvCarrying t => boolReading (n.tmplSt t).carrying
  | .dmPrewarn => boolReading (n.call.dmSnap == 2 || n.call.dmSnap == 3)
  | .dmExpired => boolReading (n.call.dmSnap == 3)
  | .condOut c => boolReading (n.condSt c).out
  | .apActive p => boolReading ((n.pointSt p).st == stActUnack || (n.pointSt p).st == stActAck)
  | .apUnack p => boolReading ((n.pointSt p).st == stActUnack || (n.pointSt p).st == stRectUnack)
  | .apPresent p => boolReading (n.pointSt p).f
  | .grpActive g => boolReading (n.grpSt g).active
  | .grpUnack g => boolReading (n.grpSt g).unack
  | .grpFoValid g => boolReading (n.grpSt g).foValid
  | .staleOf x => boolReading (n.readSrc none x).stale

/-- The window items that a TUNE entry may name: TH 2, HYS 3, ON_DELAY 4, OFF_DELAY 5, SUPP_HOLD 6 (10 Table 10.11). -/
def tuneKey (cell item : Nat) : Nat := cell * 8 + item

/-- The value in force of a point's item: the tuned value, else the TUNE default (02 R615), else the FABRIC section's. -/
def inForce (n : Node) (p : PointCfg) (item : Nat) : B64 :=
  match tget none n.fab.tuned (tuneKey p.num item) with
  | some v => v
  | none =>
    match (n.tune p.num item).bind (·.dflt) with
    | some v => v
    | none =>
      match item with
      | 2 => p.th
      | 3 => p.hys
      | 4 => BitVec.ofNat 64 p.onDelay
      | 5 => BitVec.ofNat 64 p.offDelay
      | _ => BitVec.ofNat 64 p.suppHold

def ticksOf (n : Node) (p : PointCfg) (item : Nat) : Nat := (n.inForce p item).toNat

end Node

/-- Piecewise-linear scaling: along the segment that holds m, the end segments extended (07 R257). -/
def pwlAt (m : B64) : List (B64 × B64) → B64
  | (x0, y0) :: (x1, y1) :: r =>
    if b64Le m x1 || r.isEmpty then
      let slope := (b64Div (b64Sub y1 y0).1 (b64Sub x1 x0).1).1
      (b64Fma slope (b64Sub m x0).1 y0).1
    else pwlAt m ((x1, y1) :: r)
  | [(_, y)] => y
  | [] => m

/-- The scalings of 07 R257 and 12 R371: none, a + b × m, piecewise linear. -/
def Scaling.apply (s : Scaling) (m : B64) : B64 :=
  match s with
  | .none => m
  | .linear a b => (b64Add a (b64Mul b m).1).1
  | .pwl l => if b64IsNaN m then b64NaN else pwlAt m l

/-- The published elements of a template from its output words; a word that is not there reads NaN (12 R371). -/
def elemsOf (t : TemplateCfg) (mats : List (List B64)) : List B64 :=
  t.outputs.map fun e => match (mats.getD e.mat [])[e.word]? with | some w => e.scaling.apply w | none => b64NaN

end Sys2Proof.Machine
end

