-- ==== Sys2Proof/Machine/Flags.lean ====
section
/-! DEFINITION. The register views: what a read of each register returns, from its chapter's field table (18 R572), every status
word that a record's DETAIL carries, the interrupt levels, and HIRQ_N. Reserved bits and write-only registers read 0 (00 R9, R11). -/

namespace Sys2Proof.Machine

/-- Bits as a number, bit 0 first. -/
def bitsNat (l : List Bool) : Nat := l.foldr (fun b a => b2n b + 2 * a) 0

/-- The instance an address names in an indexed register map: base, stride, count. -/
def instAt (a base stride count : Nat) : Option Nat :=
  if base ≤ a ∧ a < base + stride * count ∧ (a - base) % stride = 0 then some ((a - base) / stride) else none

def srcCode : SrcSt → Nat
  | .off => 0 | .counting => 1 | .ready => 2 | .failed => 3

def pllCode : PllSt → Nat
  | .off => 0 | .locking => 1 | .nominal => 2 | .failed => 3 | .coast => 4

def domCode : DomSt → Nat
  | .off => 0 | .nominal => 1 | .bridge => 2 | .coast => 3 | .slack => 4 | .slackCoast => 5 | .latched => 6

def ringCode : RingSt → Nat
  | .off => 0 | .listen => 1 | .request => 2 | .inserted => 3 | .refused => 4 | .heldOut => 5

/-- A domain byte of CLK_DOM_STAT (04 Table 4.14). -/
def DomClk.byte (d : DomClk) : Nat := domCode d.st + d.ratio * 8 + b2n d.ramp.isSome * 64 + b2n d.clamp * 128

/-- The record's 32 bytes (14 Table 14.1) with its CRC-16 (R422), polynomial 0x1021 from 0xFFFF. -/
def crc16Bit (c : Nat) : Nat := if c ≥ 0x8000 then ((c * 2) % 65536) ^^^ 0x1021 else c * 2
def crc16Byte (c : Nat) (b : Byte) : Nat :=
  crc16Bit (crc16Bit (crc16Bit (crc16Bit (crc16Bit (crc16Bit (crc16Bit (crc16Bit (c ^^^ (b.toNat * 256)))))))))
def crc16 (l : List Byte) : Nat := l.foldl crc16Byte 0xFFFF

def Record.body (r : Record) : List Byte :=
  leBytes 6 r.seq ++ leBytes 1 (r.node % 16 + 16 * r.space) ++ leBytes 1 r.type ++ leBytes 8 r.time ++
    leBytes 2 r.source ++ leBytes 1 r.old ++ leBytes 1 r.new ++ r.detail

def Record.bytes (r : Record) : List Byte := Record.body r ++ leBytes 2 (crc16 (Record.body r))

/-- CLK_STAT.COAST (04 Table 4.12); it is set with the emergency switch (Table 4.6). -/
def DomClk.coasts (d : DomClk) : Bool :=
  (match d.st with | .bridge | .coast | .slackCoast => true | _ => false) || d.sw == some .rc

namespace Node

def clkCoast (n : Node) : Bool := n.clk.core.coasts || n.clk.field.coasts || n.clk.solv.coasts
def unjudged (n : Node) : Bool := n.clk.lse == .failed && n.clk.xtal == .failed

def clkStat (n : Node) : Word :=
  regOf [b2n n.clkCoast, b2n n.clk.forced * 2, b2n n.clk.latched * 4, b2n n.clk.noFallback * 8, b2n n.unjudged * 16,
    b2n n.clk.retLimit * 32, b2n n.clk.clkoutErr * 64]

def clkSrcStat (n : Node) : Word :=
  regOf [srcCode n.clk.xtal, pllCode n.clk.pll * 16, srcCode n.clk.rc * 256, srcCode n.clk.lse * 4096,
    fieldAt 16 8 n.clk.xtalFails]

def modeCode (n : Node) : Nat := match n.pwr.mode with | .sleep => 1 | .holdup => 2 | _ => 0

def pwrStat (n : Node) : Word :=
  regOf [n.modeCode, fieldAt 2 3 n.pwr.step, b2n n.pwr.rdy * 32, b2n n.pwr.vinOk * 64, b2n n.pwr.ovActive * 128,
    n.pwr.domOn.toNat * 256]

def pwrVolt (n : Node) : Word := regOf [fieldAt 0 16 n.pwr.vin, fieldAt 16 16 n.pwr.store]

/-- The first READY source in the order of 05 R177: 0 LSE, 1 XTAL, 2 RC. -/
def rateSrc (n : Node) : Nat :=
  if n.clk.lse == .ready then 0 else if n.clk.xtal == .ready then 1 else if n.clk.rc == .ready then 2 else 0

def rtcStat (n : Node) : Word :=
  regOf [b2n n.rtc.osf, b2n n.rtc.lbv * 2, fieldAt 2 2 n.rtc.trust, b2n n.rtc.reference * 16, fieldAt 5 2 n.rateSrc,
    b2n n.rtc.stepPend.isSome * 128, fieldAt 8 8 n.rtc.setResult]

/-- Breakwater clamps hold FIELD: its own clamp, or the clamps of phases A to E (03 R121). -/
def fieldClamped (n : Node) : Bool :=
  n.clk.field.clamp || (match n.pwr.phase with | .f | .done => false | _ => true)

/-- The domain mask of the mode in force, that of the old mode while a return defers the change (04 R168). -/
def modeMask (n : Node) : Word :=
  match n.clockCfg with
  | none => 0
  | some c =>
    let m := match n.clk.heldMode with | some m => if n.clk.ret ≠ 0 then m else n.schedMode | none => n.schedMode
    if m = .sleep then c.sleepEn else c.runEn
/-- Checks are suspended: FIELD coasts or is held, the test-tone bit of the mode's mask is clear, or the IMU failed (06 R231). -/
def checksHeld (n : Node) : Bool :=
  n.fieldCoasts || n.fieldHeld || !bit n.modeMask 9 || n.afe.imuFault || !bit n.pwr.domOn 2

def afeStat (n : Node) : Word :=
  regOf [b2n n.fieldClamped, b2n n.afe.imuCh.isSome * 2, b2n n.afe.imuFault * 4,
    b2n (n.img.isSome && n.checksHeld) * 8, fieldAt 4 6 (n.afe.imuCh.getD 0x3F), fieldAt 16 8 n.afe.excFault.toNat,
    fieldAt 24 6 (bitsNat ((List.range 6).map fun k => (tget {} n.afe.cj k).failed))]

def inputBits (f : Nat → Bool) (lo cnt : Nat) : Nat := bitsNat ((List.range cnt).map fun i => f (lo + i))

def cjValid (n : Node) (k : Nat) : Bool := let c := tget {} n.afe.cj k; c.read && !c.failed

/-- The bank whose sensor bank k uses: its own, else the valid bank nearest in index, the lower on a tie (06 Table 6.8). -/
def cjSource (n : Node) (k : Nat) : Nat :=
  if n.cjValid k then k
  else
    let cand := (List.range 6).filter fun j => n.cjValid j
    let dist (j : Nat) := if j < k then k - j else j - k
    match cand with
    | [] => k
    | c :: r => r.foldl (fun b j => if dist j < dist b then j else b) c

def afeCj (n : Node) (k : Nat) : Word :=
  let s := n.cjSource k
  regOf [intBits 16 (tget {} n.afe.cj s).temp, b2n (n.cjValid k) * 2 ^ 16, b2n (s != k) * 2 ^ 17, fieldAt 18 3
    (if (tget {} n.afe.cj k).read then s else 0)]

def excWord (e : AfeExc) : Word :=
  regOf [fieldAt 0 8 e.excMin, fieldAt 8 8 e.excMax, fieldAt 16 8 e.forceVal, b2n e.forceEn * 2 ^ 24]

def afeExst (n : Node) (c : Nat) : Word :=
  let e := n.afeExc c
  regOf [fieldAt 0 8 e.code, fieldAt 8 8 (min e.want 255), fieldAt 16 4 e.pinCnt, b2n e.pinned * 2 ^ 20, b2n e.pinDir * 2 ^ 21,
    b2n e.forceEn * 2 ^ 22, b2n e.compliance * 2 ^ 23, fieldAt 24 8 e.snr]

def afeZloop (n : Node) (c : Nat) : Word :=
  let a := n.afeCh c
  regOf [fieldAt 0 20 (min a.mag 0xFFFFF), fieldAt 20 12 (intBits 12 a.phase)]

/-- Whether a type has Z_LOOP terminals, and whether its loop trend counts (06 Table 6.1). -/
def hasLoop (t : Nat) : Bool := t != 5 && t != 0
def loopTrend (t : Nat) : Bool := t != 1 && t != 5 && t != 0

def afeZiso (n : Node) (c : Nat) : Word :=
  let a := n.afeCh c
  let st := if a.seq = 0 ∧ a.nBase = 0 then 0
    else if a.opened || a.short || a.isoLow then 4
    else if a.trend then 3
    else if a.nBase < 16 then 1 else 2
  regOf [fieldAt 0 16 (min a.iso 0xFFFF), fieldAt 16 3 st, b2n a.opened * 2 ^ 19, b2n a.short * 2 ^ 20,
    b2n a.isoLow * 2 ^ 21, b2n a.trend * 2 ^ 22, b2n a.stale * 2 ^ 23, fieldAt 24 8 a.seq]

def impFlag (n : Node) (c : Nat) : Bool := let a := n.afeCh c; a.opened || a.short || a.isoLow || a.trend

def afeCfg (n : Node) (c : Nat) : Word :=
  match n.input c with
  | none => 0
  | some i => regOf [fieldAt 0 4 i.type, fieldAt 4 4 i.subtype, fieldAt 8 3 i.lane, b2n i.sole * 2 ^ 11, b2n i.adaptEn * 2 ^ 12,
      fieldAt 16 12 i.period]

def laneStat (n : Node) (l : Nat) : Word :=
  let s := n.laneSt l
  regOf [b2n s.running, b2n s.settling * 2, b2n s.ovwr * 4, b2n s.snapPend * 8, b2n n.fieldHeld * 16, b2n s.suspended * 32,
    b2n s.failed * 64, b2n s.unlocked * 128, b2n n.fieldCoasts * 256, fieldAt 16 8 s.resync]

/-- A result's HI word (07 Table 7.2). -/
def LaneResHi (r : LaneRes) : Word := regOf [fieldAt 0 16 r.seq, fieldAt 16 8 r.flags.toNat, fieldAt 24 8 r.ch]
def lowWord (x : Nat) : Word := BitVec.ofNat 32 x
def highWord (x : Nat) : Word := BitVec.ofNat 32 (x / 2 ^ 32)

def fifoStat (n : Node) (l : Nat) : Word :=
  let s := n.laneSt l
  regOf [s.fifo.length, b2n s.fifo.isEmpty * 512, b2n s.ovf * 1024, b2n s.underrun * 2048, b2n s.markerPend.isSome * 4096,
    fieldAt 16 16 s.dropped]

def laneCfgWord (n : Node) (l : Nat) : Word :=
  match n.laneCfg l with
  | none => 0
  | some c => regOf [fieldAt 0 2 c.mode, fieldAt 2 4 c.rate, fieldAt 6 3 c.cycle, fieldAt 9 5 c.slots.length,
      fieldAt 16 16 c.sleep.toNat]

def laneSlotWord (n : Node) (l k : Nat) : Word :=
  match n.laneCfg l with
  | none => if n.img.isSome then 0xFFFFFFFF else 0
  | some c => regOf ((List.range 4).map fun j => fieldAt (8 * j) 8 (c.slots.getD (4 * k + j) 0xFF))

/-- A lane's FIFO request is a level (07 R256). -/
def fifoReq (n : Node) (l : Nat) : Bool :=
  let s := n.laneSt l
  s.irqEn && s.level != 0 && decide (s.level ≤ s.fifo.length)

def loopInStat (n : Node) (c : Nat) : Word :=
  let s := n.loopInSt c
  let i : Int := if s.cur > 0x7FFFF then 0x7FFFF else if s.cur < -0x80000 then -0x80000 else s.cur
  regOf [fieldAt 0 20 (intBits 20 i), fieldAt 20 3 s.band, b2n s.clrPend * 2 ^ 23]

def aoStat (n : Node) (a : Nat) : Word :=
  let s := n.aoSt a
  regOf [fieldAt 0 16 s.rdbk, fieldAt 16 3 s.state, b2n s.linkLost * 2 ^ 19, b2n s.compliance * 2 ^ 20, b2n s.mismatch * 2 ^ 21,
    b2n s.forced.isSome * 2 ^ 22, fieldAt 24 8 s.resets]

def dioBankStat (n : Node) (b : Nat) : Word :=
  let s := n.bankSt b
  regOf [b2n s.shownFault, b2n s.supplyOk * 2, b2n s.wdExpired * 4, b2n s.linkLost * 8, fieldAt 4 2 s.mode, fieldAt 16 8 s.vf]

def pinBits (n : Node) (b : Nat) (f : PinCfg → Bool) : Nat :=
  bitsNat ((List.range 8).map fun j => (n.pin (8 * b + j)).any f)

def dioBankCfg (n : Node) (b : Nat) : Word :=
  regOf [n.pinBits b (·.out), n.pinBits b (·.safe) * 2 ^ 8, n.pinBits b (·.wbEn) * 2 ^ 16, n.pinBits b (·.wake) * 2 ^ 24]

def dioForced (n : Node) (p : Nat) : Option Bool := tget none n.dio.forces p

/-! The fabric's shown copy (10 R342). -/

def shownPoint (n : Node) (p : Nat) : PointSt := tget {} n.fab.shown.points p
def shownGrp (n : Node) (g : Nat) : GrpSt := tget {} n.fab.shown.grps g
def isActive (s : PointSt) : Bool := s.st == stActUnack || s.st == stActAck
def isUnack (s : PointSt) : Bool := s.st == stActUnack || s.st == stRectUnack
def countPts (n : Node) (f : PointSt → Bool) : Nat := (n.fab.shown.points.filter fun e => f e.2).length

def nextEngineer (n : Node) : Option Nat :=
  ((List.range 7).map fun i => (n.call.duty + 1 + i) % 8).find? fun e => bit n.call.present e && e != n.call.duty

def callRoster (n : Node) : Word :=
  regOf [n.call.duty % 8, fieldAt 4 3 (n.nextEngineer.getD 0), b2n (n.nextEngineer.isNone && n.img.isSome) * 128,
    n.call.present.toNat * 256, fieldAt 16 8 (bitsNat ((List.range 8).map fun e => (n.engineer e).isSome))]

/-! Solver views (12 Table 12.8). -/

def heldSlots (n : Node) : List (Nat × Job) :=
  (List.range 16).filterMap fun s => (n.slotSt s).job.map fun j => (s, j)
def hostHeld (n : Node) : Nat := (n.heldSlots.filter fun p => p.2.queue != 0).length
/-- SCHED_RSV: the largest number of scheduled templates invoked in one tick (12 R374). -/
def schedRsv (n : Node) : Nat :=
  let sched := n.templates.filter (! ·.host)
  ((List.range 20).map fun i => (sched.filter fun t => t.period != 0 && (i + t.period - t.phase % t.period) % t.period == 0).length).foldl max 0
def hostLimit (n : Node) : Nat := 16 - n.schedRsv
def solvFull (n : Node) : Bool := n.img.isSome && decide (n.hostLimit ≤ n.hostHeld)
def runJob (n : Node) : Option Job := n.solv.running.bind fun s => (n.slotSt s).job
/-- A SUSPENDED condition of 12 Table 12.3. -/
def solvRefuses (n : Node) : Bool :=
  n.pwr.mode != .run || n.pwr.pend == some .sleep || n.pwr.solvHold || n.pwr.solvWake || n.solvHeld
def cqOf (n : Node) (q : Nat) : List CqEntry :=
  match q with | 1 => n.solv.cq1 | 2 => n.solv.cq2 | 3 => n.solv.cq3 | _ => []

def solvStat (n : Node) : Word :=
  regOf [b2n n.solvFull, b2n n.solv.running.isSome * 2, b2n (n.img.isSome && n.solvHeld) * 4,
    b2n (n.img.isSome && !n.solvRefuses) * 8, fieldAt 4 5 n.heldSlots.length, fieldAt 9 5 n.hostHeld,
    fieldAt 16 6 (n.runJob.elim 0 (·.cfg.num)), fieldAt 22 2 (n.runJob.elim 0 (·.queue))]

def tmplStat (n : Node) (t : Nat) : Word :=
  let s := n.tmplSt t
  let allStale := (List.range s.elems.length).all fun k => n.solvStale t k none
  regOf [fieldAt 0 4 s.last, b2n s.fault * 16, b2n s.carrying * 32, b2n s.committed.isSome * 64, b2n allStale * 128,
    fieldAt 8 8 s.carryCnt, fieldAt 16 8 s.hostUsed, fieldAt 24 8 s.misses]

/-- A completion entry as SOLV_CQq_E0 shows it (Table 12.8). -/
def entryE0 (e : CqEntry) : Word :=
  regOf [fieldAt 0 8 e.jobId, fieldAt 8 6 e.template, fieldAt 16 4 e.status, fieldAt 20 5 e.flags.toNat,
    b2n e.rerun * 2 ^ 25, b2n e.warmUsed * 2 ^ 26, 2 ^ 31]
def cqE0 (n : Node) (q : Nat) : Word :=
  match n.cqOf q with
  | [] => 0
  | e :: _ => entryE0 e
def cqE1 (n : Node) (q : Nat) : Word :=
  match n.cqOf q with
  | [] => 0
  | e :: _ => regOf [fieldAt 0 7 e.firstBad, fieldAt 8 8 e.iter, fieldAt 16 16 (min e.time 0xFFFF)]

def solvReq (n : Node) : Bool :=
  (bit n.solv.irqCq 0 && !n.solv.cq1.isEmpty) || (bit n.solv.irqCq 1 && !n.solv.cq2.isEmpty) ||
    (bit n.solv.irqCq 2 && !n.solv.cq3.isEmpty) || (n.solv.irqFault && n.solv.faultReq)

/-! Journal views (14 Table 14.7). -/

/-- A record of the node's own that a later FAILOVER of its partner voids is not held (16 R503). -/
def voided (n : Node) (r : Record) : Bool := r.node == n.sys.node && n.jrnl.voids.any fun v => decide (v.1 ≤ r.seq) && decide (r.seq ≤ v.2)

/-- The records in flash, oldest first, by sector SERIAL; a slot whose CRC fails holds none. -/
def flashRecords (n : Node) : List Record :=
  let secs := n.stor.sectors.filter fun e => decide (513 ≤ e.1) && (e.2.cls == .data || e.2.cls == .retired)
  (sortBy (fun e : Nat × Sector => e.2.serial) secs).flatMap fun e => (e.2.slots.filterMap id).filter (! n.voided ·)

/-- A held number is in the RAM ring or in flash (14 Reading from the host). -/
def ramRecord (n : Node) (q : Nat) : Option Record := (n.jrnl.ram.find? (·.item.seq == q)).map (·.item)
def heldNums (n : Node) : List Nat := (n.flashRecords.map (·.seq)) ++ n.jrnl.ram.map (·.item.seq)
def newestHeld (n : Node) : Nat := n.heldNums.foldl max 0
def oldestHeld (n : Node) : Nat := match n.heldNums with | [] => 0 | x :: r => r.foldl min x
def flashedHigh (n : Node) : Nat :=
  ((n.flashRecords.map (·.seq)) ++ (n.jrnl.ram.filter (·.flashed)).map (·.item.seq)).foldl max 0
def unflashed (n : Node) : Nat := (n.jrnl.ram.filter (! ·.flashed)).length

def jrnlStat (n : Node) : Word :=
  regOf [b2n n.jrnl.flashOk, b2n n.jrnl.writeThrough * 2, b2n n.issuer * 4, fieldAt 4 4 (if n.img.isSome then n.space else 0),
    fieldAt 8 13 n.unflashed]

def jrnlReq (n : Node) : Bool := n.jrnl.irqOn && decide (max 1 n.jrnl.irqLevel ≤ n.newestHeld - n.jrnl.pos)

def journalSectors : List Nat := (List.range 1535).map (513 + ·)
def sector (n : Node) (s : Nat) : Sector := tget {} n.stor.sectors s
def retiredIn (n : Node) (lo hi : Nat) : Nat :=
  (n.stor.sectors.filter fun e => decide (lo ≤ e.1) && decide (e.1 ≤ hi) && e.2.cls == .retired).length

def tideStat (n : Node) : Word :=
  let t := n.tide
  regOf [n.sys.node % 16, ringCode t.st * 16, b2n t.master * 128, b2n t.wrapA * 256, b2n t.wrapB * 512, b2n t.viewStable * 1024,
    b2n t.splicePend.isSome * 2048, fieldAt 12 4 t.refNode, fieldAt 16 4 t.tb.neighbour, fieldAt 20 4 t.ta.neighbour,
    fieldAt 24 4 t.listenRot]

def linkByte (l : LinkSt) : Nat :=
  b2n l.rxOk + b2n l.txOk * 2 + b2n l.up * 4 + b2n l.insertReq * 8 + l.neighbour % 16 * 16

def inView (n : Node) : Bool := n.partner.any fun p => bit n.tide.view p

/-- A VIEW holds a majority of MEMBERS (16 R483). -/
def majorityOf (members view : BitVec 16) : Bool :=
  let m := (List.range 16).filter fun i => bit members i
  let v := m.filter fun i => bit view i
  decide (m.length < 2 * v.length) || (decide (m.length = 2 * v.length) && m.head?.any fun i => bit view i)
def majority (n : Node) : Bool := n.paired && majorityOf n.memberSet n.tide.view

/-- The bytes of the epoch state of the running image (16 Table 16.3). -/
def templBytes (t : TemplateCfg) : Nat := 8 + 8 * t.b * (2 * t.n + (if t.op = 9 then t.n * t.n else 0))
def stateBytes (n : Node) : Nat :=
  32 + 16 * n.points.length + 8 * n.groups.length + 8 * n.ladders.length + 20 * n.tunes.length +
    ((n.templates.filter (! ·.host)).map templBytes).foldl (· + ·) 0

def pairStat (n : Node) : Word :=
  regOf [fieldAt 0 3 n.pair.role, fieldAt 4 4 (n.partner.getD 0), b2n n.inView * 256, b2n n.majority * 512,
    b2n n.pair.copy.isSome * 1024, b2n n.pair.finalHeld * 2048, fieldAt 16 8 n.pair.noMaj]

def extPortStat (n : Node) (p : Nat) : Word :=
  let s := n.portSt p
  regOf [s.state % 8, fieldAt 8 8 s.queue.length, fieldAt 16 16 s.coalesced]
def extPortRx (n : Node) (p : Nat) : Word :=
  let s := n.portSt p
  regOf [fieldAt 0 16 s.accepted, fieldAt 16 16 s.rejected]

def phaseCode (n : Node) : Nat :=
  match n.pwr.phase with | .a | .b | .c => 0 | .d => 1 | .e => 2 | .f => 3 | .done => 4

/-- Interrupt levels and events (18 Table 18.3). -/
def irqStat (n : Node) : BitVec 9 :=
  let lv := bitsNat [false, (List.range 8).any n.fifoReq, n.fab.chg != 0, n.solvReq, n.jrnlReq]
  (n.sys.irq &&& 0b111100001) ||| BitVec.ofNat 9 lv

/-- HIRQ_N is asserted (18 R565): never before the end of phase F, nor under the CORE clamps; without HVIO it sinks nothing
(20 R600). -/
def hirq (n : Node) : Bool :=
  (n.irqStat &&& n.sys.irqEn) != 0 && n.pwr.phase == .done && !n.clk.core.clamp && n.sys.hvio

def sysSum (n : Node) : Word :=
  regOf [b2n n.sys.unconfigured, b2n n.sec.fallback * 2, b2n n.sec.maint * 4, b2n n.clkCoast * 8, b2n (n.clk.latchCause != 0) * 16,
    b2n n.faultAny * 32, b2n (n.pwr.mode == .holdup) * 64, b2n n.issuer * 128, n.phaseCode * 256, n.pair.role % 8 * 4096,
    fieldAt 16 4 n.sys.node]

def bankOf (n : Node) (b : Bool) : BankSt := if b then n.sec.b else n.sec.a

def secLoadStat (n : Node) : Word :=
  regOf [n.sec.a.state % 8, n.sec.b.state % 8 * 16, fieldAt 8 8 n.sec.result, fieldAt 16 8 n.sec.code, b2n n.sec.fallback * 2 ^ 24,
    b2n n.sec.runB * 2 ^ 25, b2n (n.sec.busy != 0) * 2 ^ 26, b2n n.sec.act.isSome * 2 ^ 27]

/-- Whole minutes left of the 60 min of 02 R64. -/
def maintLeft (n : Node) : Nat := if n.sec.maint then (3600000000 - (n.now - n.sec.lastWrite)) / 60000000 else 0

/-- A hash as SEC_HASHw shows it: byte 0 of the hash in bits [7:0] of word 0. `hash` holds byte 0 in its lowest bits. -/
def secHash (n : Node) : BitVec 256 :=
  let show3 (b : BankSt) : BitVec 256 := if b.state == 3 || b.state == 5 || b.state == 6 then b.hash else 0
  match n.sec.hashSel with
  | 0 => match n.img with | some i => i.hash | none => 0
  | 1 => show3 n.sec.a
  | 2 => show3 n.sec.b
  | _ => 0

/-! The register map (18 Table 18.9). -/

def viewSys (n : Node) (a : Nat) : Option Word :=
  match a with
  | 0x00 => some 0x00C14816
  | 0x04 => some (lowWord (n.sys.issue % 256))
  | 0x08 => some (lowWord n.sys.serial)
  | 0x0C => some n.sys.serialHi
  | 0x10 => some (lowWord (n.sys.cause % 256))
  | 0x14 => some n.sysSum
  | 0x18 => some (lowWord n.irqStat.toNat)
  | 0x1C => some (lowWord n.sys.irqEn.toNat)
  | 0x20 => some 0
  | 0x24 => some (lowWord (n.sys.cmdResult % 256))
  | 0x28 => some (regOf [fieldAt 0 8 n.sys.hpCrc, fieldAt 8 8 n.sys.hpLen, fieldAt 16 8 n.sys.hpTime, fieldAt 24 8 n.sys.hpNotReady])
  | 0x2C => some n.sys.scratch
  | _ => none

def viewPwr (n : Node) (a : Nat) : Option Word :=
  let c := n.powerCfg
  match a with
  | 0x00 => some n.pwrStat
  | 0x04 => some (lowWord n.pwr.flags.toNat)
  | 0x08 => some n.pwrVolt
  | 0x0C => some 0
  | 0x10 => some (regOf [fieldAt 0 4 n.pwr.lastCmd, b2n n.pwr.pend.isSome * 16, fieldAt 8 8 n.pwr.result])
  | 0x14 => some (match c with
      | none => 0
      | some p => regOf [b2n p.sleepAllowed, b2n p.deepAllowed * 2, b2n p.wakeOnAlarm * 4])
  | 0x18 => some (c.elim 0 (·.losDio))
  | 0x1C => some (c.elim 0 fun p => lowWord p.losAo.toNat)
  | 0x20 => some (c.elim 0 fun p => lowWord p.wakeEn.toNat)
  | 0x24 => some (lowWord n.pwr.wakeSrc.toNat)
  | 0x28 => some (lowWord n.pwr.wakeTime)
  | 0x2C => some (regOf [fieldAt 0 16 n.pwr.holdups, fieldAt 16 16 n.pwr.trips])
  | _ => none

def viewClk (n : Node) (a : Nat) : Option Word :=
  let c := n.clockCfg
  match a with
  | 0x00 => some n.clkStat
  | 0x04 => some n.clkSrcStat
  | 0x08 => some (regOf [n.clk.core.byte, n.clk.field.byte * 256, n.clk.solv.byte * 65536])
  | 0x0C => some (c.elim 0 fun p => lowWord p.policy.toNat)
  | 0x10 => some (c.elim 0 (·.runEn))
  | 0x14 => some (c.elim 0 (·.sleepEn))
  | 0x18 => some (c.elim 0 (·.deepEn))
  | 0x1C => some (regOf [n.clk.sel % 16, fieldAt 16 16 n.clk.div])
  | 0x20 => some (regOf [fieldAt 0 16 n.clk.xtalCnt, fieldAt 16 16 (min n.clk.rcCnt 0xFFFF)])
  | 0x24 => some (lowWord n.clk.trim.toNat)
  | 0x28 => some (lowWord n.clk.latchCause.toNat)
  | _ => none

def satInt32 (x : Int) : Word :=
  BitVec.ofInt 32 (if x > 2147483647 then 2147483647 else if x < -2147483648 then -2147483648 else x)

def viewRtc (n : Node) (a : Nat) : Option Word :=
  let r := n.rtc
  match a with
  | 0x00 => some (lowWord (b2n r.halt))
  | 0x04 => some n.rtcStat
  | 0x08 => some (lowWord (n.rtcCycles / 32768))
  | 0x0C => some (lowWord (n.rtcCycles % 32768))
  | 0x10 => some (lowWord r.setSec)
  | 0x14 => some (lowWord r.now)
  | 0x18 => some r.ntHi
  | 0x1C => some (satInt32 r.offset)
  | 0x20 => some (satInt32 (slewLeft r))
  | 0x24 => some (lowWord (r.leap % 256))
  | 0x28 => some (lowWord (intBits 16 r.trim))
  | _ => none

def viewAfe (n : Node) (a : Nat) : Option Word :=
  match a with
  | 0x00 => some n.afeStat
  | 0x04 => some (lowWord n.afe.flags.toNat)
  | 0x08 => some (lowWord (inputBits (fun c => (n.afeExc c).pinned) 0 32))
  | 0x0C => some (lowWord (inputBits (fun c => (n.afeExc c).pinned) 32 16))
  | 0x10 => some (lowWord (inputBits n.impFlag 0 32))
  | 0x14 => some (lowWord (inputBits n.impFlag 32 16))
  | 0x18 => some 0
  | 0x1C => some (regOf [fieldAt 0 8 n.afe.cmdResult, fieldAt 8 8 n.afe.excResult, fieldAt 16 6 n.afe.excCh])
  | 0x38 => some 0
  | 0x3C => some 0
  | _ =>
    ((instAt a 0x20 4 6).map n.afeCj).orElse fun _ =>
    ((instAt a 0x40 4 48).map n.afeCfg).orElse fun _ =>
    ((instAt a 0x100 4 48).map fun c => excWord (n.afeExc c)).orElse fun _ =>
    ((instAt a 0x1C0 4 48).map n.afeExst).orElse fun _ =>
    ((instAt a 0x280 4 48).map n.afeZloop).orElse fun _ =>
    (instAt a 0x340 4 48).map n.afeZiso

def liveRes (n : Node) (l : Nat) : LaneRes := (n.laneSt l).res.getD {}
/-- TSL and TSH return the shadow while the snapshot is pending (07 R249, R251). -/
def shownRes (n : Node) (l : Nat) : LaneRes := if (n.laneSt l).snapPend then (n.laneSt l).shadow else n.liveRes l

def viewLaneReg (n : Node) (l o : Nat) : Option Word :=
  let s := n.laneSt l
  match o with
  | 0x00 => some (n.liveRes l).lo
  | 0x04 => some (let r := n.shownRes l; LaneResHi (if s.snapPend then { r with flags := r.flags ||| 0x80 } else r))
  | 0x08 => some (lowWord (n.shownRes l).ts)
  | 0x0C => some (highWord (n.shownRes l).ts)
  | 0x10 => some (n.laneStat l)
  | 0x14 => some (match s.fifo with | [] => 0 | r :: _ => r.lo)
  | 0x18 => some (LaneResHi s.latch)
  | 0x1C => some (lowWord s.latch.ts)
  | 0x20 => some (highWord s.latch.ts)
  | 0x24 => some (n.fifoStat l)
  | 0x28 => some (regOf [fieldAt 0 8 s.level, b2n s.irqEn * 256])
  | 0x2C => some (n.laneCfgWord l)
  | 0x30 => some (n.laneSlotWord l 0)
  | 0x34 => some (n.laneSlotWord l 1)
  | 0x38 => some (n.laneSlotWord l 2)
  | 0x3C => some (n.laneSlotWord l 3)
  | _ => none

def laneBits (n : Node) (f : LaneSt → Bool) : Nat := bitsNat ((List.range 8).map fun l => f (n.laneSt l))

def viewLane (n : Node) (a : Nat) : Option Word :=
  match a with
  | 0x00 => some (regOf [n.laneBits (·.running), n.laneBits (·.settling) * 2 ^ 8, n.laneBits (·.failed) * 2 ^ 16,
      n.laneBits (·.unlocked) * 2 ^ 24])
  | 0x04 => some (regOf [n.lane.ovfFlags.toNat, n.lane.parityFlags.toNat * 256])
  | 0x08 => some 0
  | 0x0C => some (regOf [fieldAt 0 8 n.lane.syncResult, b2n (!n.lane.syncPend.isEmpty) * 256])
  | 0x10 => some (lowWord n.lane.syncTime)
  | 0x14 => some n.lane.syncHi
  | 0x18 => some 0
  | 0x1C => some (lowWord (n.lane.cmdResult % 256))
  | _ =>
    if 0x40 ≤ a ∧ a < 0x240 then n.viewLaneReg ((a - 0x40) / 0x40) ((a - 0x40) % 0x40)
    else
      ((instAt a 0x240 8 48).map fun c => lowWord (n.laneCh c).eng.toNat).orElse fun _ =>
      (instAt a 0x244 8 48).map fun c => (n.laneCh c).engHi

def viewLoop (n : Node) (a : Nat) : Option Word :=
  let aoBits (f : AoSt → Bool) := bitsNat ((List.range 8).map fun k => f (n.aoSt k))
  let failed := fun c => failBand (n.loopInSt c).band
  match a with
  | 0x00 => some (regOf [aoBits (·.state == 2), aoBits (·.linkLost) * 256, b2n (aoBits (·.forced.isSome) != 0) * 2 ^ 16,
      b2n n.loop.framesOn * 2 ^ 17])
  | 0x04 => some (lowWord n.loop.flags.toNat)
  | 0x08 => some (lowWord (inputBits failed 0 32))
  | 0x0C => some (lowWord (inputBits failed 32 16))
  | 0x10 => some 0
  | 0x14 => some (lowWord (n.loop.cmdResult % 256))
  | 0x18 => some 0
  | 0x1C => some 0
  | _ =>
    ((instAt a 0x20 4 8).map fun k => regOf [fieldAt 0 16 (n.aoSt k).cmd, fieldAt 16 2 (n.aoSt k).cause]).orElse fun _ =>
    ((instAt a 0x40 4 48).map n.loopInStat).orElse fun _ =>
    ((instAt a 0x100 4 48).map fun c =>
      regOf [fieldAt 0 10 ((n.loopIn c).elim 0 (·.clrTime)), b2n ((n.input c).any (·.type == 5)) * 1024]).orElse fun _ =>
    ((instAt a 0x1C0 8 8).map n.aoStat).orElse fun _ =>
    (instAt a 0x1C4 8 8).map fun k =>
      match n.island k with
      | none => 0
      | some c => regOf [fieldAt 0 2 c.hbMode, fieldAt 2 2 c.badMode, 16, fieldAt 16 9 c.hbTimeout]

def viewDio (n : Node) (a : Nat) : Option Word :=
  match a with
  | 0x00 => some (regOf [b2n n.faultAny, bitsNat ((List.range 4).map n.bankFault) * 16, b2n n.dio.sweepBusy * 256,
      b2n (!n.dio.forces.isEmpty) * 512])
  | 0x04 => some (lowWord n.dio.flags.toNat)
  | 0x08 => some n.dio.inp
  | 0x0C => some n.dio.outCmd
  | 0x10 => some n.dio.rdbk
  | 0x14 => some 0
  | 0x18 => some (regOf [fieldAt 0 8 n.dio.sweepResult, b2n n.dio.sweepDone * 256, fieldAt 9 3 n.dio.sweepSlot,
      fieldAt 12 2 n.dio.sweepBank])
  | 0x1C => some n.dio.sweepRes
  | 0x20 => some 0
  | 0x24 => some (lowWord (n.dio.cmdResult % 256))
  | _ =>
    ((instAt a 0x30 4 4).map n.dioBankStat).orElse fun _ =>
    ((instAt a 0x40 4 4).map n.dioBankCfg).orElse fun _ =>
    (instAt a 0x50 4 4).map fun b =>
      match n.bankCfg b with
      | none => 0
      | some c => regOf [fieldAt 0 10 c.wdTimeout, fieldAt 16 8 c.filter]

def viewFab (n : Node) (a : Nat) : Option Word :=
  let f := n.fab
  let ptBits (g : PointSt → Bool) (k : Nat) := lowWord (inputBits (fun p => g (n.shownPoint p)) (32 * k) 32)
  let grBits (g : GrpSt → Bool) (k : Nat) := lowWord (inputBits (fun p => g (n.shownGrp p)) (32 * k) 32)
  match a with
  | 0x00 => some (regOf [if n.pwr.parked then 3 else f.role % 4, fieldAt 4 9 (f.queue.filter (·.reason == 0)).length, fieldAt 16 11 (n.countPts (·.st == stOutOfService))])
  | 0x04 => some (lowWord f.flags.toNat)
  | 0x08 => some (lowWord f.tick)
  | 0x0C => some (regOf [fieldAt 0 11 (n.countPts isUnack), fieldAt 16 11 (n.countPts isActive)])
  | 0x10 => some (regOf [fieldAt 0 11 (n.countPts (·.st == stShelved)), fieldAt 16 11 (n.countPts (·.st == stSuppressed))])
  | 0x14 => some (lowWord (f.ecc % 65536))
  | 0x18 => some 0
  | 0x1C => some (lowWord (f.arg % 2 ^ 21))
  | 0x20 => some (regOf [fieldAt 0 8 f.cmdResult, fieldAt 16 16 f.cmdStatId])
  | 0x24 => some f.winSel
  | 0x28 => some 0
  | 0x2C => some (regOf [b2n f.winRun.isSome, fieldAt 8 8 f.winResult])
  | 0x30 => some (lowWord f.winData.toNat)
  | 0x34 => some (highWord f.winData.toNat)
  | 0x38 => some (regOf [fieldAt 0 7 f.tunePend.length, fieldAt 8 8 f.lastApply])
  | 0x3C => some 0
  | 0x1F0 => some 0
  | 0x1F4 => some 0
  | 0x1F8 => some 0
  | 0x1FC => some 0
  | _ =>
    ((instAt a 0x40 4 32).map (ptBits isActive)).orElse fun _ =>
    ((instAt a 0xC0 4 32).map (ptBits isUnack)).orElse fun _ =>
    ((instAt a 0x140 4 32).map fun k => (f.chg.extractLsb' (32 * k) 32)).orElse fun _ =>
    ((instAt a 0x1C0 4 4).map (grBits (·.active))).orElse fun _ =>
    ((instAt a 0x1D0 4 4).map (grBits (·.unack))).orElse fun _ =>
    (instAt a 0x1E0 4 4).map (grBits (·.foValid))

def viewCall (n : Node) (a : Nat) : Option Word :=
  match a with
  | 0x00 => some (regOf [bitsNat ((List.range 16).map fun l => (n.ladderSt l).rung != 0), b2n n.call.bridgeOn * 2 ^ 16])
  | 0x04 => some (lowWord n.call.flags.toNat)
  | 0x08 => some 0
  | 0x0C => some (regOf [fieldAt 0 8 n.call.cmdResult, fieldAt 16 16 n.call.cmdStatId])
  | 0x10 => some n.callRoster
  | 0x14 => some (regOf [n.call.dmState % 4, fieldAt 16 16 ((n.call.dmTimer + 19) / 20)])
  | 0x18 => some (match n.watch with | none => 0 | some w => regOf [fieldAt 0 11 w.period, fieldAt 16 8 w.warn])
  | _ =>
    ((instAt a 0x40 4 16).map fun l =>
      let s := n.ladderSt l
      regOf [fieldAt 0 3 s.rung, b2n s.shortened * 8, fieldAt 4 12 s.repeats, fieldAt 16 16 s.timer]).orElse fun _ =>
    (instAt a 0x80 4 16).map fun l =>
      match n.ladder l with
      | none => 0
      | some c => regOf [fieldAt 0 3 c.rungs.length, b2n c.stopClear * 8, b2n c.fastEscalate * 16]

def viewSolv (n : Node) (a : Nat) : Option Word :=
  let s := n.solv
  let t := n.template s.tsel
  match a with
  | 0x00 => some n.solvStat
  | 0x04 => some (lowWord s.flags.toNat)
  | 0x08 => some s.descOp
  | 0x0C => some (lowWord s.descIn)
  | 0x10 => some (lowWord s.descOut)
  | 0x14 => some (lowWord s.descDl)
  | 0x18 => some 0
  | 0x1C => some (regOf [fieldAt 0 8 s.subJobId, fieldAt 8 8 s.subResult, fieldAt 16 2 s.subQueue])
  | 0x20 => some (regOf [fieldAt 0 18 s.memAddr, b2n s.autoinc * 2 ^ 31])
  | 0x24 => some (lowWord (tget 0 s.mem s.memAddr).toNat)
  | 0x28 => some s.memHi
  | 0x2C => some (lowWord (s.memResult % 256))
  | 0x30 => some (regOf ((List.range 4).map fun q =>
      fieldAt (8 * q) 5 (n.heldSlots.filter fun p => p.2.queue == q && !p.2.ended).length))
  | 0x34 => some (regOf [s.irqCq.toNat * 2, b2n s.irqFault * 16])
  | 0x38 => some (regOf [fieldAt 0 16 s.corrected, fieldAt 16 8 s.reruns, fieldAt 24 8 s.hwfaults])
  | 0x3C => some (regOf [bitsNat ((List.range 16).map fun k => (n.slotSt k).job.isSome), fieldAt 16 5 s.cq1.length,
      fieldAt 21 5 s.cq2.length, fieldAt 26 5 s.cq3.length])
  | 0x40 => some 0
  | 0x44 => some 0
  | 0x48 => some (n.cqE0 1)
  | 0x4C => some (n.cqE1 1)
  | 0x50 => some (n.cqE0 2)
  | 0x54 => some (n.cqE1 2)
  | 0x58 => some (n.cqE0 3)
  | 0x5C => some (n.cqE1 3)
  | 0x60 => some 0
  | 0x64 => some (lowWord (s.tsel % 64))
  | 0x68 => some (match t with
      | none => 0
      | some c => regOf [c.op % 16, b2n c.carry * 16, b2n c.host * 32, fieldAt 8 7 c.b,
          fieldAt 16 6 (if c.op = 1 ∨ c.op = 2 ∨ c.op = 7 then 0 else c.m), fieldAt 24 6 c.n])
  | 0x6C => some (match t with
      | none => 0
      | some c => regOf [fieldAt 0 17 c.deadline, fieldAt 17 3 (tmplPeriods.findIdx (· == c.period) % 6), fieldAt 20 5 c.phase])
  | 0x70 => some (match t with
      | none => 0
      | some c => regOf [fieldAt 0 8 c.carryMax, fieldAt 8 8 c.hostMax, fieldAt 16 10 (c.faultAp.getD 0)])
  | 0x74 => some (regOf [fieldAt 0 9 (n.region.1 / 1024), fieldAt 16 9 (n.region.2 / 1024)])
  | 0x78 => some (if n.img.isSome then regOf [fieldAt 0 4 n.schedRsv, fieldAt 4 5 n.hostLimit] else 0)
  | 0x7C => some 0
  | _ => (instAt a 0x80 4 64).map n.tmplStat

def recWord (r : Option Record) (w : Nat) : Word :=
  match r with
  | none => 0
  | some r => lowWord (leNat (((Record.bytes r).drop (4 * w)).take 4))

def viewJrnl (n : Node) (a : Nat) : Option Word :=
  let j := n.jrnl
  match a with
  | 0x00 => some n.jrnlStat
  | 0x04 => some (lowWord j.flags.toNat)
  | 0x08 => some (lowWord n.newestHeld)
  | 0x0C => some j.newestHi
  | 0x10 => some (lowWord n.flashedHigh)
  | 0x14 => some j.flashedHi
  | 0x18 => some (lowWord n.oldestHeld)
  | 0x1C => some j.oldestHi
  | 0x20 => some 0
  | 0x24 => some (regOf [b2n j.busy, b2n j.skipped * 2, b2n j.fromFlash * 4, fieldAt 8 8 j.result])
  | 0x28 => some (lowWord j.seek)
  | 0x2C => some (lowWord (j.seek / 2 ^ 32 % 65536))
  | 0x30 => some (lowWord j.pos)
  | 0x34 => some j.posHi
  | 0x38 => some (regOf [fieldAt 0 8 j.irqLevel, b2n j.irqOn * 256])
  | 0x3C => some (regOf [fieldAt 0 16 j.gapCnt, fieldAt 16 8 j.lost, fieldAt 24 8 j.crcBad])
  | 0x60 => some (regOf [fieldAt 0 16 (1535 - n.retiredIn 513 2047 - 3),
      fieldAt 16 16 (n.stor.sectors.filter fun e => decide (513 ≤ e.1) && e.2.slots.any (·.isSome)).length])
  | _ => (instAt a 0x40 4 8).map (recWord j.window)

def viewTide (n : Node) (a : Nat) : Option Word :=
  let t := n.tide
  match a with
  | 0x00 => some n.tideStat
  | 0x04 => some (lowWord t.flags.toNat)
  | 0x08 => some (regOf [t.view.toNat, n.memberSet.toNat * 65536])
  | 0x0C => some (regOf [linkByte t.ta, linkByte t.tb * 256])
  | 0x10 => some (regOf [fieldAt 0 16 t.ta.delay, fieldAt 16 16 t.tb.delay])
  | 0x14 => some (match n.ringCfg with | none => 0 | some c => regOf [fieldAt 0 6 c.hold, b2n c.refEligible * 64])
  | 0x18 => some (regOf [fieldAt 0 16 t.gen, fieldAt 16 4 t.masterNode, fieldAt 20 2 t.silent])
  | 0x1C => some (regOf [fieldAt 0 16 t.retx, fieldAt 16 16 t.lost])
  | 0x20 => some (regOf [fieldAt 0 8 t.wraps, fieldAt 8 8 t.regens, fieldAt 16 8 t.crcTa, fieldAt 24 8 t.crcTb])
  | 0x24 => some 0
  | 0x28 => some (lowWord (t.cmdResult % 256))
  | _ => none

def viewPair (n : Node) (a : Nat) : Option Word :=
  let p := n.pair
  match a with
  | 0x00 => some n.pairStat
  | 0x04 => some (lowWord p.flags.toNat)
  | 0x08 => some (lowWord p.tag)
  | 0x0C => some (lowWord p.last)
  | 0x10 => some p.lastHi
  | 0x14 => some (lowWord p.fo)
  | 0x18 => some p.foHi
  | 0x1C => some (regOf [fieldAt 0 8 p.takeovers, fieldAt 8 8 p.demotes, fieldAt 16 8 p.missed, fieldAt 24 8 p.voided])
  | 0x20 => some (if n.paired then regOf [1, fieldAt 4 4 (n.partner.getD 0), fieldAt 16 16 n.stateBytes] else 0)
  | 0x24 => some 0
  | 0x28 => some (lowWord (p.cmdResult % 256))
  | _ => none

def viewExt (n : Node) (a : Nat) : Option Word :=
  let portBits (f : PortSt → Bool) := bitsNat ((List.range 6).map fun p => f (n.portSt p))
  match a with
  | 0x00 => some (regOf [portBits (·.state == 1), (if n.ownDuty then portBits (·.state == 1) else 0) * 256])
  | 0x04 => some (lowWord n.ext.flags.toNat)
  | 0x08 => some 0
  | 0x0C => some (lowWord (n.ext.cmdResult % 256))
  | 0x10 => some (regOf [fieldAt 0 8 n.ext.n2kAddr, b2n n.ext.claimed * 256])
  | 0x14 => some ((n.port 4).elim 0 (·.ip))
  | 0x18 => some ((n.port 5).elim 0 (·.ip))
  | _ =>
    ((instAt a 0x20 0x10 6).map n.extPortStat).orElse fun _ =>
    ((instAt a 0x24 0x10 6).map fun p => lowWord (n.portSt p).sent).orElse fun _ =>
    ((instAt a 0x28 0x10 6).map n.extPortRx).orElse fun _ =>
    (instAt a 0x2C 0x10 6).map fun p =>
      match n.port p with
      | none => 0
      | some c => regOf [c.kind % 16, fieldAt 4 3 c.services, fieldAt 8 2 c.alertSet, b2n c.ackAccept * 1024,
          b2n c.duplicate * 2048, fieldAt 12 4 c.rate, fieldAt 16 8 c.mbAddr]

/-- Regions: first sector and count (19 Table 19.1). -/
def regionSpan (r : Nat) : Option (Nat × Nat) :=
  match r with
  | 0 => some (0, 1) | 1 => some (257, 128) | 2 => some (385, 128) | 3 => some (1, 256) | 4 => some (513, 1535) | _ => none

/-- The entries of a log of the identity sector that are used up, and whether the log is full (R589, R590). -/
def leapFull (n : Node) : Bool := decide (512 ≤ n.stor.ident.leapLog.length + n.stor.tornLeap)
def eraFull (n : Node) : Bool := decide (1024 ≤ n.stor.ident.eraLog.length + n.stor.tornEra)
def retiredFull (n : Node) : Bool := decide (256 ≤ n.stor.ident.retired.length + n.stor.tornRetired)

def viewStor (n : Node) (a : Nat) : Option Word :=
  let s := n.stor
  let pend := s.sectors.any fun e => e.2.cls == .blank || e.2.cls == .unknown
  match a with
  | 0x00 => some (regOf [s.state % 4, b2n s.cur.isSome * 4, b2n s.susp.isSome * 8, b2n (n.leapFull || n.eraFull || n.retiredFull) * 16, b2n pend * 32,
      fieldAt 8 8 s.reerased, fieldAt 16 8 (min 255 s.ident.retired.length)])
  | 0x04 => some (lowWord s.flags.toNat)
  | 0x08 => some 0
  | 0x0C => some (lowWord (s.cmdResult % 256))
  | 0x10 => some (lowWord (s.rsel % 8))
  | 0x14 => some (match regionSpan s.rsel with
      | none => 0
      | some (f, c) => regOf [fieldAt 0 11 f, fieldAt 11 11 c, fieldAt 22 10 (n.retiredIn f (f + c - 1))])
  | 0x18 => some (match regionSpan s.rsel with
      | none => 0
      | some (f, c) =>
        let secs := if s.rsel = 1 ∨ s.rsel = 2 then [f + c - 1] else (List.range c).map (f + ·)
        let live := secs.filter fun k => (n.sector k).cls != .retired
        let mx := (secs.map fun k => (n.sector k).erases).foldl max 0
        let mn := match live with | [] => 0 | k :: r => r.foldl (fun b i => min b (n.sector i).erases) (n.sector k).erases
        regOf [fieldAt 0 16 (mx / 4), fieldAt 16 16 (mn / 4)])
  | _ => none

def viewSec (n : Node) (a : Nat) : Option Word :=
  let s := n.sec
  match a with
  | 0x00 => some (regOf [b2n s.maint, b2n s.keySw * 2, b2n s.enrolled * 4, b2n s.lockout * 8, b2n s.unlockStep * 16,
      b2n (decide (256 ≤ s.bufUsed)) * 32, fieldAt 16 8 n.maintLeft])
  | 0x04 => some (lowWord s.flags.toNat)
  | 0x08 => some 0
  | 0x0C => some 0
  | 0x10 => some n.secLoadStat
  | 0x14 => some (regOf [s.detSection % 256, fieldAt 8 16 s.detItem])
  | 0x18 => some (lowWord (s.offset % 2 ^ 23))
  | 0x1C => some 0
  | 0x20 => some (lowWord s.a.gen)
  | 0x24 => some (lowWord s.b.gen)
  | 0x28 => some (lowWord s.keyId.toNat)
  | 0x2C => some (highWord s.keyId.toNat)
  | 0x30 => some s.integrator
  | 0x34 => some (lowWord (s.hashSel % 4))
  | _ => (instAt a 0x40 4 8).map fun w => n.secHash.extractLsb' (32 * w) 32

/-- The value of the register at an address; none where no block's map lists it (18 R561, R572). -/
def regView (n : Node) (a : Nat) : Option Word :=
  if a % 4 ≠ 0 then none
  else if a < 0x200 then n.viewSys a
  else if a < 0x400 then n.viewPwr (a - 0x200)
  else if a < 0x600 then n.viewClk (a - 0x400)
  else if a < 0x800 then n.viewRtc (a - 0x600)
  else if a < 0xC00 then n.viewAfe (a - 0x800)
  else if a < 0x1000 then n.viewLane (a - 0xC00)
  else if a < 0x1200 then n.viewLoop (a - 0x1000)
  else if a < 0x1400 then n.viewDio (a - 0x1200)
  else if a < 0x1600 then n.viewFab (a - 0x1400)
  else if a < 0x1800 then n.viewCall (a - 0x1600)
  else if a < 0x1A00 then n.viewSolv (a - 0x1800)
  else if a < 0x1C00 then n.viewJrnl (a - 0x1A00)
  else if a < 0x1E00 then n.viewTide (a - 0x1C00)
  else if a < 0x2000 then n.viewPair (a - 0x1E00)
  else if a < 0x2400 then n.viewExt (a - 0x2000)
  else if a < 0x2600 then n.viewStor (a - 0x2400)
  else if a < 0x2800 then n.viewSec (a - 0x2600)
  else none

end Node

end Sys2Proof.Machine
end

