-- ==== Sys2Proof/Machine/Fabric.lean ====
section
/-! DEFINITION. The alarm fabric (10): evaluating cells, alarm-point transitions, fabric commands from arrival to effect, groups and
first-out, the FAB window, tunables, and the meanings of the fabric's commands. -/

namespace Sys2Proof.Machine

namespace Node

def mCells (n : Node) (f : Cells → Cells) : Node := n.mFab fun b => { b with cells := f b.cells }
def setPoint (n : Node) (p : Nat) (v : PointSt) : Node := n.mCells fun c => { c with points := tset {} c.points p v }
def setCond (n : Node) (k : Nat) (v : CondSt) : Node := n.mCells fun c => { c with conds := tset {} c.conds k v }
def setGrp (n : Node) (g : Nat) (v : GrpSt) : Node := n.mCells fun c => { c with grps := tset {} c.grps g v }

/-! Evaluation, step 4. -/

/-- A boolean reading with its stale substitute (R312, R321). -/
def readBool (n : Node) (x : Source) (sv : Bool) : Bool :=
  let r := n.readSrc none x
  if r.stale then sv else r.b

/-- R312. -/
def condEval (n : Node) (c : CondCfg) : CondSt :=
  let ins := c.inputs.map fun i => (n.readBool i.src i.sv) != i.invert
  let ones := (ins.filter id).length
  { ins := ins
    out := match c.op with
      | .and => ins.all id
      | .or => ins.any id
      | .not => !(ins.headD false)
      | .kofn => decide (c.k ≤ ones) }

/-- R314 Table 10.3 and R315: the raw compare. -/
def rawCompare (sense : Sense) (th hys : B64) (mode : StaleMode) (x : Reading) (r : Bool) : Bool :=
  if x.stale then
    match mode with
    | .hold => r
    | .setTrue => true
    | .setFalse => false
  else
    match sense with
    | .high => if b64Gt x.val th then true else if b64Le x.val (b64Sub th hys).1 then false else r
    | .low => if b64Lt x.val th then true else if b64Ge x.val (b64Add th hys).1 then false else r
    | .on1 => x.b
    | .on0 => !x.b

/-- R321: whether suppression is in force, and the hold counter. -/
def suppEval (src : Bool) (suppHold : Nat) (s : PointSt) : PointSt :=
  if src then { s with supp := true, hold := 0 }
  else if !s.supp then s
  else if s.hold = 0 then
    if suppHold = 0 then { s with supp := false, hold := 0 } else { s with hold := suppHold }
  else if s.hold = 1 then { s with supp := false, hold := 0 }
  else { s with hold := s.hold - 1 }

/-- R316 and R322: one tick of the delays, at tick time `t`. -/
def delayEval (onDelay offDelay t : Nat) (s : PointSt) : PointSt :=
  if s.supp then { s with cnt := 0, f := false, running := false }
  else
    let want := if s.f then !s.r else s.r
    let lim := if s.f then offDelay else onDelay
    if !want then { s with cnt := 0, running := false }
    else
      let s := if s.running then { s with cnt := s.cnt + 1 } else { s with cnt := 0, running := true, runStart := t }
      if lim ≤ s.cnt then { s with f := !s.f, cnt := 0, running := false } else s

/-- R319: the return rule. -/
def returnState (s : PointSt) : Nat :=
  if s.supp then stSuppressed else if s.f then stActUnack else stNormal

/-- R318 Table 10.5: what a change of F does to a point in no overlay state; `was` is F before. -/
def conditionMove (latch was : Bool) (s : PointSt) : PointSt :=
  if s.f && !was then
    if s.st = stActUnack ∨ s.st = stActAck then { s with latched := false } else { s with st := stActUnack }
  else if !s.f && was then
    if s.st = stActUnack then (if latch then { s with latched := true } else { s with st := stRectUnack })
    else if s.st = stActAck then (if latch then { s with latched := true } else { s with st := stNormal })
    else s
  else s

/-- An overlay state (R319). -/
def overlay (st : Nat) : Bool := st == stShelved || st == stSuppressed || st == stOutOfService

/-- R340: the overlay state that a start restored, in step 4 of the first tick, after what step 3 did: Out of service ends a clock that SHELVE
has set; Shelved gives way to Out of service, and keeps the clock of a SHELVE (R318, R323). -/
def takeRestored (s : PointSt) : PointSt :=
  let t := { s with restore := 0, latched := false, shelfSet := false }
  if s.restore = stOutOfService ∨ s.st = stOutOfService then { t with st := stOutOfService, shelf := 0 } else { t with st := stShelved }

/-- R318 Table 10.5, the triggers of step 4; `was` is F before this tick. The overlay state a start restores is taken here (R340). -/
def stateEval (latch was : Bool) (s : PointSt) : PointSt :=
  if s.restore ≠ 0 then takeRestored s
  else if s.st = stOutOfService then s
  else if s.st = stShelved then
    if s.shelfSet then { s with shelfSet := false }
    else if s.shelf ≤ 1 then { s with shelf := 0, st := returnState s }
    else { s with shelf := s.shelf - 1 }
  else if s.st = stSuppressed then (if s.supp then s else { s with st := returnState s })
  else if s.supp then { s with st := stSuppressed, cnt := 0, f := false, latched := false, running := false }
  else conditionMove latch was s

/-- R313: one alarm point in step 4. -/
def pointEval (n : Node) (c : PointCfg) : PointSt :=
  let s := n.pointSt c.num
  let x := n.readSrc (some (c.staleAge * 50000)) c.src
  let s1 := { s with
    r := rawCompare c.sense (n.inForce c 2) (n.inForce c 3) c.staleMode x s.r
    stale := x.stale
    value := x.val }
  let src := match c.supp with
    | none => false
    | some y => n.readBool y c.suppSv == c.suppSense
  let s2 := suppEval src (n.ticksOf c 6) s1
  let s3 := delayEval (n.ticksOf c 4) (n.ticksOf c 5) n.tickTime s2
  stateEval c.latch s.f s3

/-- A point enters Active-unacknowledged in this tick (R317, R330, R347; R79 for a point that begins again). -/
def enters (s : PointSt) : Bool := s.st == stActUnack && (s.prev != stActUnack || s.mustRecord)

/-- R329: a group's outputs from its members. -/
def groupOutputs (n : Node) (g : GrpSt) (ms : List PointCfg) : GrpSt :=
  let act := ms.filter fun m => isActive (n.pointSt m.num)
  { g with
    active := !act.isEmpty
    unack := ms.any fun m => isUnack (n.pointSt m.num)
    top := act.foldl (fun a m => min a m.prio) 3
    nActive := act.length }

/-- R330: the member with the earliest RUN_START among those that enter, the lower number on a tie. -/
def firstOut (n : Node) (ms : List PointCfg) : Option (Nat × Nat) :=
  let cand := (ms.filter fun m => enters (n.pointSt m.num)).map fun m => (m.num, (n.pointSt m.num).runStart)
  match cand with
  | [] => none
  | c :: r => some (r.foldl (fun b x => if x.2 < b.2 ∨ (x.2 = b.2 ∧ x.1 < b.1) then x else b) c)

def groupEval (n : Node) (g : Nat) : GrpSt :=
  let ms := n.members g
  let s := n.groupOutputs (n.grpSt g) ms
  if s.armed then
    match n.firstOut ms with
    | some (p, _) => { s with captured := p, foValid := true, armed := false, foTime := n.tickTime }
    | none => s
  else s

/-- The checkpoint entry of a shelving clock that is cleared (19 Table 19.4); SHELVE writes the entry of one that is set. -/
def clockEntry (n : Node) (p : Nat) (a b : PointSt) : Node :=
  if a.shelf != 0 && b.shelf == 0 then n.ckpt 5 p 0 else n

/-- Step 4 (R308): every cell once, in the image's order. -/
def evalCell (n : Node) (x : CellRef) : Node :=
  match x with
  | .cond k => match n.cond k with | some c => n.setCond k (n.condEval c) | none => n
  | .point p =>
    match n.point p with
    | some c => let t := n.pointEval c; (n.setPoint p t).clockEntry p (n.pointSt p) t
    | none => n
  | .group g => n.setGrp g (n.groupEval g)

def evalCells (n : Node) : Node := n.evalOrder.foldl evalCell n

/-! Step 5. -/

/-- 14 Table 14.2: the ALARM record. -/
def alarmBody (c : PointCfg) (s : PointSt) : RecBody :=
  ⟨0x01, c.num, s.prev, s.st,
    [BitVec.ofNat 8 c.prio, BitVec.ofNat 8 (b2n s.latched + 2 * b2n s.stale + 4 * b2n s.supp)] ++ leBytes 8 s.value.toNat⟩

/-- R317: the record of one point, its FAB_CHG bit, and its reported state kept as the previous one. -/
def pointRecord (n : Node) (c : PointCfg) : Node :=
  let s := n.pointSt c.num
  let differs := s.st != s.prev || s.mustRecord
  let n := if differs then n.issueNow (alarmBody c s) else n
  let n := if s.st != s.prev then n.mFab fun f => { f with chg := setBit f.chg c.num } else n
  n.setPoint c.num { s with prev := s.st, mustRecord := false }

/-- R330: the first-out record of a group that captured in this tick. -/
def groupRecord (n : Node) (g : Nat) : Node :=
  let s := n.grpSt g
  if s.foValid && s.foTime == n.tickTime then
    n.issueNow ⟨0x03, g, 0, 0, leBytes 2 s.captured ++ leBytes 8 (n.pointSt s.captured).runStart⟩
  else n

def recordCell (n : Node) (x : CellRef) : Node :=
  match x with
  | .cond _ => n
  | .point p => match n.point p with | some c => n.pointRecord c | none => n
  | .group g => n.groupRecord g

def quiet (s : GrpSt) : Bool := !s.active && !s.unack

/-- A group's capture cleared and the group armed (R331). -/
def rearm (s : GrpSt) : GrpSt := { s with captured := 0, foValid := false, armed := true, foTime := 0 }

/-- R331: quiet FO_AUTO groups re-arm at the end of step 5. -/
def autoRearm (n : Node) : Node :=
  n.groups.foldl (fun n g =>
    let s := n.grpSt g.num
    if g.foAuto && !s.armed && quiet s then n.setGrp g.num (rearm s) else n) n

/-- Step 5: records in evaluation order, the re-arm, then the update of R342. -/
def recordCells (n : Node) : Node :=
  let n := n.evalOrder.foldl recordCell n
  let n := n.autoRearm
  n.mFab fun f => { f with shown := f.cells, tick := (f.tick + 1) % 2 ^ 32 }

/-! Commands, from arrival to effect (R325 to R327). -/

/-- The next CMD_ID: one 16-bit counter that skips 0 (R326). -/
def takeCmdId (n : Node) : Nat × Node :=
  (n.fab.cmdId, n.mFab fun f => { f with cmdId := if f.cmdId = 0xFFFF then 1 else f.cmdId + 1 })

/-- Where a command for an owner goes (R327, R35): nowhere, into the own queue, or over the ring. -/
inductive Dest where
  | unreachable
  | own
  | send (dst : BitVec 16) (owner : Nat)
deriving DecidableEq, Repr

/-- The owner's nodes on the ring that evaluate: the owner and its partner where their STATUS says NONE or DUTY. -/
def ownerNodes (n : Node) (k : Nat) : BitVec 16 :=
  let mate := match n.img with
    | some i => (i.sec.ring.find? fun e : RingCfg => e.node == k).bind fun e => e.partner
    | none => none
  ([k] ++ mate.toList).foldl (fun m j =>
    if bit n.tide.view j && (n.peerStatus j).any (fun s => s.role == 0 || s.role == 4) then setBit m j else m) 0

def dest (n : Node) (o : Option Nat) : Dest :=
  let ownSpace := match o with
    | none => true
    | some k => k == n.sys.node || n.partner == some k
  if ownSpace then
    if n.img.isNone then .unreachable
    else if n.ownDuty then (if n.pwr.parked then .unreachable else .own)
    else match n.partner with
      | some p => if n.partnerDuty && n.tide.st == .inserted then .send (1#16 <<< p) p else .unreachable
      | none => .unreachable
  else
    let k := o.getD 0
    let d := n.ownerNodes k
    if n.tide.st == .inserted && d != 0 then .send d k else .unreachable

/-- Commands accepted and waiting (R325: a queue of 256). -/
def queued (n : Node) : Nat := (n.fab.queue.filter (·.reason == 0)).length
def queueFull (n : Node) : Bool := decide (256 ≤ n.queued)

/-- The first refusal of FAB_CMD_STAT that applies at the owner (R327, R613); `maint` says the node of entry is in maintenance
mode with a host write. -/
def fabRefusal (n : Node) (op target arg : Nat) (maint : Bool) : Nat :=
  let isGroup := op == 2 || op == 8
  let pt := n.point target
  if op = 0 ∨ 8 < op then 1
  else if (if isGroup then (n.group target).isNone else pt.isNone) then 2
  else if (op = 6 ∨ op = 7) ∧ !maint then 3
  else if n.queueFull then 4
  else if op = 3 ∧ (pt.any fun c => c.prio == 0 || c.shelveMax == 0) then 5
  else if op = 3 ∧ (pt.any fun c => decide (c.shelveMax < arg)) then 6
  else 0

def pushCmd (n : Node) (c : QCmd) : Node := n.mFab fun f => { f with queue := f.queue ++ [c] }

/-- FAB_CMD_STAT and FAB_FLAGS after a host write that was refused. -/
def fabRefused (n : Node) (code : Nat) : Node :=
  n.mFab fun f => { f with
    cmdResult := code
    flags := let g := setBit f.flags 0; if code = 4 then setBit g 3 else g }

def fabAccepted (n : Node) (code id : Nat) : Node := n.mFab fun f => { f with cmdResult := code, cmdStatId := id }

/-- A write of FAB_CMD (R326, R327): `o` is the OWNER when REMOTE is 1. -/
def fabHost (n : Node) (op target arg : Nat) (o : Option Nat) : Node :=
  if op = 0 ∨ 8 < op then n.fabRefused 1
  else match n.dest o with
    | .unreachable => n.fabRefused (if (op = 6 ∨ op = 7) ∧ !n.sec.maint then 3 else 7)
    | .own =>
      let code := n.fabRefusal op target arg n.sec.maint
      if code ≠ 0 then n.fabRefused code
      else
        let (id, n) := n.takeCmdId
        (n.pushCmd ⟨op, target, arg, 0, n.sys.node, id, 0⟩).fabAccepted 0 id
    | .send d k =>
      if (op = 6 ∨ op = 7) ∧ !n.sec.maint then n.fabRefused 3
      else
        let (id, n) := n.takeCmdId
        (n.sendFrame d (.command (.forward k ⟨op, target, arg, 1, n.sys.node, id, 0⟩))).fabAccepted 0x10 id

/-- A command that reaches the owner from outside its own host port; one it cannot accept keeps its place and its reason for
the record of step 3 (R327). -/
def arrive (n : Node) (c : QCmd) (code : Nat) : Node :=
  let n := if code = (if c.op < 0x10 then 4 else 5) then n.mFab fun f => { f with flags := setBit f.flags 3 } else n
  n.pushCmd { c with reason := code }

/-- A fabric command from a network port or a panel input, for owner `o` or the own pair (R325, R326): path 2 or 3. OUT_OF_SERVICE and
IN_SERVICE are not accepted from there, and not forwarded (R324). -/
def fabNet (n : Node) (o : Option Nat) (op target arg path : Nat) : Node :=
  match n.dest o with
  | .unreachable => n
  | .own =>
    let (id, n) := n.takeCmdId
    n.arrive ⟨op, target, arg, path, n.sys.node, id, 0⟩ (n.fabRefusal op target arg false)
  | .send d k =>
    if op = 6 ∨ op = 7 then n
    else
      let (id, n) := n.takeCmdId
      n.sendFrame d (.command (.forward k ⟨op, target, arg, 1, n.sys.node, id, 0⟩))

/-- A fabric command by the way it entered. -/
def fabCommand (n : Node) (op target arg : Nat) (o : Origin) : Node :=
  match o with
  | .host => n.fabHost op target arg none
  | .remote k => n.fabHost op target arg (some k.val)
  | .net _ => n.fabNet none op target arg 2
  | .panel => n.fabNet none op target arg 3

/-! Step 3. -/

/-- 14 Table 14.2: the COMMAND record. Outcomes: 0 EFFECT, 1 NO_EFFECT, 2 REFUSED. -/
def commandBody (c : QCmd) (source outcome reason : Nat) : RecBody :=
  ⟨0x02, source, 0, 0, leBytes 1 c.op ++ leBytes 1 outcome ++ leBytes 1 reason ++ leBytes 1 c.path ++ leBytes 1 c.orig ++
    leBytes 2 c.cmdId ++ leBytes 3 c.arg⟩

/-- ACK of one point (Table 10.6); none where it has no effect. -/
def ackPoint (s : PointSt) : Option PointSt :=
  if s.st = stActUnack then some { s with st := stActAck }
  else if s.st = stRectUnack then some { s with st := stNormal }
  else none

def ackMembers (n : Node) (ms : List PointCfg) : Node × Bool :=
  ms.foldl (fun (n, any) m =>
    match ackPoint (n.pointSt m.num) with
    | some s => (n.setPoint m.num s, true)
    | none => (n, any)) (n, false)

/-- SHELVE (R323): the clock is set and the point is Shelved. -/
def shelvePoint (c : PointCfg) (arg : Nat) (s : PointSt) : PointSt :=
  { s with st := stShelved, latched := false, shelf := if arg = 0 then c.shelveMax else arg, shelfSet := true }

/-- The effect of a point command and its outcome: 0 EFFECT, 1 NO_EFFECT, 2 REFUSED with a reason (Table 10.6, R327). -/
def pointCommand (c : PointCfg) (op arg : Nat) (s : PointSt) : PointSt × Nat × Nat :=
  match op with
  | 1 => match ackPoint s with | some t => (t, 0, 0) | none => (s, 1, 0)
  | 3 =>
    if c.prio = 0 ∨ c.shelveMax = 0 then (s, 2, 5)
    else if c.shelveMax < arg then (s, 2, 6)
    else if s.st = stOutOfService then (s, 1, 0)
    else (shelvePoint c arg s, 0, 0)
  | 4 => if s.st = stShelved then ({ s with st := returnState s, shelf := 0, shelfSet := false }, 0, 0) else (s, 1, 0)
  | 5 =>
    if s.latched && !s.f then
      ({ s with latched := false, st := if s.st = stActAck then stNormal else stRectUnack }, 0, 0)
    else (s, 1, 0)
  | 6 =>
    if s.st = stOutOfService then (s, 1, 0)
    else ({ s with st := stOutOfService, latched := false, shelf := 0, shelfSet := false }, 0, 0)
  | 7 => if s.st = stOutOfService then ({ s with st := returnState s }, 0, 0) else (s, 1, 0)
  | _ => (s, 2, 1)

/-- The checkpoint entries of a changed Out of service mark and shelving clock (R340). -/
def markEntries (n : Node) (p : Nat) (a b : PointSt) : Node :=
  let n := if (a.st == stOutOfService) != (b.st == stOutOfService) then n.ckpt 4 p (b2n (b.st == stOutOfService)) else n
  n.clockEntry p a b

/-- Step 3 for one fabric command, with its record (R326, R327). -/
def applyFab (n : Node) (c : QCmd) : Node :=
  if c.reason ≠ 0 then n.issueNow (commandBody c c.target 2 c.reason)
  else if c.op = 2 then
    if (n.group c.target).isNone then n.issueNow (commandBody c c.target 1 0)
    else
      let (n, any) := n.ackMembers (n.members c.target)
      n.issueNow (commandBody c c.target (if any then 0 else 1) 0)
  else if c.op = 8 then
    let s := n.grpSt c.target
    if (n.group c.target).isSome && quiet (n.groupOutputs s (n.members c.target)) then
      (n.setGrp c.target (rearm s)).issueNow (commandBody c c.target 0 0)
    else n.issueNow (commandBody c c.target 1 0)
  else match n.point c.target with
    | none => n.issueNow (commandBody c c.target 1 0)
    | some p =>
      let s := n.pointSt c.target
      let (t, out, why) := pointCommand p c.op c.arg s
      let n := n.setPoint c.target t
      let n := if c.op = 3 ∧ out = 0 then n.ckpt 5 c.target t.shelf else n.markEntries c.target s t
      n.issueNow (commandBody c c.target out why)

/-! Single triggers of step 4, as events of their own: each is the last count of its counter (log entry 13), and does nothing where
that count is not the last, or where the node evaluates no fabric (R341). -/

def ifEvaluates (n : Node) (f : Node → Node) : Node := if n.evaluates then f n else n

/-- R316: a running counter reaches its delay, sets or clears F, and Table 10.5 moves the point. -/
def delayExpiry (n : Node) (p : Nat) (rise : Bool) : Node :=
  match n.point p with
  | none => n
  | some c =>
    let s := n.pointSt p
    let lim := n.ticksOf c (if rise then 4 else 5)
    if s.f != rise && s.running && !s.supp && decide (lim ≤ s.cnt + 1) then
      let t := { s with f := rise, cnt := 0, running := false }
      n.setPoint p (if overlay s.st then t else conditionMove c.latch s.f t)
    else n

/-- R321, R322: a hold counter at its end lets suppression end, and the point leaves Suppressed by the return rule. -/
def holdExpiry (n : Node) (p : Nat) : Node :=
  match n.point p with
  | none => n
  | some c =>
    let s := n.pointSt p
    if s.supp && s.hold == 1 then
      let t := delayEval (n.ticksOf c 4) (n.ticksOf c 5) n.tickTime { s with supp := false, hold := 0 }
      n.setPoint p (if t.st = stSuppressed then { t with st := returnState t } else t)
    else n

/-- R323: a shelving clock at its end lets the point leave Shelved by the return rule. -/
def shelfExpiry (n : Node) (p : Nat) : Node :=
  let s := n.pointSt p
  if s.st = stShelved ∧ s.shelf ≤ 1 ∧ !s.shelfSet then
    let t := { s with shelf := 0, st := returnState s }
    (n.setPoint p t).markEntries p s t
  else n

/-! The FAB window (R332 to R336). -/

/-- The first of Table 10.11's items that is a tunable one. -/
def tunableItem (item : Nat) : Bool := decide (2 ≤ item) && decide (item ≤ 6)

def itemExists (kind item : Nat) : Bool :=
  match kind with
  | 0 => decide (item ≤ 9)
  | 1 => decide (item = 0)
  | 2 => decide (item ≤ 2)
  | _ => false

def cellExists (n : Node) (kind idx : Nat) : Bool :=
  match kind with
  | 0 => (n.point idx).isSome
  | 1 => (n.cond idx).isSome
  | 2 => (n.group idx).isSome
  | _ => false

def condOpCode : CondOp → Nat
  | .and => 0 | .or => 1 | .not => 2 | .kofn => 3

/-- Table 10.11: the 64 bits of an item, from the copy of the last step 5. -/
def windowItem (n : Node) (kind idx item : Nat) : B64 :=
  let w (lo hi : Nat) : B64 := BitVec.ofNat 64 (lo + hi * 2 ^ 32)
  match kind with
  | 0 =>
    match n.point idx with
    | none => 0
    | some c =>
      let s := n.shownPoint idx
      match item with
      | 0 => w (s.st + c.prio * 2 ^ 8 + b2n s.f * 2 ^ 10 + b2n s.latched * 2 ^ 11 + b2n s.stale * 2 ^ 12 + b2n s.supp * 2 ^ 13 +
          b2n s.r * 2 ^ 14 + (c.group.getD 0x3FF) * 2 ^ 16) 0
      | 1 => s.value
      | 7 => w (s.cnt % 2 ^ 17 + b2n s.f * 2 ^ 31) s.hold
      | 8 => w s.shelf c.shelveMax
      | 9 => BitVec.ofNat 64 s.runStart
      | k => n.inForce c k
  | 1 =>
    match n.cond idx with
    | none => 0
    | some c =>
      let s := tget {} n.fab.shown.conds idx
      w (b2n s.out + condOpCode c.op * 2 + (c.k % 16) * 16 + bitsNat s.ins * 256) 0
  | _ =>
    let s := n.shownGrp idx
    match item with
    | 0 => w (b2n s.active + b2n s.unack * 2 + s.top * 4 + b2n (quiet s) * 16 + s.nActive * 2 ^ 16) 0
    | 1 => w (s.captured + b2n s.foValid * 2 ^ 16 + b2n s.armed * 2 ^ 17 + b2n ((n.group idx).any (·.foAuto)) * 2 ^ 18) 0
    | _ => BitVec.ofNat 64 s.foTime

/-- Whether a value lies inside a tunable's bounds: TH and HYS as binary64, the tick items as integers (R334). -/
def insideBounds (t : TuneCfg) (v : B64) : Bool :=
  if t.item ≤ 3 then b64Le t.lo v && b64Le v t.hi else decide (t.lo.toNat ≤ v.toNat) && decide (v.toNat ≤ t.hi.toNat)

/-- A pending write of the same tunable is replaced and takes no further place (R334). -/
def putTune (l : List TunePend) (x : TunePend) : List TunePend :=
  if l.any (fun y => y.cell == x.cell && y.item == x.item) then
    l.map fun y => if y.cell = x.cell ∧ y.item = x.item then x else y
  else l ++ [x]

/-- The refusal of a tunable write, 0 for none, in the order of FAB_WIN_STAT (R334, R613; R86). -/
def tuneRefusal (n : Node) (cell item : Nat) (v : B64) : Nat :=
  match n.tune cell item with
  | none => 1
  | some t =>
    let known := n.fab.tunePend.any fun y => y.cell == cell && y.item == item
    if (3 < item ∨ !b64IsNaN v) ∧ !insideBounds t v then 2
    else if t.maintOnly && !n.sec.maint then 3
    else if item ≤ 3 ∧ !b64Finite v then 5
    else if !known && decide (64 ≤ n.fab.tunePend.length) then 7
    else if !n.ownDuty then 8
    else 0

/-- A WRITE of the window as it completes: its result, and the pending list. -/
def windowWrite (n : Node) (sel : Word) (v : B64) : Nat × Node :=
  let idx := bitsOf 0 10 sel
  let kind := bitsOf 12 2 sel
  let item := bitsOf 16 8 sel
  let base := item % 64
  if item ≠ base then (1, n)
  else if !n.cellExists kind idx || !itemExists kind base then (4, n)
  else if kind ≠ 0 ∨ !tunableItem base then (1, n)
  else
    let code := n.tuneRefusal idx base v
    if code ≠ 0 then (code, n) else (0, n.mFab fun f => { f with tunePend := putTune f.tunePend ⟨idx, base, v⟩ })

/-- A READ of the window as it completes: its result, and what it reads. -/
def windowRead (n : Node) (sel : Word) : Nat × Option B64 :=
  let idx := bitsOf 0 10 sel
  let kind := bitsOf 12 2 sel
  let item := bitsOf 16 8 sel
  let base := item % 64
  if !n.cellExists kind idx || !itemExists kind base then (4, none)
  else if item = base then (0, some (n.windowItem kind idx base))
  else if kind ≠ 0 ∨ !tunableItem base then (1, none)
  else match n.tune idx base with
    | none => (1, none)
    | some t => if 192 ≤ item then (4, none) else if 128 ≤ item then (0, some t.hi) else (0, some t.lo)

/-- A write to FAB_WIN_CMD (R332, R336): 1 READ, 2 WRITE. -/
def windowStart (n : Node) (op : Nat) : Node :=
  n.mFab fun f =>
    if op ≠ 1 ∧ op ≠ 2 then { f with winResult := 9, flags := setBit f.flags 1 }
    else if f.winRun.isSome then { f with winResult := 6, flags := setBit f.flags 1 }
    else { f with winRun := some (op, f.winSel, f.winData) }

/-- R332: a window operation completes. -/
def windowDone (n : Node) : Node :=
  match n.fab.winRun with
  | none => n
  | some (op, sel, v) =>
    let done (n : Node) (code : Nat) (d : Option B64) : Node := n.mFab fun f => { f with
      winRun := none
      winResult := code
      winData := d.getD f.winData
      flags := if code = 0 then f.flags else setBit f.flags 1 }
    if op = 1 then
      let (code, d) := n.windowRead sel
      done n code d
    else
      let (code, n) := n.windowWrite sel v
      done n code none

/-! Tunables at an epoch boundary (R333, 02 R85, R88). -/

/-- The index of a tunable in TUNE order. -/
def tuneIndex (n : Node) (cell item : Nat) : Nat :=
  n.tunes.findIdx fun t => t.cell == cell && t.item == item

/-- 14 R425 subtypes 6 and 8: the first 2 bytes of a hash tag, then the value. -/
def tuneBody (sub tag cell item : Nat) (v : B64) : RecBody :=
  ⟨0x10, cell, sub, item * 4, leBytes 2 tag ++ leBytes 8 v.toNat⟩

/-- A value in force changes, with counters already running: a running hold keeps the part that has passed (R333). -/
def applyTune (n : Node) (x : TunePend) : Node :=
  let s := n.pointSt x.cell
  let old := match n.point x.cell with | some c => n.ticksOf c 6 | none => 0
  let n := if x.item = 6 ∧ s.hold ≠ 0 then
      n.setPoint x.cell { s with hold := max 1 (s.hold + x.value.toNat - old) }
    else n
  let n := n.mFab fun f => { f with tuned := tset none f.tuned (tuneKey x.cell x.item) (some x.value) }
  let n := n.stepOne (tuneBody 6 n.hashTag x.cell x.item x.value)
  n.ckpt 1 (n.tuneIndex x.cell x.item) x.value.toNat

/-- The pending writes in TUNE order. -/
def pendingTunes (n : Node) : List TunePend := sortBy (fun x => n.tuneIndex x.cell x.item) n.fab.tunePend

/-- A confirmed activation falls due at the epoch boundary that comes next. -/
def activationFalls (n : Node) : Bool := n.sec.act.any fun a => a.confirmed && decide (a.boundary ≤ n.nextMultiple 1000000)

def applyTunes (n : Node) : Node :=
  if n.fab.tunePend.isEmpty || !n.ownDuty then n
  else
    let n := n.pendingTunes.foldl applyTune n
    n.mFab fun f => { f with tunePend := [], lastApply := 0 }

end Node

/-! The meanings of the fabric's commands. -/

/-- R316. The point's on-counter has reached ON_DELAY. -/
def execOnDelayExpiry (p : Fin 1024) (s : State) : Host.Outcome State Fault Refusal :=
  s.run fun n => n.ifEvaluates fun n => n.delayExpiry p.val true

/-- R316. The point's off-counter has reached OFF_DELAY. -/
def execOffDelayExpiry (p : Fin 1024) (s : State) : Host.Outcome State Fault Refusal :=
  s.run fun n => n.ifEvaluates fun n => n.delayExpiry p.val false

/-- R321. The hold counter reaches 0. -/
def execSuppHoldExpiry (p : Fin 1024) (s : State) : Host.Outcome State Fault Refusal :=
  s.run fun n => n.ifEvaluates fun n => n.holdExpiry p.val

/-- R323. The shelving clock reaches 0. -/
def execShelveExpiry (p : Fin 1024) (s : State) : Host.Outcome State Fault Refusal :=
  s.run fun n => n.ifEvaluates fun n => n.shelfExpiry p.val

/-- R326. ACK arrives for a point. -/
def execAck (p : Fin 1024) (o : Origin) (s : State) : Host.Outcome State Fault Refusal :=
  s.run fun n => n.fabCommand 1 p.val 0 o

/-- R326. ACK_GROUP arrives. -/
def execAckGroup (g : Fin 1024) (o : Origin) (s : State) : Host.Outcome State Fault Refusal :=
  s.run fun n => n.fabCommand 2 g.val 0 o

/-- R323. SHELVE arrives with the duration in FAB_CMD_ARG. -/
def execShelve (p : Fin 1024) (o : Origin) (s : State) : Host.Outcome State Fault Refusal :=
  s.run fun n => n.fabCommand 3 p.val n.fab.arg o

/-- R326. UNSHELVE arrives. -/
def execUnshelve (p : Fin 1024) (o : Origin) (s : State) : Host.Outcome State Fault Refusal :=
  s.run fun n => n.fabCommand 4 p.val 0 o

/-- R318. RESET arrives. -/
def execResetPoint (p : Fin 1024) (o : Origin) (s : State) : Host.Outcome State Fault Refusal :=
  s.run fun n => n.fabCommand 5 p.val 0 o

/-- R324. OUT_OF_SERVICE arrives. -/
def execOutOfService (p : Fin 1024) (o : Origin) (s : State) : Host.Outcome State Fault Refusal :=
  s.run fun n => n.fabCommand 6 p.val 0 o

/-- R324. IN_SERVICE arrives. -/
def execInService (p : Fin 1024) (o : Origin) (s : State) : Host.Outcome State Fault Refusal :=
  s.run fun n => n.fabCommand 7 p.val 0 o

/-- R331. FO_RESET arrives. -/
def execFoReset (g : Fin 1024) (o : Origin) (s : State) : Host.Outcome State Fault Refusal :=
  s.run fun n => n.fabCommand 8 g.val 0 o

/-- R332. A READ of the window starts. -/
def execWinRead (s : State) : Host.Outcome State Fault Refusal := s.run fun n => n.windowStart 1

/-- R332. A WRITE of the window starts. -/
def execWinWrite (s : State) : Host.Outcome State Fault Refusal := s.run fun n => n.windowStart 2

/-- R332. The running window operation completes. -/
def execWinOpDone (s : State) : Host.Outcome State Fault Refusal := s.run Node.windowDone

/-- R333. The pending tunable writes apply at the epoch boundary; where a confirmed activation falls due there too, they are its to discard (02
R88). -/
def execTunableApply (s : State) : Host.Outcome State Fault Refusal :=
  s.run fun n => if n.activationFalls then n else n.applyTunes

end Sys2Proof.Machine
end

