-- ==== Sys2Proof/Machine/Call.lean ====
section
/-! DEFINITION. Engineer call ladders (11): the roster, the dead-man watch, the ladders of step 6, call commands from arrival to
effect, the panel inputs, and the meanings of the call commands. -/

namespace Sys2Proof.Machine

namespace Node

def setLadder (n : Node) (l : Nat) (v : LadderSt) : Node :=
  n.mCall fun c => { c with ladders := tset {} c.ladders l v }

/-! Roster and targets (R343, R345). -/

def cabin (n : Node) (e : Nat) : List Nat := (n.engineer e).toList.map (·.cabin)
def room (n : Node) (r : Nat) : Option RoomCfg := n.rooms.find? (·.num == r)

/-- The engineers a target names, by the roster as it stands. -/
def targetEngineers (n : Node) : Target → List Nat
  | .duty => [n.call.duty]
  | .next => n.nextEngineer.toList
  | .all => (List.range 8).filter fun e => bit n.call.present e
  | .room _ => []
  | .bridge => []

/-- The DIO pins a target resolves to. -/
def targetPins (n : Node) (t : Target) : List Nat :=
  match t with
  | .room r => (n.room r).toList.map (·.sounder)
  | _ => (n.targetEngineers t).flatMap n.cabin

def isBridge : Target → Bool
  | .bridge => true
  | _ => false

/-- The targets of rungs 1 to k, with their patterns (R345). -/
def rungTargets (c : LadderCfg) (k : Nat) : List (Target × Bool) := (c.rungs.take k).flatMap (·.targets)

/-- The targets a ladder calls as it stands. -/
def called (n : Node) (c : LadderCfg) : List (Target × Bool) := rungTargets c (n.ladderSt c.num).rung

/-- BRIDGE is called by some ladder (R351). -/
def bridgeCalled (n : Node) : Bool := n.ladders.any fun c => (n.called c).any fun t => isBridge t.1

/-- The PULSE phase: on for 10 ticks and off for 10, in phase with the epoch (R346). -/
def pulseOn (t : Nat) : Bool := decide (t / 50000 % 20 < 10)

/-- A call output at a tick: steady where any call of it is STEADY, else pulsing where any is PULSE (R346); the prewarn output pulses
while DM_PREWARN is set (Table 11.2). -/
def callOutput (n : Node) (pin : Nat) : Bool :=
  let calls := (n.ladders.flatMap n.called).filter fun t => (n.targetPins t.1).contains pin
  let prewarn := (n.call.dmState == 2 || n.call.dmState == 3) && n.watch.any fun w => w.prewarnOut == some pin
  calls.any (fun t => !t.2) || ((!calls.isEmpty || prewarn) && pulseOn n.tickTime)

/-! Records (14 Table 14.2). -/

def callBody (source old new event : Nat) (shortened : Bool) (extra : Nat) : RecBody :=
  ⟨0x04, source, old, new, [BitVec.ofNat 8 event, BitVec.ofNat 8 (b2n shortened), BitVec.ofNat 8 extra]⟩

/-! The dead-man watch (R356, Table 11.2). -/

/-- A watch transition with its record; expiry sets DM_EXPIRED_SEEN. -/
def dmMove (n : Node) (new : Nat) : Node :=
  let old := n.call.dmState
  let n := n.mCall fun c => { c with dmState := new, flags := if new = 3 then setBit c.flags 2 else c.flags }
  n.issueNow (callBody 0x00FF old new 5 false 0)

/-- The timer loaded with DM_PERIOD, in ticks. -/
def dmLoad (n : Node) (w : WatchCfg) : Node := n.mCall fun c => { c with dmTimer := w.period * 20, dmLoaded := true }

/-- What start (4), stop (5) and reset (6) do in a state: a new state, NO_EFFECT, or refused (Table 11.2). -/
inductive DmOut where
  | move (new : Nat)
  | none
  | refused
deriving DecidableEq, Repr

def dmTable (op state : Nat) : DmOut :=
  match op, state with
  | 4, 0 => .move 1
  | 5, 1 => .move 0
  | 5, 2 => .move 0
  | 5, 3 => .refused
  | 6, 1 => .move 1
  | 6, 2 => .move 1
  | 6, 3 => .move 1
  | _, _ => .none

/-- A transition taken: start and reset load the timer, stop leaves it at 0. -/
def dmTake (n : Node) (w : WatchCfg) (new : Nat) : Node :=
  (if new = 1 then n.dmLoad w else n.mCall fun c => { c with dmTimer := 0 }).dmMove new

/-- A DIO edge of a watch input (R356). -/
def dmEdge (n : Node) (w : WatchCfg) (op : Nat) : Node :=
  match dmTable op n.call.dmState with
  | .move new => n.dmTake w new
  | _ => n

/-- The timer counts `d` ticks; PREWARN and EXPIRED follow, each with its record (R356, Table 11.4). -/
def dmCount (n : Node) (w : WatchCfg) (d : Nat) : Node :=
  let n := if n.call.dmState = 1 ∨ n.call.dmState = 2 then n.mCall fun c => { c with dmTimer := c.dmTimer - d } else n
  let n := if n.call.dmState = 1 ∧ n.call.dmTimer ≤ w.warn * 20 then n.dmMove 2 else n
  if n.call.dmState = 2 ∧ n.call.dmTimer = 0 then n.dmMove 3 else n

/-- Rising edges between the previous and the current snapshot, in increasing pin number (R353). No edge comes from a bank with
LINK_LOST, nor in the first tick after a start or after taking duty. -/
def risingPins (n : Node) : List Nat :=
  if n.call.fresh then []
  else (List.range 32).filter fun p =>
    bit n.dio.inp p && !bit n.call.inPrev p && !(n.bankSt (p / 8)).linkLost

/-- Step 6, the watch: edges in pin order, then the timer. -/
def watchStep (n : Node) (edges : List Nat) (held : Nat) : Node :=
  match n.watch with
  | none => n
  | some w =>
    let n := edges.foldl (fun n p =>
      let n := if w.startIn = some p then n.dmEdge w 4 else n
      let n := if w.stopIn = some p then n.dmEdge w 5 else n
      if w.resetIn = some p then n.dmEdge w 6 else n) n
    let n := if n.call.dmLoaded then n else n.dmCount w (1 + held)
    n.mCall fun c => { c with dmLoaded := false }

/-! Ladders (R347 to R351, Table 11.1). -/

/-- A boolean trigger (R348): the watch's own sources as the watch left them, a cell's output as step 4 left it in `cells`; a stale source keeps
its previous reading. -/
def readTrigger (n : Node) (cells : Cells) (prev : Bool) (x : Source) : Bool :=
  match x with
  | .dmPrewarn => n.call.dmState == 2 || n.call.dmState == 3
  | .dmExpired => n.call.dmState == 3
  | _ => let r := (n.mCells fun _ => cells).readSrc none x; if r.stale then prev else r.b

def ladderReadings (n : Node) (cells : Cells) (c : LadderCfg) : List Bool :=
  let prev := if n.call.fresh then [] else (n.ladderSt c.num).prev
  c.triggers.mapIdx fun i t =>
    match t with
    | .src x => n.readTrigger cells (prev.getD i false) x
    | _ => false

/-- A trigger event in this tick (R347): `entered` are the points that entered Active-unacknowledged. -/
def triggerEvent (n : Node) (c : LadderCfg) (entered : List Nat) (now : List Bool) : Bool :=
  let prev := if n.call.fresh then [] else (n.ladderSt c.num).prev
  (c.triggers.mapIdx fun i t =>
    match t with
    | .point p => entered.contains p
    | .group g => (n.members g).any fun m => entered.contains m.num
    | .src _ => now.getD i false && !prev.getD i false).any id

/-- STOP_CLEAR's condition (Table 11.1). -/
def triggersClear (n : Node) (c : LadderCfg) (now : List Bool) : Bool :=
  (c.triggers.mapIdx fun i t =>
    match t with
    | .point p => !isUnack (n.pointSt p)
    | .group g => !(n.members g).any fun m => isUnack (n.pointSt m.num)
    | .src _ => !now.getD i false).all id

/-- R350: with FAST_ESCALATE, an output of the current rung in a faulted bank limits the remaining timer to 600 ticks. -/
def limitTimer (n : Node) (c : LadderCfg) (s : LadderSt) : LadderSt :=
  let pins := (c.rungs.getD (s.rung - 1) ⟨[], 0⟩).targets.flatMap fun t => n.targetPins t.1
  if c.fastEscalate && pins.any (fun p => n.bankFault (p / 8) || (n.bankSt (p / 8)).linkLost) then
    { s with timer := min s.timer 600, shortened := true }
  else s

/-- Rung k adds a target beyond those of the rungs below it (Table 11.1, the last row). -/
def rungAdds (n : Node) (c : LadderCfg) (k : Nat) : Bool :=
  let own := (c.rungs.getD (k - 1) ⟨[], 0⟩).targets
  let below := rungTargets c (k - 1)
  let had := below.flatMap fun t => n.targetPins t.1
  (own.flatMap fun t => n.targetPins t.1).any (fun p => !had.contains p) ||
    (own.any (fun t => isBridge t.1) && !below.any fun t => isBridge t.1)

/-- Rung k entered, with its record; a rung that adds nothing is passed at once, and the last rung is held. `fuel` bounds the rungs
passed. -/
def enterRung (c : LadderCfg) (old : Nat) : Nat → Nat → Node → Node
  | 0, _, n => n
  | fuel + 1, k, n =>
    let s := n.ladderSt c.num
    let s := n.limitTimer c { s with
      rung := k
      shortened := false
      timer := (c.rungs.getD (k - 1) ⟨[], 0⟩).timer
      repeats := if k = 1 then 0 else s.repeats }
    let n := (n.setLadder c.num s).issueNow (callBody c.num old k 1 s.shortened 0)
    if k < c.rungs.length && !n.rungAdds c k then enterRung c k fuel (k + 1) n else n

/-- The last rung's timer loaded again, with its REPEAT record. -/
def repeatRung (n : Node) (c : LadderCfg) : Node :=
  let s := n.ladderSt c.num
  let s := n.limitTimer c { s with
    timer := (c.rungs.getD (s.rung - 1) ⟨[], 0⟩).timer
    shortened := false
    repeats := satInc 0xFFF s.repeats }
  (n.setLadder c.num s).issueNow (callBody c.num s.rung s.rung 2 s.shortened 0)

/-- A rung timer reaches 0 (R349). -/
def rungExpires (n : Node) (c : LadderCfg) : Node :=
  let k := (n.ladderSt c.num).rung
  if k < c.rungs.length then enterRung c k 4 (k + 1) n else n.repeatRung c

/-- A calling ladder counts `d` ticks; an expiry leaves the ticks over to the timer it loads (Table 11.4). -/
def countRung (c : LadderCfg) : Nat → Nat → Node → Node
  | 0, _, n => n
  | fuel + 1, d, n =>
    let s := n.ladderSt c.num
    if d < s.timer then n.setLadder c.num (n.limitTimer c { s with timer := s.timer - d })
    else
      let n := n.rungExpires c
      if d - s.timer = 0 then n else countRung c fuel (d - s.timer) n

def ladderStep (n : Node) (cells : Cells) (entered : List Nat) (held : Nat) (c : LadderCfg) : Node :=
  let now := n.ladderReadings cells c
  let event := n.triggerEvent c entered now
  let s := n.ladderSt c.num
  let n :=
    if s.rung = 0 then (if event then enterRung c 0 4 1 n else n)
    else if c.stopClear && n.triggersClear c now then
      (n.setLadder c.num { s with rung := 0, timer := 0, shortened := false }).issueNow
        (callBody c.num s.rung 0 3 s.shortened 0)
    else countRung c (1 + held) (1 + held) n
  n.setLadder c.num { n.ladderSt c.num with prev := now }

/-- The BRIDGE call as it stands (R351). -/
def bridgeUpdate (n : Node) : Node :=
  let on := n.bridgeCalled
  n.mCall fun c => { c with bridgeOn := on, flags := if on then setBit c.flags 1 else c.flags }

/-- The targets of every ladder are resolved against the roster as it stands (R345). -/
def resolveRoster (n : Node) : Node := n.mCall fun c => { c with roster := (c.duty, c.present) }

/-- Step 6 (R348): the watch, then the ladders in number order. `cells` are the cells as step 4 left them; `held` are the ticks CORE was held
before this one (R146). -/
def callStep (n : Node) (cells : Cells) (entered edges : List Nat) (held : Nat) : Node :=
  let n := n.resolveRoster.watchStep edges held
  let n := n.ladders.foldl (fun n c => n.ladderStep cells entered held c) n
  let n := n.bridgeUpdate
  n.mCall fun c => { c with fresh := false }

/-! Call commands, from arrival to effect (R353 to R355). The OP of CALL_CMD plus 0x10: 0x11 CALL_ACK, 0x12 SET_DUTY,
0x13 SET_PRESENT, 0x14 DM_START, 0x15 DM_STOP, 0x16 DM_RESET. -/

/-- The scope as R354 names it in SOURCE. -/
def scopeCode : CallScope → Nat
  | .ladder l => l.val
  | .all => 0x00FF
  | .engineer e => 0x0100 + e.val
  | .room r => 0x0200 + r.val

/-- A mask marks present an engineer the image does not define. -/
def maskUndefined (n : Node) (mask : Nat) : Bool :=
  (List.range 8).any fun e => mask.testBit e && (n.engineer e).isNone

/-- The refusals of CALL_CMD that depend on the image alone (R355), 0 for none: 0x02 or 0x08. -/
def callImageRefusal (n : Node) (op arg : Nat) : Nat :=
  if op = 0x12 ∧ (n.engineer arg).isNone then 2
  else if op = 0x13 ∧ n.maskUndefined arg then 2
  else if 0x14 ≤ op ∧ n.watch.isNone then 8
  else 0

/-- The first refusal of CALL_CMD_STAT at the owner's duty (R344, R355, R613); `room` says the queue has a place. -/
def callRefusal (n : Node) (op arg : Nat) (full : Bool) : Nat :=
  if op < 0x11 ∨ 0x16 < op then 1
  else if (op = 0x12 ∧ (n.engineer arg).isNone) ∨ (op = 0x13 ∧ n.maskUndefined arg) then 2
  else if op = 0x12 ∧ !bit n.call.present arg then 3
  else if op = 0x13 ∧ !arg.testBit n.call.duty then 4
  else if full then 5
  else if op = 0x15 ∧ n.watch.isSome ∧ n.call.dmState = 3 then 6
  else if 0x14 ≤ op ∧ n.watch.isNone then 8
  else 0

def callRefused (n : Node) (code : Nat) : Node :=
  n.mCall fun c => { c with cmdResult := code, flags := setBit c.flags 0 }

def callAccepted (n : Node) (code id : Nat) : Node := n.mCall fun c => { c with cmdResult := code, cmdStatId := id }

/-- A write of CALL_CMD (R355). -/
def callHost (n : Node) (op target arg : Nat) : Node :=
  if op < 0x11 ∨ 0x16 < op then n.callRefused 1
  else match n.dest none with
    | .own =>
      let code := n.callRefusal op arg n.queueFull
      if code ≠ 0 then n.callRefused code
      else
        let (id, n) := n.takeCmdId
        (n.pushCmd ⟨op, target, arg, 0, n.sys.node, id, 0⟩).callAccepted 0 id
    | .unreachable => n.callRefused (if n.img.isSome ∧ n.callImageRefusal op arg = 2 then 2 else 7)
    | .send d k =>
      let code := n.callImageRefusal op arg
      if code ≠ 0 then n.callRefused code
      else
        let (id, n) := n.takeCmdId
        (n.sendFrame d (.command (.forward k ⟨op, target, arg, 1, n.sys.node, id, 0⟩))).callAccepted 0x10 id

/-- A call command from a network port (path 2) or a panel input (path 3), for owner `o` or the own pair. -/
def callNet (n : Node) (o : Option Nat) (op target arg path : Nat) : Node :=
  match n.dest o with
  | .unreachable => n
  | .own =>
    let (id, n) := n.takeCmdId
    n.arrive ⟨op, target, arg, path, n.sys.node, id, 0⟩ (if n.queueFull then 5 else 0)
  | .send d k =>
    if path = 3 then n
    else
      let (id, n) := n.takeCmdId
      n.sendFrame d (.command (.forward k ⟨op, target, arg, 1, n.sys.node, id, 0⟩))

def callCommand (n : Node) (op target arg : Nat) (o : Origin) : Node :=
  match o with
  | .host => n.callHost op target arg
  | .remote _ => n.callHost op target arg
  | .net _ => n.callNet none op target arg 2
  | .panel => n.callNet none op target arg 3

/-- Step 2: the acknowledge inputs' edges queue their CALL_ACK, in increasing pin number (R353). -/
def panelEdges (n : Node) (edges : List Nat) : Node :=
  edges.foldl (fun n p =>
    let n := n.engineers.foldl (fun n e =>
      if e.ackIn = some p then n.callNet none 0x11 (0x0100 + e.num) 0 3 else n) n
    n.rooms.foldl (fun n r => if r.ackIn = some p then n.callNet none 0x11 (0x0200 + r.num) 0 3 else n) n) n

/-! Step 3. -/

/-- A ladder lies in the scope of a CALL_ACK (R353): an engineer's cabin is called as the last step 6 resolved it (R345). -/
def inScope (n : Node) (c : LadderCfg) (target : Nat) : Bool :=
  let m := n.mCall fun q => { q with duty := q.roster.1, present := q.roster.2 }
  if target = 0x00FF then true
  else if target < 0x00FF then c.num == target
  else if target < 0x0200 then (n.called c).any fun t => (m.targetEngineers t.1).contains (target - 0x0100)
  else (n.called c).any fun t => match t.1 with | .room r => r == target - 0x0200 | _ => false

/-- CALL_ACK applied: each calling ladder of its scope ends, with a record each (R353, R354). -/
def applyCallAck (n : Node) (c : QCmd) : Node :=
  let hit := n.ladders.filter fun l => (n.ladderSt l.num).rung != 0 && n.inScope l c.target
  if hit.isEmpty then n.issueNow (commandBody c c.target 1 0)
  else
    let n := hit.foldl (fun n l =>
      let s := n.ladderSt l.num
      (n.setLadder l.num { s with rung := 0, timer := 0, shortened := false }).issueNow (commandBody c l.num 0 0)) n
    n.bridgeUpdate

/-- The roster's checkpoint entry (R359, 19 Table 19.4). -/
def rosterEntry (n : Node) : Node := n.ckpt 6 0 (n.call.duty + n.call.present.toNat * 256)

/-- Step 3 for one call command, with its record (R344, R355, R356). -/
def applyCall (n : Node) (c : QCmd) : Node :=
  let why := if c.reason ≠ 0 then c.reason else n.callRefusal c.op c.arg false
  if why ≠ 0 then n.issueNow (commandBody c c.target 2 why)
  else if c.op = 0x11 then n.applyCallAck c
  else if c.op = 0x12 then
    let old := n.call.duty
    if c.arg = old then n.issueNow (commandBody c c.target 1 0)
    else
      let n := n.issueNow (commandBody c c.target 0 0)
      let n := n.mCall fun q => { q with duty := c.arg }
      (n.issueNow (callBody 0x00FE old c.arg 4 false 0)).rosterEntry
  else if c.op = 0x13 then
    let old := n.call.present.toNat
    if c.arg = old then n.issueNow (commandBody c c.target 1 0)
    else
      let n := n.issueNow (commandBody c c.target 0 0)
      let n := n.mCall fun q => { q with present := BitVec.ofNat 8 c.arg }
      (n.issueNow (callBody 0x00FE old c.arg 4 false 1)).rosterEntry
  else match n.watch with
    | none => n.issueNow (commandBody c c.target 2 8)
    | some w =>
      match dmTable (c.op - 0x10) n.call.dmState with
      | .move new => (n.issueNow (commandBody c c.target 0 0)).dmTake w new
      | .none => n.issueNow (commandBody c c.target 1 0)
      | .refused => n.issueNow (commandBody c c.target 2 6)

/-- Step 3 (R325): every queued command in order of arrival. -/
def applyCommands (n : Node) : Node :=
  let l := n.fab.queue
  let n := n.mFab fun f => { f with queue := [] }
  l.foldl (fun n c => if c.op < 0x10 then n.applyFab c else n.applyCall c) n

end Node

/-! The meanings of the call commands. -/

/-- R353. CALL_ACK arrives. -/
def execCallAck (scope : CallScope) (o : Origin) (s : State) : Host.Outcome State Fault Refusal :=
  s.run fun n => n.callCommand 0x11 (Node.scopeCode scope) 0 o

/-- R344. SET_DUTY is written. -/
def execSetDuty (e : BitVec 8) (s : State) : Host.Outcome State Fault Refusal :=
  s.run fun n => n.callHost 0x12 e.toNat e.toNat

/-- R344. SET_PRESENT is written. -/
def execSetPresent (mask : BitVec 8) (s : State) : Host.Outcome State Fault Refusal :=
  s.run fun n => n.callHost 0x13 0 mask.toNat

/-- R356. DM_START is written. -/
def execDmStart (s : State) : Host.Outcome State Fault Refusal := s.run fun n => n.callHost 0x14 0x00FF 0

/-- R356. DM_STOP is written. -/
def execDmStop (s : State) : Host.Outcome State Fault Refusal := s.run fun n => n.callHost 0x15 0x00FF 0

/-- R356. DM_RESET is written. -/
def execDmReset (s : State) : Host.Outcome State Fault Refusal := s.run fun n => n.callHost 0x16 0x00FF 0

end Sys2Proof.Machine
end

