-- ==== Sys2Proof/Machine/Store.lean ====
section
/-! DEFINITION. The flash store (19): programs, erases, retirement, the order of operations, the failed state, and what a reset cuts. -/

namespace Sys2Proof.Machine

/-- The journal region and the checkpoint region (19 Table 19.1), and the slots of a sector after slot 0 (14 R437, 19 R586). -/
def jrnlFirst : Nat := 513
def jrnlLast : Nat := 2047
def ckLast : Nat := 256
def slotCap : Nat := 2047

/-- The bank record sector of a bank. -/
def bankSector (b : Bool) : Nat := if b then 512 else 384

/-- The class of 19 R591 that an operation waits in. -/
def FlashOp.order : FlashOp → Nat
  | .jrnl _ => 1
  | .ck _ => 2
  | .ident _ => 3
  | .bank _ _ => 3
  | .eraseAhead s => if s ≤ ckLast then 5 else 4
  | .compact _ => 5
  | .image _ _ _ => 6
  | .bankErase _ _ => 6
  | .repair _ => 7

/-- The sector an erase works on. -/
def FlashOp.erases : FlashOp → Option Nat
  | .eraseAhead s => some s
  | .repair s => some s
  | .bankErase b k => some (if k = 0 then bankSector b else (if b then 384 else 256) + k)
  | _ => none

namespace Node

def storFlag (n : Node) (i : Nat) : Node := n.mStor fun s => { s with flags := setBit s.flags i }
def updSector (n : Node) (k : Nat) (f : Sector → Sector) : Node := n.mStor fun s => { s with sectors := tupd {} s.sectors k f }
def dataSectors (n : Node) (lo hi : Nat) : List (Nat × Sector) :=
  n.stor.sectors.filter fun e => decide (lo ≤ e.1) && decide (e.1 ≤ hi) && e.2.cls == .data

/-- The DATA sector of a region opened last. -/
def newestSector (n : Node) (lo hi : Nat) : Option (Nat × Sector) :=
  (n.dataSectors lo hi).foldl (fun b e => match b with
    | none => some e
    | some x => if x.2.serial < e.2.serial then some e else b) none

/-- SERIAL of the next opening in a region (Table 19.2). -/
def nextSerial (n : Node) (lo hi : Nat) : Nat :=
  ((n.stor.sectors.filter fun e => decide (lo ≤ e.1) && decide (e.1 ≤ hi)).map (·.2.serial)).foldl max 0 + 1

/-- Whether an operation waits or runs already. -/
def flashHas (n : Node) (op : FlashOp) : Bool := n.stor.cur == some op || n.stor.susp == some op || n.stor.wait.contains op

def addOnce (n : Node) (op : FlashOp) : Node := if n.flashHas op then n else n.flashAdd op

/-! The journal region (R583, R584). -/

/-- The first usable sector after `s`, in increasing number with the wrap. -/
def usableAfter (n : Node) (s : Nat) : Nat :=
  match ((List.range 1535).map fun i => jrnlFirst + (s + 1 - jrnlFirst + i) % 1535).find? fun k => (n.sector k).cls != .retired with
  | some k => k
  | none => jrnlFirst

/-- The journal sector being written, while it has a free slot. -/
def jrnlOpen (n : Node) : Option Nat :=
  match n.newestSector jrnlFirst jrnlLast with
  | some (k, s) => if s.slots.length < slotCap then some k else none
  | none => none

/-- The sector the journal opens next: after the newest one, retired or not. -/
def jrnlNext (n : Node) : Nat :=
  let opened := n.stor.sectors.filter fun e => decide (jrnlFirst ≤ e.1) && (e.2.cls == .data || e.2.cls == .retired)
  let newest := opened.foldl (fun b e => match b with
    | none => some e
    | some (x : Nat × Sector) => if x.2.serial < e.2.serial then some e else b) none
  n.usableAfter (match newest with | some e => e.1 | none => jrnlFirst - 1)

/-- The journal would have erased a retired sector that its erase-ahead passes: its records are held no longer (R578). -/
def passRetired (n : Node) (k last : Nat) : Node :=
  let place (s : Nat) := (s + 1535 - k) % 1535
  n.mStor fun s => { s with sectors := s.sectors.map fun e =>
    if e.2.cls = .retired ∧ jrnlFirst ≤ e.1 ∧ place e.1 < place last then (e.1, { e.2 with slots := [] }) else e }

/-- Erase-ahead: the three usable sectors after `k` are erased where they are not ERASED_OK. -/
def eraseAhead (n : Node) (k : Nat) : Node :=
  let a := n.usableAfter k
  let b := n.usableAfter a
  let c := n.usableAfter b
  [a, b, c].foldl (fun n s => if (n.sector s).cls == .erasedOk then n else n.addOnce (.eraseAhead s)) (n.passRetired k c)

/-- A journal sector with a free slot: the open one, or the next one opened if it is ERASED_OK. -/
def openJournal (n : Node) : Node :=
  if n.jrnlOpen.isSome then n
  else
    let k := n.jrnlNext
    if (n.sector k).cls == .erasedOk then
      (n.updSector k fun s => { s with cls := .data, serial := n.nextSerial jrnlFirst jrnlLast }).eraseAhead k
    else n.addOnce (.eraseAhead k)

/-- The records not yet in flash, oldest first. -/
def unwritten (n : Node) : List Record := (n.jrnl.ram.filter (! ·.flashed)).map (·.item)

/-- The next journal page: up to the end of the 256-byte page that holds the first free slot (R437, R577). -/
def journalPage (n : Node) : List Record :=
  match n.jrnlOpen with
  | none => []
  | some k => n.unwritten.take (8 - ((n.sector k).slots.length + 1) % 8)

/-! The checkpoint region (R586 to R588). -/

def ckNewest (n : Node) : Option Nat :=
  match n.newestSector 1 ckLast with
  | some (k, s) => if s.cks.length + s.torn < slotCap then some k else none
  | none => none

def ckData (n : Node) : Nat := (n.dataSectors 1 ckLast).length

/-- R588: the ERASED_OK sector with the lowest ERASES, the lowest number on a tie. -/
def ckFree (n : Node) : Option Nat :=
  ((List.range ckLast).map (· + 1)).foldl (fun b k =>
    if (n.sector k).cls != .erasedOk then b
    else match b with
      | none => some k
      | some x => if (n.sector k).erases < (n.sector x).erases then some k else b) none

/-- The DATA sector with the lowest SERIAL. -/
def ckOldest (n : Node) : Option Nat :=
  (((n.dataSectors 1 ckLast).foldl (fun b e => match b with
    | none => some e
    | some x => if e.2.serial < x.2.serial then some e else b) none)).map (·.1)

/-- The sector that the next entry goes to; with none, a failed entry is not tried again (01 R43). -/
def ckTarget (n : Node) : Option Nat := n.ckNewest.orElse fun _ => n.ckFree

/-- The checkpoint entries of every DATA sector, oldest first. -/
def ckEntries (n : Node) : List CkEntry := (sortBy (fun e : Nat × Sector => e.2.serial) (n.dataSectors 1 ckLast)).flatMap (·.2.cks)

/-- More than 8 DATA sectors make a compaction of the oldest (R588). -/
def compactDue (n : Node) : Node :=
  if n.ckData ≤ 8 then n else match n.ckOldest with | some k => n.addOnce (.compact k) | none => n

/-- A checkpoint sector with a free slot, opened where none is. -/
def openCk (n : Node) : Node :=
  if n.ckNewest.isSome || decide (8 < n.ckData) then n
  else match n.ckFree with
    | none => n
    | some k => (n.updSector k fun s => { s with cls := .data, serial := n.nextSerial 1 ckLast }).compactDue

def appendCk (n : Node) (e : CkEntry) : Node :=
  let n := n.openCk
  match n.ckNewest with
  | some k => n.updSector k fun s => { s with cks := s.cks ++ [e] }
  | none => n

/-- The entries of a sector that no later entry of the same kind, item and hash tag replaces. -/
def liveIn (n : Node) (k : Nat) : List CkEntry :=
  let here := (n.sector k).cks
  let later := (n.dataSectors 1 ckLast).filter fun e => decide ((n.sector k).serial < e.2.serial)
  let same (a b : CkEntry) : Bool := a.kind == b.kind && a.item == b.item && a.tag == b.tag
  (List.range here.length).filterMap fun i =>
    match here[i]? with
    | none => none
    | some a =>
      if (here.drop (i + 1)).any (same a) || later.any (fun e => e.2.cks.any (same a)) then none else some a

/-! The failed state (R595) and retirement (R578). -/

/-- The store enters FAILED: every write is rejected (R595, 14 R447). -/
def failStore (n : Node) (cause : Nat) : Node :=
  let lost (b : Bool) : Bool := (n.stor.cur.toList ++ n.stor.susp.toList ++ n.stor.wait).any fun | .image x _ _ => x == b | _ => false
  let n := n.mSec fun s => { s with
    a := if lost false then { s.a with bad := true } else s.a
    b := if lost true then { s.b with bad := true } else s.b }
  ((n.mStor fun s => { s with state := 2, failCause := cause, cur := none, susp := none, wait := [], tries := 0 }).storFlag 4).mJrnl
    fun j => { j with flashOk := false }

/-- R578: a sector of the checkpoint or journal region is retired, and joins the retirement list. -/
def retireSector (n : Node) (k : Nat) : Node :=
  let n := ((n.updSector k fun s => { s with cls := .retired }).storFlag 1).flashAdd (.ident (.retired k))
  if 1535 - n.retiredIn jrnlFirst jrnlLast < 8 then n.failStore 3 else n

/-! What an operation leaves in flash. -/

/-- R589, R590: an append to a log of the identity sector; a full log takes no more. -/
def appendIdent (n : Node) (e : IdEntry) : Node :=
  n.mStor fun s =>
    let i := s.ident
    match e with
    | .leap v => if n.leapFull then s else { s with ident := { i with leapLog := i.leapLog ++ [v] } }
    | .era v => if n.eraFull then { s with eraPend := none } else { s with ident := { i with eraLog := i.eraLog ++ [v] }, eraPend := none }
    | .retired k => if n.retiredFull then s else { s with ident := { i with retired := i.retired ++ [k] } }
    | .holdup => { s with ident := { i with holdups := satInc 0xFFFF i.holdups } }
    | .trip => { s with ident := { i with trips := satInc 0xFFFF i.trips } }
    | .cert l => { s with ident := { i with cert := some l } }

/-- An era that the store could not take goes to its log when the store next accepts such a write (14 R430). -/
def retryEra (n : Node) : Node := match n.stor.eraPend with | some v => n.addOnce (.ident (.era v)) | none => n

/-- A log entry that was cut or abandoned is torn: the next append follows it (R589). -/
def tearIdent (n : Node) (e : IdEntry) : Node :=
  n.mStor fun s =>
    match e with
    | .leap _ => if n.leapFull then s else { s with tornLeap := s.tornLeap + 1 }
    | .era _ => if n.eraFull then s else { s with tornEra := s.tornEra + 1 }
    | .retired _ => if n.retiredFull then s else { s with tornRetired := s.tornRetired + 1 }
    | _ => s

/-- An entry of a checkpoint sector or a bank record that was cut fails its CRC, and its slot is used up (Table 19.6). -/
def tearEntry (n : Node) (k : Nat) : Node :=
  n.updSector k fun s => if s.cls = .data then { s with torn := s.torn + 1 } else s

/-- R580: an entry of a bank record, behind a DATA header written first where the sector is erased. -/
def appendBank (n : Node) (b : Bool) (e : BankEntry) : Node :=
  n.updSector (bankSector b) fun s =>
    if s.cls == .erasedOk then { s with cls := .data, serial := s.serial + 1, banks := [e] }
    else { s with banks := s.banks ++ [e] }

/-- R581: a free entry slot in the bank record. -/
def bankSlotFree (n : Node) (b : Bool) : Bool :=
  let s := n.sector (bankSector b)
  decide (s.banks.length + s.torn < 1023)

def updBank (n : Node) (b : Bool) (f : BankSt → BankSt) : Node :=
  n.mSec fun s => if b then { s with b := f s.b } else { s with a := f s.a }

/-- A journal page in flash: its records, in SEQ order, and the marks in the RAM ring (14 R436). -/
def journalWritten (n : Node) (recs : List Record) : Node :=
  match n.jrnlOpen with
  | none => n
  | some k =>
    (n.updSector k fun s => { s with slots := s.slots ++ recs.map some }).mJrnl fun j =>
      { j with ram := j.ram.map fun r => if recs.contains r.item then { r with flashed := true } else r }

/-- Every RAM record reaches flash, page by page, while the store has room (03 Table 3.5 step 2, Table 3.3, 18 R567). -/
def flushPages : Nat → Node → Node
  | 0, n => n
  | k + 1, n =>
    if n.stor.state = 2 || n.unwritten.isEmpty then n
    else
      let n := n.openJournal
      let page := n.journalPage
      if page.isEmpty then n else flushPages k (n.journalWritten page)

/-- A verified program's effect. -/
def programmed (n : Node) (op : FlashOp) : Node :=
  match op with
  | .jrnl recs => n.journalWritten recs
  | .ck e => n.appendCk e
  | .ident e => (n.appendIdent e).retryEra
  | .bank b e => n.appendBank b e
  | .image _ _ bytes => n.mSec fun s => { s with bufUsed := s.bufUsed - bytes.length }
  | .compact k => (n.liveIn k).foldl appendCk n
  | _ => n

/-- Free bytes at an address of a bank: what a page that failed its last program holds is not given (R579). -/
def spoil (b : Bool) : Nat → Nat → Node → Node
  | 0, _, n => n
  | k + 1, a, n =>
    let (v, n) := n.fresh
    spoil b k (a + 1) (n.updBank b fun s => { s with bytes := tset 0xFF s.bytes a (v.setWidth 8), bad := true })

/-- The fourth failed attempt (R578, R579, 02 R92): the sector is retired and its data goes to the next one, or the operation
ends. -/
def programFailed (n : Node) (op : FlashOp) : Node :=
  match op with
  | .jrnl _ => match n.jrnlOpen with | some k => n.retireSector k | none => n
  | .ck e => match n.ckTarget with | some k => (n.retireSector k).flashAdd (.ck e) | none => n
  | .compact k => match n.ckTarget with | some c => (n.retireSector c).flashAdd (.compact k) | none => n
  | .ident e => (n.tearIdent e).storFlag 5
  | .bank b _ => (n.tearEntry (bankSector b)).updBank b fun s => { s with state := 4 }
  | .image b a bytes => spoil b bytes.length a (n.mSec fun s => { s with bufUsed := s.bufUsed - bytes.length })
  | _ => n

/-! The next operation (R591). -/

/-- The first waiting operation of the lowest class. A checkpoint entry waits while its sector is full and a compaction is due
(R588). -/
def firstWaiting (n : Node) : Option FlashOp :=
  let blocked (op : FlashOp) : Bool := op.order == 2 && n.ckNewest.isNone && decide (8 < n.ckData)
  (n.stor.wait.filter fun op => !blocked op).foldl (fun b op => match b with
    | none => some op
    | some x => if op.order < x.order then some op else b) none

/-- The operation that runs next: journal pages first, then a suspended erase, then what waits. -/
def pickNext (n : Node) : Node :=
  if n.stor.state = 2 then n.mStor fun s => { s with cur := none }
  else
    let n := if n.unwritten.isEmpty then n else n.openJournal
    let page := n.journalPage
    if !page.isEmpty then n.mStor fun s => { s with cur := some (.jrnl page), tries := 0 }
    else match n.stor.susp with
      | some e => n.mStor fun s => { s with cur := some e, susp := none, tries := 0 }
      | none =>
        match n.firstWaiting with
        | some op => n.mStor fun s => { s with cur := some op, wait := s.wait.erase op, tries := 0 }
        | none => n.mStor fun s => { s with cur := none, tries := 0 }

/-- The journal program under way ends with its page written, an erase waits (R585), and the journal goes on alone. -/
def flushAll (n : Node) : Node :=
  let n := n.mStor fun s => match s.cur with | some (.jrnl _) => { s with cur := none, tries := 0 } | _ => s
  let n := flushPages n.unwritten.length n
  if n.stor.cur.isNone then n.pickNext else n

/-- Write-through: after step 2 of Hold-up a record is in flash when it is issued (03 Table 3.5), while CORE has its clock (03 R116). -/
def writeThrough (n : Node) : Node := if n.jrnl.writeThrough && !n.coreHeld then n.flushAll else n

/-- The store works: CORE has its clock (04 R144, 03 R116). -/
def storeRuns (n : Node) (f : Node → Node) : Node := if n.coreHeld then n else f n

/-- A journal program begins when the store is free, or suspends an erase (R585, R591). -/
def journalStart (n : Node) : Node :=
  if n.stor.state = 2 || n.unwritten.isEmpty then n
  else match n.stor.cur with
    | none => n.pickNext
    | some c =>
      if c.erases.isSome && n.stor.susp.isNone then
        let n := n.openJournal
        if n.journalPage.isEmpty then n
        else n.mStor fun s => { s with susp := some c, cur := some (.jrnl n.journalPage), tries := 0 }
      else n

/-- One attempt fails; the fourth is the last (R577). -/
def attemptFails (n : Node) (op : FlashOp) : Node :=
  let n := n.storFlag 0
  if n.stor.tries < 3 then n.mStor fun s => { s with tries := s.tries + 1 }
  else (n.programFailed op).pickNext

/-- A page program ends (R577). -/
def programDone (n : Node) (ok : Bool) : Node :=
  match n.stor.cur with
  | none => n
  | some op =>
    if op.erases.isSome then n
    else
      let n := n.mStor fun s => { s with timeouts := 0 }
      if ok then
        let n := n.programmed op
        match op with
        | .compact k => n.mStor fun s => { s with cur := some (.eraseAhead k), tries := 0 }
        | _ => n.pickNext
      else n.attemptFails op

/-- R576: the erase count of an erased sector; where the header gave none, the region's highest plus 1. -/
def erasesAfter (n : Node) (k : Nat) : Nat :=
  let s := n.sector k
  let span : Nat × Nat :=
    if k ≤ ckLast then (1, ckLast) else if k ≤ 384 then (257, 384) else if k ≤ 512 then (385, 512) else (jrnlFirst, jrnlLast)
  if s.cls == .blank || s.cls == .unknown then
    ((n.stor.sectors.filter fun e => decide (span.1 ≤ e.1) && decide (e.1 ≤ span.2)).map (·.2.erases)).foldl max 0 + 1
  else s.erases + 1

def erasedSector (n : Node) (k : Nat) : Node :=
  let c := n.erasesAfter k
  n.updSector k fun _ => { cls := .erasedOk, erases := c }

/-- The bytes of image sector `k` of a bank read erased. -/
def eraseBytes (b : BankSt) (k : Nat) : BankSt :=
  { b with bytes := b.bytes.filter fun e => !(decide ((k - 1) * 65536 ≤ e.1) && decide (e.1 < k * 65536)) }

/-- R582: a bank erase at its `k`th sector. After the last, the record gets its DATA header with an EMPTY entry. -/
def bankEraseStep (n : Node) (b : Bool) (k : Nat) : Node :=
  let n := if k = 0 then n.erasedSector (bankSector b) else n.updBank b fun s => eraseBytes s k
  if k < 127 then n.mStor fun s => { s with cur := some (.bankErase b (k + 1)) }
  else (n.appendBank b ⟨0, (n.bankOf b).gen, 0⟩).pickNext

/-- An erased sector that passes its blank check is ERASED_OK (R576); one that fails is retired (R578) and the erase-ahead moves
past it. Outside the checkpoint and journal regions nothing is retired (R579). -/
def eraseEnds (n : Node) (op : FlashOp) (ok : Bool) : Node :=
  match op with
  | .bankErase b k => if ok then n.bankEraseStep b k else (n.storFlag 0).bankEraseStep b k
  | .eraseAhead k =>
    if ok then (n.erasedSector k).pickNext
    else
      let n := n.retireSector k
      (if k ≤ ckLast then n else match n.newestSector jrnlFirst jrnlLast with | some e => n.eraseAhead e.1 | none => n).pickNext
  | .repair k =>
    if ok then (((n.erasedSector k).mStor fun s => { s with reerased := satInc 0xFF s.reerased }).storFlag 2).pickNext
    else if k ≤ ckLast || jrnlFirst ≤ k then (n.retireSector k).pickNext else (n.storFlag 0).pickNext
  | _ => n

def eraseDone (n : Node) (blank : Bool) : Node :=
  match n.stor.cur with
  | none => n
  | some op => if op.erases.isSome then (n.mStor fun s => { s with timeouts := 0 }).eraseEnds op blank else n

/-- R577, R578, R595: a program that times out is a failed attempt, an erase that times out retires its sector; three in a row fail the
store. -/
def flashTimesOut (n : Node) : Node :=
  match n.stor.cur with
  | none => n
  | some op =>
    let n := (n.mStor fun s => { s with timeouts := s.timeouts + 1 }).storFlag 3
    if 3 ≤ n.stor.timeouts then n.failStore 1
    else if op.erases.isSome then n.eraseEnds op false
    else n.attemptFails op

/-- R592: after phase F the BLANK and UNKNOWN sectors are re-erased in the background. -/
def reerase (n : Node) : Node :=
  if n.pwr.phase == .done then
    (n.stor.sectors.filter fun e => e.2.cls == .blank || e.2.cls == .unknown).foldl (fun n e => n.addOnce (.repair e.1)) n
  else n

/-- R596: a probe of a FAILED device. The era that could not be written goes to its log when the store accepts writes (14 R430). -/
def probeStore (n : Node) (answers : Bool) : Node :=
  if n.stor.state = 2 && answers && n.stor.failCause == 1 then
    let n := (n.mStor fun s => { s with state := 1, failCause := 0, timeouts := 0 }).mJrnl fun j => { j with flashOk := true }
    n.retryEra
  else n

/-- PROBE through STOR_CMD. -/
def probeCommand (n : Node) (answers : Bool) : Node :=
  if n.stor.state = 2 then (n.mStor fun s => { s with cmdResult := 0 }).probeStore answers
  else (n.mStor fun s => { s with cmdResult := 2 }).storFlag 6

/-- Table 19.6: what a supply loss or a reset cuts. A sector being erased reads UNKNOWN, cut journal slots are not held, any other cut entry
leaves the previous one standing. -/
def cutSector (n : Node) (op : Option FlashOp) : Node :=
  match op with
  | none => n
  | some o =>
    match o with
    | .jrnl recs => match n.jrnlOpen with
      | some k => n.updSector k fun s => { s with slots := s.slots ++ recs.map fun _ => none }
      | none => n
    | .bankErase b k => if k = 0 then n.updSector (bankSector b) fun s => { erases := s.erases, cls := .unknown } else n
    | .eraseAhead k => n.updSector k fun s => { erases := s.erases, cls := .unknown }
    | .repair k => n.updSector k fun s => { erases := s.erases, cls := .unknown }
    | .ck _ => match n.ckNewest with | some k => n.tearEntry k | none => n
    | .bank b _ => n.tearEntry (bankSector b)
    | .ident e => n.tearIdent e
    | _ => n

def cutFlash (n : Node) : Node :=
  ((n.cutSector n.stor.cur).cutSector n.stor.susp).mStor fun s =>
    { s with cur := none, susp := none, wait := [], tries := 0, timeouts := 0 }

end Node

/-- A page program ends, and the next operation is chosen (R577, R591). -/
def execFlashProgramDone (ok : Bool) (s : State) : Host.Outcome State Fault Refusal :=
  s.run fun n => n.storeRuns fun n => n.programDone ok

/-- A sector erase ends (R576, R578). -/
def execFlashEraseDone (blank : Bool) (s : State) : Host.Outcome State Fault Refusal :=
  s.run fun n => n.storeRuns fun n => n.eraseDone blank

/-- A program or an erase exceeds its time (R577). -/
def execFlashTimeout (s : State) : Host.Outcome State Fault Refusal := s.run fun n => n.storeRuns Node.flashTimesOut

/-- The background repair (R592). -/
def execBackgroundReerase (s : State) : Host.Outcome State Fault Refusal := s.run fun n => n.storeRuns Node.reerase

/-- The store enters FAILED (R595). -/
def execStoreFailed (noId : Bool) (s : State) : Host.Outcome State Fault Refusal :=
  s.run fun n => n.failStore (if noId then 2 else if 1535 - n.retiredIn jrnlFirst jrnlLast < 8 then 3 else 1)

/-- STOR_CMD PROBE (R596). -/
def execProbe (answers : Bool) (s : State) : Host.Outcome State Fault Refusal := s.run fun n => n.probeCommand answers

/-- The probe at an epoch boundary (R596). -/
def execEpochProbe (answers : Bool) (s : State) : Host.Outcome State Fault Refusal := s.run fun n => n.probeStore answers

end Sys2Proof.Machine
end

