-- ==== Sys2Proof/Machine/Journal.lean ====
section
/-! DEFINITION. The event journal (14): the cursor, the latches of its LO registers, RAM-ring errors, the records that belong to no step of
the tick, and numbering at a start. -/

namespace Sys2Proof.Machine

namespace Node

def jrnlFlag (n : Node) (i : Nat) : Node := n.mJrnl fun j => { j with flags := setBit j.flags i }

/-! The cursor (R442 to R445). Operations: 1 SEEK, 2 NEXT, 3 NEWEST, 4 OLDEST. -/

/-- A cursor command starts a load, or is refused while one runs. -/
def cursorStart (n : Node) (op : Nat) : Node :=
  if n.jrnl.busy then (n.mJrnl fun j => { j with result := 4 }).jrnlFlag 5
  else n.mJrnl fun j => { j with busy := true, op := op, asked := if op = 2 then j.pos + 1 else j.seek }

/-- A value of JRNL_CUR_CMD that names no operation: BAD_OP comes before BUSY (Table 14.7, 00 R613). -/
def cursorBad (n : Node) : Node := (n.mJrnl fun j => { j with result := 5 }).jrnlFlag 5

/-- The smallest held number from `q` on. -/
def heldFrom (n : Node) (q : Nat) : Option Nat :=
  n.heldNums.foldl (fun b x =>
    if x < q then b else match b with
      | none => some x
      | some y => some (min x y)) none

/-- A held record: the RAM ring's copy, else flash's. -/
def heldRecord (n : Node) (q : Nat) : Option (Record × Bool) :=
  match n.ramRecord q with
  | some r => some (r, false)
  | none => (n.flashRecords.find? (·.seq == q)).map fun r => (r, true)

/-- The journal's slots, oldest sector first; a slot whose record fails its CRC holds none. -/
def flashSlots (n : Node) : List (Option Record) :=
  (sortBy (fun e : Nat × Sector => e.2.serial)
    (n.stor.sectors.filter fun e => decide (jrnlFirst ≤ e.1) && (e.2.cls == .data || e.2.cls == .retired))).flatMap (·.2.slots)

/-- R444: the read of a number that is not held meets a slot that fails its CRC, in the place where the number would stand. -/
def meetsBad (n : Node) (q : Nat) : Bool :=
  (n.heldRecord q).isNone &&
    ((n.flashSlots.takeWhile fun o => match o with | some r => decide (r.seq < q) | none => true).getLast? == some none)

def countBad (n : Node) (q : Nat) : Node :=
  if n.meetsBad q then (n.mJrnl fun j => { j with crcBad := satInc 0xFF j.crcBad }).jrnlFlag 4 else n

/-- The window takes record `q`, and C follows it. -/
def loadRecord (n : Node) (q asked result : Nat) : Node :=
  match n.heldRecord q with
  | none => n
  | some (r, fromFlash) =>
    n.mJrnl fun j => { j with window := some r, pos := q, fromFlash := fromFlash, skipped := q != asked, result := result }

/-- R442: what a SEEK or a NEXT that asks for `q` loads. -/
def cursorFind (n : Node) (q : Nat) : Node :=
  if n.heldNums.isEmpty then n.mJrnl fun j => { j with result := 6 }
  else
    let n := n.countBad q
    match n.heldFrom q with
    | none => n.mJrnl fun j => { j with result := 2 }
    | some x => n.loadRecord x q (if x = q then 0 else if q < n.oldestHeld then 3 else 1)

/-- A load completes (R443). -/
def cursorDone (n : Node) : Node :=
  if n.jrnl.busy then
    let op := n.jrnl.op
    let n := n.mJrnl fun j => { j with busy := false, op := 0 }
    if op = 1 ∨ op = 2 then n.cursorFind n.jrnl.asked
    else if n.heldNums.isEmpty then n.mJrnl fun j => { j with result := 6 }
    else let q := if op = 3 then n.newestHeld else n.oldestHeld
      n.loadRecord q q 0
  else n

/-- A LO read latches its HI half (18 R557, 05, 07, 14, 16). -/
def latchLo (n : Node) (r : LoReg) : Node :=
  match r with
  | .serial => n.mSys fun s => { s with serialHi := highWord s.serial }
  | .nodeTime => n.mRtc fun s => { s with ntHi := highWord s.now }
  | .syncTime => n.mLane fun s => { s with syncHi := highWord s.syncTime }
  | .jrnlNewest => n.mJrnl fun s => { s with newestHi := highWord n.newestHeld }
  | .jrnlFlashed => n.mJrnl fun s => { s with flashedHi := highWord n.flashedHigh }
  | .jrnlOldest => n.mJrnl fun s => { s with oldestHi := highWord n.oldestHeld }
  | .jrnlPos => n.mJrnl fun s => { s with posHi := highWord s.pos }
  | .pairLast => n.mPair fun s => { s with lastHi := highWord s.last }
  | .pairFo => n.mPair fun s => { s with foHi := highWord s.fo }

/-- R446: an uncorrectable error in a RAM-ring record. -/
def ramError (n : Node) (q : Nat) : Node :=
  match n.jrnl.ram.find? (·.item.seq == q) with
  | none => n
  | some r =>
    let n := (n.mJrnl fun j => { j with ram := j.ram.filter (·.item.seq != q) }).jrnlFlag 2
    if r.flashed then n
    else
      let n := n.mJrnl fun j => { j with lost := satInc 0xFF j.lost }
      if n.issuer then n.laterGap ⟨5, q, 1⟩ else n

/-! Records that belong to no step (R432): GAPs first, then the others in the order of their events. -/

def issueGaps (n : Node) : Node :=
  let l := sortBy (·.first) n.jrnl.gaps
  l.foldl issueGap (n.mJrnl fun j => { j with gaps := [] })

def issueDue (n : Node) : Node :=
  let l := n.jrnl.due
  l.foldl issueNow (n.mJrnl fun j => { j with due := [] })

/-! Numbering at a start (R428 to R431, Table 14.4). -/

/-- The newest record in flash. -/
def newestFlash (n : Node) : Option Record :=
  n.flashRecords.foldl (fun b r => match b with
    | none => some r
    | some x => if x.seq < r.seq then some r else b) none

def isPark (r : Record) : Bool := r.type == 0x11 && r.new == 3

/-- The first number, the GAP ranges that follow START, and the new era if one is opened. -/
def numbering (n : Node) (por : Bool) : Nat × List GapDue × Option Nat :=
  let newest := n.newestFlash
  let high := newest.elim 0 (·.seq)
  let era := n.stor.ident.eraLog.getLast?.getD 0
  if !por then
    (max n.jrnl.last high + 1, if high < n.jrnl.last then [⟨1, high + 1, n.jrnl.last - high⟩] else [], none)
  else match newest with
    | some r =>
      if isPark r then (r.seq + 1, [], none)
      else
        let e := max (r.seq / 2 ^ 32) era + 1
        (e * 2 ^ 32, [⟨6, r.seq + 1, e * 2 ^ 32 - 1 - r.seq⟩], some e)
    | none =>
      if era = 0 then (1, [], none)
      else ((era + 1) * 2 ^ 32, [⟨6, era * 2 ^ 32, 2 ^ 32⟩], some (era + 1))

/-- R430: a new era goes to its log, or is opened without it. -/
def openEra (n : Node) (e : Nat) : Node :=
  let n := n.jrnlFlag 3
  if n.eraFull then n
  else if n.stor.state = 2 then (n.mStor fun s => { s with eraPend := some e }).storFlag 5
  else (n.mStor fun s => { s with eraPend := some e }).flashAdd (.ident (.era e))

def startNumbering (n : Node) (por : Bool) : Node :=
  let (first, gaps, era) := n.numbering por
  let n := n.mJrnl fun j => { j with nextSeq := first, startGaps := gaps, startDue := true }
  match era with | some e => n.openEra e | none => n

/-- START (R431, Table 14.2). -/
def startBody (n : Node) : RecBody :=
  ⟨0x52, n.pwr.cause, 0, 0, leBytes 4 n.hashTag ++ leBytes 4 (n.img.elim 0 (·.gen)) ++ leBytes 1 (b2n n.sec.fallback)⟩

/-- START and the GAPs that follow it, in step 1 of the first evaluated tick (R431). -/
def issueStart (n : Node) : Node :=
  if n.jrnl.startDue then
    let gaps := n.jrnl.startGaps
    let n := n.mJrnl fun j => { j with startDue := false, startGaps := [] }
    gaps.foldl issueGap (n.issueNow n.startBody)
  else n

end Node

/-- Records go to flash in SEQ order (R436). -/
def execJournalFlashWrite (s : State) : Host.Outcome State Fault Refusal := s.run fun n => n.storeRuns Node.journalStart

/-- R446. -/
def execRamEccError (seq : Nat) (s : State) : Host.Outcome State Fault Refusal := s.run fun n => n.ramError seq

/-- JRNL_CUR_CMD SEEK of the number in JRNL_SEEK (R442). -/
def execSeek (s : State) : Host.Outcome State Fault Refusal := s.run fun n => n.cursorStart 1

/-- JRNL_CUR_CMD NEXT (R442). -/
def execNext (s : State) : Host.Outcome State Fault Refusal := s.run fun n => n.cursorStart 2

/-- JRNL_CUR_CMD NEWEST (R442). -/
def execNewest (s : State) : Host.Outcome State Fault Refusal := s.run fun n => n.cursorStart 3

/-- JRNL_CUR_CMD OLDEST (R442). -/
def execOldest (s : State) : Host.Outcome State Fault Refusal := s.run fun n => n.cursorStart 4

/-- A cursor load completes (R443). -/
def execCursorLoadDone (s : State) : Host.Outcome State Fault Refusal := s.run Node.cursorDone

/-- A read of a LO register latches its HI half (18 R557). -/
def execLoLatchRead (r : LoReg) (s : State) : Host.Outcome State Fault Refusal := s.run fun n => n.latchLo r

end Sys2Proof.Machine
end

