-- ==== Sys2Proof/Machine/Ext.lean ====
section
/-! DEFINITION. The ship network interfaces (17): alert states, the sentence queues, NMEA 2000, IEC 61162-450, Modbus, the record service
and port states. -/

namespace Sys2Proof.Machine

def portUp : Nat := 1
def portSilent : Nat := 4

/-- A port's roles by EXT_PORTp_CFG (Table 17.9). -/
def PortCfg.serial (c : PortCfg) : Bool := c.kind == 1 || c.kind == 2
def PortCfg.ethernet (c : PortCfg) : Bool := c.kind == 5
def PortCfg.service (c : PortCfg) (i : Nat) : Bool := c.ethernet && c.services.testBit i
def PortCfg.sentences (c : PortCfg) : Bool := c.serial || c.service 0
def PortCfg.modbus (c : PortCfg) : Bool := c.kind == 3 || c.service 1
def PortCfg.records (c : PortCfg) : Bool := c.service 2
def PortCfg.legacy (c : PortCfg) : Bool := c.alertSet.testBit 0
def PortCfg.alf (c : PortCfg) : Bool := c.alertSet.testBit 1

/-- Not Normal as Table 17.2 shows it: Shelved, Suppressed and Out of service show as normal. -/
def AlertSt.shown (a : AlertSt) : Bool := a.state == stActUnack || a.state == stActAck || a.state == stRectUnack

/-- R521. -/
def AlertSt.revision (a : AlertSt) : Nat := a.seq % 99 + 1

/-- Table 17.2: the ALF state as the alarm-point code it shows, the ALR condition and acknowledgement, and the NMEA 2000 state. -/
def alfState (st : Nat) : Nat := if st ≤ stRectUnack then st else stNormal
def alrCond (st : Nat) : Bool := st == stActUnack || st == stActAck
def alrAck (st : Nat) : Bool := !(st == stActUnack || st == stRectUnack)
def n2kState (st : Nat) : Nat :=
  if st = stActUnack then 2 else if st = stActAck then 4 else if st = stRectUnack then 5 else if st = stOutOfService then 0 else 1

/-- Table 17.3. -/
def n2kType (prio : Nat) : Nat := [1, 2, 5, 8].getD prio 8

/-- The type of a sentence, for "same alert and type" (R526). -/
def sentenceType : NetMsg → Nat
  | .sentence _ (.alf ..) => 1
  | .sentence _ (.alr ..) => 2
  | .sentence _ (.alc _) => 3
  | .sentence _ (.arc ..) => 4
  | _ => 0

/-- The alert index of a message that is about no single alert. -/
def noAlert : Nat := 65536

/-- Lists of at most k elements. -/
def chunks {α : Type} (k : Nat) : Nat → List α → List (List α)
  | 0, _ => []
  | f + 1, l => if l.isEmpty then [] else l.take k :: chunks k f (l.drop k)

namespace Node

def extFlag (n : Node) (i : Nat) : Node := n.mExt fun e => { e with flags := setBit e.flags i }
def setPort (n : Node) (p : Nat) (v : PortSt) : Node := n.mExt fun e => { e with ports := tset {} e.ports p v }
def updPort (n : Node) (p : Nat) (f : PortSt → PortSt) : Node := n.setPort p (f (n.portSt p))
def rejected (n : Node) (p : Nat) : Node := (n.updPort p fun s => { s with rejected := satInc 0xFFFF s.rejected }).extFlag 3
def acceptedOn (n : Node) (p : Nat) : Node := n.updPort p fun s => { s with accepted := satInc 0xFFFF s.accepted }

/-- The lines as a command that sends finds them. -/
def clearLines (n : Node) : Node := (List.range 6).foldl (fun n p => n.updPort p fun s => { s with line := [] }) n

/-- A message on a port's line, counted; it waits in the queue while the transmitter holds idle (04 R154). -/
def sendOn (n : Node) (p : Nat) (m : NetMsg) : Node :=
  n.updPort p fun s =>
    if n.txIdle then { s with queue := s.queue ++ [⟨.state, noAlert, m⟩] }
    else { s with line := s.line ++ [m], sent := (s.sent + 1) % 2 ^ 32 }

/-- A message without count: an answer of the network layer or of the address claim. -/
def answerOn (n : Node) (p : Nat) (m : NetMsg) : Node :=
  n.updPort p fun s =>
    if n.txIdle then { s with queue := s.queue ++ [⟨.answer, noAlert, m⟩] } else { s with line := s.line ++ [m] }

/-- A port sends under R516; with CORE's clock held nothing runs that would send (04 R144). -/
def sends (n : Node) (p : Nat) : Bool := (n.portSt p).state == portUp && n.ownDuty && !n.coreHeld

/-- A port receives and answers: it is neither off, nor down, nor disabled, and CORE has its clock. -/
def hears (n : Node) (p : Nat) : Bool :=
  ((n.portSt p).state == portUp || (n.portSt p).state == portSilent) && !n.coreHeld

/-- ETH1 as a duplicate of ETH0 (R534) carries ETH0's alerts. -/
def alertPort (n : Node) (p : Nat) : Nat := if p = 5 ∧ (n.port 5).any (·.duplicate) then 4 else p

/-- The ports that carry the datagrams of a port: both ETH ports while ETH1 is a duplicate (R534). -/
def twins (n : Node) (p : Nat) : List Nat := if (p = 4 ∨ p = 5) ∧ (n.port 5).any (·.duplicate) then [4, 5] else [p]

/-- Some port that carries a port's sentences sends. -/
def speaks (n : Node) (p : Nat) : Bool := (n.twins p).any n.sends

/-- A sentence as a port sends it: under the image's talker ID (R522), on IEC 61162-450 as one datagram (R533). -/
def say (n : Node) (p : Nat) (x : Sentence) : NetMsg :=
  match n.port (n.alertPort p) with
  | some k => if k.serial then .sentence k.talker x else .udpbc k.sfi k.group k.talker x
  | none => .sentence [] x

def alertSt (n : Node) (i : Nat) : AlertSt := tget {} n.ext.alerts i
/-- The alerts of a port, with their index in MAP. -/
def portAlerts (n : Node) (p : Nat) : List (Nat × AlertCfg) :=
  n.alertCfgs.zipIdx.filterMap fun (c, i) => if c.ports.contains (n.alertPort p) then some (i, c) else none

/-! Sentences (R522 to R526). -/

def utc (n : Node) (t : Nat) : Nat := t - n.rtc.leap * 1000000

def alfOf (n : Node) (p : Nat) (c : AlertCfg) (a : AlertSt) : NetMsg :=
  let esc := match c.item with | .ladder _ => a.repeats % 10 | .point _ => 0
  n.say p (.alf (n.portSt (n.alertPort p)).msgId (n.utc a.time) c.category a.prio (alfState a.state) (!c.standard) c.ident c.inst a.revision esc c.text)

def alrOf (n : Node) (p : Nat) (c : AlertCfg) (num : Nat) (a : AlertSt) : NetMsg :=
  n.say p (.alr (n.utc a.time) num (alrCond a.state) (alrAck a.state) c.text)

/-- The first class that waits is served: state sentences, ARC, repeats and ALC (R526). -/
def nextSentence (q : List QMsg) : Option QMsg :=
  match q.find? (·.kind == .state) with
  | some m => some m
  | none => match q.find? (·.kind == .arc) with
    | some m => some m
    | none => q.head?

/-- An idle S port starts the next sentence. -/
def startSentence (n : Node) (p : Nat) : Node :=
  let s := n.portSt p
  if s.cur.isSome || n.txIdle then n
  else match nextSentence s.queue with
    | none => n
    | some m => n.setPort p { s with cur := some m, queue := s.queue.erase m, line := s.line ++ [m.msg] }

/-- The transmitter works again: what waited goes out (04 R154). -/
def flushPort (n : Node) (p : Nat) : Node :=
  if (n.port p).any (·.serial) then n.startSentence p
  else n.updPort p fun s => { s with
    queue := []
    line := s.line ++ s.queue.map (·.msg)
    sent := (s.sent + (s.queue.filter (·.kind != .answer)).length) % 2 ^ 32 }

/-- R526: a state sentence joins the queue; a queued repeat of its alert is stale and goes (Table 17.8). -/
def queueState (n : Node) (p : Nat) (m : QMsg) : Node :=
  let s := n.portSt p
  let q := s.queue.filter fun x => !(x.kind == .rep && x.alert == m.alert)
  let put (q : List QMsg) (s : PortSt) : Node := n.setPort p { s with queue := q ++ [m] }
  if q.length < 64 then put q s
  else match q.find? (fun x => x.kind == .state && x.alert == m.alert && sentenceType x.msg == sentenceType m.msg) with
    | some x => (put (q.erase x) { s with coalesced := satInc 0xFFFF s.coalesced }).extFlag 2
    | none => match q.find? (·.kind == .rep) with
      | some x => put (q.erase x) s
      | none => (n.setPort p { s with queue := q, refresh := true }).extFlag 1

/-- A sentence for a port: into the queue of an S port, or as a datagram on each port that carries it (R533, R534). An ARC or a repeat that meets a
full queue is not sent (log entry 125). -/
def emit (n : Node) (p : Nat) (kind : QKind) (alert : Nat) (m : NetMsg) : Node :=
  if (n.port p).any (·.serial) then
    let n :=
      if kind == .state then n.queueState p ⟨kind, alert, m⟩
      else if (n.portSt p).queue.length < 64 then n.updPort p fun s => { s with queue := s.queue ++ [⟨kind, alert, m⟩] }
      else n
    n.startSentence p
  else (n.twins p).foldl (fun n q => if n.sends q then n.sendOn q m else n) n

/-- ALF of an alert, with the port's message counter (R523). -/
def emitAlf (n : Node) (p : Nat) (kind : QKind) (i : Nat) (c : AlertCfg) : Node :=
  let n := n.emit p kind i (n.alfOf p c (n.alertSt i))
  n.updPort (n.alertPort p) fun s => { s with msgId := (s.msgId + 1) % 10 }

def emitAlr (n : Node) (p : Nat) (kind : QKind) (i : Nat) (c : AlertCfg) : Node :=
  match c.alrNum with
  | some k => n.emit p kind i (n.alrOf p c k (n.alertSt i))
  | none => n

/-- ALC: every alert not Normal, 4 to a sentence; one without entries when there are none (Table 17.4). -/
def emitAlc (n : Node) (p : Nat) : Node :=
  let l := (n.portAlerts p).filterMap fun (i, c) =>
    let a := n.alertSt i
    if a.shown then some (!c.standard, c.ident, c.inst, a.revision) else none
  let groups := if l.isEmpty then [[]] else chunks 4 l.length l
  groups.foldl (fun n g => n.emit p .rep noAlert (n.say p (.alc g))) n

/-- NMEA 2000 Alert and Alert Text (Table 17.5). -/
def emitN2k (n : Node) (p i : Nat) (c : AlertCfg) (text : Bool) : Node :=
  if !n.ext.claimed then n
  else
    let a := n.alertSt i
    let n := n.sendOn p (.n2kAlert 1 c.n2kIdent c.n2kOcc (n2kType a.prio) (n2kState a.state))
    if text then n.sendOn p (.n2kText c.n2kIdent c.n2kOcc c.text) else n

/-- The messages of a mapped state change on one port. -/
def emitChange (n : Node) (p i : Nat) (c : AlertCfg) : Node :=
  match n.port (n.alertPort p) with
  | none => n
  | some k =>
    if !n.speaks p then n
    else if k.kind = 4 then n.emitN2k p i c true
    else if k.sentences then
      let n := if k.alf then n.emitAlf p .state i c else n
      if k.legacy then n.emitAlr p .state i c else n
    else n

/-- R517: every alert not Normal once, and the cyclic list. -/
def refreshPort (n : Node) (p : Nat) : Node :=
  if !n.speaks p then n
  else
    let n := (n.twins p).foldl (fun n q => n.updPort q fun s => { s with refresh := false }) n
    let n := (n.portAlerts p).foldl (fun n (i, c) => if (n.alertSt i).shown then n.emitChange p i c else n) n
    if (n.port (n.alertPort p)).any fun k => k.sentences && k.alf then n.emitAlc p else n

/-- The sentences that a refresh takes, for its room in the queue (R526). -/
def refreshSize (n : Node) (p : Nat) : Nat :=
  2 * ((n.portAlerts p).filter fun (i, _) => (n.alertSt i).shown).length

def refreshIfRoom (n : Node) (p : Nat) : Node :=
  let s := n.portSt p
  if s.refresh && decide (s.queue.length + min 64 (n.refreshSize p) ≤ 64) then n.refreshPort p else n

/-! Alert states from records (R515, R520, R521). -/

/-- The rungs up to k call BRIDGE. -/
def callsBridge (n : Node) (l k : Nat) : Bool := (n.ladder l).any fun c => (rungTargets c k).any fun t => isBridge t.1

/-- The sequence space of a node of the ring: the lower number of its pair (16 R482). -/
def spaceOf (n : Node) (k : Nat) : Nat :=
  ((n.img.bind fun i => (i.sec.ring.find? fun e : RingCfg => e.node == k).bind (·.partner)).elim k (min k ·))

/-- What a record makes of an alert; none where it does not concern it. The priority of a ladder's alert is not given, nor, from another node's
records, whether a rung calls BRIDGE: free values (log entry 74). -/
def alertFrom (n : Node) (c : AlertCfg) (a : AlertSt) (r : Record) : Option AlertSt :=
  if r.space ≠ n.spaceOf c.owner then none
  else match c.item with
    | .point p =>
      if r.type = 0x01 ∧ r.source = p then
        some { a with state := r.new, prio := (r.detail.headD 0).toNat, time := r.time, seq := r.seq }
      else none
    | .ladder l =>
      if r.source ≠ l then none
      else if r.type = 0x04 then
        let ev := (r.detail.headD 0).toNat
        let calls := if r.space = n.space then n.callsBridge l r.new else bit (Config.freeWord n.free) 2
        let st := if r.new = 0 then stNormal else if calls then stActUnack else a.state
        some { a with
          state := st
          time := r.time
          seq := r.seq
          prio := (Config.freeWord n.free).toNat % 4
          repeats := if ev = 2 then a.repeats + 1 else if r.old = 0 then 0 else a.repeats }
      else if r.type = 0x02 ∧ r.detail.headD 0 = 0x11 ∧ r.detail.getD 1 1 = 0 then
        some { a with state := stNormal, time := r.time }
      else none

/-- The messages of an alert on its ports. -/
def announce (n : Node) (i : Nat) (c : AlertCfg) : Node :=
  (List.range 6).foldl (fun n p => if n.alertPort p == p && c.ports.contains p then n.emitChange p i c else n) n

/-- An alert takes a record: it is announced at each record of a point, and at each change and each REPEAT of a ladder's (11 R349). -/
def takeAlert (n : Node) (r : Record) (i : Nat) (c : AlertCfg) : Node :=
  match n.alertFrom c (n.alertSt i) r with
  | none => n
  | some b =>
    let was := n.alertSt i
    let n := { n with free := n.free + 1 }
    let n := n.mExt fun e => { e with alerts := tset {} e.alerts i b }
    let isPoint := match c.item with | .point _ => true | .ladder _ => false
    let again := b.state == stActUnack && was.repeats < b.repeats
    if isPoint || was.state != b.state || again then n.announce i c else n

/-- The alert of a ladder of this node that is IDLE with no record of it, as after an activation or a takeover, clears (11 R351). -/
def idleAlerts (n : Node) : Node :=
  n.alertCfgs.zipIdx.foldl (fun n (c, i) =>
    match c.item with
    | .point _ => n
    | .ladder l =>
      let a := n.alertSt i
      if n.spaceOf c.owner = n.space ∧ (n.ladderSt l).rung = 0 ∧ a.state ≠ stNormal then
        (n.mExt fun e => { e with alerts := tset {} e.alerts i { a with state := stNormal, time := n.tickTime } }).announce i c
      else n) n

/-- The other nodes' points that the Modbus map places. -/
def farItems (n : Node) : List (Nat × Nat) :=
  n.modItems.filterMap fun m => match m.item with
    | .pointBit o p _ | .stateWord o p => if n.spaceOf o = n.space then none else some (n.spaceOf o, p)
    | _ => none

def farKey (sp p : Nat) : Nat := sp * 1024 + p

/-- An ALARM record of another node's mapped point (R515). -/
def takeFar (n : Node) (r : Record) : Node :=
  if r.type = 0x01 ∧ n.farItems.contains (r.space, r.source) then
    let b := (r.detail.getD 1 0).toNat
    n.mExt fun e => { e with far := tset {} e.far (farKey r.space r.source) ⟨r.new, (r.detail.headD 0).toNat, natBit b 0, natBit b 1⟩ }
  else n

/-- The header of a record-service datagram (Table 17.7): "KVRS" or, for a refusal, "KVRN". -/
def kvHead (n : Node) (refusal : Bool) (flags space count : Nat) : List Byte :=
  [0x4B, 0x56, 0x52, if refusal then 0x4E else 0x53, 1] ++ leBytes 1 flags ++ leBytes 1 space ++ leBytes 1 count ++ leBytes 1 n.sys.node ++ leBytes 7 0

/-- The ports take records in SEQ order: alert changes, and the record service's live datagrams (R519, R544). -/
def extTake (n : Node) (l : List Record) : Node :=
  let n := l.foldl (fun n r => n.alertCfgs.zipIdx.foldl (fun n (c, i) => n.takeAlert r i c) (n.takeFar r)) n
  n.ports.foldl (fun n k =>
    if k.records && n.sends k.num then
      (List.range 16).foldl (fun n sp =>
        let mine := l.filter fun r => r.space == sp
        if k.recSpaces.contains sp then
          (chunks 40 mine.length mine).foldl (fun n g => n.sendOn k.num (.kvrs (n.kvHead false 0 sp g.length) g)) n
        else n) n
    else n) n

/-! Port states (R549, R550). -/

/-- The state an enabled, working port takes under R516. -/
def liveState (n : Node) : Nat := if n.ownDuty then portUp else portSilent

/-- A port's state changes, with its PORT record; leaving UP or SILENT for DOWN, BUS_OFF or DISABLED discards its queue. -/
def portMove (n : Node) (p new : Nat) : Node :=
  let s := n.portSt p
  if s.state = new then n
  else
    let gone := new == 2 || new == 3 || new == 5
    let n := n.setPort p { s with
      state := new
      cur := if gone then none else s.cur
      queue := if gone then [] else s.queue }
    let n := if new = 2 then n.extFlag 0 else if new = 3 then n.extFlag 4 else n
    n.later ⟨0x43, p, s.state, new, leBytes 2 0 ++ leBytes 4 (n.extPortStat p).toNat ++ leBytes 4 (n.extPortRx p).toNat⟩

/-- A port works again: its state, and its refresh. -/
def portReturns (n : Node) (p : Nat) : Node := (n.portMove p n.liveState).refreshPort p

/-- The address claim goes on the line (R529). -/
def claimAddr (n : Node) (a : Nat) : Node :=
  (n.mExt fun e => { e with n2kAddr := a, claimed := a != 0xFE }).answerOn 3 (.n2kClaim a)

/-- The CAN port claims its preferred address when it first sends: a SILENT port sends nothing unsolicited (R516, R529). -/
def claimFirst (n : Node) : Node :=
  match n.port 3 with
  | none => n
  | some k =>
    if k.kind = 4 ∧ n.ext.tried = 0 ∧ n.sends 3 then (n.mExt fun e => { e with tried := 1 }).claimAddr k.prefAddr else n

/-- ETHCLK runs (04 R129): CORE's root is the PLL in its nominal setting at ÷2, and the mode's mask has it on. -/
def ethClock (n : Node) : Bool :=
  let c := n.clk.core
  c.st == .nominal && c.ramp.isNone && c.sw.isNone && n.clk.pll == .nominal && bit n.modeMask 3

/-- A port out of OFF or DISABLED: DOWN while its line or link has failed, and an Ethernet port without ETHCLK (R549, 04 Table 4.9). -/
def freshState (n : Node) (p : Nat) : Nat :=
  if (n.portSt p).failed || ((n.port p).any (·.ethernet) && !n.ethClock) then 2 else n.liveState

/-- Phase E and an activation: the ports of MAP work, the others are OFF. -/
def startPorts (n : Node) : Node :=
  (List.range 6).foldl (fun n p =>
    match n.port p with
    | none => n.portMove p 0
    | some k =>
      if k.kind = 0 then n.portMove p 0
      else
        let n := if (n.portSt p).state = 0 then n.portMove p (n.freshState p) else n
        let n := n.updPort p fun s => { s with refresh := true }
        if k.kind = 4 ∧ n.ext.n2kAddr = 0xFE then (n.mExt fun e => { e with tried := 0 }).claimFirst else n) n

/-- R548: an activation changes MAP. Alerts that both maps name keep their state, queued sentences go. -/
def remapPorts (n : Node) (old : List AlertCfg) : Node :=
  let was := n.ext.alerts
  let moved := n.alertCfgs.zipIdx.filterMap fun (c, i) =>
    let j := old.findIdx fun o => o.owner == c.owner && o.item == c.item
    if j < old.length then some (i, tget {} was j) else none
  let named := n.farItems.map fun x => farKey x.1 x.2
  let n := n.mExt fun e => { e with
    alerts := moved.foldl (fun m (i, a) => tset {} m i a) []
    far := e.far.filter fun x => named.contains x.1
    farShown := e.farShown.filter fun x => named.contains x.1 }
  let n := (List.range 6).foldl (fun n p => n.updPort p fun s => { s with queue := [], cur := none }) n
  n.startPorts

/-- R516: the ports follow the node's role. -/
def portsFollow (n : Node) : Node :=
  (List.range 6).foldl (fun n p =>
    let st := (n.portSt p).state
    if st = portUp ∨ st = portSilent then n.portMove p n.liveState else n) n

/-- After a takeover every port refreshes (R517). -/
def portsRefresh (n : Node) : Node :=
  (List.range 6).foldl (fun n p => n.updPort p fun s => { s with refresh := true }) n.portsFollow.claimFirst

def refreshDue (n : Node) : Node :=
  (List.range 6).foldl (fun n p => if (n.portSt p).refresh then (if (n.port p).any (·.serial) then n.refreshIfRoom p else n.refreshPort p) else n) n

def portEvent (n : Node) (p : Nat) (ev : PortEvent) (t : Nat) : Node :=
  match n.port p with
  | none => n
  | some k =>
    let st := (n.portSt p).state
    let works := st == portUp || st == portSilent
    let mark (v : Bool) : Node := n.updPort p fun s => { s with failed := v }
    match ev with
    | .down => if k.kind = 4 then n else if works then (mark true).portMove p 2 else mark true
    | .up =>
      if k.ethernet && !n.ethClock then n
      else if st = 2 then (mark false).portReturns p
      else mark false
    | .busOff =>
      if works && k.kind == 4 then
        (n.updPort p fun s => { s with busOffAt := (s.busOffAt.filter fun x => decide (t < x + 60000000)) ++ [t] }).portMove p 3
      else n

/-- R549: 1 s after bus-off, or 60 s after the third within 60 s. -/
def busOffReturn (n : Node) (p : Nat) : Node :=
  let s := n.portSt p
  if s.state = 3 && !n.coreHeld then
    let wait := if 3 ≤ s.busOffAt.length then 60000000 else 1000000
    (n.setNow (s.busOffAt.getLast?.getD 0 + wait)).portReturns p
  else n

/-- The refusals of EXT_CMD (Table 17.9), 0 for none. -/
def extRefusal (n : Node) (op port : Nat) : Nat :=
  if (op = 1 ∨ op = 2) ∧ !n.sec.maint then 1
  else if op = 0 ∨ 3 < op then 2
  else if (n.port port).all fun k => k.kind == 0 then 3
  else 0

def extCommand (n : Node) (op port : Nat) : Node :=
  let code := n.extRefusal op port
  let n := n.mExt fun e => { e with cmdResult := code }
  if code ≠ 0 then n.extFlag 6
  else if op = 1 then n.portMove port 5
  else if op = 2 then
    (if (n.portSt port).state = 5 then (if n.freshState port = 2 then n.portMove port 2 else n.portReturns port) else n)
  else n.updPort port fun s => { s with coalesced := 0, sent := 0, accepted := 0, rejected := 0 }

/-! Commands from networks (R527, R528, R542, R543). -/

/-- One more command of a port in this tick; the 17th is discarded. -/
def mayQueue (n : Node) (p : Nat) : Bool := decide ((n.portSt p).cmds < 16)
def countCmd (n : Node) (p : Nat) : Node := n.updPort p fun s => { s with cmds := s.cmds + 1 }

/-- The acknowledgement that an alert's item takes. -/
def ackItem (n : Node) (c : AlertCfg) : Node :=
  match c.item with
  | .point k => n.fabNet (some c.owner) 1 k 0 2
  | .ladder l => n.callNet (some c.owner) 0x11 l 0 2

/-- The acknowledgement would be refused: the queue is full, or its owner is not reached. -/
def ackRefused (n : Node) (c : AlertCfg) : Bool :=
  match n.dest (some c.owner) with
  | .unreachable => true
  | .own => n.queueFull
  | .send _ _ => false

/-- The ALR number's alert and the alert of an identifier and instance, on a port. -/
def byAlr (n : Node) (p num : Nat) : Option (Nat × AlertCfg) := (n.portAlerts p).find? fun e => e.2.alrNum == some num
def byIdent (n : Node) (p ident inst : Nat) : Option (Nat × AlertCfg) :=
  (n.portAlerts p).find? fun e => e.2.ident == ident && e.2.inst == inst

def takesAcks (n : Node) (p : Nat) : Bool := n.hears p && (n.port p).any fun k => k.ackAccept && k.sentences

/-- ACK belongs to the legacy sentences, ACN to the alert sentences; a port takes those of its set (R522, log entry 125). -/
def takesAck (n : Node) (p : Nat) : Bool := n.takesAcks p && (n.port p).any (·.legacy)
def takesAcn (n : Node) (p : Nat) : Bool := n.takesAcks p && (n.port p).any (·.alf)

/-- ACK (R528). -/
def takeAck (n : Node) (p num : Nat) : Node :=
  if !n.takesAck p then n.rejected p
  else match n.byAlr p num with
    | none => n.rejected p
    | some (_, c) => if n.mayQueue p then ((n.acceptedOn p).countCmd p).ackItem c else n.rejected p

/-- ACN (R528): A acknowledges, Q queues ALF, O and S are refused with ARC. -/
def takeAcn (n : Node) (p ident inst cmd : Nat) : Node :=
  if !n.takesAcn p then n.rejected p
  else match n.byIdent p ident inst with
    | none => n.rejected p
    | some (i, c) =>
      let arc (n : Node) : Node := if n.speaks p then n.emit p .arc noAlert (n.say p (.arc ident inst cmd)) else n
      if cmd = acnQ then
        let n := n.acceptedOn p
        if n.speaks p then n.emitAlf p .state i c else n
      else if cmd = acnO ∨ cmd = acnS then arc (n.acceptedOn p)
      else if n.mayQueue p then
        let refused := n.ackRefused c
        let n := ((n.acceptedOn p).countCmd p).ackItem c
        if refused then arc n else n
      else n.rejected p

/-- An IEC 61162-450 datagram (R533, R534). -/
def takeDatagram (n : Node) (p sfi : Nat) (l : List RxSentence) : Node :=
  let ok := n.hears p && (n.port p).any fun k => k.service 0 && k.sfis.contains sfi
  l.foldl (fun n x =>
    if !ok then n.rejected p
    else match x with
      | .ack num => n.takeAck p num
      | .acn ident inst cmd => n.takeAcn p ident inst cmd
      | .other => n.rejected p) n

/-! NMEA 2000 (R529 to R531). The CAN port is port 3. -/

def canSends (n : Node) : Bool := n.sends 3 && n.ext.claimed

/-- A received address claim: the lower NAME keeps the address; the loser tries the next one upward within 0 to 251, and with none
free claims 254. -/
def takeClaim (n : Node) (addr : Nat) (name : Nat) : Node :=
  match n.port 3 with
  | none => n
  | some k =>
    if k.kind ≠ 4 ∨ !n.hears 3 ∨ !n.ext.claimed ∨ n.ext.n2kAddr ≠ addr then n
    else if k.name.toNat < name then n.answerOn 3 (.n2kClaim addr)
    else if n.ext.tried < 252 then (n.mExt fun e => { e with tried := e.tried + 1 }).claimAddr ((addr + 1) % 252)
    else n.claimAddr 0xFE

/-- The answer to an ISO Request; a port that found no address free sends nothing more (R529, R530). -/
def isoAnswer (n : Node) (pgn : Nat) : Node :=
  if !n.hears 3 ∨ !(n.port 3).any (·.kind == 4) then n
  else if !n.ext.claimed && n.ext.tried != 0 then n
  else if pgn = 60928 then n.answerOn 3 (.n2kClaim n.ext.n2kAddr)
  else if !n.ext.claimed then n
  else if pgn = 126996 then n.sendOn 3 .n2kProduct
  else if pgn = 126985 then (n.portAlerts 3).foldl (fun n (_, c) => n.sendOn 3 (.n2kText c.n2kIdent c.n2kOcc c.text)) n
  else n

/-- R531: an engine field: not available when stale or unmapped, else scaled and held within the field. -/
def engineValue (n : Node) (f : EngineField) : Option Int :=
  match f.src with
  | none => none
  | some x =>
    let r := n.readSrc none x
    if r.stale || b64IsNaN r.val then none
    else
      let v := (b64Mul r.val f.scale).1
      let top : Int := (2 ^ f.width : Nat) - 2
      if b64IsNaN v then none
      else if b64IsInf v then some (if b64Neg v then 0 else top)
      else some (max 0 (min (b64RoundUp v) top))

def sendEngine (n : Node) (pgn : Nat) : Node :=
  if n.canSends then n.sendOn 3 (.n2kEngine pgn ((n.port 3).elim 0 (·.engineInst)) ((n.engineFields.filter (·.pgn == pgn)).map n.engineValue)) else n

/-! Modbus (R535 to R541). -/

def modLen (m : ModbusCfg) : Nat := match m.item with | .value _ => 4 | .tunable _ _ => 4 | _ => 1

/-- The item at an address of a space, and the register within it. -/
def modAt (n : Node) (sp : ModSpace) (a : Nat) : Option (ModbusCfg × Nat) :=
  (n.modItems.find? fun m => m.space == sp && decide (m.addr ≤ a) && decide (a < m.addr + modLen m)).map fun m => (m, a - m.addr)

/-- A source as it stood at the end of the last step 5 (R538). -/
def shownSource (n : Node) (x : Source) : B64 × Bool × Bool :=
  match n.fab.shownSrc.find? (·.1 == x) with
  | some e => e.2
  | none => let r := n.readSrc none x; (r.val, r.b, r.stale)

def word16 (v : B64) (k : Nat) : Nat := v.toNat / 2 ^ (16 * (3 - k)) % 65536

/-- A tunable as binary64: TH and HYS as they are, the tick items as numbers of ticks. -/
def tuneB64 (n : Node) (cell item : Nat) : B64 :=
  match n.point cell with
  | none => 0
  | some c => let v := n.inForce c item; if item ≤ 3 then v else b64OfNat v.toNat

def farPoint (n : Node) (o p : Nat) : FarPoint := tget {} n.ext.farShown (farKey (n.spaceOf o) p)

/-- A point's ACTIVE, UNACK or PRESENT as the map shows it. The records of another node do not give the filtered condition of a point that is
Shelved, Suppressed or Out of service: a free bit (log entry 125). -/
def shownBit (n : Node) (o p : Nat) (k : PointBit) : Bool :=
  let own := n.spaceOf o = n.space
  let s := n.shownPoint p
  let st := if own then s.st else (n.farPoint o p).st
  match k with
  | .active => st == stActUnack || st == stActAck
  | .unack => st == stActUnack || st == stRectUnack
  | .present =>
    if own then s.f
    else if st ≤ stRectUnack then st == stActUnack || st == stActAck
    else bit (Config.freeWord (farKey (n.spaceOf o) p)) 3

/-- The value of one address (Table 17.6). -/
def modRead (n : Node) (m : ModbusCfg) (k : Nat) : Nat :=
  match m.item with
  | .bool x => b2n (n.shownSource x).2.1
  | .value x => let r := n.shownSource x; word16 (if r.2.2 then b64NaN else r.1) k
  | .scaled x f =>
    let r := n.shownSource x
    if r.2.2 || b64IsNaN r.1 then 0x8000
    else
      let v := (b64Mul r.1 f).1
      if b64IsNaN v then 0x8000
      else if b64IsInf v then (if b64Neg v then 0x8001 else 0x7FFF)
      else intBits 16 (max (-32767) (min (b64RoundUp v) 32767))
  | .pointBit o p k => b2n (n.shownBit o p k)
  | .stateWord o p =>
    if n.spaceOf o = n.space then
      let s := n.shownPoint p
      s.st + ((n.point p).elim 0 (·.prio)) * 256 + b2n s.latched * 1024 + b2n s.stale * 2048
    else
      let s := n.farPoint o p
      s.st + s.prio * 256 + b2n s.latched * 1024 + b2n s.stale * 2048
  | .ackPoint .. => 0
  | .ackGroup .. => 0
  | .callAck .. => 0
  | .tunable cell item => word16 (n.tuneB64 cell item) k

def modReads (n : Node) (sp : ModSpace) (start cnt : Nat) : Option (List Nat) :=
  (List.range cnt).mapM fun i => (n.modAt sp (start + i)).map fun (m, k) => n.modRead m k

/-- The unit a request addresses: the server address, 0xFF on TCP, or the RTU broadcast (R535, R536). -/
def modUnit (n : Node) (p unit : Nat) : Bool :=
  match n.port p with
  | none => false
  | some k =>
    n.hears p && k.modbus &&
      (if k.kind = 3 then unit == k.mbAddr || unit == 0
       else unit == 0xFF || unit == k.mbAddr || (n.port 2).any fun r => r.kind == 3 && r.mbAddr == unit)

def broadcast (p unit : Nat) : Bool := p == 2 && unit == 0

/-- An answer or an exception; a broadcast has neither. -/
def modAnswer (n : Node) (p unit fn : Nat) (r : Except Nat (List Nat)) : Node :=
  match r with
  | .ok d => let n := n.acceptedOn p; if broadcast p unit then n else n.sendOn p (.modbus unit fn d)
  | .error c => let n := n.rejected p; if broadcast p unit then n else n.sendOn p (.modbusExc unit fn c)

/-- Functions 1 to 4: the values, or exception 0x03 for a count the protocol does not have, 0x02 for an address MAP leaves unplaced. -/
def modReadRange (n : Node) (sp : ModSpace) (start cnt most : Nat) : Except Nat (List Nat) :=
  if cnt = 0 ∨ most < cnt then .error 3
  else match n.modReads sp start cnt with
    | some l => .ok l
    | none => .error 2

def modReadFn (n : Node) (p unit fn : Nat) (sp : ModSpace) (start cnt most : Nat) : Node :=
  if !n.modUnit p unit || broadcast p unit then n
  else n.modAnswer p unit fn (n.modReadRange sp start cnt most)

/-- A coil set to 1 queues its command (R539, R543). -/
def coilCommand (n : Node) (p : Nat) (m : ModbusCfg) : Node :=
  if !n.mayQueue p then n.rejected p
  else
    let n := n.countCmd p
    match m.item with
    | .ackPoint o k => n.fabNet (some o) 1 k 0 2
    | .ackGroup o g => n.fabNet (some o) 2 g 0 2
    | .callAck o l => n.callNet (some o) 0x11 l 0 2
    | _ => n

def writeCoils (n : Node) (p unit fn start : Nat) (vs : List Bool) (echo : List Nat) : Node :=
  if !n.modUnit p unit then n
  else if vs.isEmpty ∨ 1968 < vs.length then n.modAnswer p unit fn (.error 3)
  else match (List.range vs.length).mapM fun i => n.modAt .coil (start + i) with
    | none => n.modAnswer p unit fn (.error 2)
    | some l => ((l.zip vs).foldl (fun n (m, v) => if v then n.coilCommand p m.1 else n) n).modAnswer p unit fn (.ok echo)

/-- The tunables that a run of registers covers, each whole; none where one is cut or unplaced (R540). -/
def wholeTunables (n : Node) : Nat → Nat → List (BitVec 16) → Option (List (Nat × Nat × B64))
  | 0, _, vs => if vs.isEmpty then some [] else none
  | f + 1, a, vs =>
    match vs with
    | [] => some []
    | x :: y :: z :: w :: r =>
      match n.modAt .holding a with
      | some (m, 0) =>
        match m.item with
        | .tunable cell item =>
          (wholeTunables n f (a + 4) r).map fun l =>
            (cell, item, BitVec.ofNat 64 (((x.toNat * 65536 + y.toNat) * 65536 + z.toNat) * 65536 + w.toNat)) :: l
        | _ => none
      | _ => none
    | _ => none

/-- A written value as the tunable holds it: a tick item takes the nearest whole number of ticks. -/
def tuneRaw (item : Nat) (v : B64) : B64 :=
  if item ≤ 3 then v else if b64RoundUp v < 0 then 0xFFFFFFFFFFFFFFFF else BitVec.ofNat 64 (b64RoundUp v).toNat

/-- The exception of a tunable write, 0 for none (R540). -/
def tuneException (n : Node) (x : Nat × Nat × B64) : Nat :=
  let (cell, item, v) := x
  if !b64Finite v then 3
  else
    let code := n.tuneRefusal cell item (tuneRaw item v)
    if code = 0 then 0 else if code = 2 ∨ code = 5 then 3 else 4

/-- The tunables of one request, one after the other; the first refused ends it. -/
def writeTunables : List (Nat × Nat × B64) → Node → Nat × Node
  | [], n => (0, n)
  | x :: r, n =>
    let code := n.tuneException x
    if code ≠ 0 then (code, n)
    else writeTunables r (n.mFab fun f => { f with tunePend := putTune f.tunePend ⟨x.1, x.2.1, tuneRaw x.2.1 x.2.2⟩ })

/-- Function 16's write: its exception, 0 for none, and the node after it. -/
def writeRegs (n : Node) (start : Nat) (vs : List (BitVec 16)) : Nat × Node :=
  if vs.isEmpty ∨ 123 < vs.length then (3, n)
  else match wholeTunables n vs.length start vs with
    | none => (2, n)
    | some l => writeTunables l n

def writeRegisters (n : Node) (p unit start : Nat) (vs : List (BitVec 16)) : Node :=
  if !n.modUnit p unit then n
  else
    let (code, n) := n.writeRegs start vs
    n.modAnswer p unit 16 (if code = 0 then .ok [start, vs.length] else .error code)

/-- Function 6: refused on a tunable with 0x01, elsewhere unplaced (R540). -/
def writeRegister (n : Node) (p unit a : Nat) : Node :=
  if !n.modUnit p unit then n
  else n.modAnswer p unit 6 (.error (if (n.modAt .holding a).isSome then 1 else 2))

/-- Function 23: the write, then the read (R541). -/
def readWrite (n : Node) (p unit rstart rn wstart : Nat) (vs : List (BitVec 16)) : Node :=
  if !n.modUnit p unit || broadcast p unit then n
  else
    let (code, n) := n.writeRegs wstart vs
    n.modAnswer p unit 23 (if code = 0 then n.modReadRange .holding rstart rn 125 else .error code)

/-- R536: at most 4 connections. -/
def tcpOpen (n : Node) (p : Nat) : Node :=
  if !n.hears p || !(n.port p).any fun k => k.service 1 then n
  else match (List.range 4).find? fun i => !bit (n.portSt p).conns i with
    | some i => (n.updPort p fun s => { s with conns := setBit s.conns i }).answerOn p (.tcpAccept i)
    | none => n.answerOn p .tcpRefuse

/-! The record service (R544 to R546). -/

def replayAsk (n : Node) (p space first cnt : Nat) : Node :=
  if !n.sends p || !(n.port p).any (·.records) then n
  else
    let code := if n.ext.replay.isSome then 1 else if space ≠ n.space then 2 else if cnt = 0 ∨ 4096 < cnt then 3 else 0
    if code ≠ 0 then ((n.rejected p).extFlag 5).sendOn p (.kvrn (n.kvHead true code space 0))
    else (n.acceptedOn p).mExt fun e => { e with replay := some ⟨p, space, first, first + cnt - 1⟩ }

/-- The held numbers of a range, in order, each once. -/
def heldRange (n : Node) (a b : Nat) : List Record :=
  let l := n.flashRecords ++ n.jrnl.ram.map (·.item)
  (sortBy (·.seq) (l.filter fun r => decide (a ≤ r.seq) && decide (r.seq ≤ b))).foldl (fun acc r =>
    if acc.any (fun x : Record => x.seq == r.seq) then acc else acc ++ [r]) []

/-- The next datagram of a replay, at most 40 records (R545). -/
def replayNext (n : Node) : Node :=
  match n.ext.replay with
  | none => n
  | some r =>
    if n.coreHeld then n
    else
    let l := n.heldRange r.next r.last
    let now := l.take 40
    let fin := decide (l.length ≤ 40)
    let n := n.mExt fun e => { e with
      replay := if fin then none else some { r with next := (now.getLast?.elim r.next fun x => x.seq + 1) } }
    if now.isEmpty || !n.sends r.port then n else n.sendOn r.port (.kvrs (n.kvHead false (1 + 2 * b2n fin) r.space now.length) now)

/-- A sentence ends on an S port and the next starts; a pending refresh follows once it has room (R526). -/
def sentenceEnds (n : Node) (p : Nat) : Node :=
  let s := n.portSt p
  if s.cur.isNone || n.coreHeld then n
  else ((n.setPort p { s with cur := none, sent := (s.sent + 1) % 2 ^ 32 }).startSentence p).refreshIfRoom p

/-- The repeats of Table 17.4 on a port; those of a duplicate ETH1 go out with ETH0's (R534). -/
def repeatAlf (n : Node) (p : Nat) : Node :=
  if n.speaks p && n.alertPort p == p && (n.port p).any (fun k => k.sentences && k.alf) then
    (n.portAlerts p).foldl (fun n (i, c) => if (n.alertSt i).shown then n.emitAlf p .rep i c else n) n
  else n

def repeatAlr (n : Node) (p : Nat) : Node :=
  if n.speaks p && n.alertPort p == p && (n.port p).any (fun k => k.sentences && k.legacy) then
    (n.portAlerts p).foldl (fun n (i, c) => if (n.alertSt i).shown then n.emitAlr p .rep i c else n) n
  else n

def cycleAlc (n : Node) (p : Nat) : Node :=
  if n.speaks p && n.alertPort p == p && (n.port p).any (fun k => k.sentences && k.alf) then n.emitAlc p else n

end Node

/-! The meanings of the commands. -/

/-- ACK on an S port or ETH (R528). -/
def execAckSentence (port : Fin 6) (num : Nat) (s : State) : Host.Outcome State Fault Refusal :=
  s.run fun n => n.clearLines.takeAck port.val num

/-- ACN (R528). -/
def execAcnSentence (port : Fin 6) (ident inst : Nat) (cmd : Fin 4) (s : State) : Host.Outcome State Fault Refusal :=
  s.run fun n => n.clearLines.takeAcn port.val ident inst cmd.val

/-- ALF every 60 s (R525). -/
def execAlfRepeat (port : Fin 6) (s : State) : Host.Outcome State Fault Refusal := s.run fun n => n.clearLines.repeatAlf port.val

/-- ALC every 30 s (R525). -/
def execAlcCycle (port : Fin 6) (s : State) : Host.Outcome State Fault Refusal := s.run fun n => n.clearLines.cycleAlc port.val

/-- ALR every 30 s (R525). -/
def execAlrRepeat (port : Fin 6) (s : State) : Host.Outcome State Fault Refusal := s.run fun n => n.clearLines.repeatAlr port.val

/-- A sentence ends (R526). -/
def execSentenceSent (port : Fin 6) (s : State) : Host.Outcome State Fault Refusal :=
  s.run fun n => n.clearLines.sentenceEnds port.val

/-- A received ISO address claim (R529). -/
def execAddressClaim (addr : BitVec 8) (name : BitVec 64) (s : State) : Host.Outcome State Fault Refusal :=
  s.run fun n => n.clearLines.takeClaim addr.toNat name.toNat

/-- An ISO Request (R529). -/
def execIsoRequest (pgn : Nat) (s : State) : Host.Outcome State Fault Refusal := s.run fun n => n.clearLines.isoAnswer pgn

/-- PGN 126993 every 60 s (R529). -/
def execHeartbeat (s : State) : Host.Outcome State Fault Refusal :=
  s.run fun n => let n := n.clearLines; if n.canSends then n.sendOn 3 .n2kHeartbeat else n

/-- PGN 126983 every 10 s for each alert not Normal (R530). -/
def execAlertRepeat (s : State) : Host.Outcome State Fault Refusal :=
  s.run fun n =>
    let n := n.clearLines
    if n.canSends then (n.portAlerts 3).foldl (fun n (i, c) => if (n.alertSt i).shown then n.emitN2k 3 i c false else n) n else n

/-- PGN 126984 (R530): response command 0 acknowledges; the others are ignored. -/
def execAlertResponse (ident occ cmd : Nat) (s : State) : Host.Outcome State Fault Refusal :=
  s.run fun n =>
    let n := n.clearLines
    if cmd ≠ 0 ∨ !n.hears 3 ∨ !(n.port 3).any (fun k => k.kind == 4 && k.ackAccept) then n
    else match (n.portAlerts 3).find? fun e => e.2.n2kIdent == ident && e.2.n2kOcc == occ with
      | none => n.rejected 3
      | some (_, c) => if n.mayQueue 3 then ((n.acceptedOn 3).countCmd 3).ackItem c else n.rejected 3

/-- PGN 127488 every 100 ms (R530). -/
def execEngineRapidUpdate (s : State) : Host.Outcome State Fault Refusal := s.run fun n => n.clearLines.sendEngine 127488

/-- PGN 127489 every 500 ms (R530). -/
def execEngineDynamic (s : State) : Host.Outcome State Fault Refusal := s.run fun n => n.clearLines.sendEngine 127489

/-- ARP and ICMP echo (R532). -/
def execArpIcmp (port : Fin 6) (arp : Bool) (s : State) : Host.Outcome State Fault Refusal :=
  s.run fun n =>
    let n := n.clearLines
    if n.hears port.val && (n.port port.val).any (·.ethernet) then n.answerOn port.val (if arp then .arpReply else .icmpReply) else n

/-- An IEC 61162-450 datagram (R533). -/
def execUdpbcDatagram (port : Fin 6) (sfi : Nat) (x : List RxSentence) (s : State) : Host.Outcome State Fault Refusal :=
  s.run fun n => n.clearLines.takeDatagram port.val sfi x

/-- Modbus function 1 (R537). -/
def execReadCoils (port : Fin 6) (unit start n : Nat) (s : State) : Host.Outcome State Fault Refusal :=
  s.run fun m => m.clearLines.modReadFn port.val unit 1 .coil start n 2000

/-- Modbus function 2 (R537). -/
def execReadDiscreteInputs (port : Fin 6) (unit start n : Nat) (s : State) : Host.Outcome State Fault Refusal :=
  s.run fun m => m.clearLines.modReadFn port.val unit 2 .discrete start n 2000

/-- Modbus function 3 (R537). -/
def execReadHoldingRegisters (port : Fin 6) (unit start n : Nat) (s : State) : Host.Outcome State Fault Refusal :=
  s.run fun m => m.clearLines.modReadFn port.val unit 3 .holding start n 125

/-- Modbus function 4 (R537). -/
def execReadInputRegisters (port : Fin 6) (unit start n : Nat) (s : State) : Host.Outcome State Fault Refusal :=
  s.run fun m => m.clearLines.modReadFn port.val unit 4 .input start n 125

/-- Modbus function 5 (R539). -/
def execWriteSingleCoil (port : Fin 6) (unit addr : Nat) (on : Bool) (s : State) : Host.Outcome State Fault Refusal :=
  s.run fun n => n.clearLines.writeCoils port.val unit 5 addr [on] [addr, if on then 0xFF00 else 0]

/-- Modbus function 6 (R540). -/
def execWriteSingleRegister (port : Fin 6) (unit addr : Nat) (_v : BitVec 16) (s : State) : Host.Outcome State Fault Refusal :=
  s.run fun n => n.clearLines.writeRegister port.val unit addr

/-- Modbus function 15 (R539). -/
def execWriteMultipleCoils (port : Fin 6) (unit start : Nat) (vs : List Bool) (s : State) : Host.Outcome State Fault Refusal :=
  s.run fun n => n.clearLines.writeCoils port.val unit 15 start vs [start, vs.length]

/-- Modbus function 16 (R540). -/
def execWriteMultipleRegisters (port : Fin 6) (unit start : Nat) (vs : List (BitVec 16)) (s : State) :
    Host.Outcome State Fault Refusal :=
  s.run fun n => n.clearLines.writeRegisters port.val unit start vs

/-- Modbus function 23 (R541). -/
def execReadWriteRegisters (port : Fin 6) (unit rstart rn wstart : Nat) (vs : List (BitVec 16)) (s : State) :
    Host.Outcome State Fault Refusal :=
  s.run fun n => n.clearLines.readWrite port.val unit rstart rn wstart vs

/-- A Modbus TCP connection (R536). -/
def execTcpConnect (port : Fin 6) (s : State) : Host.Outcome State Fault Refusal := s.run fun n => n.clearLines.tcpOpen port.val

/-- A connection idle for 60 s (R536). -/
def execTcpIdleClose (port : Fin 6) (conn : Fin 4) (s : State) : Host.Outcome State Fault Refusal :=
  s.run fun n =>
    let n := n.clearLines
    if bit (n.portSt port.val).conns conn.val then
      (n.updPort port.val fun s => { s with conns := clrBit s.conns conn.val }).answerOn port.val (.tcpClose conn.val)
    else n

/-- A KVRQ datagram (R545, R546). -/
def execReplayRequest (port : Fin 6) (space : Fin 16) (first : Nat) (n : Nat) (s : State) : Host.Outcome State Fault Refusal :=
  s.run fun m => m.clearLines.replayAsk port.val space.val first n

/-- The next replay datagram (R545). -/
def execReplaySend (s : State) : Host.Outcome State Fault Refusal := s.run fun n => n.clearLines.replayNext

/-- A port goes DOWN, BUS_OFF or back UP at node time t (R549). -/
def execPortStateChange (port : Fin 6) (ev : PortEvent) (t : Nat) (s : State) : Host.Outcome State Fault Refusal :=
  s.run fun n => (n.clearLines.setNow t).portEvent port.val ev t

/-- A bus-off CAN port restarts (R549). -/
def execBusOffRestart (s : State) : Host.Outcome State Fault Refusal := s.run fun n => n.clearLines.busOffReturn 3

/-- EXT_CMD DISABLE (R549). -/
def execDisable (port : BitVec 3) (s : State) : Host.Outcome State Fault Refusal := s.run fun n => n.clearLines.extCommand 1 port.toNat

/-- EXT_CMD ENABLE (R549). -/
def execEnable (port : BitVec 3) (s : State) : Host.Outcome State Fault Refusal := s.run fun n => n.clearLines.extCommand 2 port.toNat

/-- EXT_CMD CLEAR_COUNTS (Table 17.9). -/
def execClearCounts (port : BitVec 3) (s : State) : Host.Outcome State Fault Refusal :=
  s.run fun n => n.clearLines.extCommand 3 port.toNat

end Sys2Proof.Machine
end

