-- ==== Sys2Proof/Machine/SolverArith.lean ====
section
/-! DEFINITION. The solver's arithmetic (13): sums, norms, pivot tests, and the operations of 12 Table 12.1 on one matrix. -/

namespace Sys2Proof.Machine

/-- A refused pivot: the flags raised so far, its column, and its cause: 1 zero, 2 at or below threshold, 3 NaN or negative (R411, R412). -/
structure Singular where
  flags : Flags
  col : Nat
  cause : Nat
deriving DecidableEq, Repr

/-- What an operation computes, with the flags raised beside its value; or a refused pivot. -/
abbrev Calc (α : Type) := Except Singular α

/-- A word as the engine reads it: every NaN becomes the default one, a signalling one raising NV (R415). -/
def canon (x : B64) : B64 × Flags := (if b64IsNaN x then b64NaN else x, snanFlag [x])

/-- A sum of products in one accumulator, from its additive term (R404). -/
def sumFrom (s0 : B64) (l : List (B64 × B64)) : B64 × Flags :=
  l.foldl (fun (s, f) (a, b) => let (v, g) := b64Fma a b s; (v, f ||| g)) (canon s0)

/-- The additive term less a sum of products. -/
def sumLess (s0 : B64) (l : List (B64 × B64)) : B64 × Flags := sumFrom s0 (l.map fun p => (b64Negate p.1, p.2))

/-- A list of computed values with their flags ORed. -/
def gather (l : List (B64 × Flags)) : List B64 × Flags := (l.map (·.1), l.foldl (fun f p => f ||| p.2) 0)

def gather2 (l : List (List B64 × Flags)) : List (List B64) × Flags := (l.map (·.1), l.foldl (fun f p => f ||| p.2) 0)

/-! Norms (R405): a two-norm's sum is formed to 53 bits with unbounded exponents, as its internal scaling makes it, and rounded to
binary64 with its root; log entry 26. -/

/-- m × 2^e rounded to 53 bits, ties to even, and whether it changed. -/
def round53 (m : Nat) (e : Int) : Nat × Int × Bool :=
  if m < 2 ^ 53 then (m, e, false)
  else
    let k := Nat.log2 m - 52
    let q := m / 2 ^ k
    let r := m % 2 ^ k
    let q1 := if 2 * r > 2 ^ k || (2 * r == 2 ^ k && q % 2 == 1) then q + 1 else q
    (q1, e + k, r != 0)

def normStep (a : Nat × Int × Bool) (x : B64) : Nat × Int × Bool :=
  let p := b64Mant x * b64Mant x
  let pe := 2 * b64Pow x
  let (m, e, ix) := a
  let lo := min e pe
  let (q, k, jx) := round53 (m * 2 ^ (e - lo).toNat + p * 2 ^ (pe - lo).toNat) lo
  (q, k, ix || jx)

def norm2 (l : List B64) : B64 × Flags :=
  if l.any b64IsNaN then (b64NaN, 0)
  else if l.any b64IsInf then (b64Inf, 0)
  else
    let v := l.filter (! b64IsZero ·)
    let e0 : Int := (v.map b64Pow).foldl min 1024
    let (m, e, ix) := v.foldl normStep (0, 2 * e0, false)
    if m = 0 then (0, 0)
    else
      let (r, f) := rootQ m e
      (r, f ||| (if ix then fIX else 0))

def normInf (l : List B64) : B64 :=
  if l.any b64IsNaN then b64NaN else l.foldl (fun a x => if b64Lt a (b64Abs x) then b64Abs x else a) 0

/-! The pivot test (R409, R411). -/

def pivotTest (thr p : B64) (signed : Bool) (col : Nat) (f : Flags) : Except Singular Unit :=
  let x := if signed then p else b64Abs p
  if b64Lt thr x then .ok ()
  else if b64IsNaN p then .error ⟨f ||| fNV, col, 3⟩
  else if b64IsZero p then .error ⟨f ||| fDZ, col, 1⟩
  else if signed && b64Neg p then .error ⟨f ||| fNV, col, 3⟩
  else .error ⟨f, col, 2⟩

/-! Matrices are lists of columns. -/

/-- Columns of `m` rows from column-major words (12 R365). -/
def columns (m : Nat) : Nat → List B64 → List (List B64)
  | 0, _ => []
  | k + 1, l => l.take m :: columns m k (l.drop m)

def at2 (a : List (List B64)) (i j : Nat) : B64 := (a.getD j []).getD i 0
def rowOf (a : List (List B64)) (i : Nat) : List B64 := a.map fun c => c.getD i 0

/-- CHOL, column by column (Table 12.1; the order is log entry 26). -/
def cholStep (a : List (List B64)) (n : Nat) (thr : B64) (st : List (List B64) × Flags) (j : Nat) : Calc ((List (List B64)) × Flags) := do
  let (cols, f) := st
  let rj := rowOf cols j
  let (d, g) := sumLess (at2 a j j) (rj.zip rj)
  pivotTest thr d true j (f ||| g)
  let (l, h) := b64Sqrt d
  let (below, k) := gather ((List.range (n - 1 - j)).map fun t =>
    let i := j + 1 + t
    let (s, e1) := sumLess (at2 a i j) ((rowOf cols i).zip rj)
    let (q, e2) := b64Div s l
    (q, e1 ||| e2))
  return (cols ++ [List.replicate j b64Zero ++ [l] ++ below], f ||| g ||| h ||| k)

def chol (a : List (List B64)) (n : Nat) (thr : B64) : Calc ((List (List B64)) × Flags) :=
  (List.range n).foldlM (cholStep a n thr) ([], 0)

/-- A row of the LU working store: its number in A, its elements, and the packed elements computed so far. -/
structure LuRow where
  num : Nat
  src : List B64
  done : List B64
deriving DecidableEq, Repr

/-- The rank of a pivot candidate (R410): a NaN above every number. -/
def pivotKey (x : B64) : Nat := if b64IsNaN x then 2 ^ 64 else (b64Abs x).toNat

/-- The place of the largest candidate, the first on a tie. -/
def pivotPlace (l : List B64) : Nat :=
  (l.zipIdx.foldl (fun (b : Nat × Nat) p => if b.1 < pivotKey p.1 + 1 then (pivotKey p.1 + 1, p.2) else b) (0, 0)).2

/-- The upper part of column j, row by row. -/
def luUpper (j : Nat) (rows : List LuRow) : List B64 × Flags :=
  rows.foldl (fun (us, f) r => let (u, g) := sumLess (r.src.getD j 0) (r.done.zip us); (us ++ [u], f ||| g)) ([], 0)

def swapRows (l : List LuRow) (p : Nat) : List LuRow :=
  match l with
  | [] => []
  | x :: r => if p = 0 then l else match l[p]? with | some y => y :: r.set (p - 1) x | none => l

/-- LU, column by column, with the row exchange and the test of R410. -/
def luStep (thr : B64) (st : List LuRow × Flags) (j : Nat) : Calc ((List LuRow) × Flags) := do
  let (rows, f) := st
  let top := rows.take j
  let (us, g) := luUpper j top
  let low := (rows.drop j).map fun r => (r, sumLess (r.src.getD j 0) (r.done.zip us))
  let g := low.foldl (fun a x => a ||| x.2.2) g
  let marked := swapRows (low.map fun x => { x.1 with done := x.1.done ++ [x.2.1] }) (pivotPlace (low.map fun x => x.2.1))
  let topNew := (top.zip us).map fun x => { x.1 with done := x.1.done ++ [x.2] }
  match marked with
  | [] => return (rows, f ||| g)
  | p :: rest =>
    let piv := p.done.getD j 0
    pivotTest thr piv false j (f ||| g)
    let divs := rest.map fun r => (r, b64Div (r.done.getD j 0) piv)
    let h := divs.foldl (fun a x => a ||| x.2.2) 0
    return (topNew ++ [p] ++ divs.map (fun x => { x.1 with done := x.1.done.take j ++ [x.2.1] }), f ||| g ||| h)

def luFactor (a : List (List B64)) (n : Nat) (thr : B64) : Calc ((List LuRow) × Flags) :=
  (List.range n).foldlM (luStep thr) ((List.range n).map fun i => ⟨i, rowOf a i, []⟩, 0)

/-- LX = b with L's diagonal `diag` of ones or read from the rows; U is the mirror image. -/
def forwardUnit (rows : List LuRow) (b : List B64) : List B64 × Flags :=
  rows.foldl (fun (ys, f) r => let (y, g) := sumLess (b.getD r.num 0) (r.done.zip ys); (ys ++ [y], f ||| g)) ([], 0)

/-- Back substitution from rows of an upper triangle: row i's elements are those from column i on. -/
def backward : List (List B64) → List B64 → List B64 × Flags
  | [], _ => ([], 0)
  | r :: rest, b =>
    let (xs, f) := backward rest b.tail
    let (s, g) := sumLess (b.headD 0) (r.tail.zip xs)
    let (x, h) := b64Div s (r.headD 0)
    (x :: xs, f ||| g ||| h)

def upperRows (rows : List LuRow) : List (List B64) := rows.zipIdx.map fun (r, i) => r.done.drop i

def luSolve (rows : List LuRow) (b : List B64) : List B64 × Flags :=
  let (y, f) := forwardUnit rows b
  let (x, g) := backward (upperRows rows) y
  (x, f ||| g)

/-- b − Ax, each element one sum from b (R404). -/
def residual (a : List (List B64)) (b x : List B64) : List B64 × Flags :=
  gather (b.zipIdx.map fun (v, i) => sumLess v ((rowOf a i).zip x))

/-! QR (Table 12.1): the Householder reflection H = I − tau v vᵀ, v's first element 1, that takes a column to β and zeros below it. The
sign of β and the order of the roundings are log entry 8. -/

/-- A reflector of a column: β, tau and the vector below the diagonal. A column with zeros alone below the diagonal has none, and tau +0
(R419). -/
def reflectorOf (c : List B64) : (B64 × B64 × List B64) × Flags :=
  match c with
  | [] => ((b64Zero, b64Zero, []), 0)
  | x :: r =>
    if r.all b64IsZero then let (v, f) := canon x; ((v, b64Zero, r.map fun _ => b64Zero), f)
    else
      let neg := Config.reflectsNegative c
      let (s, f0) := norm2 c
      let beta := (canon (if neg then b64Negate s else s)).1
      -- α − β, where the two have one sign as −‖r‖² / (α + β), so that it never is 0
      let (d, f1) :=
        if b64Neg x == neg then
          let (p, g0) := norm2 r
          let (e, g1) := b64Add x beta
          let (q, g2) := b64Div p e
          let (m, g3) := b64Mul (b64Negate p) q
          (m, g0 ||| g1 ||| g2 ||| g3)
        else b64Sub x beta
      let (tau, f2) := b64Div (b64Negate d) beta
      let (v, f3) := gather (r.map fun y => b64Div y d)
      ((beta, tau, v), snanFlag c ||| f0 ||| f1 ||| f2 ||| f3)

/-- A reflector applied to a column's elements from the diagonal on; tau 0 stands for no reflection. -/
def applyReflector (tau : B64) (v c : List B64) : List B64 × Flags :=
  match c with
  | [] => ([], 0)
  | x :: r =>
    if b64IsZero tau then (c, 0)
    else
      let (s, f) := sumFrom x (v.zip r)
      let (t, g) := b64Mul tau s
      let (x1, h) := b64Sub x t
      let (r1, k) := gather ((v.zip r).map fun p => b64Fma (b64Negate p.1) t p.2)
      (x1 :: r1, f ||| g ||| h ||| k)

/-- The working columns and the ones finished: R above the diagonal, β, then the reflector's vector. -/
structure QrSt where
  todo : List (List B64)
  doneCols : List (List B64)
  taus : List B64
deriving DecidableEq, Repr

/-- One column of QR; `thr` gives the threshold of the test of r_jj where the operation tests it (R409). -/
def qrStep (thr : Option B64) (st : QrSt × Flags) (j : Nat) : Calc (QrSt × Flags) := do
  let (q, f) := st
  match q.todo with
  | [] => return (q, f)
  | c :: rest =>
    let ((beta, tau, v), g) := reflectorOf (c.drop j)
    match thr with
    | some t => pivotTest t beta false j (f ||| g)
    | none => pure ()
    let applied := rest.map fun d => let (e, h) := applyReflector tau v (d.drop j); (d.take j ++ e, h)
    let h := applied.foldl (fun a x => a ||| x.2) 0
    return ({ todo := applied.map (·.1), doneCols := q.doneCols ++ [c.take j ++ [beta] ++ v], taus := q.taus ++ [tau] }, f ||| g ||| h)

def qrFactor (a : List (List B64)) (n : Nat) (thr : Option B64) : Calc (QrSt × Flags) :=
  (List.range n).foldlM (qrStep thr) ({ todo := a, doneCols := [], taus := [] }, 0)

/-- The rows of R, each from the diagonal on. -/
def rRows (cols : List (List B64)) (n : Nat) : List (List B64) := (List.range n).map fun i => (rowOf cols i).drop i

/-- The least-squares solution of Ax = b: b is carried along as a last column. -/
def lsqSolve (a : List (List B64)) (b : List B64) (n : Nat) (thr : B64) (negate : Bool) : Calc ((List B64) × Flags) := do
  let (q, f) ← qrFactor (a ++ [b]) n (some thr)
  let c := (q.todo.headD []).take n
  let (x, g) := backward (rRows q.doneCols n) (if negate then c.map b64Negate else c)
  return (x, f ||| g)

/-! Triangular solves, row by row, with each diagonal tested before it divides. -/

def fsubStep (l b : List (List B64)) (thr : B64) (st : List (List B64) × Flags) (i : Nat) : Calc ((List (List B64)) × Flags) := do
  let (xs, f) := st
  let d := at2 l i i
  pivotTest thr d false i f
  let row := (rowOf l i).take i
  let (new, g) := gather (b.zip xs |>.map fun (bc, xc) =>
    let (s, e1) := sumLess (bc.getD i 0) (row.zip xc)
    let (x, e2) := b64Div s d
    (x, e1 ||| e2))
  return ((xs.zip new).map fun (xc, x) => xc ++ [x], f ||| g)

def fsub (l b : List (List B64)) (n : Nat) (thr : B64) : Calc ((List (List B64)) × Flags) :=
  (List.range n).foldlM (fsubStep l b thr) (b.map fun _ => [], 0)

/-- U X = B from the last row up; `xs` holds the elements already found, from row i + 1 on. -/
def bsubStep (u b : List (List B64)) (n : Nat) (thr : B64) (st : List (List B64) × Flags) (t : Nat) : Calc ((List (List B64)) × Flags) := do
  let (xs, f) := st
  let i := n - 1 - t
  let d := at2 u i i
  pivotTest thr d false i f
  let row := (rowOf u i).drop (i + 1)
  let (new, g) := gather (b.zip xs |>.map fun (bc, xc) =>
    let (s, e1) := sumLess (bc.getD i 0) (row.zip xc)
    let (x, e2) := b64Div s d
    (x, e1 ||| e2))
  return ((xs.zip new).map fun (xc, x) => x :: xc, f ||| g)

def bsub (u b : List (List B64)) (n : Nat) (thr : B64) : Calc ((List (List B64)) × Flags) :=
  (List.range n).foldlM (bsubStep u b n thr) (b.map fun _ => [], 0)

/-! IREF (12 R363, 13 R414). -/

/-- ‖c‖∞ ≤ TOL × ‖x‖∞, compared on exact values. -/
def smallEnough (tol : B64) (c x : List B64) : Bool :=
  let a := normInf c
  let b := normInf x
  decide ((b64Num a : Rat) / b64Den a ≤ (b64Num tol : Rat) / b64Den tol * ((b64Num b : Rat) / b64Den b))

/-- Up to `k` corrections; answers x, the corrections applied and the flags. -/
def refine (a : List (List B64)) (rows : List LuRow) (b : List B64) (tol : B64) : Nat → List B64 → Nat → Flags → List B64 × Nat × Flags
  | 0, x, it, f => (x, it, f)
  | k + 1, x, it, f =>
    let (r, g) := residual a b x
    let (c, h) := luSolve rows r
    let (x1, e) := gather ((x.zip c).map fun p => b64Add p.1 p.2)
    if c.all b64Finite && x1.all b64Finite then
      if smallEnough tol c x1 then (x1, it + 1, f ||| g ||| h ||| e) else refine a rows b tol k x1 (it + 1) (f ||| g ||| h ||| e)
    else (x, it, f ||| g ||| h ||| (if c.all b64Finite then e else 0))

def iref (a : List (List B64)) (b : List B64) (n k : Nat) (tol thr : B64) (warm : Option (List B64)) : Calc ((List B64 × B64 × Nat) × Flags) := do
  let (rows, f) ← luFactor a n thr
  let (x0, g) := match warm with | some x => (x, 0) | none => luSolve rows b
  let (x, it, h) := refine a rows b tol k x0 0 (f ||| g)
  let (r, e) := residual a b x
  return ((x, normInf r, it), h ||| e)

/-! KUPD (12 R364). Products are formed left to right (log entry 26). -/

/-- A B + C by columns, C the additive term. -/
def mulAdd (a b c : List (List B64)) (rows : Nat) : List (List B64) × Flags :=
  gather2 (b.zipIdx.map fun (bc, j) => gather ((List.range rows).map fun i => sumFrom (at2 c i j) ((rowOf a i).zip bc)))

/-- C − A B. -/
def mulLess (a b c : List (List B64)) (rows : Nat) : List (List B64) × Flags :=
  gather2 (b.zipIdx.map fun (bc, j) => gather ((List.range rows).map fun i => sumLess (at2 c i j) ((rowOf a i).zip bc)))

def transpose (rows : Nat) (a : List (List B64)) : List (List B64) := (List.range rows).map fun i => rowOf a i
def eye (n : Nat) : List (List B64) := (List.range n).map fun j => (List.range n).map fun i => if i = j then b64One else b64Zero

/-- The prior: Fx and FPFᵀ + Q, or x and P. -/
def prior (f q : Option (List (List B64))) (x : List B64) (p : List (List B64)) (n : Nat) : List B64 × List (List B64) × Flags :=
  match f, q with
  | some f, some q =>
    let (x1, g) := mulAdd f [x] [] n
    let (fp, h) := mulAdd f p [] n
    let (p1, k) := mulAdd fp (transpose n f) q n
    (x1.headD [], p1, g ||| h ||| k)
  | _, _ => (x, p, 0)

def kupd (x : List B64) (p h r : List (List B64)) (z : List B64) (n m : Nat) (f q : Option (List (List B64))) (thr : B64) :
    Calc ((List B64 × List (List B64)) × Flags) := do
  let (x, p, f0) := prior f q x p n
  let (t, f1) := mulAdd p (transpose m h) [] n
  let (s, f2) := mulAdd h t r m
  let (l, f3) ← match chol s m thr with
    | .ok v => .ok v
    | .error e => .error { e with flags := e.flags ||| f0 ||| f1 ||| f2 }
  let solveRow (b : List B64) : List B64 × Flags :=
    match fsub l [b] m 0, bsub (transpose m l) [((match fsub l [b] m 0 with | .ok v => v.1 | .error _ => []).headD [])] m 0 with
    | .ok (_, g), .ok (k, e) => (k.headD [], g ||| e)
    | _, _ => (List.replicate m b64NaN, 0)
  let (kRows, f4) := gather2 ((transpose n t).map solveRow)
  let k := transpose m kRows
  let (v, f5) := mulLess h [x] [z] m
  let (x1, f6) := mulAdd k v [x] n
  let (ikh, f7) := mulLess k h (eye n) n
  let (w, f8) := mulAdd ikh p [] n
  let (pj, f9) := mulAdd w (transpose n ikh) [] n
  let (kr, f10) := mulAdd k r [] n
  let (p1, f11) := mulAdd kr (transpose n k) pj n
  return ((x1.headD [], p1), f0 ||| f1 ||| f2 ||| f3 ||| f4 ||| f5 ||| f6 ||| f7 ||| f8 ||| f9 ||| f10 ||| f11)

/-! One matrix (12 Table 12.1). -/

/-- Words read and written per matrix (12 Table 12.2). -/
def wordsIn (op m n : Nat) : Nat :=
  match op with
  | 1 => n * n
  | 2 => n * n
  | 3 => m * n
  | 4 => n * n + n * m
  | 5 => n * n + n * m
  | 6 => m * n + m
  | 7 => n * n + n
  | 8 => m * n + m + n
  | _ => n + n * n + m * n + m * m + m

def wordsOut (op m n : Nat) : Nat :=
  match op with
  | 1 => n * n
  | 2 => n * n + n
  | 3 => m * n + n
  | 4 => n * m
  | 5 => n * m
  | 6 => n + m + 1
  | 7 => n + 1
  | 8 => n + 1
  | _ => n + n * n

/-- What a matrix ends with: its output words, its status word, and the corrections of IREF. -/
structure MatEnd where
  out : List B64
  status : Nat
  iter : Nat
deriving DecidableEq, Repr

def MatEnd.code (e : MatEnd) : Nat := e.status % 16
def MatEnd.flags (e : MatEnd) : Flags := BitVec.ofNat 5 (e.status / 16)

/-- The parts of a template that an operation uses. -/
structure OpCfg where
  op : Nat
  m : Nat
  n : Nat
  k : Nat
  tol : B64
  thr : B64
  f : Option (List B64)
  q : Option (List B64)
deriving DecidableEq, Repr

def compute (c : OpCfg) (w : List B64) (warm : Option (List B64)) : Calc ((List B64 × Nat) × Flags) := do
  let n := c.n
  let m := c.m
  match c.op with
  | 1 =>
    let (l, f) ← chol (columns n n w) n c.thr
    return ((l.flatten, 0), f)
  | 2 =>
    let (rows, f) ← luFactor (columns n n w) n c.thr
    let packed := (List.range n).flatMap fun j => rows.map fun r => r.done.getD j 0
    return ((packed ++ rows.map (fun r => BitVec.ofNat 64 r.num), 0), f)
  | 3 =>
    let (q, f) ← qrFactor (columns m n w) n none
    return ((q.doneCols.flatten ++ q.taus, 0), f)
  | 4 =>
    let (x, f) ← fsub (columns n n w) (columns n m (w.drop (n * n))) n c.thr
    return ((x.flatten, 0), f)
  | 5 =>
    let (x, f) ← bsub (columns n n w) (columns n m (w.drop (n * n))) n c.thr
    return ((x.flatten, 0), f)
  | 6 =>
    let a := columns m n w
    let b := (w.drop (m * n)).take m
    let (x, f) ← lsqSolve a b n c.thr false
    let (r, g) := residual a b x
    let (v, h) := norm2 r
    return ((x ++ r ++ [v], 0), f ||| g ||| h)
  | 7 =>
    let ((x, v, it), f) ← iref (columns n n w) ((w.drop (n * n)).take n) n c.k c.tol c.thr warm
    return ((x ++ [v], it), f)
  | 8 =>
    let x0 := warm.getD ((w.drop (m * n + m)).take n)
    let (d, f) ← lsqSolve (columns m n w) ((w.drop (m * n)).take m) n c.thr true
    let (x, g) := gather ((x0.zip d).map fun p => b64Add p.1 p.2)
    let (v, h) := norm2 d
    return ((x ++ [v], 0), f ||| g ||| h)
  | _ =>
    let p := columns n n (w.drop n)
    let h := columns m n (w.drop (n + n * n))
    let r := columns m m (w.drop (n + n * n + m * n))
    let z := (w.drop (n + n * n + m * n + m * m)).take m
    let sq (o : Option (List B64)) := o.map (columns n n)
    let ((x1, p1), f) ← kupd (w.take n) p h r z n m (sq c.f) (sq c.q) c.thr
    return ((x1 ++ p1.flatten, 0), f)

/-- Integer output words of a matrix that ends SINGULAR (R412): the pivots of LU. -/
def nanOut (c : OpCfg) : List B64 :=
  if c.op = 2 then List.replicate (c.n * c.n) b64NaN ++ List.replicate c.n 0xFFFFFFFF
  else List.replicate (wordsOut c.op c.m c.n) b64NaN

/-- One matrix from its input words (R412, R416). -/
def matrixEnd (c : OpCfg) (w : List B64) (warm : Option (List B64)) : MatEnd :=
  match compute c w warm with
  | .ok ((out, it), f) => ⟨out, f.toNat * 16, it⟩
  | .error e => ⟨nanOut c, 2 + e.flags.toNat * 16 + e.col * 2 ^ 9 + e.cause * 2 ^ 14, 0⟩

/-! The carry (12 R384): the format and rounding of R401 and R402, and no flags. -/

/-- One matrix's output words advanced by F, and P by FPFᵀ + Q for KUPD; the others are held. -/
def carryWords (c : OpCfg) (out : List B64) : List B64 :=
  match c.f with
  | none => out
  | some fw =>
    let n := c.n
    let f := columns n n fw
    let x := ((mulAdd f [out.take n] [] n).1).headD []
    if c.op = 9 then
      let p := columns n n (out.drop n)
      let fp := (mulAdd f p [] n).1
      let q := match c.q with | some q => columns n n q | none => []
      x ++ ((mulAdd fp (transpose n f) q n).1).flatten ++ out.drop (n + n * n)
    else x ++ out.drop n

end Sys2Proof.Machine
end

