-- ==== Sys2Proof/Machine/Solver.lean ====
section
/-! DEFINITION. The solver engine (12): submission, queues and slots, job ends, publication and the carry, completion entries and the
memory window. -/

namespace Sys2Proof.Machine

/-- How a job ends: by its own outcome, at its deadline, by Hold-up, by a second fault, or before it runs on its inputs. -/
inductive JobHow where
  | own | deadline | aborted | hwfault | stale
deriving DecidableEq, Repr

/-- A job ID (R375). -/
def jobId (slot gen : Nat) : Nat := gen % 8 * 16 + slot % 16

/-- The leading n×n block of an N×N matrix (log entry 29). -/
def leadBlock (big n : Nat) (w : List B64) : List B64 := ((columns big big w).take n).flatMap fun c => c.take n

def Job.opCfg (j : Job) : OpCfg :=
  let lead (o : Option (List B64)) := o.map (leadBlock j.cfg.n j.n)
  ⟨j.cfg.op, j.m, j.n, j.cfg.k, j.cfg.tol, j.cfg.thr, lead j.cfg.f, lead j.cfg.q⟩

def Job.win (j : Job) : Nat := wordsIn j.cfg.op j.m j.n
def Job.wout (j : Job) : Nat := wordsOut j.cfg.op j.m j.n
/-- Where the status words start (R376). -/
def Job.statusBase (j : Job) : Nat := j.outB + j.b * j.wout

/-- The operand and the result area, first word and one past the last (R376). -/
def Job.areas (j : Job) : List (Nat × Nat) := [(j.inB, j.inB + j.b * j.win), (j.outB, j.outB + j.b * (j.wout + 1))]

def meets (a b : Nat × Nat) : Bool := decide (a.1 < b.2) && decide (b.1 < a.2)
def usesM (op : Nat) : Bool := op != 1 && op != 2 && op != 7
def tallOp (op : Nat) : Bool := op == 3 || op == 6 || op == 8

namespace Node

def solvFlag (n : Node) (i : Nat) : Node := n.mSolv fun s => { s with flags := setBit s.flags i }
def setTmpl (n : Node) (t : Nat) (x : TmplSt) : Node := n.mSolv fun s => { s with tmpl := tset {} s.tmpl t x }
def setJob (n : Node) (k : Nat) (j : Option Job) : Node := n.mSolv fun s => { s with slots := tupd {} s.slots k fun x => { x with job := j } }

/-- A SOLVER record (14 Table 14.2, R392). -/
def solvRecord (n : Node) (t event : Nat) (e0 : Word) : Node :=
  n.later ⟨0x30, t, 0, event, leBytes 2 0 ++ leBytes 4 (n.tmplStat t).toNat ++ leBytes 4 e0.toNat⟩

/-- The words of solver memory from an address on. -/
def memWords (n : Node) (a k : Nat) : List B64 := (List.range k).map fun i => tget 0 n.solv.mem (a + i)
def putMem (n : Node) (a : Nat) (l : List B64) : Node :=
  n.mSolv fun s => { s with mem := l.zipIdx.foldl (fun m (v, i) => tset 0 m (a + i) v) s.mem }

/-! Starting a job (R370, R372, R389). -/

/-- A scheduled job's input words as its start reads them: an input naming a template takes that template's published element. -/
def resolveIns (n : Node) (j : Job) : List (Option (B64 × Bool)) :=
  (j.ins.zip j.cfg.inputs).map fun (v, i) =>
    match v, i with
    | some x, _ => some x
    | none, .tmpl t k req =>
      let w := (n.tmplSt t).elems.getD k b64NaN
      some (w, req && (b64IsNaN w || n.solvStale t k none))
    | none, .const w => some (w, false)
    | none, .src _ req => some (b64NaN, req)

/-- The template state a job may start from belongs to its own template (R396, 02 R81). -/
def sameTemplate (n : Node) (c : TemplateCfg) : Bool := (n.template c.num).any (·.carryKey == c.carryKey)

/-- What a job starts from besides its operands (R389): x per matrix for IREF and GN, x and P per matrix for a scheduled KUPD. -/
def warmOf (n : Node) (j : Job) : Option (List (List B64)) :=
  let t := n.tmplSt j.cfg.num
  let stored := if j.cfg.op = 9 then t.base else t.committed
  let wanted := if j.queue = 0 then j.cfg.op == 7 || j.cfg.op == 8 || j.cfg.op == 9 else j.warm && (j.cfg.op == 7 || j.cfg.op == 8)
  let len := if j.cfg.op = 9 then j.n + j.n * j.n else j.n
  if wanted && n.sameTemplate j.cfg then stored.bind fun l => if l.all (·.length == len) then some l else none else none

/-- x and P that a scheduled KUPD starts from before anything is published (Table 12.5; layout: log entry 30). -/
def initState (c : TemplateCfg) (i : Nat) : List B64 :=
  (c.initX.drop (i * c.n)).take c.n ++ (c.initP.drop (i * (c.n * c.n))).take (c.n * c.n)

/-- The input words of one matrix. -/
def matWords (n : Node) (j : Job) (i : Nat) : List B64 :=
  if j.queue = 0 then
    let w := ((j.ins.drop (i * j.win)).take j.win).map fun x => (x.getD (b64NaN, false)).1
    if j.cfg.op = 9 then
      let xp := (j.x0.bind (·[i]?)).getD (initState j.cfg i)
      xp ++ w.drop (j.n + j.n * j.n)
    else w
  else n.memWords (j.inB + i * j.win) j.win

/-- What one matrix ends with. -/
def runMatrix (n : Node) (j : Job) (i : Nat) : MatEnd :=
  matrixEnd j.opCfg (n.matWords j i) (if j.cfg.op = 9 then none else j.x0.bind (·[i]?))

/-! Publication, the carry and the template's state (R383 to R388). -/

def setFault (n : Node) (t : Nat) : Node :=
  if (n.tmplSt t).fault then n
  else
    let n := (n.setTmpl t { n.tmplSt t with fault := true }).solvFlag 4
    (n.mSolv fun s => { s with faultReq := true }).solvRecord t 3 0

/-- A job ending OK: every element at once, the carry base, and FAULT and CARRYING cleared (R371, R386). -/
def publishOk (n : Node) (j : Job) (mats : List (List B64)) : Node :=
  let t := j.cfg.num
  let s := n.tmplSt t
  let n := n.setTmpl t { s with
    okSeen := true
    published := true
    base := some mats
    elems := elemsOf j.cfg mats
    ts := j.tick
    fault := false
    carrying := false
    carryCnt := 0 }
  let n := if s.fault then (n.mSolv fun x => { x with faultReq := true }).solvRecord t 3 0 else n
  if s.carrying then n.solvRecord t 4 0 else n

/-- A carry, or its refusal (R384, R385). -/
def carryOn (n : Node) (j : Job) : Node :=
  let t := j.cfg.num
  let s := n.tmplSt t
  if s.carryCnt + 1 > j.cfg.carryMax then
    let n := n.setTmpl t { s with carrying := false }
    let n := if s.carrying then n.solvRecord t 4 0 else n
    n.setFault t
  else match (if s.published then s.base else none) with
    | none => n.setTmpl t { s with carryCnt := s.carryCnt + 1 }
    | some l =>
      let mats := l.map (carryWords j.opCfg)
      let n := (n.setTmpl t { s with
        base := some mats
        elems := elemsOf j.cfg mats
        ts := j.tick
        carrying := true
        carryCnt := s.carryCnt + 1 }).solvFlag 3
      if s.carrying then n else n.solvRecord t 2 0

/-- What the end of a scheduled job does to its template (R383 to R388, R398); Sleep raises no fault and counts no carry (03 R104). -/
def scheduledEnd (n : Node) (j : Job) (status : Nat) (mats : List (List B64)) : Node :=
  if !n.sameTemplate j.cfg || status = 6 then n
  else if status = 0 then n.publishOk j mats
  else
    let n := n.solvRecord j.cfg.num 1 0
    if n.solvSuspended then n
    else if j.cfg.carry then (if status = 3 then n else n.carryOn j) else n.setFault j.cfg.num

/-! Job ends (R380, R381). -/

/-- Which matrices a job that was stopped had computed: open, but not all of them (R381, R413; log entry 27). -/
def computedSet (n : Node) (b : Nat) : BitVec 64 × Node :=
  let (v, n) := n.fresh
  (if (List.range b).all (bit v ·) then clrBit v (b - 1) else v, n)

/-- Each matrix's end: some words where it was computed, or the code it carries. -/
def matrixEnds (n : Node) (j : Job) (how : JobHow) (ran : Bool) : List MatEnd × Node :=
  let code (c : Nat) : MatEnd := ⟨[], c, 0⟩
  let stopped (c : Nat) : List MatEnd × Node :=
    if ran then
      let (v, n) := n.computedSet j.b
      ((List.range j.b).map fun i => if bit v i then n.runMatrix j i else code c, n)
    else (List.replicate j.b (code c), n)
  match how with
  | .own => ((List.range j.b).map (n.runMatrix j), n)
  | .deadline => stopped 1
  | .aborted => stopped 3
  | .hwfault => (List.replicate j.b (code 4), n)
  | .stale => (List.replicate j.b (code (if (n.tmplSt j.cfg.num).okSeen then 5 else 6)), n)

/-- A host job's output and status words (R376, R412, R413). -/
def writeResults (n : Node) (j : Job) (ends : List MatEnd) : Node :=
  if j.queue = 0 then n
  else ends.zipIdx.foldl (fun n (e, i) => (n.putMem (j.outB + i * j.wout) e.out).putMem (j.statusBase + i) [BitVec.ofNat 64 e.status]) n

def pushCq (n : Node) (q : Nat) (e : CqEntry) : Node :=
  n.mSolv fun s =>
    match q with
    | 1 => { s with cq1 := s.cq1 ++ [e] }
    | 2 => { s with cq2 := s.cq2 ++ [e] }
    | _ => { s with cq3 := s.cq3 ++ [e] }

/-- The counts and flags of an end. -/
def countEnd (n : Node) (t status : Nat) : Node :=
  let s := n.tmplSt t
  let n := n.setTmpl t { s with last := status, misses := if status = 0 ∨ status = 6 then s.misses else satInc 0xFF s.misses }
  let n := if status = 1 then n.solvFlag 2 else n
  if status = 4 then (n.solvFlag 5).mSolv fun x => { x with hwfaults := satInc 0xFF x.hwfaults } else n

/-- A job leaves its queue with its status, completion entry or retirement, and publication. `ran` says that it runs or had run. -/
def endJob (n : Node) (slot : Nat) (how : JobHow) (ran : Bool) : Node :=
  match (n.slotSt slot).job with
  | none => n
  | some j =>
    let (ends, n) := n.matrixEnds j how ran
    let codes := ends.map MatEnd.code
    let status := (codes.find? (· != 0)).getD 0
    let n := n.writeResults j ends
    let n := n.mSolv fun s => { s with
      order := s.order.filter (· != slot)
      running := if s.running = some slot then none else s.running
      stopped := if s.stopped = some slot then none else s.stopped }
    let n := n.countEnd j.cfg.num status
    let n := if status = 0 && n.sameTemplate j.cfg then
      n.setTmpl j.cfg.num { n.tmplSt j.cfg.num with committed := some (ends.map fun e => e.out.take j.n) } else n
    if j.queue = 0 then (n.setJob slot none).scheduledEnd j status (ends.map (·.out))
    else
      let e : CqEntry := ⟨slot, jobId slot j.gen, j.cfg.num, status, ends.foldl (fun f x => f ||| x.flags) 0, j.rerun, j.x0.isSome,
        if status = 0 then 0x7F else codes.findIdx (· != 0), (ends.map (·.iter)).foldl max 0, if ran then n.now - j.start else 0⟩
      let n := (n.setJob slot (some { j with ended := true })).pushCq j.queue e
      if status = 1 ∨ status = 3 ∨ status = 4 then n.solvRecord j.cfg.num 5 (entryE0 e) else n

/-- The first job of a queue. -/
def headOf (n : Node) (q : Nat) : Option Job :=
  n.solv.order.findSome? fun k => (n.slotSt k).job.bind fun j => if j.queue = q then some j else none

/-- A job at the head of its queue whose deadline lies before `t` and which does not run (R382; log entry 31). -/
def lateHead (n : Node) (t : Nat) : Option Nat :=
  [0, 1, 2, 3].findSome? fun q => (n.headOf q).bind fun j =>
    if j.deadline < t ∧ n.solv.running ≠ some j.slot ∧ n.solv.stopped ≠ some j.slot then some j.slot else none

def sweepHeads : Nat → Nat → Node → Node
  | 0, _, n => n
  | k + 1, t, n => match n.lateHead t with | none => n | some s => sweepHeads k t (n.endJob s .deadline false)

/-- The engine takes the next job (R372): the stopped one first (R397), then by queue and order. -/
def nextJob (n : Node) : Option Job :=
  match n.solv.stopped with
  | some k => (n.slotSt k).job
  | none => [0, 1, 2, 3].findSome? n.headOf

/-- Starts jobs until one runs: a late one ends DEADLINE, a stopped one too where its deadline has passed (R397), and one on bad inputs
INPUT_STALE or WAITING. -/
def startNext : Nat → Node → Node
  | 0, n => n
  | k + 1, n =>
    let n := sweepHeads 16 n.now n
    if n.solv.running.isSome || n.solvHeld then n
    else match n.nextJob with
      | none => n
      | some j =>
      if j.deadline < n.now then startNext k (n.endJob j.slot .deadline true)
      else
        let ins := n.resolveIns j
        let n := n.setJob j.slot (some { j with ins := ins, x0 := n.warmOf j, start := n.now })
        if ins.any (·.any (·.2)) then startNext k (n.endJob j.slot .stale false)
        else n.mSolv fun s => { s with running := some j.slot, stopped := none }

/-- SOLV turns off in Sleep once no job is in flight; during a return sequence when it ends (04 R168). -/
def solvDrained (n : Node) : Node :=
  if n.solvDrains && n.solv.order.isEmpty && !n.clk.latched then
    let n := n.mPwr fun p => { p with domOn := clrBit p.domOn 3 }
    if n.clk.ret = 0 then n.setDom .solv {} else n.mClk fun c => { c with maskDue := true }
  else n

def engine (n : Node) : Node := (startNext 17 n).solvDrained

/-- The running job stops when SOLV is held (R397). -/
def stopEngine (n : Node) : Node :=
  match n.solv.running with
  | none => n
  | some k => n.mSolv fun s => { s with running := none, stopped := some k }

/-! Acceptance (R373 to R377). -/

def freeSlot (n : Node) : Option Nat := (List.range 16).find? fun k => (n.slotSt k).job.isNone

/-- A job takes a slot and enters its queue. -/
def takeSlot (n : Node) (k : Nat) (j : Job) : Node :=
  let g := ((n.slotSt k).gen + 1) % 8
  n.mSolv fun s => { s with
    slots := tset {} s.slots k ⟨g, some { j with slot := k, gen := g }⟩
    order := s.order ++ [k] }

/-- The descriptor's fields (Table 12.8). -/
def descTemplate (n : Node) : Nat := n.solv.descOp.toNat % 64
def descJob (n : Node) (c : TemplateCfg) (q : Nat) : Job :=
  let d := n.solv.descOp.toNat
  { slot := 0
    gen := 0
    queue := q
    cfg := c
    b := d / 2 ^ 8 % 128
    m := d / 2 ^ 16 % 64
    n := d / 2 ^ 24 % 64
    inB := n.solv.descIn
    outB := n.solv.descOut
    deadline := n.now + 10 * (if n.solv.descDl = 0 then c.deadline else n.solv.descDl)
    warm := natBit d 30 }

def badSize (j : Job) : Bool :=
  let c := j.cfg
  j.b == 0 || decide (c.b < j.b) || j.n == 0 || decide (c.n < j.n) || (usesM c.op && (j.m == 0 || decide (c.m < j.m))) ||
    (tallOp c.op && decide (j.m < j.n))

def badArea (n : Node) (j : Job) : Bool :=
  let (lo, size) := n.region
  j.areas.any (fun a => decide (a.1 < lo) || decide (lo + size < a.2)) ||
    (match j.areas with | [a, b] => meets a b | _ => false)

/-- The unretired host jobs, whose areas lie in the host region. -/
def hostJobs (n : Node) : List Job := (n.heldSlots.map (·.2)).filter (·.queue != 0)

def overlaps (n : Node) (j : Job) : Bool :=
  n.hostJobs.any fun o =>
    match j.areas, o.areas with
    | [i, r], [oi, or'] => meets r oi || meets r or' || meets i or'
    | _, _ => false

/-- Table 12.3, in its order. -/
def submitCode (n : Node) (q : Nat) : Nat × Option Job :=
  if n.solvRefuses then (8, none)
  else if q = 0 then (2, none)
  else match n.template n.descTemplate with
    | none => (3, none)
    | some c =>
      let j := n.descJob c q
      if !c.host then (3, none)
      else if badSize j then (4, none)
      else if n.solv.descDl > 100000 then (9, none)
      else if n.badArea j then (5, none)
      else if n.overlaps j then (6, none)
      else if (n.tmplSt c.num).hostUsed ≥ c.hostMax then (7, none)
      else if n.solvFull then (1, none)
      else (0, some j)

def submitNow (n : Node) (q : Nat) : Node :=
  let (code, job) := n.submitCode q
  let answer (n : Node) (id : Nat) : Node := n.mSolv fun s => { s with subJobId := id, subResult := code, subQueue := q }
  match job, n.freeSlot with
  | some j, some k =>
    let n := n.takeSlot k j
    let n := n.setTmpl j.cfg.num { n.tmplSt j.cfg.num with hostUsed := (n.tmplSt j.cfg.num).hostUsed + 1 }
    (answer n (jobId k (n.slotSt k).gen)).engine
  | _, _ =>
    let n := (answer n 0xFF).solvFlag 1
    if code = 1 then n.solvFlag 0 else n

/-! Invocation at step 7 (R368 to R371). -/

/-- The templates invoked at a tick, in increasing number; none in Sleep (03 R104) or in Hold-up, whose step 1 takes no new job, and again
from the first tick after it (log entry 33). -/
def invoked (n : Node) (k : Nat) : List TemplateCfg :=
  if n.solvSuspended || n.pwr.mode == .holdup then []
  else sortBy (·.num) (n.templates.filter fun t => !t.host && t.period != 0 && (k % 20 + t.period - t.phase % t.period) % t.period == 0)

/-- The input words that step 2 of the invoking tick reads. -/
def snapInputs (n : Node) (t : TemplateCfg) : List (Option (B64 × Bool)) :=
  t.inputs.map fun
    | .const w => some (w, false)
    | .src x req => let r := n.readSrc none x; some (r.val, req && (r.stale || b64IsNaN r.val))
    | .tmpl _ _ _ => none

def invokeOne (n : Node) (t : TemplateCfg) (ins : List (Option (B64 × Bool))) : Node :=
  match n.freeSlot with
  | none => n
  | some k =>
    n.takeSlot k
      { slot := 0
        gen := 0
        queue := 0
        cfg := t
        b := t.b
        m := t.m
        n := t.n
        deadline := n.now + 10 * t.deadline
        ins := ins
        tick := n.tickTime }

def invokeAll (n : Node) (l : List (TemplateCfg × List (Option (B64 × Bool)))) : Node :=
  (l.foldl (fun n x => n.invokeOne x.1 x.2) n).engine

/-! Hold-up (R398). -/

def abortOne (n : Node) (k : Nat) : Node := n.endJob k .aborted (n.solv.running == some k || n.solv.stopped == some k)

/-- Every job not ended ends ABORTED, in the order of the queues. -/
def abortAll (n : Node) : Node :=
  let l := (n.solv.running.toList ++ n.solv.stopped.toList ++ n.solv.order).foldl (fun a k => if a.contains k then a else a ++ [k]) []
  l.foldl abortOne n

/-! The memory window (R365, R378). -/

def memRefusal (n : Node) : Nat :=
  let a := n.solv.memAddr
  let (lo, size) := n.region
  if a < lo ∨ lo + size ≤ a then 1
  else if n.hostJobs.any fun j => j.areas.any fun x => decide (x.1 ≤ a) && decide (a < x.2) then 2
  else 0

/-- ADDR after a HI access. -/
def memAdvance (n : Node) : Node :=
  n.mSolv fun s => { s with memAddr := if s.autoinc then (s.memAddr + 1) % 2 ^ 18 else s.memAddr }

def memStore (n : Node) (hi : Word) : Node :=
  let code := n.memRefusal
  let n := n.mSolv fun s => { s with memResult := code, memHi := hi }
  (if code = 0 then n.putMem n.solv.memAddr [hi ++ n.solv.memLo] else n.solvFlag 6).memAdvance

def memLatch (n : Node) : Node :=
  n.mSolv fun s => { s with memHi := BitVec.ofNat 32 ((tget 0 s.mem s.memAddr).toNat / 2 ^ 32) }

/-- R373, Table 12.6. -/
def popCq (n : Node) (q : Nat) : Node :=
  match n.cqOf q with
  | [] => n.solvFlag 7
  | e :: r =>
    (n.mSolv fun s =>
      match q with
      | 1 => { s with cq1 := r }
      | 2 => { s with cq2 := r }
      | _ => { s with cq3 := r }).setJob e.slot none

/-- The running job ends by its own outcome, or DEADLINE where its deadline had passed (R382). -/
def jobDone (n : Node) : Node :=
  match n.runJob with
  | none => n
  | some j => (n.endJob j.slot (if j.deadline < n.now then .deadline else .own) true).engine

/-- A job that runs, or that stopped when SOLV was held, at its deadline (R382, R397). -/
def lateRunning (n : Node) : Option Nat :=
  (n.solv.running.toList ++ n.solv.stopped.toList).find? fun k => ((n.slotSt k).job).any fun j => decide (j.deadline ≤ n.now)

def expire (n : Node) : Node :=
  let n := match n.lateRunning with | none => n | some k => n.endJob k .deadline true
  (sweepHeads 16 (n.now + 1) n).engine

/-- R391: the re-run, and HWFAULT at the second fault; a fault at the deadline gives DEADLINE (Table 12.6). -/
def hwFault (n : Node) : Node :=
  match n.runJob with
  | none => n
  | some j =>
    if j.deadline ≤ n.now then (n.endJob j.slot .deadline true).engine
    else if j.rerun then (n.endJob j.slot .hwfault true).engine
    else (n.setJob j.slot (some { j with rerun := true })).mSolv fun s => { s with reruns := satInc 0xFF s.reruns }

end Node

/-- A write of SOLV_SUBMIT (R377). -/
def execSubmit (q : BitVec 2) (t : Nat) (s : State) : Host.Outcome State Fault Refusal :=
  s.run fun n => (n.setNow t).submitNow q.toNat

/-- The running job writes its last result (R380). -/
def execJobEnd (t : Nat) (s : State) : Host.Outcome State Fault Refusal := s.run fun n => (n.setNow t).jobDone

/-- A deadline passes (R382). -/
def execDeadlineExpiry (t : Nat) (s : State) : Host.Outcome State Fault Refusal := s.run fun n => (n.setNow t).expire

/-- A residue or memory fault in the running job (R391). With no job running it is a single-bit memory error, which the engine corrects
and counts (DESIGN CHOICE, log entry 91). -/
def execSolverFaultDetected (s : State) : Host.Outcome State Fault Refusal :=
  s.run fun n =>
    if n.runJob.isSome then n.hwFault
    else if n.solvHeld then n
    else n.mSolv fun x => { x with corrected := satInc 0xFFFF x.corrected }

/-- A write of SOLV_CQ_POP (R373). -/
def execCqPop (q : BitVec 2) (s : State) : Host.Outcome State Fault Refusal := s.run fun n => n.popCq q.toNat

/-- A write of SOLV_MEM_HI (R378). -/
def execMemWrite (hi : Word) (s : State) : Host.Outcome State Fault Refusal := s.run fun n => n.memStore hi

/-- A read of SOLV_MEM_LO latches the high half (R365). -/
def execMemRead (s : State) : Host.Outcome State Fault Refusal := s.run Node.memLatch

/-- A read of SOLV_MEM_HI (R365). -/
def execMemHiRead (s : State) : Host.Outcome State Fault Refusal := s.run Node.memAdvance

end Sys2Proof.Machine
end

