-- ==== Sys2Proof/Machine/Crypto.lean ====
section
/-! DEFINITION. The sums and signatures of 02 and 16: CRC-32 (IEEE 802.3), SHA-256 (FIPS 180-4), and ECDSA verification on NIST P-256
(FIPS 186-4). The manual names these standards and does not repeat them (log entry 18). -/

namespace Sys2Proof.Machine

/-! CRC-32, reflected, polynomial 0xEDB88320. -/

def crc32Bit (c : Nat) : Nat := if c % 2 = 1 then (c / 2) ^^^ 0xEDB88320 else c / 2
def crc32Byte (c : Nat) (b : Byte) : Nat :=
  crc32Bit (crc32Bit (crc32Bit (crc32Bit (crc32Bit (crc32Bit (crc32Bit (crc32Bit (c ^^^ b.toNat))))))))
def crc32 (l : List Byte) : Nat := l.foldl crc32Byte 0xFFFFFFFF ^^^ 0xFFFFFFFF

/-! SHA-256. -/

/-- The first `k` primes: 311 is the 64th, and each composite below it has a divisor below 18. -/
def firstPrimes (k : Nat) : List Nat :=
  (((List.range 312).drop 2).filter fun p => (List.range 16).all fun i => p = i + 2 || p % (i + 2) != 0).take k

/-- The whole part of the `e`th root of `x`, found bit by bit from bit `k - 1` down. -/
def rootFrom (e x : Nat) : Nat → Nat → Nat
  | 0, r => r
  | k + 1, r => rootFrom e x k (if (r + 2 ^ k) ^ e ≤ x then r + 2 ^ k else r)

/-- The first 32 bits of the fraction of the `e`th root of `p`, which is how FIPS 180-4 gives its constants. -/
def rootFraction (e p : Nat) : Nat := rootFrom e (p * 2 ^ (32 * e)) 37 0 % 2 ^ 32

/-- The round constants, from the cube roots, and the first hash value, from the square roots. -/
def shaK : List Nat := (firstPrimes 64).map (rootFraction 3)
def shaStart : List (BitVec 32) := (firstPrimes 8).map fun p => BitVec.ofNat 32 (rootFraction 2 p)

def rotr (x : BitVec 32) (k : Nat) : BitVec 32 := x.rotateRight k

/-- The message schedule, last word first. -/
def shaSchedule : Nat → List (BitVec 32) → List (BitVec 32)
  | 0, w => w
  | k + 1, w =>
    let a := w.getD 14 0
    let b := w.getD 1 0
    let s0 := rotr a 7 ^^^ rotr a 18 ^^^ (a >>> 3)
    let s1 := rotr b 17 ^^^ rotr b 19 ^^^ (b >>> 10)
    shaSchedule k ((w.getD 15 0 + s0 + w.getD 6 0 + s1) :: w)

def shaRound (h : List (BitVec 32)) (kw : BitVec 32) : List (BitVec 32) :=
  match h with
  | [a, b, c, d, e, f, g, x] =>
    let s1 := rotr e 6 ^^^ rotr e 11 ^^^ rotr e 25
    let ch := (e &&& f) ^^^ (~~~e &&& g)
    let t1 := x + s1 + ch + kw
    let s0 := rotr a 2 ^^^ rotr a 13 ^^^ rotr a 22
    let mj := (a &&& b) ^^^ (a &&& c) ^^^ (b &&& c)
    [t1 + s0 + mj, a, b, c, d + t1, e, f, g]
  | _ => h

/-- Big-endian bytes as a number. -/
def beNat (l : List Byte) : Nat := l.foldl (fun a b => a * 256 + b.toNat) 0
def beBytes (k x : Nat) : List Byte := (leBytes k x).reverse

def shaBlock (h : List (BitVec 32)) (blk : List Byte) : List (BitVec 32) :=
  let w := (List.range 16).map fun i => BitVec.ofNat 32 (beNat ((blk.drop (4 * i)).take 4))
  let sched := (shaSchedule 48 w.reverse).reverse
  let kw := List.zipWith (fun k w => BitVec.ofNat 32 k + w) shaK sched
  List.zipWith (· + ·) h (kw.foldl shaRound h)

def shaPad (l : List Byte) : List Byte :=
  l ++ [0x80] ++ List.replicate ((119 - l.length % 64) % 64) 0 ++ beBytes 8 (8 * l.length)

def shaBlocks : Nat → List Byte → List (BitVec 32) → List (BitVec 32)
  | 0, _, h => h
  | k + 1, l, h => shaBlocks k (l.drop 64) (shaBlock h (l.take 64))

/-- The digest, 32 bytes. -/
def sha256 (l : List Byte) : List Byte :=
  let p := shaPad l
  (shaBlocks (p.length / 64) p shaStart).flatMap fun w => beBytes 4 w.toNat

/-! ECDSA on P-256. -/

def p256P : Nat := 0xffffffff00000001000000000000000000000000ffffffffffffffffffffffff
def p256N : Nat := 0xffffffff00000000ffffffffffffffffbce6faada7179e84f3b9cac2fc632551
def p256B : Nat := 0x5ac635d8aa3a93e7b3ebbd55769886bc651d06b0cc53b0f63bce3c3e27d2604b
def p256G : Nat × Nat := (0x6b17d1f2e12c4247f8bce6e563a440f277037d812deb33a0f4a13945d898c296,
  0x4fe342e2fe1a7f9b8ee7eb4a7c0f9e162bce33576b315ececbb6406837bf51f5)

/-- b to the e, modulo m; `fuel` bounds the bits of e. -/
def powMod (m : Nat) : Nat → Nat → Nat → Nat
  | 0, _, _ => 1 % m
  | fuel + 1, b, e =>
    let h := powMod m fuel (b * b % m) (e / 2)
    if e % 2 = 1 then b * h % m else h

/-- The inverse modulo a prime. -/
def invMod (m a : Nat) : Nat := powMod m 256 (a % m) (m - 2)

def subMod (m a b : Nat) : Nat := (a + (m - b % m)) % m

/-- The sum of two points; none is the point at infinity. -/
def ecAdd (a b : Option (Nat × Nat)) : Option (Nat × Nat) :=
  match a, b with
  | none, q => q
  | p, none => p
  | some (x1, y1), some (x2, y2) =>
    let go (k : Nat) : Option (Nat × Nat) :=
      let x3 := subMod p256P (subMod p256P (k * k) x1) x2
      some (x3, subMod p256P (k * subMod p256P x1 x3) y1)
    if x1 = x2 then
      if (y1 + y2) % p256P = 0 then none
      else go (subMod p256P (3 * x1 * x1) 3 * invMod p256P (2 * y1) % p256P)
    else go (subMod p256P y2 y1 * invMod p256P (subMod p256P x2 x1) % p256P)

def ecMul : Nat → Nat → Option (Nat × Nat) → Option (Nat × Nat)
  | 0, _, _ => none
  | fuel + 1, k, q =>
    let h := ecMul fuel (k / 2) (ecAdd q q)
    if k % 2 = 1 then ecAdd q h else h

def onCurve (x y : Nat) : Bool :=
  decide (x < p256P) && decide (y < p256P) && decide (y * y % p256P = subMod p256P (x * x * x + p256B) (3 * x))

/-- The signature (r, s) over `msg` under the 64-byte key x then y. -/
def ecdsaOk (key msg : List Byte) (r s : Nat) : Bool :=
  let x := beNat (key.take 32)
  let y := beNat (key.drop 32)
  if key.length ≠ 64 ∨ r = 0 ∨ p256N ≤ r ∨ s = 0 ∨ p256N ≤ s ∨ onCurve x y = false then false
  else
    let w := invMod p256N s
    let z := beNat (sha256 msg)
    match ecAdd (ecMul 256 (z * w % p256N) (some p256G)) (ecMul 256 (r * w % p256N) (some (x, y))) with
    | none => false
    | some (u, _) => u % p256N == r

end Sys2Proof.Machine
end

