-- ==== Sys2Proof/Machine/Dio.lean ====
section
/-! DEFINITION. 24 V digital pins (09): the drive modes, the field side, frames and replies, faults, the diagnostic sweep, forces, the
commanded states of step 7, and the meanings of the DIO commands. -/

namespace Sys2Proof.Machine

/-- The drive modes of Table 9.1. -/
abbrev modeOff : Nat := 0
abbrev modeFollow : Nat := 1
abbrev modeSafe : Nat := 2
abbrev modeKeep : Nat := 3

/-- The sticky cause of pin j of a bank, coded as Table 9.4. -/
def DioField.causeOf (f : DioField) (j : Nat) : Nat := f.cause.toNat / 2 ^ (4 * j) % 16
def DioField.putCause (f : DioField) (j c : Nat) : DioField :=
  { f with cause := BitVec.ofNat 32 (f.cause.toNat - f.causeOf j * 2 ^ (4 * j) + (c % 16) * 2 ^ (4 * j)) }
/-- The first fault since the cause was last cleared is kept (R298). -/
def DioField.stick (f : DioField) (j c : Nat) : DioField := if f.causeOf j = 0 then f.putCause j c else f

/-- What the field side drives in a mode (R286, R294, R296, R297). -/
def DioField.drive (f : DioField) (mode : Nat) : BitVec 8 :=
  let want :=
    if !f.powered then 0
    else if mode = modeFollow then
      (if !f.stored then 0 else if f.wdExpired && !f.parked then f.safe else f.cmd)
    else if mode = modeSafe then f.safe
    else if mode = modeKeep then f.held
    else 0
  want &&& f.dir &&& ~~~f.latched

/-- One sample of input j, V_IN and V_F in mV: its reading by the thresholds of its mode, with the previous reading between them (R288, R290),
and the filtered state after FILTER samples that agree (R289). -/
def DioField.sample (f : DioField) (j vin vf : Nat) : DioField :=
  let was := bit f.reading j
  let r :=
    if bit f.wb j then (if 6 * vf ≤ 10 * vin then true else if 10 * vin ≤ 4 * vf then false else was)
    else if was then decide (7000 < vin) else decide (9000 ≤ vin)
  let k := if r == bit f.filtered j then 0 else tget 0 f.agree j + 1
  let change := decide (0 < f.filter) && decide (f.filter ≤ k)
  { f with
    reading := putBit f.reading j r
    agree := tset 0 f.agree j (if change then 0 else k)
    filtered := if change then putBit f.filtered j r else f.filtered }

/-- BACKFEED ends on every output that the field side drives on in this mode (R294). -/
def DioField.settle (f : DioField) (mode : Nat) : DioField := { f with backfeed := f.backfeed &&& ~~~(f.drive mode) }

namespace Node

def setBank (n : Node) (b : Nat) (v : DioBank) : Node := n.mDio fun d => { d with banks := tset {} d.banks b v }
def setField (n : Node) (b : Nat) (v : DioField) : Node := n.mDio fun d => { d with field := tset {} d.field b v }

/-- The DIO record of a bank or of a pin (14 Table 14.2). -/
def dioBody (n : Node) (source b event : Nat) (rest : List Byte) : RecBody :=
  ⟨0x23, source, 0, event, [0, 0] ++ leBytes 4 (n.dioBankStat b).toNat ++ rest⟩
def dioRecord (n : Node) (b event : Nat) : Node := n.later (n.dioBody b b event [])
def pinRecord (n : Node) (p event : Nat) : Node := n.later (n.dioBody (0x0100 + p) (p / 8) event [])

/-- The image assigns a pin of the bank (R307). -/
def bankUsed (n : Node) (b : Nat) : Bool := n.pins.any fun p => p.num / 8 == b

/-- FAULT follows the sticky causes, the supply and the link, with a record at each change (R299, R306). -/
def judgeFault (n : Node) (b : Nat) : Node :=
  let s := n.bankSt b
  let f := s.pinFault || !s.supplyOk || s.linkLost
  if f == s.shownFault then n
  else
    let n := n.setBank b { s with shownFault := f }
    let n := if f then n.mDio fun d => { d with flags := setBit d.flags 0 } else n
    n.dioRecord b 1

def setLinkLost (n : Node) (b : Nat) (v : Bool) : Node :=
  let s := n.bankSt b
  if s.linkLost == v then n
  else
    let n := n.setBank b { s with linkLost := v }
    let n := if v then n.mDio fun d => { d with flags := setBit d.flags 2 } else n
    n.dioRecord b 3

/-! The sweep (R301, R302). -/

/-- The assigned pins of a bank from index j on. -/
def sweepPins (n : Node) (b j : Nat) : List Nat :=
  (List.range 8).filter fun i => decide (j ≤ i) && (n.pin (8 * b + i)).isSome

def putCode (v : Word) (j c : Nat) : Word :=
  BitVec.ofNat 32 (v.toNat - (v.toNat / 2 ^ (4 * j) % 16) * 2 ^ (4 * j) + (c % 16) * 2 ^ (4 * j))

/-- The sweep ends: DIO_SWEEP_RES, DONE and a record (R302). -/
def sweepDone (n : Node) : Node :=
  let n := n.mDio fun d => { d with sweepBusy := false, sweepReq := false, sweepDone := true, sweepRes := d.sweepAcc }
  let n := n.setField n.dio.sweepBank { n.fieldSide n.dio.sweepBank with reports := [] }
  n.later (n.dioBody n.dio.sweepBank n.dio.sweepBank 2 (leBytes 4 n.dio.sweepRes.toNat))

/-- A sweep of bank b is aborted: the pin in its slot reports `slot`, the remaining pins 0x7 (Table 9.5). -/
def sweepAbort (n : Node) (b slot : Nat) : Node :=
  if n.dio.sweepBusy && n.dio.sweepBank == b then
    (n.mDio fun d => { d with sweepAcc := if d.sweepReq then d.sweepAcc else putCode d.sweepAcc d.sweepSlot slot }).sweepDone
  else n

/-- A write to DIO_SWEEP (R301, Table 9.7): the sweep begins at the bank's next frame. Until a pin's result comes its code is that of a pin not
tested. -/
def sweepStart (n : Node) (b : Nat) : Node :=
  let refuse (code : Nat) : Node := n.mDio fun d => { d with sweepResult := code, flags := setBit d.flags 3 }
  if n.dio.sweepBusy then refuse 2
  else if (n.bankSt b).linkLost then refuse 3
  else if (n.bankSt b).mode ≠ modeFollow then refuse 4
  else
    let l := n.sweepPins b 0
    n.mDio fun d => { d with
      sweepResult := 0
      sweepDone := false
      sweepBusy := true
      sweepReq := true
      sweepBank := b
      sweepSlot := l.headD 0
      sweepLow := false
      sweepAcc := (List.range 8).foldl (fun v j => putCode v j (if l.contains j then 7 else 6)) 0 }

/-- A valid frame carries the sweep request to the field side of its bank. -/
def sweepBegins (n : Node) (b : Nat) : Node :=
  if n.dio.sweepReq && n.dio.sweepBank == b then
    let n := n.mDio fun d => { d with sweepReq := false }
    if (n.sweepPins b 0).isEmpty then n.sweepDone else n
  else n

/-- The fault still present on pin j, coded as Table 9.4: a latch counts as present (R301). -/
def liveFault (f : DioField) (j : Nat) : Nat :=
  if bit f.latched j then (if bit f.thermal j then 2 else 1)
  else if bit f.broken j then 3
  else if bit f.backfeed j then 4
  else 0

/-- A sweep slot ends: the cause waits for a reply and is cleared, and recorded again where the fault is still present (R301). -/
def slotEnd (n : Node) : Node :=
  let b := n.dio.sweepBank
  let j := n.dio.sweepSlot
  let f := n.fieldSide b
  if !n.dio.sweepBusy || n.dio.sweepReq || !f.powered || f.reports.any (·.1 == j) then n
  else
    let code := if n.dio.sweepLow || !(n.bankSt b).supplyOk then 5 else f.causeOf j
    let n := n.setField b { (f.putCause j 0).stick j (liveFault f j) with reports := f.reports ++ [(j, code)] }
    match n.sweepPins b (j + 1) with
    | [] => n
    | k :: _ => n.mDio fun d => { d with sweepSlot := k, sweepLow := false }

/-- A reply's one sweep result field; the last pin's ends the sweep (R285, R302). -/
def sweepReply (n : Node) (b : Nat) : Node :=
  let f := n.fieldSide b
  match f.reports with
  | [] => n
  | (j, c) :: rest =>
    let n := (n.setField b { f with reports := rest }).mDio fun d => { d with sweepAcc := putCode d.sweepAcc j c }
    if (n.sweepPins b (j + 1)).isEmpty then n.sweepDone else n

/-! Drive modes (R286, R287). -/

/-- AON selects a mode for one bank: KEEP takes the outputs as they stand, FOLLOW starts the watchdog with a record for a used bank
(R296, R307), and any other mode ends a sweep. -/
def selectMode (n : Node) (m b : Nat) : Node :=
  let s := n.bankSt b
  let f := n.fieldSide b
  if s.mode = m then n
  else
    let f := { f with
      held := if m = modeKeep then f.drive s.mode else f.held
      wdOn := m == modeFollow
      run3 := 0
      parked := if m = modeFollow then false else f.parked }
    let n := (n.setField b (f.settle m)).setBank b { s with mode := m }
    if m = modeFollow then (if n.bankUsed b then n.dioRecord b 5 else n) else n.sweepAbort b 7

def selectModes (n : Node) (m : Nat) : Node := (List.range 4).foldl (fun n b => n.selectMode m b) n

/-! Frames and replies (R285). -/

/-- The node sends DIO frames: from phase F, while CORE runs and has not parked. -/
def dioRuns (n : Node) : Bool :=
  n.coreRuns && !n.pwr.parked && n.img.isSome && (match n.pwr.phase with | .f | .done => true | _ => false)

/-- The state of an output as a frame carries it: its force in place of its commanded state (Table 9.7), but for a pin that an activation
holds at its safe state (02 R83). -/
def frameBit (n : Node) (p : Nat) : Bool :=
  if bit n.dio.safeHold p then bit n.dio.outCmd p else (n.dioForced p).getD (bit n.dio.outCmd p)

def frameCmd (n : Node) (b : Nat) : BitVec 8 :=
  BitVec.ofNat 8 (bitsNat ((List.range 8).map fun j => n.frameBit (8 * b + j)))

/-- What a valid frame does at the field side (R285, R293, R296, R297). A pin that is no longer an output has no latch and no BACKFEED, one
that is no longer monitored is not BROKEN. -/
def fieldFrame (n : Node) (b : Nat) (cmd : BitVec 8) (park : Bool) : Node :=
  let f := n.fieldSide b
  if !f.powered then n
  else
    let dir := BitVec.ofNat 8 (n.pinBits b (·.out))
    let wb := BitVec.ofNat 8 (n.pinBits b (·.wbEn))
    let follow := (n.bankSt b).mode == modeFollow
    let run3 := if follow && f.wdExpired then f.run3 + 1 else 0
    let f := { f with
      stored := true
      dir := dir
      safe := BitVec.ofNat 8 (n.pinBits b (·.safe))
      wb := wb
      wdTimeout := (n.bankCfg b).elim 0 (·.wdTimeout)
      filter := (n.bankCfg b).elim 0 (·.filter)
      cmd := cmd
      parked := park
      latched := f.latched &&& cmd &&& dir
      thermal := f.thermal &&& cmd &&& dir
      broken := f.broken &&& wb &&& ~~~dir
      backfeed := f.backfeed &&& dir
      wdExpired := f.wdExpired && decide (run3 < 3)
      run3 := if run3 < 3 then run3 else 0 }
    n.setField b (f.settle (n.bankSt b).mode)

/-- A frame goes out: five before it without a valid reply set LINK_LOST and FAULT (R306). The field side ignores one with a bad CRC (log entry
14). -/
def frameOut (n : Node) (b : Nat) (crcOk : Bool) : Node :=
  if !n.dioRuns then n
  else
    let n := if (n.bankSt b).missed < 5 then n else (n.setLinkLost b true).judgeFault b
    let s := n.bankSt b
    let n := n.setBank b { s with missed := if s.missed < 5 then s.missed + 1 else s.missed }
    if crcOk then (n.fieldFrame b (n.frameCmd b) false).sweepBegins b else n

/-- The 14 V and 18 V to 32 V limits in units of 0.2 V (R299, R305). -/
def vfAbsent (vf : Nat) : Bool := decide (vf < 70)
def vfGood (vf : Nat) : Bool := decide (90 ≤ vf) && decide (vf ≤ 160)

/-- A reply's inputs: the filtered state of each input, OFF while it is BROKEN (R289, R291). -/
def replyInputs (f : DioField) : BitVec 8 := f.filtered &&& ~~~f.broken &&& ~~~f.dir

def putByte (v : BitVec 32) (b : Nat) (x : BitVec 8) : BitVec 32 :=
  BitVec.ofNat 32 (v.toNat - (v.toNat / 2 ^ (8 * b) % 256) * 2 ^ (8 * b) + x.toNat * 2 ^ (8 * b))

/-- A reply is received; below 14 V, or from an unpowered field side, it reads as absent (R305). -/
def replyIn (n : Node) (b : Nat) (levels vf : BitVec 8) : Node :=
  let f := n.fieldSide b
  if !n.dioRuns then n
  else if !f.powered || vfAbsent vf.toNat then (n.setLinkLost b true).judgeFault b
  else
    let n := n.setLinkLost b false
    let s := n.bankSt b
    let n := n.setBank b { s with
      missed := 0
      vf := vf.toNat
      supplyOk := vfGood vf.toNat
      pinFault := f.cause != 0
      wdExpired := f.wdExpired }
    let n := n.mDio fun d => { d with
      inp := putByte d.inp b (replyInputs f)
      rdbk := putByte d.rdbk b levels
      sweepLow := d.sweepLow || (d.sweepBusy && d.sweepBank == b && !vfGood vf.toNat) }
    let n := n.sweepReply b
    let n := if f.wdExpired && !s.wdExpired then
        let n := n.mDio fun d => { d with flags := setBit d.flags 1 }
        if n.bankUsed b then n.dioRecord b 4 else n
      else if !f.wdExpired && s.wdExpired && n.bankUsed b then n.dioRecord b 5
      else n
    n.judgeFault b

/-! Events of the field side. -/

def onField (n : Node) (p : Nat) (g : DioField → Nat → DioField) : Node :=
  let f := n.fieldSide (p / 8)
  if f.powered then n.setField (p / 8) (g f (p % 8)) else n

def isOutput (n : Node) (p : Nat) : Bool := (n.pin p).any (·.out)


/-! Forces (R307, Table 9.7). -/

def dioRefused (n : Node) (code : Nat) : Node :=
  n.mDio fun d => { d with cmdResult := code, flags := setBit d.flags 3 }

def dioForce (n : Node) (p : Nat) (v : Bool) : Node :=
  if !n.sec.maint then n.dioRefused 1
  else if !n.isOutput p then n.dioRefused 2
  else (n.mDio fun d => { d with cmdResult := 0, forces := tset none d.forces p (some v) }).pinRecord p 6

def dioUnforce (n : Node) (p : Nat) : Node :=
  if !n.sec.maint then n.dioRefused 1
  else if !n.isOutput p then n.dioRefused 2
  else if (n.dioForced p).isNone then n.dioRefused 4
  else (n.mDio fun d => { d with cmdResult := 0, forces := tset none d.forces p none }).pinRecord p 7

/-- CLEAR_LATCH (R293), at any time; a bank number above 3 names no bank and is refused as an undefined value (R613). -/
def latchClear (n : Node) (b : Nat) : Node :=
  if 4 ≤ b then n.dioRefused 3
  else
    let f := n.fieldSide b
    (n.setField b ({ f with latched := 0, thermal := 0 }.settle (n.bankSt b).mode)).mDio fun d => { d with cmdResult := 0 }

/-- Every force ends, with its record (Table 9.7: on leaving maintenance mode and at an activation). -/
def endDioForces (n : Node) : Node :=
  n.dio.forces.foldl (fun n e =>
    (n.mDio fun d => { d with forces := tset none d.forces e.1 none }).pinRecord e.1 7) n

/-! Step 7 (R295). -/

/-- The commanded state of an output from its source; a pair member without DUTY commands every output off (16 Table 16.2). -/
def sourceState (n : Node) (c : PinCfg) : Bool :=
  c.out && n.ownDuty &&
    match c.src with
    | none => false
    | some .call => n.callOutput c.num
    | some (.cell x) => (n.readSrc none x).b

/-- DIO_OUT_CMD for the following frames. -/
def commandOutputs (n : Node) : Node :=
  n.mDio fun d => { d with outCmd := BitVec.ofNat 32 (bitsNat ((List.range 32).map fun p => (n.pin p).any n.sourceState)) }

end Node

/-! The meanings of the DIO commands. -/

/-- R285. The node sends bank b its frame. -/
def execDioFrame (b : Fin 4) (crcOk : Bool) (s : State) : Host.Outcome State Fault Refusal :=
  s.run fun n => n.frameOut b.val crcOk

/-- R285. Bank b's reply arrives. -/
def execDioReply (b : Fin 4) (levels vf : BitVec 8) (s : State) : Host.Outcome State Fault Refusal :=
  s.run fun n => n.replyIn b.val levels vf

/-- R289. An input's samples since its last change, up to the one at which FILTER of them agree. -/
def execInputFilterChange (pin : Fin 32) (samples : List (BitVec 16 × BitVec 16)) (s : State) : Host.Outcome State Fault Refusal :=
  s.run fun n => n.onField pin.val fun f j => if bit f.dir j then f else samples.foldl (fun f x => f.sample j x.1.toNat x.2.toNat) f

/-- R291. A monitored input becomes BROKEN, or stops being BROKEN. -/
def execWireBreak (pin : Fin 32) (broken : Bool) (s : State) : Host.Outcome State Fault Refusal :=
  s.run fun n => n.onField pin.val fun f j =>
    if bit f.dir j || !bit f.wb j then f
    else
      let f := { f with broken := putBit f.broken j broken }
      if broken then f.stick j 3 else f

/-- R293. An output in limit for 2 ms, or over its thermal limit, is turned off and latched off. -/
def execOutputLatchOff (pin : Fin 32) (thermal : Bool) (s : State) : Host.Outcome State Fault Refusal :=
  s.run fun n => n.onField pin.val fun f j =>
    if !bit f.dir j then f
    else { f with latched := setBit f.latched j, thermal := putBit f.thermal j thermal }.stick j (if thermal then 2 else 1)

/-- R294. BACKFEED of an output that the field side drives off changes. -/
def execBackfeed (pin : Fin 32) (on : Bool) (s : State) : Host.Outcome State Fault Refusal :=
  s.run fun n => n.onField pin.val fun f j =>
    if !bit f.dir j || (on && bit (f.drive (n.bankSt (pin.val / 8)).mode) j) then f
    else
      let f := { f with backfeed := putBit f.backfeed j on }
      if on then f.stick j 4 else f

/-- R296. A bank's watchdog expires: safe states until the third consecutive valid frame. -/
def execWatchdogExpiry (b : Fin 4) (s : State) : Host.Outcome State Fault Refusal :=
  s.run fun n =>
    let f := n.fieldSide b.val
    if f.powered && !f.wdExpired && (n.bankSt b.val).mode == modeFollow && !f.parked then
      (n.setField b.val ({ f with wdExpired := true, run3 := 0 }.settle modeFollow)).sweepAbort b.val 7
    else n

/-- R305. A bank's field supply falls below 14 V: the field side resets and the reply reads as absent. -/
def execFieldSupplyLoss (b : Fin 4) (s : State) : Host.Outcome State Fault Refusal :=
  s.run fun n =>
    let n := n.setField b.val { powered := false }
    let n := n.sweepAbort b.val 5
    if n.dioRuns then (n.setLinkLost b.val true).judgeFault b.val else n

/-- R301. START is written to DIO_SWEEP for bank b. -/
def execDioSweep (b : Fin 4) (s : State) : Host.Outcome State Fault Refusal := s.run fun n => n.sweepStart b.val

/-- R301. A sweep slot of 20 ms ends. -/
def execSweepSlotEnd (s : State) : Host.Outcome State Fault Refusal := s.run Node.slotEnd

/-- R307. FORCE_ON. -/
def execDioForceOn (pin : Fin 32) (s : State) : Host.Outcome State Fault Refusal := s.run fun n => n.dioForce pin.val true

/-- R307. FORCE_OFF. -/
def execDioForceOff (pin : Fin 32) (s : State) : Host.Outcome State Fault Refusal := s.run fun n => n.dioForce pin.val false

/-- R307. RELEASE. -/
def execDioRelease (pin : Fin 32) (s : State) : Host.Outcome State Fault Refusal := s.run fun n => n.dioUnforce pin.val

/-- R293. CLEAR_LATCH. -/
def execClearLatch (b : Fin 32) (s : State) : Host.Outcome State Fault Refusal := s.run fun n => n.latchClear b.val

/-- R305. A bank's field supply returns above 14 V: every output off until the mode or a valid frame directs otherwise. -/
def execFieldSupplyReturn (b : Fin 4) (vf : BitVec 8) (s : State) : Host.Outcome State Fault Refusal :=
  s.run fun n =>
    if vf.toNat ≤ 70 ∨ (n.fieldSide b.val).powered then n else n.setField b.val {}

end Sys2Proof.Machine
end

