-- ==== Sys2Proof/Machine/Loop.lean ====
section
/-! DEFINITION. Current-loop inputs and output islands (08): classification, commanded currents, frames and replies, the islands' own
state machine, forces, and the meanings of the LOOP commands. -/

namespace Sys2Proof.Machine

/-- Table 8.1: the band of a current in 0.1 µA. -/
def bandOf (cur : Int) (overrange : Bool) : Nat :=
  if cur ≤ 36000 then 1
  else if overrange then 5
  else if cur < 38000 then 2
  else if cur ≤ 205000 then 3
  else if cur < 210000 then 4
  else 5

/-- R268: E of a current in 0.1 µA. -/
def loopE (lo hi : B64) (cur : Int) : B64 :=
  (b64Add lo (b64Div (b64Mul (b64Sub hi lo).1 (b64OfInt (cur - 40000))).1 (b64OfInt 160000)).1).1

/-- R277: the computed current in µA, exactly, then rounded with halves up. -/
def aoComputed (lo hi e : B64) : Nat :=
  if b64IsInf e then (if b64Neg e == b64Lt lo hi then 3800 else 20500)
  else
    let v : B64 → Rat := fun x => (b64Num x : Rat) / (b64Den x : Rat)
    let x := 4000 + 16000 * (v e - v lo) / (v hi - v lo)
    if x < 3800 then 3800 else if 20500 < x then 20500 else (Rat.floor (x + 1 / 2)).toNat

/-- The failure current of a mode: low, high, or hold-last (Tables 8.3 and 8.4). -/
def failCurrent (mode last : Nat) : Nat := if mode = 0 then 3500 else if mode = 1 then 21500 else last

namespace Node

def setLoopIn (n : Node) (c : Nat) (v : LoopIn) : Node := n.mLoop fun l => { l with ins := tset {} l.ins c v }
def setAo (n : Node) (a : Nat) (v : AoSt) : Node := n.mLoop fun l => { l with aos := tset {} l.aos a v }
def isle (n : Node) (a : Nat) : Island := tget {} n.loop.islands a
def setIsle (n : Node) (a : Nat) (v : Island) : Node := n.mLoop fun l => { l with islands := tset {} l.islands a v }
def loopFlag (n : Node) (i : Nat) : Node := n.mLoop fun l => { l with flags := setBit l.flags i }

/-- The LOOP records (14 Table 14.2). -/
def loopInRecord (n : Node) (c old new : Nat) : Node :=
  n.later ⟨0x22, c, old, new, [0, BitVec.ofNat 8 (b2n (failBand new))] ++ leBytes 4 (n.loopInStat c).toNat⟩
def aoRecord (n : Node) (a event : Nat) (detect : Bool) : Node :=
  n.later ⟨0x22, 0x0100 + a, 0, event, [0, BitVec.ofNat 8 (b2n detect)] ++ leBytes 4 (n.aoStat a).toNat⟩

/-! Classification (R267 to R272). -/

/-- The band and the clear run after a result at `ts`. -/
def loopBandStep (s : LoopIn) (clrTime : Nat) (cur : Int) (b ts : Nat) : LoopIn :=
  let start := if s.clrPend then s.clrStart else ts
  if failBand b then { cur := cur, band := b, clrPend := false, clrStart := 0 }
  else if failBand s.band && decide (ts < start + clrTime * 100000) then
    { cur := cur, band := s.band, clrPend := true, clrStart := start }
  else { cur := cur, band := b, clrPend := false, clrStart := 0 }

/-- R271: what issues a record. -/
def loopRecorded (old new : Nat) : Bool := (failBand old || failBand new) && old != new

/-- A published 4–20 mA result: its band, its E, the flags and the record. -/
def classify (n : Node) (c : Nat) (cur : Int) (overrange : Bool) (ts : Nat) : Node :=
  match n.loopIn c with
  | none => n
  | some cfg =>
    let s := n.loopInSt c
    let t := loopBandStep s cfg.clrTime cur (bandOf cur overrange) ts
    let n := n.setLoopIn c t
    let n := if failBand t.band then n
      else n.mLane fun l => { l with
        chans := tupd {} l.chans c fun h => { h with eng := loopE cfg.lo cfg.hi cur } }
    let n := if failBand t.band && !failBand s.band then n.loopFlag 0 else n
    let n := if satBand t.band && t.band != s.band then n.loopFlag 1 else n
    if loopRecorded s.band t.band then n.loopInRecord c s.band t.band else n

/-! Commanded currents, step 7 (R277). -/

/-- One island's commanded current, by the first case that applies. A hold-last before any current was commanded has no value in the
manual: a free one of the island's range (log entry 15). -/
def commandIsland (n : Node) (c : IslandCfg) : Node :=
  let s := { n.aoSt c.num with hbMode := c.hbMode, hbTimeout := c.hbTimeout }
  let r := n.readSrc none c.src
  match s.forced with
  | some i => n.setAo c.num { s with cmd := i, cause := 2 }
  | none =>
    if r.stale || b64IsNaN r.val then
      if c.badMode = 2 ∧ s.cmd = 0 then
        let (w, n) := n.fresh
        n.setAo c.num { s with cmd := 3500 + w.toNat % 18501, cause := 1 }
      else n.setAo c.num { s with cmd := failCurrent c.badMode s.cmd, cause := 1 }
    else n.setAo c.num { s with cmd := aoComputed c.lo c.hi r.val, cause := 0 }

def commandIslands (n : Node) : Node := n.islands.foldl commandIsland n

/-! Frames (R276, R279). -/

/-- The node sends island frames: after phase F, never while CORE is clamped or in BRIDGE (R281), and not after parking. -/
def islandFrames (n : Node) : Bool := n.loop.framesOn && n.coreRuns && !n.clk.core.clamp && !n.txIdle && !n.pwr.parked

/-- Table 8.3: a valid frame at an island. -/
def islandTakes (s : Island) (cur hbMode hbTimeout : Nat) (park : Bool) : Island :=
  let run : Island := { s with
    state := .run, cur := cur, cmd := cur, hbMode := hbMode, hbTimeout := hbTimeout, timer := true, run3 := 0 }
  match s.state with
  | .unpowered => s
  | .unconfigured => if park then { s with state := .parked, cur := cur, cmd := cur, timer := false } else run
  | .run => if park then { s with state := .parked, cur := cur, cmd := cur, timer := false } else run
  | .fail => if park then { s with run3 := 0 } else if s.run3 = 2 then run else { s with run3 := s.run3 + 1 }
  | .parked => if park then { s with run3 := 0 } else if s.run3 = 2 then run else { s with run3 := s.run3 + 1 }

/-- A frame goes to an assigned island that a step 7 has given a current; five before it without a valid reply set LINK_LOST (Table 8.6). The
island ignores a frame with a bad CRC. -/
def islandFrame (n : Node) (a : Nat) (crcOk : Bool) : Node :=
  match n.island a with
  | none => n
  | some _ =>
    if !n.islandFrames || (n.aoSt a).cmd == 0 then n
    else
      let s := n.aoSt a
      let n := if s.missed < 5 then n.setAo a { s with missed := s.missed + 1 }
        else if s.linkLost then n
        else ((n.setAo a { s with linkLost := true, state := 0 }).loopFlag 3).aoRecord a 1 true
      if crcOk then n.setIsle a (islandTakes (n.isle a) s.cmd s.hbMode s.hbTimeout false) else n

def islandCode : IslandState → Nat
  | .unpowered => 0 | .unconfigured => 1 | .run => 2 | .fail => 3 | .parked => 4

/-- A reply's judgements (Table 8.6), one after the other: link, reset, compliance, mismatch. -/
def islandReply (n : Node) (a rdbk : Nat) (low : Bool) : Node :=
  let st := islandCode (n.isle a).state
  if !n.islandFrames || (n.island a).isNone || st == 0 then n
  else
    let s0 := n.aoSt a
    let n := n.setAo a { s0 with missed := 0, linkLost := false, state := st, lastState := st, rdbk := rdbk }
    let n := if s0.linkLost then n.aoRecord a 1 false else n
    let n := if st = 3 then n.loopFlag 2 else n
    let n := if st = 1 ∧ 2 ≤ s0.lastState then
        (n.setAo a { n.aoSt a with resets := satInc 0xFF s0.resets, wasReset := true }).aoRecord a 4 true
      else if 2 ≤ st ∧ s0.wasReset then (n.setAo a { n.aoSt a with wasReset := false }).aoRecord a 4 false
      else n
    let n := if low == s0.compliance then n else (n.setAo a { n.aoSt a with compliance := low }).aoRecord a 3 low
    let s := n.aoSt a
    let near := decide (rdbk ≤ s.cmd + 200) && decide (s.cmd ≤ rdbk + 200)
    if low then n.setAo a { s with misRun := 0, okRun := 0 }
    else if s.mismatch then
      let k := if near then s.okRun + 1 else 0
      if 3 ≤ k then (n.setAo a { s with mismatch := false, misRun := 0, okRun := 0 }).aoRecord a 2 false
      else n.setAo a { s with misRun := 0, okRun := k }
    else
      let k := if !near && st == 2 then s.misRun + 1 else 0
      if 3 ≤ k then ((n.setAo a { s with mismatch := true, misRun := 0, okRun := 0 }).loopFlag 4).aoRecord a 2 true
      else n.setAo a { s with misRun := k, okRun := 0 }

/-! Forces (Table 8.8, R281). -/

def loopRefused (n : Node) (code : Nat) : Node := (n.mLoop fun l => { l with cmdResult := code }).loopFlag 5
def loopOk (n : Node) : Node := n.mLoop fun l => { l with cmdResult := 0 }

def forceIsland (n : Node) (a cur : Nat) : Node :=
  if !n.sec.maint then n.loopRefused 1
  else if cur < 3500 ∨ 22000 < cur then n.loopRefused 2
  else if (n.island a).isNone then n.loopRefused 3
  else ((n.setAo a { n.aoSt a with forced := some cur }).loopOk).aoRecord a 5 false

def releaseIsland (n : Node) (a : Nat) : Node :=
  if !n.sec.maint then n.loopRefused 1
  else if (n.island a).isNone then n.loopRefused 3
  else if (n.aoSt a).forced.isNone then n.loopRefused 5
  else ((n.setAo a { n.aoSt a with forced := none }).loopOk).aoRecord a 6 false

/-- Every island force ends, with its record (R281). -/
def endAoForces (n : Node) : Node :=
  (List.range 8).foldl (fun n a =>
    if (n.aoSt a).forced.isSome then (n.setAo a { n.aoSt a with forced := none }).aoRecord a 6 false else n) n

/-- R278: each assigned island gets its park frame with its loss-of-supply current, and frames stop. -/
def parkIslands (n : Node) : Node :=
  let los := n.powerCfg.elim 0 fun p => p.losAo.toNat
  let n := if n.islandFrames then n.islands.foldl (fun n c =>
      let s := n.aoSt c.num
      let cur := failCurrent (los / 4 ^ c.num % 4) s.cmd
      let n := n.setAo c.num { s with cmd := cur, cause := 3 }
      n.setIsle c.num (islandTakes (n.isle c.num) cur s.hbMode s.hbTimeout true)) n
    else n
  n.mLoop fun l => { l with framesOn := false }

end Node

/-! The meanings of the LOOP commands. -/

/-- R276. The node sends island a its command frame. -/
def execIslandFrame (a : Fin 8) (crcOk : Bool) (s : State) : Host.Outcome State Fault Refusal :=
  s.run fun n => n.islandFrame a.val crcOk

/-- R282. Island a's reply arrives. -/
def execIslandReply (a : Fin 8) (rdbk : BitVec 16) (low : Bool) (s : State) : Host.Outcome State Fault Refusal :=
  s.run fun n => n.islandReply a.val rdbk.toNat low

/-- R276. Island a's heartbeat timer expires. -/
def execIslandHeartbeatExpiry (a : Fin 8) (s : State) : Host.Outcome State Fault Refusal :=
  s.run fun n =>
    let i := n.isle a.val
    if i.state = .run ∧ i.timer then
      n.setIsle a.val { i with state := .fail, cur := failCurrent i.hbMode i.cmd, timer := false, run3 := 0 }
    else n

/-- R276. Island a's terminal voltage reaches 7.5 V. -/
def execIslandPowerUp (a : Fin 8) (s : State) : Host.Outcome State Fault Refusal :=
  s.run fun n =>
    if (n.isle a.val).state = .unpowered then n.setIsle a.val { state := .unconfigured, cur := 3500 } else n

/-- R276. Island a's terminal voltage stays below 6.0 V for 1 ms. -/
def execIslandPowerLoss (a : Fin 8) (s : State) : Host.Outcome State Fault Refusal :=
  s.run fun n => n.setIsle a.val {}

/-- R277. FORCE of island a. -/
def execLoopForce (a : Fin 8) (cur : BitVec 16) (s : State) : Host.Outcome State Fault Refusal :=
  s.run fun n => n.forceIsland a.val cur.toNat

/-- R277. RELEASE of island a. -/
def execLoopRelease (a : Fin 8) (s : State) : Host.Outcome State Fault Refusal :=
  s.run fun n => n.releaseIsland a.val

end Sys2Proof.Machine
end

