-- ==== Sys2Proof/Machine/Lane.lean ====
section
/-! DEFINITION. Sampling lanes and results (07): the timing grid, sync resets, publication, FIFOs, torn reads, and the meanings of the
lane commands. -/

namespace Sys2Proof.Machine

/-- The status flags of Table 7.3, bit 0 being register bit 16. -/
abbrev flagSettling : Nat := 0
abbrev flagFault : Nat := 1
abbrev flagOverrange : Nat := 2
abbrev flagCoast : Nat := 3
abbrev flagUnlocked : Nat := 4
abbrev flagSkip : Nat := 5
abbrev flagMarker : Nat := 6

/-- The output period of f_d in µs (Table 7.1): the continuous codes, or scanned 250, 500 and 1,000 Hz. -/
def LaneCfg.fdPeriod (c : LaneCfg) : Nat :=
  if c.mode = 1 then contPeriods.getD c.rate 0 else [4000, 2000, 1000].getD c.rate 0

/-- The types with a current or a voltage excitation (06 Table 6.2). -/
def currentExcited (t : Nat) : Bool := t == 1 || t == 2 || t == 3 || t == 7
def voltageExcited (t : Nat) : Bool := t == 8
def excited (t : Nat) : Bool := currentExcited t || voltageExcited t

/-- A SYNC marker (R243, R245). -/
def syncMarker (ch t : Nat) : LaneRes := { lo := 0, seq := 0, flags := setBit 0 flagMarker, ch := ch, ts := t }

/-- A marker enters the FIFO, or waits, in place of an earlier one, until an entry frees (R255). -/
def LaneSt.pushMarker (s : LaneSt) (m : LaneRes) : LaneSt :=
  if s.fifo.length < 256 then { s with fifo := s.fifo ++ [m] } else { s with markerPend := some m }

/-- An entry has freed: a pending marker enters first (R255). -/
def LaneSt.takePending (s : LaneSt) : LaneSt :=
  match s.markerPend with
  | some m => if s.fifo.length < 256 then { s with fifo := s.fifo ++ [m], markerPend := none } else s
  | none => s

/-- R253: a read of FIFO_LO. -/
def LaneSt.popFifo (s : LaneSt) : LaneSt :=
  match s.fifo with
  | [] => { s with latch := { ch := 0xFF }, underrun := true }
  | r :: rest => ({ s with latch := r, fifo := rest }).takePending

/-- R249: a read of RES_LO takes the snapshot. -/
def LaneSt.snap (s : LaneSt) : LaneSt := { s with shadow := s.res.getD {}, snapPend := true, ovwr := false }

/-- The matrix path of the lane opens and its excitation turns off. -/
def LaneSt.openPath (s : LaneSt) : LaneSt := { s with conv := none, routed := none, exc := none }

/-- R261 and Table 7.6: FLUSH empties the FIFO, clears DROPPED, and lets a pending marker enter first. -/
def LaneSt.flushed (s : LaneSt) : LaneSt := ({ s with fifo := [], dropped := 0 }).takePending

namespace Node

def setLane (n : Node) (l : Nat) (v : LaneSt) : Node := n.mLane fun s => { s with lanes := tset {} s.lanes l v }
def updLane (n : Node) (l : Nat) (f : LaneSt → LaneSt) : Node := n.setLane l (f (n.laneSt l))
def setLaneCh (n : Node) (c : Nat) (v : LaneCh) : Node := n.mLane fun s => { s with chans := tset {} s.chans c v }

/-- A lane the image uses (R235). -/
def laneUsed (n : Node) (l : Nat) : Bool := (n.laneCfg l).any fun c => c.mode == 1 || c.mode == 2

/-- The lane is in service. -/
def laneLive (n : Node) (l : Nat) : Bool := n.laneUsed l && !(n.laneSt l).suspended && !(n.laneSt l).failed

/-- The slot runs in the mode the node is in (R260). -/
def slotRuns (n : Node) (c : LaneCfg) (slot : Nat) : Bool :=
  if n.schedMode == .sleep then bit c.sleep slot else true

/-- A lane in service whose mode runs a slot of it, with FIELD on and not parked (R260, 06 Table 6.7). -/
def laneRuns (n : Node) (l : Nat) : Bool :=
  n.laneLive l && !n.pwr.parked && n.clk.field.st != .off &&
    (n.laneCfg l).any fun c => (List.range c.slots.length).any (n.slotRuns c)

/-- A LANE record (14 Table 14.2), with the sync instant that is pending or taken; 0 with none. -/
def laneRecord (n : Node) (l event t : Nat) : Node :=
  n.later ⟨0x21, l, 0, event, [0, 0] ++ leBytes 4 (n.laneStat l).toNat ++ leBytes 4 t⟩

def laneRecordSync (n : Node) (l event : Nat) : Node := n.laneRecord l event ((n.laneSt l).sync.getD 0)

/-- A lane's grid period in µs: 2.5 times as long while FIELD coasts (R238). -/
def gridPeriod (n : Node) (l : Nat) : Nat :=
  let p := (n.laneCfg l).elim 0 LaneCfg.period
  if n.fieldCoasts then p * 5 / 2 else p

/-- The next grid instant after `t`. -/
def nextGrid (n : Node) (l t : Nat) : Nat :=
  let p := n.gridPeriod l
  if p = 0 then t + 1 else (t / p + 1) * p

/-- The first grid instant at least 100 µs after `t` (R241). -/
def gridAfter (n : Node) (l t : Nat) : Nat :=
  let p := n.gridPeriod l
  if p = 0 then t + 100 else (t + 100 + p - 1) / p * p

/-- A local cause of a lane reset (R242): one reset stands for the causes before it (R261). -/
def syncCause (n : Node) (l : Nat) : Node :=
  if n.laneRuns l then n.updLane l fun s => { s with sync := some (n.gridAfter l n.now) } else n

def syncCauses (n : Node) : Node := (List.range 8).foldl syncCause n

/-- R241: the resets pending under the FIELD clamps take effect from their release on. -/
def syncsReleased (n : Node) : Node :=
  (List.range 8).foldl (fun n l => if (n.laneSt l).sync.isSome then n.syncCause l else n) n

/-- The lane's clock and node time differ by more than 0.3 %: a coarse slew, or BRIDGE (R240). -/
def rateOff (n : Node) : Bool := decide (2 ≤ n.rtc.slewing) || n.clk.field.st == .bridge

/-- R240: the end of an unlocked interval is a cause. -/
def relock (n : Node) : Node :=
  if n.rateOff then n
  else (List.range 8).foldl (fun n l => if (n.laneSt l).unlocked && (n.laneSt l).sync.isNone then n.syncCause l else n) n

/-- The conversion of a channel begins: its path closes and its excitation code is applied, while no failed switch keeps it open (06 R206,
Tables 6.3 and 6.8). -/
def convert (n : Node) (l : Nat) (i : InputCfg) : Node :=
  let shut := !bit n.afe.badSwitch i.num
  n.updLane l fun s => { s with
    conv := some i.num
    routed := if shut then some i.num else none
    exc := if shut && excited i.type then some (n.afeExc i.num).code else none }

/-- The lane's chain stops, its result register keeping the last value with SETTLING set (R241, R261). -/
def stopChain (n : Node) (l : Nat) : Node :=
  if n.laneUsed l then
    n.updLane l fun s => { s.openPath with
      chain := false
      running := false
      settling := true
      res := s.res.map fun r => { r with flags := setBit r.flags flagSettling } }
  else n

/-- The lane stops: its paths open, its excitation turns off, and it publishes nothing more (R264). -/
def haltChain (n : Node) (l : Nat) : Node :=
  n.updLane l fun s => { s.openPath with chain := false, running := false, settling := false, sync := none, stopPend := none }

/-- R260: the lanes that run no slot in the mode stop. -/
def haltIdle (n : Node) : Node := (List.range 8).foldl (fun n l => if n.laneRuns l then n else n.haltChain l) n

/-- The reset of one channel's sequence (R246). -/
def resetChannel (n : Node) (c : Nat) : Node :=
  n.setLaneCh c { n.laneCh c with seq := 0, resSeq := none, fifoSeq := none, chReset := false }

/-- The one channel of a continuous lane (R235). -/
def soleInput (n : Node) (l : Nat) : Option InputCfg :=
  (n.laneCfg l).bind fun c => if c.mode = 1 then c.slots.head?.bind n.input else none

/-- The IMU holds the input, which then rejoins its lane with a reset of its own (06 R215, Table 6.7). -/
def imuHolds (n : Node) (c : Nat) : Bool := (n.afeCh c).offLane || n.afe.imuCh == some c

def takenOff (n : Node) (c : Nat) : Node := n.mAfe fun a => { a with chans := tset {} a.chans c { tget {} a.chans c with offLane := true } }

/-- A lane reset at its sync instant (R243, R244); one reset and one marker stand for every cause of one instant (R261). UNLOCKED clears
with the reset that follows its interval (R240). A continuous lane converts its channel from here on, unless the IMU holds it. -/
def laneReset (n : Node) (l t : Nat) : Node :=
  if (n.laneSt l).resetAt = some t then n.updLane l fun s => { s with sync := none }
  else
    let held := (n.soleInput l).any fun i => n.imuHolds i.num
    let off := n.rateOff
    let n := n.updLane l fun s =>
      LaneSt.pushMarker { s.openPath with
        sync := none
        resetAt := some t
        chain := !held
        settle := 3
        settling := true
        unlocked := s.unlocked && off
        slot := 0
        res := s.res.map fun r => { r with flags := setBit r.flags flagSettling } } (syncMarker 0xFF t)
    let n := ((n.laneCfg l).elim [] (·.slots)).foldl resetChannel n
    match n.soleInput l with
    | none => n
    | some i => if held then n.takenOff i.num else n.convert l i

/-! Publication (R234, R244 to R258). -/

/-- Table 6.1's input range of the measurand, in its unit: none where the table gives the range in another quantity. -/
def inRange (type : Nat) (m : Int) : Bool :=
  match type with
  | 1 => decide (-200000 ≤ m) && decide (m ≤ 850000)
  | 2 => decide (-200000 ≤ m) && decide (m ≤ 850000)
  | 3 => decide (-200000 ≤ m) && decide (m ≤ 850000)
  | 4 => decide (-10000000 ≤ m) && decide (m ≤ 80000000)
  | 5 => decide (0 ≤ m) && decide (m ≤ 240000)
  | 6 => decide (-500000 ≤ m) && decide (m ≤ 11000000)
  | 8 => decide (-32000000 ≤ m) && decide (m ≤ 32000000)
  | _ => true

/-- The 26-bit signed range of a result (Table 7.2). -/
def clamp26 (m : Int) : Int := if m < -33554432 then -33554432 else if 33554431 < m then 33554431 else m

/-- What a bank's cold junction was at node time `w`: the temperature in use, and the status it gives. -/
def cjUsed (n : Node) (k w : Nat) : Option Int × Bool :=
  (((tget {} n.afe.cj k).used.find? fun x => decide (x.1 ≤ w)).map (·.2)).getD (none, true)

/-- The cold junction of a result whose window began at `w`: a visit's is that of its start (R213). -/
def cjOf (n : Node) (i : InputCfg) (w : Nat) : Option Int × Bool :=
  if i.sole then n.cjUsed (i.num / 8) w else ((n.afeExc i.num).cjTemp, (n.afeExc i.num).cjBad)

/-- R213: a thermocouple's temperature from its EMF in nV, with the cold junction its window began with; uncompensated with no valid
bank (06 Table 6.8). Every other type publishes what was measured. -/
def measurand (n : Node) (i : InputCfg) (raw : Int) (w : Nat) : Int :=
  if i.type = 4 then Config.tcTemp i.subtype (raw + (n.cjOf i w).1.elim 0 (Config.tcEmf i.subtype)) else raw

/-- The front-end fault status of a result (06 R220, Table 6.8). -/
def frontFault (n : Node) (i : InputCfg) (w : Nat) : Bool :=
  let a := n.afeCh i.num
  a.opened || a.short || bit n.afe.badSwitch i.num || (n.afeExc i.num).visitBad || (i.type == 4 && (n.cjOf i w).2)

/-- A gap of more than 1 in SEQ (Table 7.3, SKIP). -/
def seqGap (prev : Option Nat) (q : Nat) : Bool :=
  match prev with
  | none => false
  | some p => decide (1 < (q + 65536 - p) % 65536)

/-- A result enters the FIFO, or is dropped and counted (R252, R254, R255). -/
def fifoResult (n : Node) (l c : Nat) (r : LaneRes) : Node :=
  let s := n.laneSt l
  let h := n.laneCh c
  if s.markerPend.isSome || decide (256 ≤ s.fifo.length) then
    let n := n.setLane l { s with dropped := satInc 0xFFFF s.dropped, ovf := true }
    let n := n.mLane fun g => { g with ovfFlags := setBit g.ovfFlags l }
    n.setLaneCh c { h with fifoSkip := true }
  else
    let skip := h.fifoSkip || seqGap h.fifoSeq r.seq
    let n := n.setLane l { s with fifo := s.fifo ++ [{ r with flags := putBit r.flags flagSkip skip }] }
    n.setLaneCh c { h with fifoSeq := some r.seq, fifoSkip := false }

/-- The output that ends a scanned visit: its path opens (R237). -/
def visitEnds (n : Node) (l : Nat) : Node :=
  if (n.laneCfg l).any (·.mode == 2) then n.updLane l LaneSt.openPath else n

/-- A result enters the result register (R248, R250). -/
def registerResult (n : Node) (l c : Nat) (r : LaneRes) : Node :=
  let s := n.laneSt l
  let h := n.laneCh c
  let skip := h.resSkip || seqGap h.resSeq r.seq
  let n := n.setLane l { s with
    res := some { r with flags := putBit r.flags flagSkip skip }
    ovwr := s.ovwr || s.snapPend
    running := true
    settling := false }
  (n.visitEnds l).setLaneCh c { h with resSeq := some r.seq, resSkip := false }

/-- The engineering value of a result (R257; 08 R267 for 4–20 mA). -/
def engineer4 (n : Node) (i : InputCfg) (m : Int) (overrange : Bool) (ts : Nat) : Node :=
  if i.type = 5 then n.classify i.num m overrange ts
  else n.setLaneCh i.num { n.laneCh i.num with eng := i.scaling.apply (b64OfInt m) }

/-- One published output of channel i on lane l, whose output instant is `t` (R233): its window is twice the lag, and its timestamp never
lies before that of the lane's last result (01 R29). -/
def publish (n : Node) (l : Nat) (lc : LaneCfg) (i : InputCfg) (raw : Int) (overrange : Bool) (t : Nat) : Node :=
  let lag := if n.fieldCoasts then lc.fdPeriod * 17 / 4 else lc.fdPeriod * 17 / 10
  let ts := max (t - lag) ((n.laneSt l).res.elim 0 (·.ts))
  let m := clamp26 (n.measurand i raw (t - 2 * lag))
  let ovr := overrange || !inRange i.type raw
  let fe := n.frontFault i (t - 2 * lag)
  let h := n.laneCh i.num
  let flags := putBit (putBit (putBit (putBit (0 : BitVec 8) flagFault fe) flagOverrange ovr) flagCoast n.fieldCoasts) flagUnlocked
    (n.laneSt l).unlocked
  let r : LaneRes := ⟨BitVec.ofInt 32 m, h.seq, flags, i.num, ts⟩
  let n := n.setLaneCh i.num { h with seq := (h.seq + 1) % 65536, last := some r }
  let n := n.registerResult l i.num r
  let n := n.fifoResult l i.num r
  let n := n.engineer4 i m ovr r.ts
  let e := n.afeExc i.num
  if e.compliance then n
  else n.mAfe fun a => { a with exc := tset {} a.exc i.num { e with epochRes := e.epochRes ++ [m] } }

/-- R262 and R263: a parity error discards the output and causes a sync reset; the third within 60 s fails the lane. -/
def parityError (n : Node) (l t : Nat) : Node :=
  let s := n.laneSt l
  let at60 := t :: s.parityAt.filter fun x => decide (t < x + 60000000)
  let n := n.setLane l { s with resync := satInc 0xFF s.resync, parityAt := at60 }
  let n := n.mLane fun g => { g with parityFlags := setBit g.parityFlags l }
  let n := (n.syncCause l).laneRecordSync l 1
  if at60.length < 3 then n
  else
    ((n.haltChain l).updLane l fun s => { s with failed := true, parityAt := [] }).laneRecordSync l 2

/-- An output that was due and is not published: SEQ advances, and a scanned visit ends (R237, R246). -/
def outputLost (n : Node) (l c : Nat) : Node :=
  let h := n.laneCh c
  (n.setLaneCh c { h with seq := (h.seq + 1) % 65536 }).visitEnds l

/-- 06 R225: a changed code takes effect on a sole channel at the decimated-output boundary, with a sync reset. -/
def takeCode (n : Node) (l : Nat) (i : InputCfg) : Node :=
  let code := (n.afeExc i.num).code
  if i.sole && (n.laneSt l).exc.any (· != code) then (n.updLane l fun s => { s with exc := some code }).syncCause l else n

/-- A decimated output of a lane: of the channel whose conversion it belongs to (R234, R237, R244, R262). -/
def output (n : Node) (l : Nat) (raw : Int) (overrange parity : Bool) (t : Nat) : Node :=
  let n := n.setNow t
  let s := n.laneSt l
  if !n.laneRuns l || !s.chain || n.fieldHeld then n
  else match n.laneCfg l, s.conv.bind n.input with
    | some lc, some i =>
      let n :=
        if s.settle ≠ 0 then n.updLane l fun s => { s with settle := s.settle - 1 }
        else if parity then n.outputLost l i.num
        else n.publish l lc i raw overrange n.now
      (if parity then n.parityError l n.now else n).takeCode l i
    | _, _ => n

/-! Commands (Tables 7.5 and 7.6). -/

def laneOk (n : Node) : Node := n.mLane fun s => { s with cmdResult := 0 }
def laneRefused (n : Node) (code : Nat) : Node := n.mLane fun s => { s with cmdResult := code }

def laneResync (n : Node) (l : Nat) : Node :=
  if !n.laneUsed l then n.laneRefused 1
  else if !n.laneLive l then n.laneRefused 4
  else (n.syncCause l).laneOk

def laneFlush (n : Node) (l : Nat) : Node :=
  if !n.laneUsed l then n.laneRefused 1 else (n.updLane l LaneSt.flushed).laneOk

def laneSuspend (n : Node) (l : Nat) : Node :=
  if !n.laneUsed l then n.laneRefused 1
  else if !n.sec.maint then n.laneRefused 3
  else if !n.laneLive l || (n.laneSt l).stopPend.isSome then n.laneRefused 4
  else ((n.updLane l fun s => { s with stopPend := some (n.nextGrid l n.now) }).laneRecordSync l 3).laneOk

/-- R264: the lane stops at its grid instant. -/
def laneStops (n : Node) (l : Nat) : Node :=
  match (n.laneSt l).stopPend with
  | none => n
  | some t => ((n.setNow t).haltChain l).updLane l fun s => { s with suspended := true }

def laneResume (n : Node) (l : Nat) : Node :=
  let s := n.laneSt l
  if !n.laneUsed l then n.laneRefused 1
  else if !n.sec.maint then n.laneRefused 3
  else if !s.suspended && !s.failed then n.laneRefused 4
  else (((n.setLane l { s with suspended := false, failed := false }).syncCause l).laneRecordSync l 4).laneOk

/-- The epoch boundaries after `t`: the next, and the k-th. -/
def epochAfter (t k : Nat) : Nat := (t / 1000000 + k) * 1000000

/-- The command SYNC_RESET. -/
def syncAt (n : Node) (l t : Nat) : Node :=
  let x := n.laneSt l
  let due := match x.sync with
    | some u => u == t
    | none => x.unlocked && !n.rateOff && n.gridPeriod l != 0 && t % n.gridPeriod l == 0
  if due && n.laneRuns l && !n.fieldHeld then (n.setNow t).laneReset l t else n.setNow t

/-- A sync joins those pending: masks for one boundary are ORed (Table 7.6). -/
def addSync (l : List SyncPend) (x : SyncPend) : List SyncPend :=
  if l.any (fun y => y.boundary == x.boundary && y.ring == x.ring) then
    l.map fun y => if y.boundary = x.boundary ∧ y.ring = x.ring then { y with lanes := y.lanes ||| x.lanes } else y
  else l ++ [x]

/-- A write of LANE_SYNC_CMD (R241, Table 7.6). -/
def laneSync (n : Node) (lanes : BitVec 8) (ring : Bool) : Node :=
  if lanes = 0 then n.mLane fun s => { s with syncResult := 1 }
  else if !n.lane.syncPend.isEmpty then n.mLane fun s => { s with syncResult := 2 }
  else
    let b := epochAfter n.now (if ring then 2 else 1)
    let here := !ring || n.tide.st == .inserted
    let n := if ring && here then n.sendFrame allNodes (.command (.laneSync lanes b)) else n
    n.mLane fun s => { s with
      syncResult := 0
      syncTime := if here then b else s.syncTime
      syncPend := if here then addSync s.syncPend ⟨lanes, ring, b⟩ else s.syncPend }

/-- The node-wide and ring-wide syncs due at a boundary: each lane named takes its reset, with its record (R241, R266). Under the FIELD clamps
the reset waits for their release. -/
def syncsDue (n : Node) (t : Nat) : Node :=
  let due := n.lane.syncPend.filter fun x => decide (x.boundary ≤ t)
  let mask := due.foldl (fun m x => m ||| x.lanes) (0 : BitVec 8)
  let n := n.mLane fun s => { s with syncPend := s.syncPend.filter fun x => decide (t < x.boundary) }
  (List.range 8).foldl (fun n l =>
    if bit mask l && n.laneRuns l then (if n.fieldHeld then n.syncCause l else n.laneReset l t).laneRecord l 5 t else n) n

end Node

/-! The meanings of the lane commands. -/

/-- R234. A decimated output of lane l at the output instant t. -/
def execResultPublish (l : Fin 8) (raw : BitVec 32) (overrange parity : Bool) (t : Nat) (s : State) :
    Host.Outcome State Fault Refusal :=
  s.run fun n => n.output l.val raw.toInt overrange parity t

/-- R240. Lane clock and node time differ by more than 0.3 %. -/
def execLaneUnlock (l : Fin 8) (s : State) : Host.Outcome State Fault Refusal :=
  s.run fun n => if n.laneLive l.val then n.updLane l.val fun s => { s with unlocked := true } else n

/-- R243. The sync instant of lane l: that of the pending reset, or a grid instant after the end of an unlocked interval (R240); `t` at
another time is no sync instant, and nothing happens (log entry 114). -/
def execSyncReset (l : Fin 8) (t : Nat) (s : State) : Host.Outcome State Fault Refusal :=
  s.run fun n => n.syncAt l.val t

/-- R241. A write of LANE_SYNC_CMD. -/
def execLaneSyncCmd (lanes : BitVec 8) (ring : Bool) (s : State) : Host.Outcome State Fault Refusal :=
  s.run fun n => n.laneSync lanes ring

/-- R242. RESYNC of lane l. -/
def execResync (l : Fin 8) (s : State) : Host.Outcome State Fault Refusal := s.run fun n => n.laneResync l.val

/-- R261. FLUSH of lane l. -/
def execFlush (l : Fin 8) (s : State) : Host.Outcome State Fault Refusal := s.run fun n => n.laneFlush l.val

/-- R264. SUSPEND of lane l. -/
def execSuspend (l : Fin 8) (s : State) : Host.Outcome State Fault Refusal := s.run fun n => n.laneSuspend l.val

/-- R264. The suspended lane's grid instant. -/
def execLaneStop (l : Fin 8) (s : State) : Host.Outcome State Fault Refusal := s.run fun n => n.laneStops l.val

/-- R265. RESUME of lane l. -/
def execResume (l : Fin 8) (s : State) : Host.Outcome State Fault Refusal := s.run fun n => n.laneResume l.val

/-- R249. A read of LANEn_RES_LO. -/
def execResultLoRead (l : Fin 8) (s : State) : Host.Outcome State Fault Refusal :=
  s.run fun n => n.updLane l.val LaneSt.snap

/-- R249. A read of LANEn_RES_HI ends the snapshot. -/
def execResultHiRead (l : Fin 8) (s : State) : Host.Outcome State Fault Refusal :=
  s.run fun n => n.updLane l.val fun s => { s with snapPend := false }

/-- R253. A read of LANEn_FIFO_LO. -/
def execFifoRead (l : Fin 8) (s : State) : Host.Outcome State Fault Refusal :=
  s.run fun n => n.updLane l.val LaneSt.popFifo

/-- R258. A read of LANE_CHc_ENG_LO copies ENG_HI into the shadow. -/
def execEngLoRead (c : Fin 48) (s : State) : Host.Outcome State Fault Refusal :=
  s.run fun n => n.setLaneCh c.val { n.laneCh c.val with engHi := Node.highWord (n.laneCh c.val).eng.toNat }

/-- R258. A read of LANE_CHc_ENG_HI returns the shadow, and changes nothing. -/
def execEngHiRead (_c : Fin 48) (s : State) : Host.Outcome State Fault Refusal := s.run fun n => n

end Sys2Proof.Machine
end

