-- ==== Sys2Proof/Machine/FrontEnd.lean ====
section
/-! DEFINITION. The sensor front end (06): lane visits, cold junctions, the impedance check and its judgement, adaptive excitation, and
the meanings of the AFE commands. -/

namespace Sys2Proof.Machine

namespace Node

def setAfeCh (n : Node) (c : Nat) (v : AfeCh) : Node := n.mAfe fun a => { a with chans := tset {} a.chans c v }
def setAfeExc (n : Node) (c : Nat) (v : AfeExc) : Node := n.mAfe fun a => { a with exc := tset {} a.exc c v }
def afeFlag (n : Node) (i : Nat) : Node := n.mAfe fun a => { a with flags := setBit a.flags i }

/-- A FRONT_END record with its status word (14 Table 14.2); `event` counts the rows of Table 6.8 from 1, and 7 is ADAPT_PINNED. -/
def afeRecord (n : Node) (source event : Nat) (detect : Bool) (status : Word) : Node :=
  n.later ⟨0x20, source, 0, event, [0, BitVec.ofNat 8 (b2n detect)] ++ leBytes 4 status.toNat⟩

/-! A lane visit (R209, Table 6.8). -/

/-- The temperature in use for a bank's cold junction: its own, or the substitute's; none with no valid bank. -/
def cjNow (n : Node) (k : Nat) : Option Int :=
  let s := n.cjSource k
  if n.cjValid s then some (tget {} n.afe.cj s).temp else none

/-- The excitation source after the visit's report: an overload turns it off for the rest of the visit. -/
def sourceAfter (n : Node) (l : Nat) (i : InputCfg) (heavy : Bool) : Node :=
  n.updLane l fun s => { s with
    exc := if heavy then none else if s.routed = some i.num ∧ excited i.type ∧ s.exc = none then some (n.afeExc i.num).code else s.exc }

/-- What the visit's measurement says of the excitation source, the compliance and the overload, with a record at each change. -/
def judgeVisit (n : Node) (l : Nat) (i : InputCfg) (r : VisitReport) : Node :=
  let e := n.afeExc i.num
  let off := excited i.type && r.compliant && r.excOff
  let fails := currentExcited i.type && !r.compliant
  let heavy := voltageExcited i.type && r.overload
  let had := bit n.afe.excFault l
  let n := n.setAfeExc i.num { e with
    compliance := fails
    overload := heavy
    visitBad := off || fails || heavy
    cjTemp := n.cjNow (i.num / 8)
    cjBad := !n.cjValid (i.num / 8) }
  let n := n.sourceAfter l i heavy
  let n := if off && !had then
      let n := (n.mAfe fun a => { a with excFault := setBit a.excFault l }).afeFlag 4
      n.afeRecord (0x0200 + l) 1 true n.afeStat
    else if had && excited i.type && r.compliant && !r.excOff then
      let n := n.mAfe fun a => { a with excFault := clrBit a.excFault l }
      n.afeRecord (0x0200 + l) 1 false n.afeStat
    else n
  let n := if fails == e.compliance then n else n.afeRecord i.num 2 fails (n.afeExst i.num)
  if heavy == e.overload then n else n.afeRecord i.num 3 heavy (n.afeExst i.num)

/-- The report of a visit, where the input's path has closed. -/
def reported (n : Node) (l : Nat) (i : InputCfg) (r : VisitReport) : Node :=
  if (n.laneSt l).routed = some i.num then n.judgeVisit l i r else n

/-- A scanned slot begins (R209, R237, R245; 07 R260): the matrix switches to the slot's channel, and the chain resets for its
conversion window. The slot of an input that the IMU holds stays idle, and its SEQ advances (R210). On a continuous lane the report is of its
one channel, which is excited all the time (R206; log entry 92). -/
def visit (n : Node) (l slot : Nat) (r : VisitReport) : Node :=
  match n.laneCfg l with
  | none => n
  | some lc =>
    let s := n.laneSt l
    if !n.laneRuns l ∨ !s.chain ∨ n.fieldHeld ∨ lc.slots.length ≤ slot ∨ !n.slotRuns lc slot then n
    else match n.input (lc.slots.getD slot 0xFF) with
      | none => n
      | some i =>
        if lc.mode = 1 then n.reported l i r
        else if n.imuHolds i.num then
          let n := (n.setLane l { s.openPath with slot := slot }).takenOff i.num
          let h := n.laneCh i.num
          n.setLaneCh i.num { h with seq := (h.seq + 1) % 65536 }
        else
          let h := n.laneCh i.num
          let n := if h.chReset then
              (n.updLane l fun s => s.pushMarker (syncMarker i.num n.now)).resetChannel i.num
            else n
          let n := n.updLane l fun s => { s with slot := slot, settle := 3 }
          (n.convert l i).reported l i r

/-! Cold junctions (R212, Table 6.8). -/

def cjAt (n : Node) (k : Nat) : CjSt := tget {} n.afe.cj k
def setCj (n : Node) (k : Nat) (v : CjSt) : Node := n.mAfe fun a => { a with cj := tset {} a.cj k v }

/-- A reading is valid inside −40 °C to +105 °C, and within 5 °C of the readings of the last second. -/
def cjGood (s : CjSt) (x : Int) : Bool :=
  decide (-4000 ≤ x) && decide (x ≤ 10500) && s.recent.all fun y => decide (x - y ≤ 500) && decide (y - x ≤ 500)

/-- What each bank uses from here on, for windows that began before a result's instant (R213): a window lasts at most 850 ms. -/
def noteCj (n : Node) : Node :=
  (List.range 6).foldl (fun n k =>
    let s := n.cjAt k
    let now := (n.cjNow k, !n.cjValid k)
    if (s.used.head?.map (·.2)) == some now then n else n.setCj k { s with used := ((n.now, now) :: s.used).take 64 }) n

def readCj (n : Node) (k : Nat) (x : Int) : Node :=
  let s := n.cjAt k
  let ok := cjGood s x
  let recent := (x :: s.recent).take 10
  if ok then
    let back := s.failed && decide (99 ≤ s.good)
    let n := n.setCj k { s with
      read := true
      temp := x
      recent := recent
      failed := s.failed && !back
      good := if s.failed && !back then s.good + 1 else 0 }
    (if back then n.afeRecord (0x0100 + k) 4 false (n.afeCj k) else n).noteCj
  else
    let n := n.setCj k { s with recent := recent, failed := true, good := 0 }
    (if s.failed then n else (n.afeFlag 3).afeRecord (0x0100 + k) 4 true (n.afeCj k)).noteCj

/-! The impedance check (R214 to R219). -/

/-- One evaluated tick of an input's period; while checks are suspended the period does not advance (R215, R231). -/
def tickCheck (n : Node) (i : InputCfg) : Node :=
  let a := n.afeCh i.num
  let full := i.period * 20
  let age := a.age + 1
  let ticks := if n.checksHeld then a.ticks else a.ticks + 1
  let fell := decide (full ≤ ticks)
  n.setAfeCh i.num { a with
    age := age
    stale := decide (2 * full < age)
    ticks := if fell then 0 else ticks
    due := a.due || fell
    dueFor := if a.due || a.checkNow then a.dueFor + 1 else 0 }

/-- R215: the check that comes next: CHECK_NOW ahead of the due ones, then the longest due, the lowest number on a tie. An input that its
lane converts has no gap, and one behind a failed switch is out of service (Table 6.8). -/
def nextCheck (n : Node) (gap : Bool) : Option Nat :=
  let can := n.inputs.filter fun i =>
    let a := n.afeCh i.num
    (a.due || a.checkNow) && ((gap && (n.laneSt i.lane).conv != some i.num) || a.offLane) && !bit n.afe.badSwitch i.num
  let rank (i : InputCfg) : Nat × Nat := let a := n.afeCh i.num; (b2n a.checkNow, a.dueFor)
  let better (x y : InputCfg) : Bool :=
    let a := rank x
    let b := rank y
    decide (b.1 < a.1) || (a.1 == b.1 && (decide (b.2 < a.2) || (a.2 == b.2 && decide (x.num < y.num))))
  match can with
  | [] => none
  | x :: r => some (r.foldl (fun b y => if better y b then y else b) x).num

/-- The IMU starts a check (R215). -/
def startCheck (n : Node) (gap : Bool) : Node :=
  if n.checksHeld || n.afe.imuCh.isSome then n
  else match n.nextCheck gap with
    | none => n
    | some c =>
      let late := (n.afeCh c).due && (n.input c).any fun i => decide (i.period * 20 < (n.afeCh c).dueFor)
      let n := n.mAfe fun a => { a with imuCh := some c }
      if late then n.afeFlag 5 else n

/-- An input returns to its lane: with its own reset, the next result there carrying SKIP (R215, 07 Table 7.4). -/
def rejoin (n : Node) (i : InputCfg) : Node :=
  let a := n.afeCh i.num
  if !a.offLane then n
  else
    let n := n.setAfeCh i.num { a with offLane := false }
    if i.sole then n.syncCause i.lane
    else n.setLaneCh i.num { n.laneCh i.num with chReset := true, resSkip := true, fifoSkip := true }

/-- A check abandoned with no result: it is due again, and the inputs that the IMU has taken return (Table 6.7). -/
def abandonCheck (n : Node) : Node :=
  let n := match n.afe.imuCh with
    | none => n
    | some c => (n.setAfeCh c { n.afeCh c with due := true }).mAfe fun x => { x with imuCh := none }
  n.inputs.foldl rejoin n

/-- Table 6.5's flags and R218's baseline after a check with readings x of the loop and y of the insulation. -/
def judgeCheck (i : InputCfg) (a : AfeCh) (z : ImpReading) : AfeCh :=
  let loop := Node.hasLoop i.type
  let trended := Node.loopTrend i.type
  let opened := loop && decide (i.openLim < z.zloop)
  let short := loop && decide (z.zloop < i.shortLim)
  let x : Rat := z.zloop
  let y : Rat := z.ziso
  let k : Rat := a.nBase
  let form := decide (a.nBase < 16)
  let baseL := if form && loop then (a.baseL * k + x) / (k + 1) else a.baseL
  let baseI := if form then (a.baseI * k + y) / (k + 1) else a.baseI
  let shortL := if form then baseL else if opened || short || !loop then a.shortL else a.shortL + (x - a.shortL) / 8
  let shortI := if form then baseI else a.shortI + (y - a.shortI) / 8
  let ready := decide (15 ≤ a.nBase)
  let d := if shortL < baseL then baseL - shortL else shortL - baseL
  let tl : Rat := i.trendLoop / 1000
  let ti : Rat := i.trendIso / 100
  let sets := (trended && decide (tl * baseL < d)) || decide (shortI < ti * baseI)
  let clears := (!trended || decide (d < tl / 2 * baseL)) && decide ((ti + 1) / 2 * baseI < shortI)
  { a with
    mag := if loop then z.zloop else a.mag
    phase := if loop then z.phase else a.phase
    iso := z.ziso
    opened := opened
    short := short
    isoLow := decide (z.ziso < i.isoMin)
    trend := if ready && sets then true else if ready && clears then false else a.trend
    stale := false
    seq := (a.seq + 1) % 256
    nBase := if form then a.nBase + 1 else a.nBase
    baseL := baseL
    baseI := baseI
    shortL := shortL
    shortI := shortI
    ckDirty := true }

/-- R217: the check ends, is judged, and its input returns to its lane with its own reset (R215). -/
def endCheck (n : Node) (z : ImpReading) : Node :=
  match n.afe.imuCh with
  | none => n
  | some c =>
    let n := n.mAfe fun x => { x with imuCh := none }
    match n.input c with
    | none => n
    | some i =>
      let a := n.afeCh c
      let b := judgeCheck i a z
      (n.setAfeCh c { b with
        age := 0
        due := false
        dueFor := 0
        ticks := if a.checkNow && a.due then 0 else a.ticks
        checkNow := false }).rejoin i

/-- R215: 1 s after it fell due, or CHECK_NOW asked for it, without a gap, the IMU takes the input off its lane (log entry 93). A visit of it is
abandoned, and its SEQ advances. -/
def takeOffLane (n : Node) (c : Nat) : Node :=
  match n.input c with
  | none => n
  | some i =>
    let a := n.afeCh c
    if (a.due || a.checkNow) && decide (20 ≤ a.dueFor + 1) && !a.offLane && !n.checksHeld then
      let n := n.setAfeCh c { a with offLane := true }
      if i.sole then n.stopChain i.lane
      else if (n.laneSt i.lane).conv = some c then n.outputLost i.lane c
      else n
    else n

def impResult (n : Node) (code : Nat) : Node :=
  let n := n.mAfe fun a => { a with cmdResult := code }
  if code = 0 then n else n.afeFlag 1

/-- CHECK_NOW (Table 6.10). -/
def checkNow (n : Node) (c : Nat) : Node :=
  if (n.input c).isNone then n.impResult 1
  else if n.checksHeld then n.impResult 2
  else if (n.afeCh c).checkNow then n.impResult 3
  else (n.setAfeCh c { n.afeCh c with checkNow := true }).impResult 0

/-- REBASE (R218): the baseline restarts from the next check. -/
def rebased (a : AfeCh) : AfeCh := { a with nBase := 0, baseL := 0, baseI := 0, shortL := 0, shortI := 0, ckDirty := true }

def rebase (n : Node) (c : Nat) : Node :=
  if (n.input c).isNone then n.impResult 1
  else if !n.sec.maint then n.impResult 4
  else (n.setAfeCh c (rebased (n.afeCh c))).impResult 0

/-- R230: the IMU's self-test. -/
def imuTest (n : Node) (pass : Bool) : Node :=
  if pass then
    if n.afe.imuFault then
      let n := n.mAfe fun a => { a with imuFault := false }
      n.afeRecord 0x03FF 5 false n.afeStat
    else n
  else if n.afe.imuFault then n
  else
    let n := ((n.abandonCheck).mAfe fun a => { a with imuFault := true }).afeFlag 2
    n.afeRecord 0x03FF 5 true n.afeStat

/-! Adaptive excitation (R221 to R227). -/

/-- c × num / den to the nearest code, halves up; a raise or a lower that rounds back to c moves by 1 (R222). -/
def wantedCode (c : Nat) (below above : Bool) : Nat :=
  if below then (let w := (c * 9 * 2 + 8) / 16; if w = c then c + 1 else w)
  else if above then (let w := (c * 8 * 2 + 9) / 18; if w = c then c - 1 else w)
  else c

/-- R223: the applied code. -/
def appliedCode (e : AfeExc) : Nat := if e.forceEn then e.forceVal else max e.excMin (min e.want e.excMax)

/-- The applied code (R223); the source takes it at the channel's next visit, or at the sole channel's next output (R225). -/
def applyCode (n : Node) (i : InputCfg) (e : AfeExc) : Node := n.setAfeExc i.num { e with code := appliedCode e }

/-- The records of ADAPT_PINNED: at its clearing, and at each count that reaches 8 (R224, R226). -/
def pinnedChange (n : Node) (c : Nat) (old : AfeExc) : Node :=
  let e := n.afeExc c
  if (old.pinned && !e.pinned) || (e.pinCnt == 8 && old.pinCnt != 8) then n.afeRecord c 7 e.pinned (n.afeExst c) else n

/-- R224: the counter after a step that wants code w. -/
def pinStep (e : AfeExc) (w : Nat) : AfeExc :=
  if e.excMax < w ∨ w < e.excMin then
    let reaches := e.pinCnt == 7
    { e with
      pinCnt := min 8 (e.pinCnt + 1)
      pinned := e.pinned || reaches
      pinDir := if reaches then decide (e.excMax < w) else e.pinDir }
  else { e with pinCnt := 0, pinned := false }

/-- The variance of results as ratios of a full scale (R222). -/
def ratioVar (full : Rat) (l : List Int) : Rat :=
  let k : Rat := l.length
  let x := l.map fun (r : Int) => (r : Rat) / full
  let mean := x.foldl (· + ·) 0 / k
  (x.map fun y => (y - mean) * (y - mean)).foldl (· + ·) 0 / k

/-- R222: SNR = 20 log10(1/σ) is below t dB: σ^20 times 10^t is above 1. -/
def snrBelow (var : Rat) (t : Nat) : Bool := decide (1 < var ^ 10 * 10 ^ t)

/-- SNR is above t dB. -/
def snrAbove (var : Rat) (t : Nat) : Bool := decide (var ^ 10 * 10 ^ t < 1)

/-- The SNR in whole dB, rounded down and held to its 8 bits (log entry 11). -/
def snrShown (var : Rat) : Nat := ((List.range 256).filter fun t => !snrBelow var t).getLastD 0

/-- R221: one step of the loop, from the results of the epoch just closed. -/
def excStep (n : Node) (c : Nat) : Node :=
  match n.input c with
  | none => n
  | some i =>
    let e := n.afeExc c
    if !i.adaptEn ∨ e.forceEn ∨ n.fieldCoasts ∨ n.fieldHeld ∨ e.lastEpoch.length < 4 then n
    else
      let var := ratioVar (Config.fullScale i.type) e.lastEpoch
      let w := wantedCode e.code (snrBelow var (i.snrTgt - 3)) (snrAbove var (i.snrTgt + 6))
      let e2 := pinStep { e with want := w, snr := snrShown var, lastEpoch := [] } w
      (n.applyCode i e2).pinnedChange c e

/-- A write of AFE_CHn_EXC is accepted as pending, or refused (R227, Table 6.10). -/
def excWriteCode (i : Option InputCfg) (w : Word) : Nat :=
  let lo := bitsOf 0 8 w
  let hi := bitsOf 8 8 w
  let f := bitsOf 16 8 w
  match i with
  | none => 0x12
  | some i =>
    let out (x : Nat) : Bool := decide (x < i.excLo) || decide (i.excHi < x)
    if out lo || out hi || out f then 0x10 else if hi < lo then 0x11 else if !excited i.type then 0x12 else 0

def writeExc (n : Node) (c : Nat) (w : Word) : Node :=
  let code := excWriteCode (n.input c) w
  let n := n.mAfe fun a => { a with excResult := code, excCh := c }
  if code = 0 then n.setAfeExc c { n.afeExc c with pend := some (w &&& 0x01FFFFFF) } else n.afeFlag 0

/-- The clamps and forcing of a register value (R223, R226); where forcing ends, the loop takes no step at this boundary. -/
def excValues (e : AfeExc) (w : Word) : AfeExc :=
  let lo := bitsOf 0 8 w
  let hi := bitsOf 8 8 w
  let en := bit w 24
  let clamps := lo != e.excMin || hi != e.excMax
  { e with
    excMin := lo
    excMax := hi
    forceVal := bitsOf 16 8 w
    forceEn := en
    want := if e.forceEn && !en then e.forceVal else e.want
    pinCnt := if en || clamps then 0 else e.pinCnt
    pinned := e.pinned && !en
    lastEpoch := if e.forceEn && !en then [] else e.lastEpoch
    pend := none }

/-- R227: the pending write applies, with its CONFIG record (14 R425 subtype 7). -/
def applyExc (n : Node) (c : Nat) : Node :=
  match n.input c, (n.afeExc c).pend with
  | some i, some w =>
    let e := n.afeExc c
    let n := n.applyCode i (excValues e w)
    let n := n.stepOne (n.configBody c 7 0 (leBytes 4 w.toNat))
    n.pinnedChange c e
  | _, _ => n

/-- The epoch's results close (R221). -/
def closeResults (n : Node) : Node :=
  n.inputs.foldl (fun n i =>
    let e := n.afeExc i.num
    n.setAfeExc i.num { e with lastEpoch := e.epochRes, epochRes := [] }) n

/-- The value of an entry that says that the input has no complete baseline: two quiet NaNs (log entry 19). -/
def noBaseline : Nat := 0x7FC000007FC00000

/-- The checkpoint entries of the baselines that changed, at an epoch boundary (R218, 19 Table 19.4). -/
def baselineEntries (n : Node) : Node :=
  n.inputs.foldl (fun n i =>
    let a := n.afeCh i.num
    if a.ckDirty then
      let two (x y : Rat) : Nat := if a.nBase < 16 then noBaseline else b32OfQ x.num x.den + b32OfQ y.num y.den * 2 ^ 32
      let n := n.setAfeCh i.num { a with ckDirty := false }
      (n.ckpt 2 i.num (two a.baseL a.baseI)).ckpt 3 i.num (two a.shortL a.shortI)
    else n) n

/-- The initial clamps and forcing of an input (Table 6.6); the image gives no initial code, so the wanted one is free (log entry
17). -/
def initExc (n : Node) (i : InputCfg) : Node :=
  let (w, n) := n.fresh
  let e : AfeExc := { excMin := i.excMin, excMax := i.excMax, forceVal := i.forceVal, forceEn := i.forceEn, want := w.toNat % 256 }
  if excited i.type then n.setAfeExc i.num { e with code := appliedCode e } else n.setAfeExc i.num {}

/-- The shunts that the image closes: of its 4–20 mA inputs, and of no other (R204, R211). -/
def closeShunts (n : Node) : Node :=
  n.mAfe fun a => { a with shunts := n.inputs.foldl (fun m i => if i.type = 5 then setBit m i.num else m) 0 }

/-- Phase E: the switch test and the shunts (R211, R230). -/
def testSwitches (n : Node) : Node :=
  n.inputs.foldl (fun n i =>
    let bad := Config.switchFails n.free i.num
    let n := { n with free := n.free + 1 }
    let was := bit n.afe.badSwitch i.num
    let n := n.mAfe fun a => { a with badSwitch := putBit a.badSwitch i.num bad }
    if bad == was then n else n.afeRecord i.num 6 bad (n.afeExst i.num)) n.closeShunts

end Node

/-! The meanings of the AFE commands. -/

/-- R209. A scanned slot of lane l begins. -/
def execLaneVisit (l : Fin 8) (slot : Fin 16) (r : VisitReport) (s : State) : Host.Outcome State Fault Refusal :=
  s.run fun n => n.visit l.val slot.val r

/-- R212. A cold-junction sensor is read, in 0.01 °C. -/
def execCjRead (k : Fin 6) (reading : Int) (s : State) : Host.Outcome State Fault Refusal :=
  s.run fun n => n.readCj k.val reading

/-- R215. The last count of an input's check period (log entry 13). -/
def execCheckDue (c : Fin 48) (s : State) : Host.Outcome State Fault Refusal :=
  s.run fun n =>
    match n.input c.val with
    | none => n
    | some i =>
      let a := n.afeCh c.val
      if !n.checksHeld ∧ !a.due ∧ i.period * 20 ≤ a.ticks + 1 then n.setAfeCh c.val { a with due := true, dueFor := 0, ticks := 0 }
      else n

/-- R215. The IMU starts the check that comes next. -/
def execImpedanceCheckStart (gap : Bool) (s : State) : Host.Outcome State Fault Refusal := s.run fun n => n.startCheck gap

/-- R215. No gap for 1 s. -/
def execCheckGapTimeout (c : Fin 48) (s : State) : Host.Outcome State Fault Refusal := s.run fun n => n.takeOffLane c.val

/-- R217. The check ends. -/
def execImpedanceCheckEnd (z : ImpReading) (s : State) : Host.Outcome State Fault Refusal := s.run fun n => n.endCheck z

/-- R229. CHECK_NOW. -/
def execCheckNow (c : BitVec 6) (s : State) : Host.Outcome State Fault Refusal := s.run fun n => n.checkNow c.toNat

/-- R218. REBASE. -/
def execRebase (c : BitVec 6) (s : State) : Host.Outcome State Fault Refusal := s.run fun n => n.rebase c.toNat

/-- R230. The IMU self-tests. -/
def execImuSelfTest (pass : Bool) (s : State) : Host.Outcome State Fault Refusal := s.run fun n => n.imuTest pass

/-- R221. One step of the adaptive loop. -/
def execExcitationStep (c : Fin 48) (s : State) : Host.Outcome State Fault Refusal := s.run fun n => n.excStep c.val

/-- R227. A write of AFE_CHn_EXC. -/
def execExcWrite (c : Fin 48) (w : Word) (s : State) : Host.Outcome State Fault Refusal := s.run fun n => n.writeExc c.val w

/-- R227. The pending write applies. -/
def execExcApply (c : Fin 48) (s : State) : Host.Outcome State Fault Refusal := s.run fun n => n.applyExc c.val

end Sys2Proof.Machine
end

