-- ==== Sys2Proof/Machine/Restore.lean ====
section
/-! DEFINITION. What a start takes from the checkpoint region (02 R87, 06 R218, 10 R340, 11 R359, 19 R587): only the newest entry of each
kind and item that carries the running image's hash tag. -/

namespace Sys2Proof.Machine

namespace Node

/-- The value of the newest entry (R587). -/
def ckValue (n : Node) (kind item : Nat) : Option Nat :=
  ((n.ckEntries.filter fun e => e.kind == kind && e.item == item && e.tag == n.hashTag).getLast?).map (·.value)

/-- A point as it starts: Normal with its counters at 0, and the overlay state that a mark or a clock restores (R340). -/
def startPoint (n : Node) (p : Nat) : PointSt :=
  if n.ckValue 4 p == some 1 then { restore := stOutOfService }
  else match n.ckValue 5 p with
    | none => {}
    | some v => if v = 0 then {} else { restore := stShelved, shelf := v }

/-- The tuned values in force at a start (02 R87). -/
def startTuned (n : Node) : Tab (Option B64) :=
  n.tunes.zipIdx.foldl (fun m (t, i) =>
    match n.ckValue 1 i with
    | some v => tset none m (tuneKey t.cell t.item) (some (BitVec.ofNat 64 v))
    | none => m) []

/-- The cells of a start. -/
def startCells (n : Node) : Node :=
  n.mFab fun f => { f with
    cells := { points := n.points.foldl (fun m c => tset {} m c.num (n.startPoint c.num)) [] }
    tunePend := []
    tuned := n.startTuned }

/-- The roster of a start: the checkpoint's, else the image's (R359). -/
def startRoster (n : Node) : Nat × BitVec 8 :=
  match n.ckValue 6 0 with
  | some v => (v % 256, BitVec.ofNat 8 (v / 256))
  | none => (n.dutyAtStart, n.engineers.foldl (fun m e => if e.present then setBit m e.num else m) 0)

/-- Every ladder IDLE, the watch OFF, and the roster (R359). -/
def startCalls (n : Node) : Node :=
  let (d, m) := n.startRoster
  n.mCall fun c => { c with
    duty := d
    present := m
    roster := (d, m)
    dmState := 0
    dmTimer := 0
    dmSnap := 0
    dmLoaded := false
    ladders := []
    bridgeOn := false
    fresh := true }

/-- Every point, ladder and the watch as a start has them (R340, R359; 16 R502). -/
def startFabric (n : Node) : Node := n.startCells.startCalls

/-- The impedance baselines of a start (R218); a baseline in flash is complete (log entry 19). -/
def startBaselines (n : Node) : Node :=
  n.inputs.foldl (fun n i =>
    match n.ckValue 2 i.num, n.ckValue 3 i.num with
    | some b, some s =>
      if b = noBaseline then n
      else n.setAfeCh i.num { n.afeCh i.num with
        nBase := 16
        baseL := b32Num (b % 2 ^ 32)
        baseI := b32Num (b / 2 ^ 32 % 2 ^ 32)
        shortL := b32Num (s % 2 ^ 32)
        shortI := b32Num (s / 2 ^ 32 % 2 ^ 32) }
    | _, _ => n) n

end Node

end Sys2Proof.Machine
end

