-- ==== Sys2Proof/Machine/Time.lean ====
section
/-! DEFINITION. Node time and the RTC (05): trust, corrections, host sets, steps, leap seconds. -/

namespace Sys2Proof.Machine

namespace Node

/-- R181, R182: a TIME record with RTC_STAT and a second word. -/
def timeBody (n : Node) (event extra : Nat) : RecBody :=
  ⟨0x13, 0, 0, event, leBytes 2 0 ++ leBytes 4 n.rtcStat.toNat ++ leBytes 4 extra⟩

/-- A step or slew is pending or running (Table 5.1). -/
def correcting (n : Node) : Bool := n.rtc.slewing != 0 || n.rtc.stepPend.isSome

/-- Table 5.1. -/
def trustOf (n : Node) : Nat :=
  if n.rtc.osf then 0 else if n.correcting then 3 else if n.rtc.tracked then 2 else 1

/-- R182: a change of TRUST has its record in the next tick. -/
def settleTrust (n : Node) : Node :=
  let t := n.trustOf
  if t = n.rtc.trust then n
  else let n := n.mRtc fun r => { r with trust := t }
    n.later (n.timeBody 1 0)

/-- R180: OSF clears when a measurement or the end of a slew brings the time to TRACKING against a reference whose TRUST is not UNSET. -/
def reachTracking (n : Node) : Node :=
  let refTrust := ((n.peerStatus n.tide.refNode).elim 0 (·.trust))
  (if n.rtc.tracked && !n.correcting && refTrust != 0 then n.mRtc fun r => { r with osf := false } else n).settleTrust

/-- R179: the rate trim that holds the offset is open within ±100 ppm. -/
def retrim (n : Node) : Node :=
  let (v, n) := n.fresh
  n.mRtc fun r => { r with trim := (v.toNat % 20001 : Nat) - 10000 }

/-- The boundary of a step: an inserted reference announces it through the whole epoch before (R188, log entry 106). -/
def stepBoundary (n : Node) : Nat := epochAfter n.now (if n.rtc.reference && n.tide.st == .inserted then 2 else 1)

/-- R184, Table 5.2: the correction of an offset d in µs. -/
def correct (n : Node) (d : Int) : Node :=
  let slew (m : Nat) (rem : Int) (n : Node) : Node := n.retime fun r => { r with slewing := m, slewRem := rem, slewFrom := r.now }
  let n :=
    if -10 ≤ d ∧ d ≤ 10 then slew 0 0 n
    else if -1000 ≤ d ∧ d ≤ 1000 then slew 1 d n
    else if d < 0 then slew 2 d n
    else if d < 1000000 then slew 3 d n
    else (slew 0 (d % 1000000) n).mRtc fun r => { r with stepPend := some (d / 1000000, n.stepBoundary) }
  n.reachTracking

/-- The RTC holds a time in µs. -/
def setRtc (n : Node) (t : Nat) : Node :=
  n.mRtc fun r => { r with sec := t / 1000000 % 2 ^ 32, subsec := t % 1000000 * 32768 / 1000000, mark := targetTime r }

/-- The RTC takes node time plus the correction still to slew (R175). -/
def loadRtc (n : Node) : Node := n.setRtc (targetTime n.rtc).toNat

/-- R176: node time from the RTC. -/
def loadNow (n : Node) : Node :=
  n.retime fun r => { r with now := r.sec * 1000000 + r.subsec * 1000000 / 32768, lastTick := none }

/-- R190: after a refusal, the RTC from node time. -/
def reloadRtc (n : Node) : Node := n.setRtc n.rtc.now

/-- RTC_CTRL.HALT (R190): the RTC stops. -/
def haltSet (n : Node) : Node := n.rtcHold.mRtc fun r => { r with halt := true }

def setRefusal (n : Node) : Nat :=
  let target : Int := (n.rtc.setSec * 1000000 : Nat)
  if n.tide.st == .inserted && !n.rtc.reference then 1
  else if target - n.rtc.now < -3600000000 then 2
  else if n.rtc.stepPend.isSome then 4
  else 0

def haltClear (n : Node) : Node :=
  if !n.rtc.halt then n
  else
    let code := n.setRefusal
    let n := n.mRtc fun r => { r with halt := false, setResult := code }
    if code ≠ 0 then n.reloadRtc
    else
      let d : Int := (n.rtc.setSec * 1000000 : Nat) - (n.rtc.now : Int)
      (n.mRtc fun r => { r with sec := r.setSec, subsec := 0, mark := targetTime r, osf := false, offset := d }).correct d

def haltTimeout (n : Node) : Node :=
  if n.rtc.halt then (n.mRtc fun r => { r with halt := false, setResult := 3 }).reloadRtc else n

/-- R192: a write of LEAP_CNT waits for its epoch boundary. -/
def leapWrite (n : Node) (v : Nat) : Node :=
  if n.rtc.reference || n.tide.st != .inserted then n.mRtc fun r => { r with leapPend := some v } else n

def leapApply (n : Node) : Node :=
  match n.rtc.leapPend with
  | none => n
  | some v =>
    let n := n.mRtc fun r => { r with leap := v, leapPend := none }
    (n.flashAdd (.ident (.leap v))).stepOne (n.timeBody 3 v)

/-- 07 Table 7.4: the sync instant of every lane is the step boundary, in post-step node time. -/
def stepSyncs (n : Node) : Node :=
  (List.range 8).foldl (fun n l => if n.laneRuns l then n.updLane l fun s => { s with sync := some n.now } else n) n

/-- R185, R187: the step at its boundary, its record, a sync reset of every lane, and the remainder's correction. Spans of time run
on: the stored instants move with node time, and a scheduled activation keeps its span (02 R74). -/
def timeStep (n : Node) : Node :=
  match n.rtc.stepPend with
  | none => n
  | some (k, b) =>
    let jump := (k * 1000000).toNat
    let rem := n.rtc.slewRem
    let n := (n.setNow b).retime fun r => { r with
      now := r.now + jump
      stepPend := none
      offset := rem
      slewRem := 0
      steps := r.steps ++ [(b, jump)] }
    let later (x : Nat) : Nat := if b < x then x + jump else x
    let n := n.mSec fun s => { s with
      lastWrite := s.lastWrite + jump
      unlockAt := s.unlockAt + jump
      act := s.act.map fun a => { a with boundary := later a.boundary }
      notice := s.notice.map fun x => (x.1, later x.2) }
    let n := n.mPwr fun p => { p with t0 := p.t0 + jump }
    let n := n.mSolv fun s => { s with slots := s.slots.map fun (i, x) =>
      (i, { x with job := x.job.map fun j => { j with start := j.start + jump, deadline := j.deadline + jump } }) }
    let n := n.stepOne (n.timeBody 2 (intBits 32 k))
    (n.stepSyncs).correct rem

/-- A slew reaches its limit and the next stage begins (Table 5.2). -/
def slewEnd (n : Node) : Node :=
  let neg := decide (n.rtc.slewRem < 0)
  let at' (x : Int) : Int := if neg then -x else x
  if n.rtc.slewing = 0 then n
  else if n.rtc.slewing = 1 then
    (n.retime fun r => { r with slewing := 0, slewRem := 0, offset := at' 10 }).reachTracking
  else ((n.mRtc fun r => { r with offset := at' 1000 }).correct (at' 1000)).relock

/-- R466: as if the ring had no reference. -/
def noReference (n : Node) : Node := (n.mRtc fun r => { r with tracked := false }).settleTrust

/-- R465, R466: what a TIME frame of the reference tells: the offset d, a step announced, LEAP_CNT. -/
def timeFrom (n : Node) (d : Int) (f : TimeFrame) : Node :=
  let n := n.mRtc fun r => { r with
    offset := d
    tracked := true
    leapPend := if f.leapCnt = r.leap then r.leapPend else some f.leapCnt }
  if f.stepPending && n.rtc.stepPend.isNone && decide (0 < f.step) then
    (n.retime fun r => { r with stepPend := some (f.step, epochAfter r.now 1), slewRem := 0, slewing := 0 }).settleTrust
  else if n.rtc.stepPend.isSome then n
  else if -10 ≤ d ∧ d ≤ 10 then (n.correct d).retrim
  else n.correct d

end Node

/-- RTC_CTRL.HALT written 1 (R190). -/
def execRtcHaltSet (s : State) : Host.Outcome State Fault Refusal := s.run Node.haltSet

/-- RTC_CTRL.HALT written 0 (R190). -/
def execRtcHaltClear (s : State) : Host.Outcome State Fault Refusal := s.run Node.haltClear

/-- HALT held for 100 ms (Table 5.3). -/
def execHaltTimeout (s : State) : Host.Outcome State Fault Refusal := s.run Node.haltTimeout

/-- A write of LEAP_CNT (R192). -/
def execLeapCntWrite (v : BitVec 8) (s : State) : Host.Outcome State Fault Refusal := s.run fun n => n.leapWrite v.toNat

/-- LEAP_CNT takes effect at the epoch boundary (R192). -/
def execLeapCntApply (s : State) : Host.Outcome State Fault Refusal := s.run Node.leapApply

/-- A step of whole seconds at its boundary (R185). -/
def execTimeStep (s : State) : Host.Outcome State Fault Refusal := s.run Node.timeStep

/-- A slew stage ends (R184). -/
def execSlewEnd (s : State) : Host.Outcome State Fault Refusal := s.run Node.slewEnd

/-- The AON store falls below 1.9 V (R181). -/
def execLowBattery (s : State) : Host.Outcome State Fault Refusal :=
  s.run fun n => n.mRtc fun r => { r with lbv := true, storeLow := true }

end Sys2Proof.Machine
end

