-- ==== Sys2Proof/Machine/Pair.lean ====
section
/-! DEFINITION. Pairing (16): the epoch state and its copy, roles, the takeover query, taking duty, demotion, handover and notices. -/

namespace Sys2Proof.Machine

/-- A tick tag: node time divided by 50,000 µs, low 32 bits (R489). -/
def tagOf (t : Nat) : Nat := t / 50000 % 2 ^ 32

/-- `k` bytes of a byte list at offset `o`, as a number. -/
def rd (l : List Byte) (o k : Nat) : Nat := leNat ((l.drop o).take k)

/-- The first `k` words of a list, short ones filled with zeros. -/
def wordsOf (k : Nat) (l : List B64) : List B64 := (l ++ List.replicate k 0).take k

namespace Node

def pairFlag (n : Node) (i : Nat) : Node := n.mPair fun q => { q with flags := setBit q.flags i }
def partnerStatus (n : Node) : Option StatusFrame := n.partner.bind n.peerStatus
def partnerRole (n : Node) : Option Nat := if n.inView then n.partnerStatus.map (·.role) else none

/-- A member without duty changes no role in Hold-up (Table 16.5); it leaves the ring at parking. -/
def roleHeld (n : Node) : Bool := n.pwr.mode == .holdup && n.pair.role != 4

/-- The tick that a tag names: the latest one not after now. -/
def fullTick (n : Node) (tag : Nat) : Nat :=
  let k := n.now / 50000
  k - (k + (2 ^ 32 - tag % 2 ^ 32)) % 2 ^ 32

/-! The epoch state (R490, Table 16.3). -/

def statePoints (n : Node) : List Nat := sortBy id (n.points.map (·.num))
def stateGroups (n : Node) : List Nat := sortBy id (n.groups.map (·.num))
def stateTmpls (n : Node) : List TemplateCfg := sortBy (·.num) (n.templates.filter (! ·.host))

def pointBytes (s : PointSt) : List Byte :=
  leBytes 1 s.st ++
    leBytes 1 (b2n s.latched + 2 * b2n s.r + 4 * b2n s.f + 8 * b2n s.supp + 16 * b2n (s.running && s.f)) ++
    leBytes 3 s.cnt ++ leBytes 3 s.hold ++ leBytes 3 s.shelf ++ leBytes 5 (s.runStart / 50000)

def groupBytes (s : GrpSt) : List Byte :=
  leBytes 1 (b2n s.foValid + 2 * b2n s.armed) ++ [0] ++ leBytes 2 s.captured ++ leBytes 4 (tagOf s.foTime)

def ladderBytes (s : LadderSt) : List Byte := leBytes 1 s.rung ++ leBytes 1 (b2n s.shortened) ++ leBytes 2 s.repeats ++ leBytes 4 s.timer

/-- The value in force of a tunable. -/
def tuneNow (n : Node) (cell item : Nat) : B64 := match n.point cell with | some p => n.inForce p item | none => 0

def tuneBytes (n : Node) (t : TuneCfg) : List Byte :=
  let pend := n.fab.tunePend.find? fun x => x.cell == t.cell && x.item == t.item
  leBytes 2 t.cell ++ leBytes 1 t.item ++ leBytes 1 (b2n pend.isSome) ++ leBytes 8 (n.tuneNow t.cell t.item).toNat ++
    leBytes 8 (pend.elim 0 (·.value.toNat))

/-- The words of a carry base that the state holds: x, and P for KUPD (R384). -/
def baseWords (t : TemplateCfg) : Nat := t.n + (if t.op = 9 then t.n * t.n else 0)

def templateBytes (t : TemplateCfg) (s : TmplSt) : List Byte :=
  leBytes 1 (b2n s.fault + 2 * b2n s.carrying + 4 * b2n s.committed.isSome) ++ leBytes 1 s.carryCnt ++ leBytes 6 0 ++
    (List.range t.b).flatMap fun i =>
      (wordsOf t.n ((s.committed.getD []).getD i []) ++ wordsOf (baseWords t) ((s.base.getD []).getD i [])).flatMap
        fun w => leBytes 8 w.toNat

def headBytes (n : Node) : List Byte :=
  leBytes 4 (tagOf n.tickTime) ++ leBytes 6 n.jrnl.last ++ leBytes 1 n.call.duty ++ leBytes 1 n.call.present.toNat ++
    leBytes 1 n.call.dmState ++ leBytes 3 n.call.dmTimer ++ leBytes 4 n.fab.tick ++ leBytes 12 0

def epochState (n : Node) : List Byte :=
  n.headBytes ++ n.statePoints.flatMap (fun p => pointBytes (n.pointSt p)) ++
    n.stateGroups.flatMap (fun g => groupBytes (n.grpSt g)) ++
    n.ladders.flatMap (fun l => ladderBytes (n.ladderSt l.num)) ++ n.tunes.flatMap n.tuneBytes ++
    n.stateTmpls.flatMap fun t => templateBytes t (n.tmplSt t.num)

/-! Reading it back. -/

def pointFrom (s : PointSt) (l : List Byte) (o : Nat) : PointSt :=
  let b := rd l (o + 1) 1
  let r := natBit b 1
  let f := natBit b 2
  let supp := natBit b 3
  { s with
    st := rd l o 1
    latched := natBit b 0
    r := r
    f := f
    supp := supp
    running := natBit b 4 || (r && !f && !supp)
    cnt := rd l (o + 2) 3
    hold := rd l (o + 5) 3
    shelf := rd l (o + 8) 3
    runStart := rd l (o + 11) 5 * 50000
    prev := rd l o 1
    shelfSet := false
    restore := 0
    mustRecord := false }

def loadPoints (n : Node) (l : List Byte) (o : Nat) : Node :=
  n.statePoints.zipIdx.foldl (fun n (p, i) => n.setPoint p (pointFrom (n.pointSt p) l (o + 16 * i))) n

def loadGroups (n : Node) (l : List Byte) (o : Nat) : Node :=
  n.stateGroups.zipIdx.foldl (fun n (g, i) =>
    let b := rd l (o + 8 * i) 1
    n.setGrp g (n.groupOutputs { n.grpSt g with
      foValid := natBit b 0
      armed := natBit b 1
      captured := rd l (o + 8 * i + 2) 2
      foTime := if natBit b 0 then n.fullTick (rd l (o + 8 * i + 4) 4) * 50000 else 0 } (n.members g))) n

def loadLadders (n : Node) (l : List Byte) (o : Nat) : Node :=
  n.ladders.zipIdx.foldl (fun n (c, i) =>
    n.setLadder c.num { n.ladderSt c.num with
      rung := rd l (o + 8 * i) 1
      shortened := rd l (o + 8 * i + 1) 1 != 0
      repeats := rd l (o + 8 * i + 2) 2
      timer := rd l (o + 8 * i + 4) 4 }) n

/-- The tunables: the applied values and the writes that wait. -/
def loadTunes (n : Node) (l : List Byte) (o : Nat) : Node :=
  n.tunes.zipIdx.foldl (fun n (t, i) =>
    let at' := o + 20 * i
    let v := BitVec.ofNat 64 (rd l (at' + 4) 8)
    let pend := if natBit (rd l (at' + 3) 1) 0 then [⟨t.cell, t.item, BitVec.ofNat 64 (rd l (at' + 12) 8)⟩] else []
    n.mFab fun f => { f with
      tuned := if v = n.tuneNow t.cell t.item then f.tuned else tset none f.tuned (tuneKey t.cell t.item) (some v)
      tunePend := f.tunePend ++ pend }) (n.mFab fun f => { f with tunePend := [] })

/-- The last tick before `k` that invoked a template (12 R369). -/
def lastInvoked (t : TemplateCfg) (k : Nat) : Nat :=
  let p := max 1 t.period
  k - 1 - (k - 1 + p - t.phase % p) % p

/-- A template's state from its bytes; its output values and their timestamp are those of its last invocation before the tick of the
state (log entry 20). -/
def templateFrom (t : TemplateCfg) (s : TmplSt) (l : List Byte) (o tick : Nat) : TmplSt :=
  let b := rd l o 1
  let w (i : Nat) : B64 := BitVec.ofNat 64 (rd l (o + 8 + 8 * i) 8)
  let per := t.n + baseWords t
  let mat (lo k i : Nat) : List B64 := (List.range k).map fun j => w (per * i + lo + j)
  let warm := natBit b 2
  let pub := warm || natBit b 1
  let base := (List.range t.b).map (mat t.n (baseWords t))
  { s with
    fault := natBit b 0
    carrying := natBit b 1
    carryCnt := rd l (o + 1) 1
    committed := if warm then some ((List.range t.b).map (mat 0 t.n)) else none
    base := if pub then some base else none
    published := pub
    okSeen := pub
    elems := if pub then elemsOf t base else []
    ts := if pub then lastInvoked t tick * 50000 else 0 }

def loadTmpls (n : Node) (l : List Byte) (o tick : Nat) : Node :=
  (n.stateTmpls.foldl (fun (a : Node × Nat) t =>
    (a.1.mSolv fun s => { s with tmpl := tset {} s.tmpl t.num (templateFrom t (a.1.tmplSt t.num) l a.2 tick) }, a.2 + templBytes t))
    (n, o)).1

/-- The cells, ladders, watch, roster, tunables and templates as an epoch state gives them. -/
def loadState (n : Node) (l : List Byte) : Node :=
  let oP := 32
  let oG := oP + 16 * n.points.length
  let oL := oG + 8 * n.groups.length
  let oT := oL + 8 * n.ladders.length
  let oS := oT + 20 * n.tunes.length
  let n := n.mCall fun c => { c with
    duty := rd l 10 1
    present := BitVec.ofNat 8 (rd l 11 1)
    dmState := rd l 12 1
    dmTimer := rd l 13 3 }
  let n := n.mFab fun f => { f with tick := rd l 16 4 }
  let n := (((n.loadPoints l oP).loadGroups l oG).loadLadders l oL).loadTunes l oT
  let n := n.loadTmpls l oS (n.fullTick (rd l 0 4))
  n.mFab fun f => { f with shown := f.cells, shownSrc := [] }

/-! The copy, at the duty (R489, R491, R492). -/

/-- Chunks of 1,000 bytes with their indices. -/
def stateChunks (l : List Byte) : List (List Byte × Nat) := (chunks 1000 l.length l).zipIdx

/-- The frames of one copy of the state as it stands. -/
def sendCopy (n : Node) (final handover : Bool) : Node :=
  match n.partner with
  | none => n
  | some p =>
    let l := n.epochState
    let tag := tagOf n.tickTime
    let parts := stateChunks l
    let dst : BitVec 16 := 1#16 <<< p
    let n := parts.foldl (fun n (b, i) => n.sendFrame dst (.epochData final handover tag i parts.length b)) n
    let n := n.sendFrame dst (.epochCommit final handover tag parts.length (BitVec.ofNat 32 (crc32 l)) (BitVec.ofNat 32 n.hashTag)
      n.jrnl.last n.pair.foSeq)
    n.mPair fun q => { q with copy := some ⟨tag, n.jrnl.last, final, handover⟩ }

def isCopyFrame (l : RingLoad) : Bool :=
  match l with
  | .epochData .. => true
  | .epochCommit .. => true
  | _ => false

/-- A copy has ended: the FINAL copy of a Hold-up that waited for it follows, and the end of a FINAL copy ends step 3 (03 R105, R109). -/
def copyEnds (n : Node) : Node :=
  if n.pair.finalDue then (n.mPair fun q => { q with finalDue := false }).sendCopy true false
  else n.mPwr fun p => if p.step = 3 then { p with step := 0 } else p

/-- A copy ends without its commit: abandoned and counted (R492). -/
def copyMissed (n : Node) : Node :=
  if n.pair.copy.isNone then n
  else
    let n := n.mTide fun t => { t with tx := t.tx.filter (! isCopyFrame ·.load), sent := t.sent.filter (! isCopyFrame ·.load) }
    ((n.mPair fun q => { q with copy := none, missed := satInc 0xFF q.missed }).pairFlag 2).copyEnds

/-- R489, R509: at the end of step 7 of a boundary tick the duty copies its state to a partner in VIEW as UNSYNCED or STANDBY. -/
def boundaryCopy (n : Node) : Node :=
  let n := n.copyMissed
  let due := n.pair.role == 4 && (n.partnerRole == some 2 || n.partnerRole == some 3)
  let n := if due then n.sendCopy false n.pair.handover else n
  n.mPair fun q => { q with handover := false }

/-- The ACK of a copy at the duty (R492, R493, R509). -/
def copyAck (n : Node) (result tag : Nat) (confirm : BitVec 32) : Node :=
  let n :=
    match n.sec.act with
    | none => n
    | some a =>
      if confirm.toNat ≠ 0 ∧ confirm.toNat = (n.bankOf a.bank).hash.toNat % 2 ^ 32 then
        n.mSec fun s => { s with act := some { a with confirmed := true } }
      else n
  match n.pair.copy with
  | none => n
  | some c =>
    if c.tag ≠ tag then n
    else if result ≠ 0 then n.copyMissed
    else (n.mPair fun q => { q with
      copy := none
      tag := c.tag
      last := c.last
      demoteDue := if c.handover then 4 else q.demoteDue }).copyEnds

/-! The copy, at the partner (R492 to R494, R503). -/

/-- The notice's confirmation: the inactive bank's hash tag when it is CHECKED and a notice is pending (R493, 02 R77). -/
def confirmation (n : Node) : BitVec 32 :=
  let b := n.bankOf (!n.sec.runB)
  if n.sec.notice.isSome && b.state == 3 then BitVec.ofNat 32 b.hash.toNat else 0

/-- An ACK; one that confirms a notice of the same hash schedules the activation here (R90, R493, 02 R78). -/
def sendAck (n : Node) (result tag : Nat) : Node :=
  match n.partner with
  | none => n
  | some p =>
    let c := n.confirmation
    let same := match n.sec.notice with | some x => x.1 == (n.bankOf (!n.sec.runB)).hash | none => false
    (n.sendFrame (1#16 <<< p) (.epochAck result tag c)).mSec fun s => { s with
      confirmDue := false
      act := if c != 0 && same then some ⟨!s.runB, s.notice.elim 0 (·.2), true⟩ else s.act }

/-- DATA into the inactive buffer. -/
def takeChunk (n : Node) (tag idx : Nat) (bytes : List Byte) : Node :=
  if (n.pair.role = 2 ∨ n.pair.role = 3) ∧ n.pair.query.isNone then
    n.mPair fun q =>
      let old := if q.chunkTag = some tag then q.chunks else []
      { q with chunkTag := some tag, chunks := (old.filter (·.1 != idx)) ++ [(idx, bytes)] }
  else n

/-- The inactive buffer's bytes when every chunk is there. -/
def wholeBuffer (n : Node) (tag count : Nat) : Option (List Byte) :=
  let l := sortBy (fun c : Nat × List Byte => c.1) n.pair.chunks
  if n.pair.chunkTag = some tag ∧ l.map (·.1) = List.range count then some (l.flatMap (·.2)) else none

/-- R494: the persistent items a commit changed go to the own checkpoint region; `m` is the node before. -/
def commitEntries (n m : Node) : Node :=
  let n := n.statePoints.foldl (fun n p =>
    let a := m.pointSt p
    let b := n.pointSt p
    let n := if (a.st == stOutOfService) != (b.st == stOutOfService) then n.ckpt 4 p (b2n (b.st == stOutOfService)) else n
    if a.shelf != b.shelf then n.ckpt 5 p b.shelf else n) n
  let n := n.tunes.zipIdx.foldl (fun n (t, i) =>
    if m.tuneNow t.cell t.item = n.tuneNow t.cell t.item then n else n.ckpt 1 i (n.tuneNow t.cell t.item).toNat) n
  if m.call.duty = n.call.duty ∧ m.call.present = n.call.present then n else n.rosterEntry

/-- R503: own records at or above the partner's FAILOVER are not held. -/
def voidOwn (n : Node) (fo : Nat) : Node :=
  if fo = 0 ∨ n.pair.role ≠ 2 then n
  else
    let mine := (n.flashRecords ++ n.jrnl.ram.map (·.item)).filter fun r => r.node == n.sys.node && decide (fo ≤ r.seq)
    let nums := (mine.map (·.seq)).foldl (fun (a : List Nat) x => if a.contains x then a else x :: a) []
    if nums.isEmpty then n
    else
      let n := n.mJrnl fun j => { j with
        voids := j.voids ++ [(fo, nums.foldl max 0)]
        ram := j.ram.filter fun r => !(r.item.node == n.sys.node && decide (fo ≤ r.item.seq)) }
      n.mPair fun q => { q with voided := min 0xFF (q.voided + nums.length) }

/-- The result of a COMMIT (R492, Table 16.4): 4 late, 2 a chunk missing, 1 CRC wrong, 3 hash tag differs, else 0. -/
def commitResult (n : Node) (final : Bool) (tag count : Nat) (crc hashTag : BitVec 32) : Nat :=
  if !final && n.fullTick tag * 50000 / 1000000 != n.now / 1000000 then 4
  else match n.wholeBuffer tag count with
    | none => 2
    | some l =>
      if crc.toNat ≠ crc32 l then 1
      else if hashTag.toNat ≠ n.hashTag ∨ n.pair.role = 6 then 3
      else 0

/-- COMMIT (R492): the inactive buffer becomes the committed state in one step, or is discarded. One that comes after the query has
begun is ignored (Table 16.5). -/
def takeCommit (n : Node) (final : Bool) (tag count : Nat) (crc hashTag : BitVec 32) (last fo : Nat) : Node :=
  let role := n.pair.role
  if n.pair.query.isSome || n.pair.takeDue.isSome then n
  else if role = 6 then n.sendAck 3 tag
  else if role ≠ 2 ∧ role ≠ 3 then n
  else
    let code := n.commitResult final tag count crc hashTag
    let l := (n.wholeBuffer tag count).getD []
    let n := n.mPair fun q => { q with chunks := [], chunkTag := none }
    if code ≠ 0 then n.sendAck code tag
    else
      let m := n
      let n := ((n.loadState l).commitEntries m).voidOwn fo
      let n := n.mPair fun q => { q with
        role := if m.roleHeld then m.pair.role else 3
        commit := some ⟨tag, last, l⟩
        tag := tag
        last := last
        finalHeld := final
        fo := if fo = 0 then q.fo else fo }
      let n := n.mRtc fun r => { r with steps := r.steps.filter fun x => decide (n.fullTick tag * 50000 < x.1 + x.2) }
      n.sendAck 0 tag

/-- The activation notice at a standby (02 R77): when the epoch's copy is committed already, or none comes in MISMATCH, the confirmation goes at
once (R493). -/
def takeNotice (n : Node) (hash : BitVec 256) (boundary : Nat) : Node :=
  let n := n.mSec fun s => { s with notice := some (hash, boundary), confirmDue := true }
  if n.pair.role = 6 then n.sendAck 3 (n.pair.commit.elim 0 (·.tag))
  else match n.pair.commit with
    | some c => if n.fullTick c.tag * 50000 / 1000000 = n.now / 1000000 then n.sendAck 0 c.tag else n
    | none => n

/-! The query (R495). -/

/-- H: the highest of the own AON value and the replies. -/
def queryHigh (n : Node) (q : Query) : Nat := (q.replies.map (·.2)).foldl max (max n.jrnl.last (tget 0 n.jrnl.heard n.space))

/-- The query ends and the takeover tick is due (R496). -/
def queryEnd (n : Node) : Node :=
  match n.pair.query with
  | none => n
  | some q => n.mPair fun p => { p with query := none, takeDue := some (n.queryHigh q, q.cause) }

/-- Every node in VIEW has replied. -/
def queryCheck (n : Node) : Node :=
  match n.pair.query with
  | none => n
  | some q =>
    if (List.range 16).all fun k => !bit n.tide.view k || k == n.sys.node || q.replies.any (·.1 == k) then n.queryEnd else n

/-- A node about to take duty discards a partial buffer and asks for the highest number (R495, Table 16.5). -/
def queryStart (n : Node) (cause : Nat) : Node :=
  if n.pair.query.isSome || n.pair.takeDue.isSome then n
  else
    let n := n.mPair fun p => { p with query := some ⟨cause, []⟩, chunks := [], chunkTag := none }
    (n.sendFrame allNodes (.highQuery n.space)).queryCheck

def queryReply (n : Node) (src space high : Nat) : Node :=
  match n.pair.query with
  | none => n
  | some q =>
    if space = n.space then
      (n.mPair fun p => { p with query := some { q with replies := (q.replies.filter (·.1 != src)) ++ [(src, high)] } }).queryCheck
    else n

/-! Roles (Table 16.1). -/

def setRole (n : Node) (r : Nat) : Node :=
  (n.mPair fun q => { q with role := r }).mFab fun f => { f with role := if r = 0 ∨ r = 4 then 1 else 2 }

/-- The partner's number is missing from two consecutive VIEWs (R484). -/
def partnerAbsent (n : Node) : Bool := decide (2 ≤ n.pair.absent)

/-- The partner's last STATUS names another hash. -/
def hashDiffers (n : Node) : Bool := n.inView && n.partnerStatus.any fun s => s.hashTag.toNat != n.hashTag

/-- The moves that a VIEW or a STATUS can make (Table 16.1). -/
def roleMoves (n : Node) : Node :=
  if !n.paired || n.tide.st != .inserted || n.roleHeld then n
  else
    match n.pair.role with
    | 1 =>
      if !n.tide.viewStable then n
      else if n.partnerRole == some 4 then
        (n.setRole 2).mPair fun q => { q with commit := none, query := none, takeDue := none }
      else if n.majority && (n.partnerAbsent || (n.partnerRole == some 1 && n.partner.any fun p => decide (n.sys.node < p))) then
        n.queryStart 0
      else n
    | 2 =>
      if n.hashDiffers then (n.setRole 6).pairFlag 3
      else if n.majority && n.partnerAbsent then n.queryStart 1
      else n
    | 3 =>
      if n.hashDiffers then (n.setRole 6).pairFlag 3
      else if n.majority && n.partnerAbsent then n.queryStart 1
      else n
    | 5 => if n.tide.viewStable then n.setRole 1 else n
    | 6 =>
      if n.majority && n.partnerAbsent then n.queryStart 1
      else if n.inView && n.partnerStatus.isSome && !n.hashDiffers then (n.setRole 2).mPair fun q => { q with commit := none }
      else n
    | _ => n

/-- A DEMOTE record of the partner is a trigger to take duty. -/
def partnerDemoted (n : Node) : Node :=
  if (n.pair.role = 2 ∨ n.pair.role = 3) ∧ n.majority ∧ !n.roleHeld then n.queryStart 2 else n

/-! Demotion (R504 to R507). -/

/-- The DEMOTE record (R506): the numbers issued since the majority was last held. -/
def demoteBody (n : Node) (cause : Nat) : RecBody :=
  let first := match n.pair.noMajFirst with
    | some f => if f < n.jrnl.nextSeq then f else n.jrnl.nextSeq
    | none => n.jrnl.nextSeq
  ⟨0x41, n.sys.node, cause, 0, leBytes 6 first ++ leBytes 4 (n.jrnl.nextSeq - first)⟩

/-- DEMOTE is issued and handed to the networks while the ports still send; the ring takes it at the tick's step 7, when the node is still
inserted. -/
def issueDemote (n : Node) (cause : Nat) : Node :=
  if n.coreHeld || n.clk.core.clamp then n
  else
    let had := n.jrnl.tickRecs.length
    let n := n.issueNow (n.demoteBody cause)
    let n := n.extTake (n.jrnl.tickRecs.drop had)
    if n.tide.st == .inserted then n else n.mJrnl fun j => { j with tickRecs := j.tickRecs.take had }

/-- The duty demotes: DEMOTE as its last record, unless its CORE is clamped or held, then OUT, or UNSYNCED after a handover. -/
def demoteNow (n : Node) (cause : Nat) : Node :=
  if n.pair.role ≠ 4 then n
  else
    let n := n.issueDemote cause
    let n := (n.setRole (if cause = 4 then 2 else 5)).pairFlag 1
    let n := n.mPair fun q => { q with
      demotes := satInc 0xFF q.demotes
      demoteDue := 0
      copy := none
      commit := none
      handover := false
      finalDue := false
      noMajFirst := none
      foSeq := 0 }
    let n := n.mFab fun f => { f with queue := [], shownSrc := [] }
    let left := n.jrnl.firstRecs ++ n.jrnl.due
    let n := n.mJrnl fun j => { j with due := [], gaps := [], firstRecs := [] }
    (left.foldl notify n).portsFollow

/-- The cause of a demotion that holds now, 0 for none (R504). -/
def demoteCause (n : Node) : Nat :=
  if n.pair.role ≠ 4 then 0
  else if n.tide.st ≠ .inserted then 1
  else if 20 ≤ n.pair.noMaj then 2
  else if n.partnerRole = some 4 ∧ (n.partner.any fun p => decide (p < n.sys.node)) then 3
  else n.pair.demoteDue

/-- R506: a VIEW without a majority sets the first number issued after it. -/
def viewMajority (n : Node) : Node :=
  if !n.paired then n
  else n.mPair fun q => { q with noMajFirst := if n.majority then none else some (q.noMajFirst.getD n.jrnl.nextSeq) }

/-- One rotation without a majority VIEW, or with one (R504, R506). -/
def countMajority (n : Node) (held : Bool) : Node :=
  if !n.paired then n
  else n.mPair fun q =>
    if held then { q with noMaj := 0, noMajFirst := none }
    else { q with noMaj := satInc 0xFF q.noMaj, noMajFirst := some (q.noMajFirst.getD n.jrnl.nextSeq) }

/-! Taking duty (R496 to R502). -/

/-- The numbers up to `hi` that the node does not hold, as runs, from the number after `lo` (R497; numbers below the oldest it holds are
not named, log entry 21). -/
def missingRuns (n : Node) (lo hi : Nat) : List GapDue :=
  let held := sortBy id ((n.heldNums.filter fun q => decide (lo < q) && decide (q ≤ hi)))
  let (next, runs) := held.foldl (fun (a : Nat × List GapDue) q =>
    if q < a.1 then a
    else (q + 1, if q = a.1 then a.2 else a.2 ++ [⟨4, a.1, q - a.1⟩])) (lo + 1, [])
  if next ≤ hi then runs ++ [⟨4, next, hi + 1 - next⟩] else runs

/-- An ALARM record replayed (R500). -/
def replayAlarm (n : Node) (r : Record) : Node :=
  if (n.point r.source).isNone then n
  else
    let s := n.pointSt r.source
    let b := (r.detail.getD 1 0).toNat
    n.setPoint r.source { s with
      st := r.new
      prev := r.new
      latched := natBit b 0
      f := r.new == stActUnack || r.new == stActAck
      shelf := if r.new = stShelved then s.shelf else 0
      cnt := 0
      hold := 0
      running := false
      supp := natBit b 2 }

/-- A COMMAND record with outcome EFFECT replayed: SHELVE with its argument, FO_RESET and CALL_ACK. -/
def replayCommand (n : Node) (r : Record) : Node :=
  let op := (r.detail.getD 0 0).toNat
  let arg := rd r.detail 7 3
  if r.detail.getD 1 0 ≠ 0 then n
  else if op = 3 then
    match n.point r.source with
    | some c => let s := shelvePoint c arg (n.pointSt r.source); n.setPoint r.source { s with shelfSet := false }
    | none => n
  else if op = 8 then n.setGrp r.source (rearm (n.grpSt r.source))
  else if op = 0x11 then n.setLadder r.source { n.ladderSt r.source with rung := 0, timer := 0, shortened := false }
  else n

/-- A CALL record replayed: a ladder's rung and timer, the watch, the roster. -/
def replayCall (n : Node) (r : Record) : Node :=
  let ev := (r.detail.getD 0 0).toNat
  if r.source = 0x00FE then
    if r.detail.getD 2 0 = 0 then n.mCall fun c => { c with duty := r.new } else n.mCall fun c => { c with present := BitVec.ofNat 8 r.new }
  else if r.source = 0x00FF then
    let w := n.watch
    n.mCall fun c => { c with
      dmState := r.new
      dmTimer := if r.new = 1 then w.elim 0 (·.period * 20) else if r.new = 2 then w.elim 0 (·.warn * 20) else 0 }
  else match n.ladder r.source with
    | none => n
    | some c =>
      let s := n.ladderSt r.source
      let short := r.detail.getD 1 0 != 0
      let full := (c.rungs.getD (r.new - 1) ⟨[], 0⟩).timer
      if ev = 3 then n.setLadder r.source { s with rung := 0, timer := 0, shortened := false }
      else n.setLadder r.source { s with
        rung := r.new
        timer := if short then min full 600 else full
        shortened := short
        repeats := if ev = 2 then satInc 0xFFF s.repeats else if r.new = 1 then 0 else s.repeats }

/-- One record of the space above the committed state (R500). -/
def replayRecord (n : Node) (r : Record) : Node :=
  match r.type with
  | 0x01 => n.replayAlarm r
  | 0x02 => n.replayCommand r
  | 0x03 =>
    n.setGrp r.source { n.grpSt r.source with foValid := true, armed := false, captured := rd r.detail 0 2, foTime := r.time }
  | 0x04 => n.replayCall r
  | 0x10 =>
    if r.old = 6 then
      let item := r.new / 4
      n.mFab fun f => { f with
        tuned := tset none f.tuned (tuneKey r.source item)
          (some (if 4 ≤ item then BitVec.ofNat 64 (rd r.detail 2 4) else BitVec.ofNat 64 (rd r.detail 2 8)))
        tunePend := f.tunePend.filter fun x => !(x.cell == r.source && x.item == item) }
    else n
  | _ => n

/-- The tick each item's state was last taken from: a replayed record's, else the committed state's. -/
def itemTime (recs : List Record) (committed : Nat) (f : Record → Bool) : Nat :=
  ((recs.filter f).map (·.time)).foldl (fun a t => max a t) committed

/-- A count-up stops one below its limit, a count-down at 1 (R501). -/
def countUp (lim d c : Nat) : Nat := if c + d < lim then c + d else max c (lim - 1)
def countDown (d c : Nat) : Nat := if c = 0 then 0 else max 1 (c - d)

/-- Tick boundaries strictly between two ticks, less those that steps passed over (05 R185, R186). -/
def ticksBetween (steps : List (Nat × Nat)) (a b : Nat) : Nat :=
  let passed := (steps.filter fun x => decide (a ≤ x.1) && decide (x.1 + x.2 ≤ b)).map (·.2)
  b / 50000 - a / 50000 - 1 - passed.foldl (· + ·) 0 / 50000

/-- R501: the counters advance to the takeover tick. -/
def advanceItems (n : Node) (recs : List Record) (committed tick : Nat) : Node :=
  let since (f : Record → Bool) : Nat := ticksBetween n.rtc.steps (itemTime recs committed f) tick
  let n := n.points.foldl (fun n c =>
    let s := n.pointSt c.num
    let d := since fun r => (r.type == 0x01 || (r.type == 0x02 && r.detail.getD 0 0 == 3)) && r.source == c.num
    n.setPoint c.num { s with
      cnt := if s.running then countUp (n.ticksOf c (if s.f then 5 else 4)) d s.cnt else s.cnt
      hold := countDown d s.hold
      shelf := if s.st = stShelved then countDown d s.shelf else s.shelf }) n
  let n := n.ladders.foldl (fun n c =>
    let s := n.ladderSt c.num
    let d := since fun r => r.type == 0x04 && r.source == c.num
    if s.rung = 0 then n else n.setLadder c.num { s with timer := countDown d s.timer }) n
  let d := since fun r => r.type == 0x04 && r.source == 0x00FF
  if n.call.dmState = 1 ∨ n.call.dmState = 2 then n.mCall fun c => { c with dmTimer := countDown d c.dmTimer } else n

/-- The records to replay: those of the space held above the committed state's last SEQ, in order. -/
def replayList (n : Node) (above : Nat) : List Record :=
  let l := (n.flashRecords ++ n.jrnl.ram.map (·.item)).filter fun r => r.space == n.space && decide (above < r.seq)
  (sortBy (·.seq) l).foldl (fun (a : List Record) r => if a.any (·.seq == r.seq) then a else a ++ [r]) []

/-- The FAILOVER record (R499). -/
def failoverBody (n : Node) (cause : Nat) (c : Option Commit) : RecBody :=
  ⟨0x40, n.partner.getD 0, cause, b2n c.isSome, leBytes 4 (c.elim 0 (·.tag)) ++ leBytes 6 (c.elim 0 (·.last))⟩

/-- Duty is taken in the takeover tick, before its step 2 (R496 to R502): the state is replayed and advanced to the tick, the numbering
goes on, and the node's held notices wait as its own records. -/
def takeDuty (n : Node) (high cause tick : Nat) : Node :=
  let c := if n.pair.role = 2 ∨ n.pair.role = 3 then n.pair.commit else none
  let n :=
    match c with
    | some k =>
      let recs := n.replayList k.last
      let n := recs.foldl replayRecord n
      (n.advanceItems recs (n.fullTick k.tag * 50000) tick).mCall fun q => { q with fresh := true }
    | none => n.startFabric
  let held := n.pair.notices
  let own := n.jrnl.last
  let por := n.pwr.cause == 1 && n.pair.takeovers == 0
  let n := (n.setRole 4).mPair fun q => { q with
    takeDue := none
    query := none
    notices := []
    commit := none
    chunks := []
    chunkTag := none
    noMaj := 0
    noMajFirst := none
    finalHeld := false
    takeovers := satInc 0xFF q.takeovers }
  let n := n.pairFlag 0
  if cause = 0 then
    let (first, gaps, era) := n.numbering por
    let fo := if own < high then n.missingRuns own high else []
    let n := n.mJrnl fun j => { j with
      nextSeq := max first (high + 1)
      startGaps := gaps ++ fo
      startDue := true
      firstRecs := j.firstRecs ++ held.filter (·.type != 0x52) }
    match era with | some e => n.openEra e | none => n
  else
    let runs := n.missingRuns (n.oldestHeld - 1) high
    let n := n.mJrnl fun j => { j with nextSeq := high + 1, startDue := false, startGaps := [] }
    let n := (n.issueNow (n.failoverBody cause c)).mPair fun q => { q with fo := high + 1, foSeq := high + 1 }
    let n := runs.foldl issueGap n
    let cancelled := n.sec.notice.isSome && !n.sec.act.isSome
    let n := if cancelled then (n.issueNow (n.configBody 0 2 0xFF [])).mSec fun s => { s with notice := none, confirmDue := false } else n
    held.foldl (fun n b => if b.type = 0x52 then n else n.issueNow b) n

/-! Commands. -/

def pairRefused (n : Node) (code : Nat) : Node := (n.mPair fun q => { q with cmdResult := code }).pairFlag 4

/-- PAIR_CMD (R509, Table 16.6). -/
def pairCommand (n : Node) (op : Nat) : Node :=
  if op ≠ 1 then n.pairRefused 4
  else if !n.sec.maint then n.pairRefused 1
  else if n.pair.role ≠ 4 then n.pairRefused 2
  else if n.partnerRole ≠ some 3 then n.pairRefused 3
  else if n.pair.handover || n.pair.copy.any (·.handover) || n.pair.demoteDue == 4 then n.pairRefused 5
  else n.mPair fun q => { q with cmdResult := 0, handover := true }

/-- A notice that reaches the duty waits for the end of step 6 of its next tick (R488). -/
def noticeIn (n : Node) (b : RecBody) : Node :=
  if n.pair.role = 4 then n.mPair fun q => { q with received := q.received ++ [{ b with source := b.source % 32768 + 32768 }] } else n

/-- Held notices go to a partner that has become DUTY (R488). -/
def sendNotices (n : Node) : Node :=
  if n.partnerDuty && n.tide.st == .inserted && !n.pair.notices.isEmpty then
    match n.partner with
    | none => n
    | some p =>
      let l := n.pair.notices
      let n := n.mPair fun q => { q with notices := [] }
      l.foldl (fun n b => n.sendFrame (1#16 <<< p) (.command (.notice b))) n
  else n

end Node

end Sys2Proof.Machine
end

