-- ==== Sys2Proof/Machine/Tide.lean ====
section
/-! DEFINITION. The Tideline ring (15): links, frames out and in, the token, the view, insertion and healing; and the meanings of its
commands and of the EPOCH frames of 16. -/

namespace Sys2Proof.Machine

/-- The payload size of a frame (Table 15.2, 16 Table 16.4). The manual gives a COMMAND frame no size: 0 (log entry 23). -/
def frameSize : RingLoad → Nat
  | .token _ => 16
  | .claim _ => 4
  | .status _ => 16
  | .time _ => 24
  | .drop _ => 2
  | .splice _ _ => 4
  | .records l => 32 * l.length
  | .command _ => 0
  | .epochData _ _ _ _ _ b => 24 + b.length
  | .epochCommit .. => 28
  | .epochAck .. => 10
  | .highQuery _ => 2
  | .highReply _ _ => 8

/-- Line time and gap of a frame in 0.1 µs (R454). -/
def lineTime (p : Nat) : Nat := (28 + p) * 4 + 20

/-- It fits when it ends, with its gap, 80 µs before the end of the hold (R458, R459's example). -/
def fitsHold (p budget : Nat) : Bool := decide (lineTime p + 800 ≤ budget)

/-- The order of frames within a hold (R459). -/
def frameRank (f : RingFrame) : Nat :=
  if f.retry ≠ 0 then 0
  else match f.load with
    | .status _ => 1
    | .time _ => 2
    | .records _ => 4
    | .command _ => 5
    | .epochData .. => 6
    | .epochCommit .. => 6
    | .epochAck .. => 6
    | .highQuery _ => 6
    | .highReply _ _ => 6
    | _ => 3

/-- The records that a frame of a hold can take (R454, R459). -/
def recordsFit (budget have' : Nat) : Nat := min (min 32 have') ((budget - 932) / 128)

/-- `m` comes before `q` modulo 65,536. -/
def fseqBefore (m q : Nat) : Bool := m != q && decide ((q + 65536 - m) % 65536 < 32768)

namespace Node

def tideFlag (n : Node) (i : Nat) : Node := n.mTide fun t => { t with flags := setBit t.flags i }
def peer (n : Node) (k : Nat) : Peer := tget {} n.tide.peers k
def setPeer (n : Node) (k : Nat) (p : Peer) : Node := n.mTide fun t => { t with peers := tset {} t.peers k p }
def link (n : Node) (rp : RingPort) : LinkSt := match rp with | .ta => n.tide.ta | .tb => n.tide.tb
def setLink (n : Node) (rp : RingPort) (l : LinkSt) : Node :=
  n.mTide fun t => match rp with | .ta => { t with ta := l } | .tb => { t with tb := l }
def wrapped (n : Node) (rp : RingPort) : Bool := match rp with | .ta => n.tide.wrapA | .tb => n.tide.wrapB
def setWrap (n : Node) (rp : RingPort) (v : Bool) : Node :=
  n.mTide fun t => match rp with | .ta => { t with wrapA := v } | .tb => { t with wrapB := v }
def portCode (rp : RingPort) : Nat := match rp with | .ta => 1 | .tb => 2
def ownBit (n : Node) : BitVec 16 := 1#16 <<< n.sys.node
def inserted (n : Node) : Bool := n.tide.st == .inserted
def clearLine (n : Node) : Node := n.mTide fun t => { t with line := [] }

/-- R481: the RING record of an event at the issuer. -/
def ringRecord (n : Node) (source event : Nat) (old new : BitVec 16) (other : Nat) : Node :=
  if n.issuer then
    n.later ⟨0x42, source, 0, event,
      leBytes 2 old.toNat ++ leBytes 2 new.toNat ++ leBytes 1 other ++ [0] ++ leBytes 4 n.tideStat.toNat⟩
  else n

def ringEvent (n : Node) (source event other : Nat) : Node := n.ringRecord source event n.tide.view n.tide.view other

/-! Sending (R458 to R460). -/

/-- Frames go on the line, or wait while the transmitters hold idle (04 R154). -/
def ringOut (n : Node) (l : List RingFrame) : Node :=
  n.mTide fun t => if n.txIdle then { t with wait := t.wait ++ l } else { t with line := t.line ++ l }

/-- A frame goes on the ring: a new one takes the next FSEQ. It waits for its return, unless both ports are wrapped and the node is the
whole ring. -/
def putFrame (n : Node) (f : RingFrame) : Node :=
  let new := f.retry = 0
  let g : RingFrame := { f with fseq := if new then n.tide.fseq else f.fseq }
  let n := n.mTide fun t => { t with
    fseq := if new then (t.fseq + 1) % 65536 else t.fseq
    sent := if t.wrapA && t.wrapB then t.sent else t.sent ++ [g]
    budget := t.budget - lineTime (frameSize f.load) }
  n.ringOut [g]

/-- Frames are sent in the order of R459 while they fit; `fuel` bounds their number. -/
def pumpFrames : Nat → Node → Node
  | 0, n => n
  | fuel + 1, n =>
    let t := n.tide
    let first := (sortBy frameRank t.tx).head?
    let recsNow := !t.recs.isEmpty && (match first with | some f => decide (4 < frameRank f) | none => true)
    if recsNow then
      let k := recordsFit t.budget t.recs.length
      if k = 0 then n
      else
        let n := n.mTide fun t => { t with recs := t.recs.drop k }
        pumpFrames fuel (n.putFrame ⟨0, 0, allNodes, .records (t.recs.take k)⟩)
    else match first with
      | none => n
      | some f =>
        if fitsHold (frameSize f.load) t.budget then
          let n := n.mTide fun t => { t with tx := t.tx.erase f }
          pumpFrames fuel (n.putFrame f)
        else n

def pump (n : Node) : Node :=
  if n.tide.hold.isSome then pumpFrames (n.tide.tx.length + n.tide.recs.length) n else n

/-- The records of a tick join the current hold if they fit, and otherwise the next (R459). -/
def handRecords (n : Node) (l : List Record) : Node :=
  if n.inserted then (n.mTide fun t => { t with recs := t.recs ++ l }).pump else n

/-- Step 7 of the tick: its records go to the ring and the networks; the journal has them already (01 Table 1.2, 14 R435). -/
def handOver (n : Node) : Node :=
  let l := n.jrnl.tickRecs
  ((n.mJrnl fun j => { j with tickRecs := [] }).handRecords l).extTake l

/-- The own STATUS (Table 15.2). -/
def ownStatus (n : Node) : StatusFrame :=
  ⟨ringCode n.tide.st, n.rtc.trust, n.ringCfg.any (·.refEligible), n.tide.lowerRing, n.pair.role, BitVec.ofNat 32 n.hashTag, n.memberSet⟩

/-- The reference's TIME: node time stands still between the model's commands, so the frame starts at a whole µs (log entry 22). A step is
announced in the epoch before its boundary (05 R188). -/
def ownTime (n : Node) : TimeFrame :=
  let step : Int := match n.rtc.stepPend with
    | some (k, b) => if b ≤ epochAfter n.now 1 then k else 0
    | none => 0
  ⟨n.now, 0, 0, step != 0, n.rtc.leapPend.getD n.rtc.leap, step⟩

def isOwnReport (f : RingFrame) : Bool :=
  f.retry == 0 && match f.load with
    | .status _ => true
    | .time _ => true
    | _ => false

/-- A hold starts (R458): STATUS, TIME on the reference, then what waits. -/
def holdStart (n : Node) (tk : TokenFrame) : Node :=
  let hold := match n.ringCfg with | some c => c.hold * 100 | none => 0
  let time : List RingFrame := if n.rtc.reference then [⟨0, 0, allNodes, .time n.ownTime⟩] else []
  let reports : List RingFrame := ⟨0, 0, allNodes, .status n.ownStatus⟩ :: time
  (n.mTide fun t => { t with
    hold := some { tk with visited := tk.visited ||| n.ownBit }
    budget := hold
    tx := (t.tx.filter (! isOwnReport ·)) ++ reports }).pump

/-! The reference (R464, 05 R183). -/

def refTrust (n : Node) (k : Nat) : Nat := if k = n.sys.node then n.rtc.trust else (n.peerStatus k).elim 0 (·.trust)
def refEligible (n : Node) (k : Nat) : Bool :=
  bit n.tide.view k &&
    (if k = n.sys.node then n.inserted && n.ringCfg.any (·.refEligible) else (n.peerStatus k).any (·.refEligible))
def refChoice (n : Node) : Option Nat :=
  let live := (List.range 16).filter n.refEligible
  (live.find? fun k => n.refTrust k == 1 || n.refTrust k == 2).orElse fun _ => live.head?

/-- Against a new reference nothing is measured yet; without one the time is in HOLDOVER (05 Table 5.1). -/
def chooseRef (n : Node) : Node :=
  match n.refChoice with
  | none => (n.mRtc fun r => { r with reference := false, tracked := false }).settleTrust
  | some k =>
    let own := k == n.sys.node
    let same := k == n.tide.refNode
    let n := n.mTide fun t => { t with refNode := k }
    (n.mRtc fun r => { r with reference := own, tracked := r.tracked && same && !own }).settleTrust

/-! Links, wraps and leaving (R452, R473, R467). -/

/-- A port wraps, with its record. -/
def wrapPort (n : Node) (rp : RingPort) : Node :=
  if n.wrapped rp then n
  else
    let n := (n.setWrap rp true).mTide fun t => { t with wraps := satInc 0xFF t.wraps }
    (n.tideFlag 1).ringEvent (portCode rp) 3 (n.link rp).neighbour

def unwrapPort (n : Node) (rp : RingPort) : Node :=
  if n.wrapped rp then (n.setWrap rp false).ringEvent (portCode rp) 4 (n.link rp).neighbour else n

/-- The node stops taking part: it sends nothing but beacons, and forgets the token and what waited for it. A duty demotes at once (16
R504); a query ends. -/
def leaveRing (n : Node) (st : RingSt) (event : Nat) : Node :=
  let was := n.inserted
  let n := n.mTide fun t => { t with
    st := st
    master := false
    hold := none
    kept := none
    tx := []
    recs := []
    sent := []
    wait := []
    wrapA := false
    wrapB := false
    viewStable := false
    splicePend := none
    restorePend := none
    insertReq := false
    listenRot := 0
    silent := 0
    genSeen := false
    lowerRing := false
    dissolve := false
    claiming := false
    tokenSeen := false
    lastToken := none
    spliceFor := none }
  let n := n.mRtc fun r => { r with reference := false, tracked := false }
  let n := n.settleTrust
  if was then
    let n := n.ringEvent 0 event 0
    let n := n.mPair fun q => { q with query := none, takeDue := none }
    n.demoteNow 1
  else n

/-- A link goes DOWN (R452, R473): its port wraps; with both links DOWN an inserted node leaves (Table 15.3). -/
def linkFails (n : Node) (rp : RingPort) : Node :=
  let l := n.link rp
  let n := n.setLink rp { l with rxOk := false, txOk := false, insertReq := false, up := false, wasDown := true, samples := [] }
  if !l.up then n
  else
    let n := (n.tideFlag 0).mTide fun t => { t with
      splicePend := if t.splicePend = some rp then none else t.splicePend
      restorePend := if t.restorePend = some rp then none else t.restorePend }
    let n := n.ringEvent (portCode rp) 1 l.neighbour
    if n.inserted then
      if !n.tide.ta.up && !n.tide.tb.up then n.leaveRing .listen 7 else n.wrapPort rp
    else n

def linkRises (n : Node) (rp : RingPort) : Node :=
  let l := n.link rp
  if l.rxOk && l.txOk && !l.up then (n.setLink rp { l with up := true }).ringEvent (portCode rp) 2 l.neighbour else n

/-- The delay in 10 ns, averaged over 16 beacons (R453). -/
def delayOf (l : List Int) : Nat := ((l.foldl (· + ·) 0) / 16).toNat

/-- A request heard: the node whose TA faces the requester splices; the one whose TB faces it does only where the requester's TB link is
not UP, which no beacon tells: a free bit (R469, log entry 24). -/
def hearRequest (n : Node) (rp : RingPort) (asks : Bool) : Node :=
  if !asks then n.mTide fun t => { t with splicePend := if t.splicePend = some rp then none else t.splicePend }
  else if !n.inserted || n.tide.splicePend.isSome then n
  else match rp with
    | .ta => n.mTide fun t => { t with splicePend := some .ta }
    | .tb =>
      let (w, n) := n.fresh
      if bit w 0 then n.mTide fun t => { t with splicePend := some .tb } else n

def hearBeacon (n : Node) (rp : RingPort) (b : Beacon) : Node :=
  let l := n.link rp
  let d : Int := (((b.t4 : Int) - b.t1) - ((b.t3 : Int) - b.t2)) / 2
  let samples := l.samples ++ [d]
  let full := decide (16 ≤ samples.length)
  let m : LinkSt := { l with
    rxOk := true
    txOk := b.rxOk
    neighbour := b.node
    insertReq := b.insertReq
    samples := if full then [] else samples
    delay := if full then delayOf samples else l.delay
    sentAt := b.t3
    gotAt := b.t4
    badRun := 0 }
  if l.up && !b.rxOk then n.linkFails rp else (n.setLink rp m).hearRequest rp b.insertReq

/-- A beacon with a bad CRC is counted and not heard; the eighth in a row takes its link DOWN (R452, Table 15.7). -/
def badFrame (n : Node) (rp : RingPort) : Node :=
  let l := n.link rp
  let n := (n.setLink rp { l with badRun := min 8 (l.badRun + 1) }).mTide fun t =>
    match rp with
    | .ta => { t with crcTa := satInc 0xFF t.crcTa }
    | .tb => { t with crcTb := satInc 0xFF t.crcTb }
  if l.up && decide (7 ≤ l.badRun) then n.linkFails rp else n

/-- The beacons of one ms on TA and TB (R451): the node sends from the start of phase G. -/
def ownBeacon (n : Node) (rp : RingPort) : Beacon :=
  let l := n.link rp
  ⟨n.sys.node, ringCode n.tide.st, n.tide.insertReq, l.rxOk, l.sentAt, l.gotAt, n.now * 100, 0⟩

def sendBeacons (n : Node) : Node :=
  if n.pwr.phase == .done && n.coreRuns && !n.pwr.parked && !n.txIdle then
    n.mTide fun t => { t with beacons := some (n.ownBeacon .ta, n.ownBeacon .tb) }
  else n

/-! The token (R457 to R463, R475, R476). -/

/-- The ring's receivers work: CORE has its power and its clock, from phase C on (03 Table 3.8). -/
def ringHears (n : Node) : Bool := n.coreRuns && (match n.pwr.phase with | .a | .b => false | _ => true)

/-- The node takes part in the ring: from phase G on, with CORE's clamps released, until step 4 of Hold-up (Table 15.4). -/
def ringOn (n : Node) : Bool := n.ringHears && n.tide.st != .off && !n.clk.core.clamp && !n.pwr.parked

/-- The transmitters work again (04 R154): what waited goes out. -/
def idleEnds (n : Node) : Node :=
  if n.txIdle then n
  else
    let n := (List.range 6).foldl flushPort n
    n.mTide fun t => { t with wait := [], line := t.line ++ t.wait }

/-- Older than the highest GEN seen (R476). -/
def olderGen (n : Node) (g : Nat) : Bool :=
  let d := (n.tide.gen + 65536 - g) % 65536
  n.tide.genSeen && decide (1 ≤ d) && decide (d ≤ 32767)

/-- A token of a ring that shares no node with the own one (R479). -/
def otherRing (n : Node) (tk : TokenFrame) : Bool :=
  n.inserted && tk.view != 0 && (tk.view &&& (n.tide.view ||| n.ownBit)) == 0

/-- What a node keeps of senders that left the VIEW is forgotten; records still held behind a missing frame are passed on first, by
`pass`. -/
def purgePeers (n : Node) (old new : BitVec 16) (pass : Node → Nat → Node) : Node :=
  (List.range 16).foldl (fun n k => if bit old k && !bit new k && k != n.sys.node then (pass n k).setPeer k {} else n) n

/-- R462, R464, R484: a VIEW taken from a token, once for each token. The change that is the node's own insertion has no record of its own
beside event 6 (R481, Table 15.8, log entry 95). -/
def takeView (n : Node) (tk : TokenFrame) (pass : Node → Nat → Node) : Node :=
  let old := n.tide.view
  let first := n.tide.lastToken.isNone
  let n := n.mTide fun t => { t with
    lastToken := some (tk.gen, tk.boundary)
    view := tk.view
    viewStable := !first && tk.view == old }
  let n := (n.mPair fun q => { q with absent := if n.inView then 0 else q.absent + 1 }).viewMajority
  let n := if n.inserted && tk.view != old then n.tideFlag 4 else n
  let n := if n.inserted && tk.view != old && bit old n.sys.node then n.ringRecord 0 8 old tk.view 0 else n
  let n := n.purgePeers old tk.view pass
  (n.chooseRef).roleMoves

def lowestOf (v : BitVec 16) : Option Nat := (List.range 16).find? fun k => bit v k

/-- A node REFUSED for its number being taken (Table 15.3). -/
def refuseRing (n : Node) : Node :=
  let n := n.mTide fun t => { t with st := .refused, insertReq := false }
  (n.tideFlag 5).ringEvent 0 12 n.sys.node

/-- The requester's first visit after its splice; with one link UP it wraps at its other port (R469). -/
def becomeInserted (n : Node) : Node :=
  let n := n.mTide fun t => { t with
    st := .inserted
    insertReq := false
    wrapA := false
    wrapB := false
    listenRot := 0
    silent := 0 }
  let n := if n.tide.ta.up then n else n.wrapPort .ta
  let n := if n.tide.tb.up then n else n.wrapPort .tb
  n.ringEvent 0 6 0

/-- A token arrives: in a visit, on its way back, or as a monitor copy. -/
def tokenIn (n : Node) (tk : TokenFrame) (pass : Node → Nat → Node) : Node :=
  if !n.ringOn then n
  else if n.otherRing tk then
    if (n.tide.wrapA || n.tide.wrapB) && decide (tk.master < n.tide.masterNode) then n.mTide fun t => { t with lowerRing := true } else n
  else if n.olderGen tk.gen then n
  else
    let n := n.mTide fun t => { t with tokenSeen := true, gen := tk.gen, genSeen := true, masterNode := tk.master, claiming := false }
    let listens := n.tide.st == .listen || n.tide.st == .request
    if listens && bit tk.view n.sys.node then n.refuseRing
    else
      let visit := n.tide.st == .request && tk.spliced && !bit tk.visited n.sys.node &&
        (n.tide.spliceFor.isNone || n.tide.spliceFor == some n.sys.node)
      let n := if visit then n.becomeInserted else n
      let n := if n.tide.lastToken = some (tk.gen, tk.boundary) then n else n.takeView tk pass
      if !n.inserted then n
      else if !bit tk.visited n.sys.node then n.holdStart tk
      else if tk.master = n.sys.node then n.mTide fun t => { t with master := true, kept := some tk }
      else n.mTide fun t => { t with master := false }

/-- The splice a hold can end with: a requester's, then a restored link's, each on its conditions (R469, R477). -/
def spliceAt (n : Node) (tk : TokenFrame) : Option (RingPort × Bool) :=
  if !n.tide.viewStable || tk.spliced then none
  else match n.tide.splicePend with
    | some rp => if (n.link rp).up then some (rp, true) else none
    | none =>
      match n.tide.restorePend with
      | some rp => if (n.link rp).up && (n.link rp).unwrapEpoch != some (n.now / 1000000) then some (rp, false) else none
      | none => none

/-- SPLICE is sent on the wrapped path and the port unwraps. -/
def spliceNow (n : Node) (rp : RingPort) (join : Bool) : Node :=
  let other := (n.link rp).neighbour
  let n := n.putFrame ⟨0, 0, allNodes, .splice n.sys.node (if join then other else 0xFF)⟩
  if join then
    let n := (n.setWrap rp false).mTide fun t => { t with splicePend := none }
    n.ringEvent (portCode rp) 5 other
  else
    let l := n.link rp
    let n := (n.setLink rp { l with unwrapEpoch := some (n.now / 1000000), wasDown := false }).mTide fun t => { t with restorePend := none }
    n.unwrapPort rp

/-- A hold ends and the token passes (R457, R458). On a ring of one node it stays. -/
def holdEnds (n : Node) : Node :=
  match n.tide.hold with
  | none => n
  | some tk =>
    let sp := n.spliceAt tk
    let n := match sp with | some (rp, join) => n.spliceNow rp join | none => n
    let out : TokenFrame := { tk with spliced := tk.spliced || sp.isSome }
    let n := n.mTide fun t => { t with
      hold := none
      budget := 0
      dissolve := t.dissolve || tk.dissolve
      kept := if t.wrapA && t.wrapB then some out else t.kept }
    n.ringOut [⟨0, 0, 0, .token out⟩]

/-- The ring dissolves at the boundary after its token passed (R479, Table 15.3). -/
def dissolveNow (n : Node) : Node :=
  if n.tide.dissolve && n.inserted then
    let n := ((n.wrapPort .ta).wrapPort .tb).tideFlag 6
    let n := n.leaveRing .listen 11
    n.mTide fun t => { t with wrapA := true, wrapB := true }
  else n

/-- The next rotation boundary at or after now, past the last one. -/
def nextRotation (n : Node) : Nat :=
  let a := (n.now + 9999) / 10000 * 10000
  match n.tide.lastRot with
  | some l => if a ≤ l then l + 10000 else a
  | none => a

/-- What a boundary counts (R466, R467, R475, 16 R504). -/
def countRotation (n : Node) : Node :=
  let seen := n.tide.tokenSeen
  let n := n.countMajority (seen && n.majority)
  n.mTide fun t => { t with
    silent := if seen then 0 else satInc 3 t.silent
    listenRot := if seen && t.st == .listen then satInc 15 t.listenRot else t.listenRot
    noTime := if n.rtc.reference then 0 else t.noTime + 1
    tokenSeen := false
    spliceFor := none }

/-- The master releases its token with the VIEW that the last one visited (R457, R462, R463, R479). -/
def release (n : Node) (pass : Node → Nat → Node) : Node :=
  match n.tide.kept with
  | none => n
  | some k =>
    if !n.inserted then n
    else
      let view := k.visited
      let lower := n.tide.lowerRing || (List.range 16).any fun i => bit view i && (n.peerStatus i).any (·.lowerRing)
      let master := (lowestOf view).getD n.sys.node
      let tk : TokenFrame := ⟨master, false, lower, n.tide.gen, view, 0, n.now⟩
      let n := n.mTide fun t => { t with kept := none, tokenSeen := true, masterNode := master, genSeen := true }
      (n.takeView tk pass).holdStart tk

def rotation (n : Node) (pass : Node → Nat → Node) : Node :=
  if !n.ringOn then n
  else
    let b := n.nextRotation
    let n := (n.setNow b).mTide fun t => { t with lastRot := some b }
    ((n.dissolveNow).countRotation).release pass

/-- A token with the next GEN, to be released at the next boundary (R475). -/
def regenerate (n : Node) : Node :=
  let g := (n.tide.gen + 1) % 65536
  let n := n.mTide fun t => { t with
    gen := g
    genSeen := true
    master := true
    masterNode := n.sys.node
    claiming := false
    regens := satInc 0xFF t.regens
    kept := some ⟨n.sys.node, false, false, g, t.view, t.view ||| n.ownBit, n.now⟩ }
  (n.tideFlag 2).ringEvent 0 9 0

/-- CLAIM k: the own claim back wins; a lower one is repeated; a higher one is not (R475). -/
def claimIn (n : Node) (k : Nat) : Node :=
  if !n.ringOn || !n.inserted then n
  else if k = n.sys.node then (if n.tide.claiming then n.regenerate else n)
  else if k < n.sys.node then n.ringOut [⟨0, 0, allNodes, .claim k⟩]
  else n

/-- Two silent rotations, and no token since (R475). -/
def tokenSilence (n : Node) : Node :=
  if n.ringOn && n.inserted && decide (2 ≤ n.tide.silent) && !n.tide.tokenSeen then
    (n.mTide fun t => { t with claiming := true }).ringOut [⟨0, 0, allNodes, .claim n.sys.node⟩]
  else n

/-- A node alone forms its own ring (Table 15.3). -/
def formRing (n : Node) : Node :=
  if n.ringOn && n.tide.st == .listen && decide (3 ≤ n.tide.silent) then
    let n := (n.wrapPort .ta).wrapPort .tb
    let n := n.mTide fun t => { t with
      st := .inserted
      master := true
      masterNode := n.sys.node
      gen := 1
      genSeen := true
      silent := 0
      listenRot := 0
      kept := some ⟨n.sys.node, false, false, 1, 0, n.ownBit, n.now⟩ }
    n.ringEvent 0 6 0
  else n

/-- A LISTEN node asks to be inserted when its conditions hold (R467, 05 R189). -/
def requestInsert (n : Node) : Node :=
  let ok := n.ringOn && n.tide.st == .listen && decide (3 ≤ n.tide.listenRot) && (n.tide.ta.up || n.tide.tb.up) &&
    n.rtc.tracked && decide (-10 ≤ n.rtc.offset) && decide (n.rtc.offset ≤ 10) && n.img.isSome
  if ok then n.mTide fun t => { t with st := .request, insertReq := true } else n

/-! Frames heard (R461, R468, 14 R440). -/

/-- A record that a later FAILOVER or START of the space voids (16 R503). -/
def recordVoid (n : Node) (r : Record) : Bool :=
  match tget none n.tide.issuers r.space with
  | some (f, m) => decide (f ≤ r.seq) && r.node != m && r.type != 0x40 && r.type != 0x52
  | none => false

/-- A new issuer of a space. -/
def noteIssuer (n : Node) (r : Record) : Node :=
  let changes := (r.type == 0x40 || r.type == 0x52) && (match tget none n.tide.issuers r.space with
    | some (_, m) => m != r.node
    | none => true)
  if changes then n.mTide fun t => { t with issuers := tset none t.issuers r.space (some (r.seq, r.node)) } else n

/-- A record of the own space at a member without DUTY: journal, AON value, FAILOVER number, a refused activation, the partner's DEMOTE (16
R484, R486). -/
def ownSpaceRecord (n : Node) (r : Record) : Node :=
  let n := (n.pushRam r false).mJrnl fun j => { j with last := max j.last r.seq }
  let n := if r.type = 0x40 then n.mPair fun q => { q with fo := r.seq } else n
  let n := if r.type = 0x10 ∧ r.old = 2 then n.mSec fun s => { s with act := none, notice := none, confirmDue := false } else n
  if r.type = 0x41 ∧ n.partner = some r.node then n.partnerDemoted else n

def hearRecord (n : Node) (r : Record) : Node :=
  let n := (n.noteIssuer r).mJrnl fun j => { j with heard := tset 0 j.heard r.space (max (tget 0 j.heard r.space) r.seq) }
  if r.space = n.space ∧ n.paired ∧ n.pair.role ≠ 4 then n.ownSpaceRecord r else n

/-- Records pass to the journal and the interfaces in order (R440, R435). The issuer of a space takes none of it from the ring. -/
def hearRecords (n : Node) (l : List Record) : Node :=
  let own (r : Record) : Bool := r.space == n.space && n.ownDuty
  let take := l.filter fun r => !own r && !n.recordVoid r
  ((take.foldl hearRecord n).extTake take).writeThrough

/-- A COMMAND frame takes effect where it is addressed. -/
def hearCommand (n : Node) (src : Nat) (c : CommandLoad) : Node :=
  if !n.inserted then n
  else match c with
    | .forward owner q =>
      let here := (owner == n.sys.node || n.partner == some owner) && n.ownDuty && n.img.isSome && !n.pwr.parked
      if here then
        n.arrive { q with path := 1 } (if q.op < 0x10 then n.fabRefusal q.op q.target q.arg true else if n.queueFull then 5 else 0)
      else n
    | .activation hash b =>
      if n.partner = some src ∧ (n.pair.role = 2 ∨ n.pair.role = 3 ∨ n.pair.role = 6) then n.takeNotice hash b else n
    | .laneSync lanes b => n.mLane fun s => { s with syncPend := addSync s.syncPend ⟨lanes, true, b⟩, syncTime := b }
    | .notice b => if n.partner = some src then n.noticeIn b else n

/-- A frame that takes its turn in its sender's order. -/
def deliver (n : Node) (src : Nat) (l : RingLoad) : Node :=
  match l with
  | .records r => n.hearRecords r
  | .command c => n.hearCommand src c
  | .epochData _ _ tag idx _ b => if n.partner = some src ∧ n.inserted then n.takeChunk tag idx b else n
  | .epochCommit final _ tag count crc hashTag last fo =>
    if n.partner = some src ∧ n.inserted then n.takeCommit final tag count crc hashTag last fo else n
  | .epochAck result tag confirm => if n.partner = some src ∧ n.inserted then n.copyAck result tag confirm else n
  | _ => n

/-- The frames of a sender with none missing before them are delivered, in order. -/
def drain (n : Node) (src : Nat) : Node :=
  let p := n.peer src
  let ready (h : Nat × RingLoad) : Bool := p.missing.all fun m => !fseqBefore m h.1
  let go := p.held.filter ready
  let top := p.high.getD 0
  let n := n.setPeer src { p with held := p.held.filter (! ready ·) }
  (sortBy (fun h : Nat × RingLoad => 65536 - (top + 65536 - h.1) % 65536) go).foldl (fun n h => n.deliver src h.2) n

/-- The held frames of a sender that has left, whatever is missing. -/
def passHeld (n : Node) (src : Nat) : Node := (n.setPeer src { n.peer src with missing := [] }).drain src

/-- A frame of a sender arrives (R461): none where its FSEQ is held already. -/
def hearFseq (n : Node) (src fseq : Nat) (load : Option RingLoad) : Option Node :=
  if src = n.sys.node ∨ !n.ringHears then none
  else
    let p := n.peer src
    let held := p.held ++ (load.map fun l => (fseq, l)).toList
    match p.high with
    | none => some ((n.setPeer src { p with high := some fseq, held := held }).drain src)
    | some h =>
      let d := (fseq + 65536 - h) % 65536
      if d = 0 ∨ 32768 ≤ d then
        if p.missing.contains fseq then
          some ((n.setPeer src { p with missing := p.missing.filter (· != fseq), held := held }).drain src)
        else none
      else
        let gap := (List.range (d - 1)).map fun i => (h + 1 + i) % 65536
        some ((n.setPeer src { p with high := some fseq, missing := p.missing ++ gap, held := held }).drain src)

/-- A frame that waits its turn. -/
def hearOrdered (n : Node) (src fseq : Nat) (load : RingLoad) : Node := (n.hearFseq src fseq (some load)).getD n

/-- A frame that acts as it arrives. -/
def hearNow (n : Node) (src fseq : Nat) (f : Node → Node) : Node :=
  match n.hearFseq src fseq none with
  | some m => f m
  | none => n

/-- A lost frame is waited for no longer (R440, R461, R468). -/
def frameLost (n : Node) (src fseq : Nat) : Node :=
  let p := n.peer src
  if p.missing.contains fseq then (n.setPeer src { p with missing := p.missing.filter (· != fseq) }).drain src else n

/-- STATUS (R464, Table 15.3). -/
def statusIn (n : Node) (src fseq : Nat) (f : StatusFrame) : Node :=
  let listens := n.tide.st == .listen || n.tide.st == .request
  if src = n.sys.node then (if n.ringOn && listens then n.refuseRing else n)
  else n.hearNow src fseq fun n =>
    ((n.setPeer src { n.peer src with status := some f }).chooseRef.roleMoves).sendNotices

/-- TIME (R465, R466): d in µs, to the nearest. -/
def timeIn (n : Node) (src fseq : Nat) (rp : RingPort) (f : TimeFrame) (rx rxNs : Nat) : Node :=
  n.hearNow src fseq fun n =>
    if src ≠ n.tide.refNode ∨ n.rtc.reference then n
    else
      let ns : Int := ((f.tx : Int) - rx) * 1000 + f.txNs - rxNs + f.corr + (n.link rp).delay * 10
      let d : Int := (ns + 500) / 1000
      let n := (n.mTide fun t => { t with noTime := 0 }).timeFrom d f
      if n.tide.st == .request && (decide (d < -10) || decide (10 < d)) then
        n.mTide fun t => { t with st := .listen, insertReq := false }
      else n

/-- SPLICE by the old path (R469, R477): the far port facing the joining node, or the splicing node's own neighbour, unwraps. -/
def spliceIn (n : Node) (src fseq neighbour joining : Nat) : Node :=
  n.hearNow src fseq fun n =>
    let n := n.mTide fun t => { t with spliceFor := some joining }
    let facing := if joining = 0xFF then neighbour else joining
    let at' (rp : RingPort) : Bool := n.wrapped rp && (n.link rp).up && (n.link rp).neighbour == facing
    if !n.inserted then n
    else if at' .ta then n.unwrapPort .ta
    else if at' .tb then n.unwrapPort .tb
    else n

/-- The nodes that a returning frame should have reached (R460). -/
def required (n : Node) (f : RingFrame) : BitVec 16 := f.dst &&& n.tide.view &&& ~~~n.ownBit

/-- What a lost frame carried (R460, 16 R488). -/
def loseLoad (n : Node) (l : RingLoad) : Node :=
  match l with
  | .records r => if n.issuer then r.foldl (fun n x => n.laterGap ⟨3, x.seq, 1⟩) n else n
  | .command (.notice _) => n.mJrnl fun j => { j with lost := satInc 0xFF j.lost }
  | _ => n

/-- A frame returns (R456, R460). -/
def frameBack (n : Node) (fseq : Nat) (copied : BitVec 16) : Node :=
  match n.tide.sent.find? (·.fseq == fseq) with
  | none => n
  | some f =>
    let n := n.mTide fun t => { t with sent := t.sent.filter (·.fseq != fseq) }
    if n.required f &&& ~~~copied = 0 then n
    else if f.retry < 3 then
      let load := match f.load with
        | .time x => RingLoad.time { x with tx := n.now }
        | l => l
      (n.mTide fun t => { t with
        tx := { f with retry := f.retry + 1, load := load } :: t.tx
        retx := satInc 0xFFFF t.retx }).pump
    else
      let n := (n.mTide fun t => { t with lost := satInc 0xFFFF t.lost }).tideFlag 3
      let n := (n.loseLoad f.load).ringEvent 0 10 0
      (n.sendFrame allNodes (.drop f.fseq)).pump

/-! Commands. -/

/-- The refusals of TIDE_CMD (Table 15.7), 0 for none. -/
def tideRefusal (n : Node) (op : Nat) : Nat :=
  if op ≠ 1 ∧ op ≠ 2 then 2
  else if !n.sec.maint then 1
  else if op = 1 ∧ n.tide.st ≠ .inserted then 3
  else if op = 2 ∧ n.tide.st ≠ .heldOut ∧ n.tide.st ≠ .refused then 3
  else 0

def tideCommand (n : Node) (op : Nat) : Node :=
  let code := n.tideRefusal op
  let n := n.mTide fun t => { t with cmdResult := code }
  if code ≠ 0 then n.tideFlag 7
  else if op = 1 then n.leaveRing .heldOut 7
  else n.mTide fun t => { t with st := .listen, listenRot := 0, silent := 0, lastToken := none, genSeen := false }

end Node

/-! The meanings of the ring's commands. -/

/-- Every 1 ms (R451). -/
def execBeaconSend (s : State) : Host.Outcome State Fault Refusal := s.run Node.sendBeacons

/-- R452, R453, R469. -/
def execBeaconRx (rp : RingPort) (b : Option Beacon) (s : State) : Host.Outcome State Fault Refusal :=
  s.run fun n =>
    if n.ringHears then (match b with | some x => n.hearBeacon rp x | none => n.badFrame rp) else n

/-- R452, R473. -/
def execLinkDown (rp : RingPort) (s : State) : Host.Outcome State Fault Refusal := s.run fun n => n.clearLine.linkFails rp

/-- R452. -/
def execLinkUp (rp : RingPort) (s : State) : Host.Outcome State Fault Refusal := s.run fun n => n.linkRises rp

/-- R477: the node whose TA faces the restored link unwraps it by a splice, at the end of a hold. -/
def execLinkRestored (rp : RingPort) (s : State) : Host.Outcome State Fault Refusal :=
  s.run fun n =>
    if rp = .ta ∧ n.inserted ∧ n.wrapped .ta ∧ n.tide.ta.up ∧ n.tide.ta.wasDown then
      n.mTide fun t => { t with restorePend := some .ta }
    else n

/-- R457, R475. -/
def execRotationBoundary (s : State) : Host.Outcome State Fault Refusal := s.run fun n => n.clearLine.rotation Node.passHeld

/-- R457, R462, R476. -/
def execToken (tk : TokenFrame) (s : State) : Host.Outcome State Fault Refusal := s.run fun n => n.clearLine.tokenIn tk Node.passHeld

/-- R458, R469. -/
def execHoldEnd (s : State) : Host.Outcome State Fault Refusal := s.run fun n => n.clearLine.holdEnds

/-- R475. -/
def execClaim (k : Fin 16) (s : State) : Host.Outcome State Fault Refusal := s.run fun n => n.clearLine.claimIn k.val

/-- R475. -/
def execTokenSilence (s : State) : Host.Outcome State Fault Refusal := s.run fun n => n.clearLine.tokenSilence

/-- R464. -/
def execStatus (src : Fin 16) (fseq : BitVec 16) (f : StatusFrame) (s : State) : Host.Outcome State Fault Refusal :=
  s.run fun n => n.statusIn src.val fseq.toNat f

/-- R465, R466. -/
def execTime (src : Fin 16) (fseq : BitVec 16) (rp : RingPort) (f : TimeFrame) (rx rxNs : Nat) (s : State) :
    Host.Outcome State Fault Refusal :=
  s.run fun n => n.timeIn src.val fseq.toNat rp f rx rxNs

/-- R461. -/
def execDrop (src : Fin 16) (fseq lost : BitVec 16) (s : State) : Host.Outcome State Fault Refusal :=
  s.run fun n => n.hearNow src.val fseq.toNat fun n => n.frameLost src.val lost.toNat

/-- R469. -/
def execSplice (src : Fin 16) (fseq : BitVec 16) (neighbour joining : BitVec 8) (s : State) : Host.Outcome State Fault Refusal :=
  s.run fun n => n.spliceIn src.val fseq.toNat neighbour.toNat joining.toNat

/-- R440, 16 R486. -/
def execRecords (src : Fin 16) (fseq : BitVec 16) (recs : List Record) (s : State) : Host.Outcome State Fault Refusal :=
  s.run fun n => n.hearOrdered src.val fseq.toNat (.records recs)

/-- R35, 16 R488. -/
def execCommand (src : Fin 16) (fseq : BitVec 16) (load : CommandLoad) (s : State) : Host.Outcome State Fault Refusal :=
  s.run fun n => n.hearOrdered src.val fseq.toNat (.command load)

/-- R460. -/
def execFrameReturn (fseq copied : BitVec 16) (s : State) : Host.Outcome State Fault Refusal :=
  s.run fun n => n.clearLine.frameBack fseq.toNat copied

/-- R468: only a node that is not inserted waits no longer than a rotation. -/
def execFseqMissingTimeout (src : Fin 16) (fseq : BitVec 16) (s : State) : Host.Outcome State Fault Refusal :=
  s.run fun n => if n.inserted then n else n.frameLost src.val fseq.toNat

/-- Table 15.3, LISTEN to REQUEST. -/
def execInsertRequest (s : State) : Host.Outcome State Fault Refusal := s.run Node.requestInsert

/-- Table 15.3, LISTEN to INSERTED. -/
def execListenTimeout (s : State) : Host.Outcome State Fault Refusal := s.run Node.formRing

/-- TIDE_CMD LEAVE (R467). -/
def execLeave (s : State) : Host.Outcome State Fault Refusal := s.run fun n => n.tideCommand 1

/-- TIDE_CMD JOIN (R467). -/
def execJoin (s : State) : Host.Outcome State Fault Refusal := s.run fun n => n.tideCommand 2

/-- No TIME frame for 10 rotations (R466). -/
def execTimeRefLoss (s : State) : Host.Outcome State Fault Refusal :=
  s.run fun n => if decide (10 ≤ n.tide.noTime) && !n.rtc.reference then n.noReference else n

/-! The meanings of the EPOCH frames and of the pair's commands (16). -/

/-- R492. -/
def execEpochData (src : Fin 16) (fseq : BitVec 16) (final handover : Bool) (tag idx count : Nat) (bytes : List Byte) (s : State) :
    Host.Outcome State Fault Refusal :=
  s.run fun n => n.hearOrdered src.val fseq.toNat (.epochData final handover tag idx count bytes)

/-- R492, R494. -/
def execEpochCommit (src : Fin 16) (fseq : BitVec 16) (final handover : Bool) (tag count : Nat) (crc hashTag : BitVec 32)
    (last fo : Nat) (s : State) : Host.Outcome State Fault Refusal :=
  s.run fun n => n.hearOrdered src.val fseq.toNat (.epochCommit final handover tag count crc hashTag last fo)

/-- R493. -/
def execEpochAck (src : Fin 16) (fseq : BitVec 16) (result tag : Nat) (confirm : BitVec 32) (s : State) :
    Host.Outcome State Fault Refusal :=
  s.run fun n => n.hearOrdered src.val fseq.toNat (.epochAck result tag confirm)

/-- R495: every inserted node replies with the highest number it has heard in the space. -/
def execHighQuery (src : Fin 16) (fseq : BitVec 16) (space : Fin 16) (s : State) : Host.Outcome State Fault Refusal :=
  s.run fun n => n.hearNow src.val fseq.toNat fun n =>
    if n.inserted then n.sendFrame (1#16 <<< src.val) (.highReply space.val (tget 0 n.jrnl.heard space.val)) else n

/-- R495. -/
def execHighReply (src : Fin 16) (fseq : BitVec 16) (space : Fin 16) (high : Nat) (s : State) : Host.Outcome State Fault Refusal :=
  s.run fun n => n.hearNow src.val fseq.toNat fun n => n.queryReply src.val space.val high

/-- R492: a copy not committed by the next epoch boundary. -/
def execCopyMissed (s : State) : Host.Outcome State Fault Refusal := s.run Node.copyMissed

/-- R495: a rotation has passed. -/
def execQueryWaitEnd (s : State) : Host.Outcome State Fault Refusal := s.run Node.queryEnd

/-- PAIR_CMD SWITCHOVER (R509). -/
def execSwitchover (s : State) : Host.Outcome State Fault Refusal := s.run fun n => n.pairCommand 1

end Sys2Proof.Machine
end

