-- ==== Sys2Proof/Machine/Clock.lean ====
section
/-! DEFINITION. The clock tree (04): sources, the PLL, Coast and Breakwater, ramps and switches, the return to the crystal, CLKOUT. -/

namespace Sys2Proof.Machine

def allDomains : List Domain := [.core, .field, .solv]

/-- The domain runs on the RC or on the PLL in its coast setting (Table 4.6). -/
def DomClk.onRc (d : DomClk) (pllNominal : Bool) : Bool :=
  match d.st with | .coast => true | .bridge => !(d.ramp == some true && pllNominal) | _ => false

/-- Nominal frequencies of the CLKOUT selections, in Hz (Table 4.16). -/
def clkoutNominal : List Nat :=
  [0, 25000000, 25000000, 32768, 100000000, 200000000, 100000000, 50000000, 25000000, 50000000, 6250000]

namespace Node

def dom (n : Node) : Domain → DomClk
  | .core => n.clk.core
  | .field => n.clk.field
  | .solv => n.clk.solv

def anyDom (n : Node) (f : DomClk → Bool) : Bool := allDomains.any fun d => f (n.dom d)
def eachDom (n : Node) (f : Node → Domain → Node) : Node := allDomains.foldl f n

/-- Breakwater is the domain's policy: the image's from phase E on, else the start-up policy (R134). -/
def breakwater (n : Node) (d : Domain) : Bool :=
  match n.clockCfg, d with
  | some c, .core => bit c.policy 0
  | some c, .field => bit c.policy 1
  | some c, .solv => bit c.policy 2
  | none, .field => true
  | none, _ => false

/-- A CLOCK record (14 Table 14.2). -/
def clockRecord (n : Node) (event : Nat) : Node :=
  n.later ⟨0x12, 0, 0, event, leBytes 2 0 ++ leBytes 4 n.clkStat.toNat ++ leBytes 4 n.clkSrcStat.toNat⟩

/-- What a change of CLK_STAT.COAST brings: its event (18 Table 18.3), and the record of an entry (R173). -/
def coastChange (n : Node) (was : Bool) : Node :=
  let n := if n.clkCoast == was then n else n.irqEvent 7
  if n.clkCoast && !was then n.clockRecord 4 else n

/-! What a domain that stops does (R129, R143, R144, R148, R155, 15 Table 15.3). -/

def ethDown (n : Node) : Node := ((n.portEvent 4 .down n.now).portEvent 5 .down n.now)

/-- CORE clamped: outputs safe, the response pending discarded, and an inserted node out of its ring. -/
def coreClamped (n : Node) : Node :=
  let n := (n.selectModes modeSafe).mSys fun s => { s with resp := none, fcnt := 0, wait := none }
  let n := if n.tide.st == .inserted || n.tide.st == .request then n.leaveRing .listen 7 else n
  n.ethDown

def fieldStops (n : Node) : Node := ((List.range 8).foldl stopChain n).abandonCheck

def domClamped (n : Node) : Domain → Node
  | .core => n.coreClamped
  | .field => n.fieldStops
  | .solv => n.stopEngine

/-- A domain enters Slack, or waits in it for the RC. -/
def enterSlack (n : Node) (d : Domain) (st : DomSt) : Node :=
  let n := n.setDom d { n.dom d with
    st := st
    ramp := none
    sw := none
    clamp := true
    releasing := false }
  n.domClamped d

/-- Every domain latched in Breakwater (R164, Table 4.6). -/
def latch (n : Node) (cause : Nat) : Node :=
  let n := n.mClk fun c => { c with latched := true, latchCause := setBit c.latchCause cause, ret := 0, due := false }
  (n.eachDom fun n d => n.enterSlack d .latched).clockRecord 3

/-- A domain out of Slack: its clamps wait (R145), CORE accounts for the held ticks (R146), the engine goes on (12 R397). -/
def leftSlack (n : Node) (d : Domain) : Node :=
  let n := n.setDom d { n.dom d with releasing := true }
  match d with
  | .core => n.mClk fun c => { c with slackEnd := true }
  | .field => n.syncCauses
  | .solv => n.engine

/-! Failures. -/

/-- The PLL goes to its coast setting on RC (R142). -/
def pllToCoast (n : Node) : Node :=
  n.mClk fun c => if c.rc = .failed then { c with pll := .failed } else { c with pll := .locking, lockCoast := true }

/-- R152. -/
def countXtalFail (n : Node) : Node :=
  n.mClk fun c => { c with xtalFails := satInc 0xFF c.xtalFails, retLimit := c.retLimit || decide (3 ≤ c.xtalFails) }

/-- A domain leaves the PLL at once (R142, R163, R165): Slack under Breakwater, else RC at ÷8, or Slack until the RC counts. -/
def emergency (n : Node) (d : Domain) : Node :=
  if n.breakwater d then n.enterSlack d .slack
  else if n.clk.rc = .ready then
    let n := n.setDom d { n.dom d with
      ratio := 4
      ramp := none
      sw := some .rc }
    match d with
    | .core => n.ethDown
    | .field => n.fieldStops
    | .solv => n
  else n.enterSlack d .slackCoast

/-! Domains on and off (R169). -/

def gateBit : Domain → Nat
  | .core => 0
  | .field => 8
  | .solv => 16

def powerBit : Domain → Nat
  | .core => 1
  | .field => 2
  | .solv => 3

/-- The domain is powered and its clock is on in the mode's mask; without an image only CORE runs. -/
def domWanted (n : Node) (d : Domain) : Bool :=
  bit n.pwr.domOn (powerBit d) &&
    (match n.img with | none => d == .core | some _ => bit n.modeMask (gateBit d) || (d == .solv && n.solvDrains))

/-- The state in which a domain starts, by the clock the node then has. -/
def domStarts (n : Node) (d : Domain) : Node :=
  let starts (st : DomSt) (ratio : Nat) : Node := n.setDom d { st := st, ratio := ratio }
  if n.clk.pll = .nominal then starts .nominal 0
  else if n.breakwater d then n.enterSlack d .slack
  else if n.clk.rc ≠ .ready then n.enterSlack d .slackCoast
  else if n.clk.pll = .coast then starts .coast 0
  else starts .bridge 4

/-- A domain that its mask or its mode turns off has no clamps applied; in a start the clamps of phase A stand until the image is applied. -/
def applyDomain (n : Node) (d : Domain) : Node :=
  if n.clk.latched then n
  else if n.domWanted d then
    if (n.dom d).st = .off then
      let n := n.domStarts d
      match d with | .core => n | .field => n.syncCauses | .solv => n.engine
    else n
  else if (n.dom d).st = .off then
    if n.img.isSome then n.setDom d {} else n
  else
    let n := match d with | .core => n | .field => n.fieldStops | .solv => n.stopEngine
    n.setDom d {}

/-- Every domain follows the mode's mask, after a return under way (R168). -/
def applyDomains (n : Node) : Node :=
  if n.clk.ret ≠ 0 then n.mClk fun c => { c with maskDue := true }
  else
    let was := n.clkCoast
    ((n.mClk fun c => { c with maskDue := false, heldMode := none }).eachDom applyDomain).coastChange was

/-- In Deep sleep only the sources that CLK_DEEP_EN keeps run (R161). -/
def deepSources (n : Node) : Node :=
  let mask : Word := n.clockCfg.elim 0 (·.deepEn)
  n.mClk fun c => { c with
    maskDue := false
    heldMode := none
    xtal := if bit mask 25 then c.xtal else .off
    pll := .off
    rc := if bit mask 24 then c.rc else .off }

/-- The masks that waited for a return apply when it is over or has stopped (R167, R168). -/
def masksNow (n : Node) : Node :=
  if n.clk.maskDue && n.clk.ret == 0 && !n.clk.latched then
    if n.pwr.mode = .deep then n.deepSources else n.applyDomains
  else n

/-! Trips (R142, R163 to R167). -/

/-- The domain's root is the PLL. -/
def onPll (c : DomClk) : Bool :=
  match c.st with | .nominal | .coast => c.sw != some .rc | .bridge => c.ramp.isSome | _ => false

/-- Table 4.6 for a trip, from the state the domain holds; a switch to a lost source is abandoned (R166). -/
def tripDomain (n : Node) (d : Domain) : Node :=
  let c := n.dom d
  if onPll c then n.emergency d
  else if c.sw == some .rc then n
  else n.setDom d { c with sw := none }

/-- The trip's moves: with RC FAILED a domain that loses the PLL latches every domain (cause 0x8). -/
def tripMoves (n : Node) : Node :=
  let n := n.mClk fun c => { c with ret := 0, due := false, clean := false }
  if n.clk.rc = .failed && n.anyDom onPll then n.latch 3 else n.eachDom tripDomain

/-- The ramps under way are abandoned (R165). -/
def rampMoves (n : Node) : Node :=
  let n := n.mClk fun c => { c with ret := 0, due := false, clean := false }
  n.eachDom fun n d => if (n.dom d).ramp.isSome then n.tripDomain d else n

def tripXtal (n : Node) : Node :=
  if n.clk.xtal = .off ∨ n.clk.xtal = .failed then n
  else
    let was := n.clkCoast
    let uses := n.clk.pll == .nominal || (n.clk.pll == .locking && !n.clk.lockCoast) || (n.clk.pll == .off && n.pwr.phase == .b)
    let n := (n.mClk fun c => { c with xtal := .failed }).countXtalFail
    let n := if uses then n.pllToCoast.tripMoves else n.rampMoves
    ((n.clockRecord 1).coastChange was).masksNow

/-- A PLL lock count that fails (R151, Table 4.6). -/
def lockFails (n : Node) : Node :=
  if n.clk.pll ≠ .locking then n
  else if n.clk.lockCoast then
    let n := (n.mClk fun c => { c with pll := .failed }).clockRecord 1
    if n.anyDom fun c => c.st == .bridge || c.sw == some .rc then
      let was := n.clkCoast
      (n.latch 2).coastChange was
    else n
  else
    let back := n.clk.ret != 0
    let n := (n.mClk fun c => { c with ret := 0, due := false }).pllToCoast
    ((if back then n.countXtalFail else n).clockRecord 1).masksNow

def tripPll (n : Node) : Node :=
  match n.clk.pll with
  | .off | .failed => n
  | .locking => (n.mClk fun c => { c with clean := false }).lockFails
  | .nominal | .coast =>
    let was := n.clkCoast
    ((n.pllToCoast.tripMoves.clockRecord 1).coastChange was).masksNow

/-- The RC's stability count fails (R130, R137, R164). -/
def rcCountFails (n : Node) : Node :=
  let was := n.clkCoast
  let n := (n.mClk fun c => { c with rc := .failed, noFallback := true, rcRestarted := false }).clockRecord 1
  if n.anyDom fun c => c.st == .slackCoast then (n.latch 0).coastChange was else n

/-- A trip of RC while no domain runs on it stops a return (R167). A domain in a ramp, or on its way to RC, takes the emergency switch, which
finds RC counting (R165, R166); a switch of a Slack domain is abandoned. -/
def rcMoves (n : Node) (d : Domain) : Node :=
  let c := n.dom d
  if c.ramp.isSome || c.sw == some .rc then n.emergency d else n.setDom d { c with sw := none }

/-- R137; a Coast domain that the trip leaves waiting for RC goes on with the PLL in its coast setting. -/
def tripRc (n : Node) : Node :=
  match n.clk.rc with
  | .off | .failed => n
  | .counting => n.rcCountFails
  | .ready =>
    let was := n.clkCoast
    if n.anyDom fun c => c.onRc (n.clk.pll == .nominal) then
      ((((n.mClk fun c => { c with rc := .failed }).clockRecord 1).latch 1)).coastChange was
    else
      let n := n.mClk fun c => { c with
        rc := .counting
        rcRestarted := true
        ret := 0
        due := false
        lockCoast := c.lockCoast || c.pll == .coast
        pll := if c.pll = .coast then .locking else c.pll }
      let n := n.eachDom rcMoves
      let n := if n.clk.pll == .nominal && n.anyDom (·.st == .slackCoast) then n.pllToCoast else n
      ((n.clockRecord 1).coastChange was).masksNow

/-- Time that no command measured passed: the RTC counted a free time (05 R174). -/
def rtcElapses (n : Node) : Node :=
  if n.rtcCounts then
    let (v, n) := n.fresh
    n.rtcHold.mRtc fun r => { r with sec := (r.sec + v.toNat) % 2 ^ 32, subsec := v.toNat / 2 ^ 32 % 32768 }
  else n

/-- AON alone is powered: no command says how much time passes (05 R174, R200). -/
def aonAlone (n : Node) : Bool := match n.pwr.mode with | .deep | .off => true | _ => false

/-- R136, R172: OSF, and no more. The RTC stops at the count it has reached (05 R199, R200). -/
def tripLse (n : Node) : Node :=
  if n.clk.lse = .off ∨ n.clk.lse = .failed then n
  else
    let n := if n.aonAlone then n.rtcElapses else n.rtcHold
    let n := (n.mClk fun c => { c with lse := .failed }).mRtc fun r => { r with osf := true }
    (n.clockRecord 1).settleTrust

/-! Step 4 of the return, and its end (Table 4.8). -/

/-- The end of step 5. -/
def returnEnds (n : Node) : Node :=
  if n.clk.ret = 4 && !n.anyDom (fun c => c.ramp.isSome || c.sw.isSome) then
    ((n.mClk fun c => { c with ret := 0 }).clockRecord 5).masksNow
  else n

/-- Step 4: every domain that runs on RC switches to the PLL at ÷8, and a domain in Slack starts there. -/
def returnSwitch (n : Node) : Node :=
  let n := n.mClk fun c => { c with ret := 4 }
  (n.eachDom fun n d =>
    let c := n.dom d
    match c.st with
    | .bridge | .slack | .slackCoast => n.setDom d { c with ratio := 4, sw := some .nominal }
    | _ => n).returnEnds

/-! Counts and locks that complete (R130 to R133). -/

def rcCounted (n : Node) : Node :=
  let n := n.mClk fun c => { c with rc := .ready, rcRestarted := false }
  n.eachDom fun n d =>
    if (n.dom d).st = .slackCoast then
      (n.setDom d { n.dom d with
        st := .bridge
        ratio := 4
        sw := if n.clk.pll = .coast then some .coast else none }).leftSlack d
    else n

/-- XTAL edges counted: READY, and in phase B the PLL locks in its nominal setting. -/
def xtalCounted (n : Node) : Node :=
  if n.clk.xtal ≠ .counting then n
  else
    n.mClk fun c =>
      if n.pwr.phase = .b ∧ c.pll = .off then { c with xtal := .ready, pll := .locking, lockCoast := false } else { c with xtal := .ready }

/-- A lock count that ends locked. -/
def locked (n : Node) : Node :=
  if n.clk.pll ≠ .locking then n
  else if n.clk.lockCoast then
    if n.clk.rc ≠ .ready then n
    else
      let n := n.mClk fun c => { c with pll := .coast }
      n.eachDom fun n d =>
        let c := n.dom d
        if c.st = .bridge ∧ c.sw = none ∧ c.ramp = none then n.setDom d { c with sw := some .coast } else n
  else if n.clk.xtal ≠ .ready then n
  else
    let back := n.clk.ret == 3
    let n := n.mClk fun c => { c with pll := .nominal }
    if back then n.returnSwitch else n

/-- Edges again (R130, 05 R199). -/
def edgesBack (n : Node) (lse : Bool) : Node :=
  if lse then (if n.clk.lse = .failed then n.rtcHold.mClk fun c => { c with lse := .ready } else n)
  else if n.clk.xtal = .failed then n.mClk fun c => { c with xtal := .counting } else n

/-! Switches, ramps and the return (R138 to R141, R149 to R151). -/

/-- The return sequence goes on: all Ebbs done, all switches to RC done (Table 4.8). A PLL that still runs nominal needs no step 3. -/
def returnAdvance (n : Node) : Node :=
  let n := if n.clk.ret = 1 && !n.anyDom (·.ramp.isSome) then n.mClk fun c => { c with ret := 2 } else n
  if n.clk.ret = 2 && !n.anyDom (fun c => c.st == .coast || c.sw.isSome) then
    if n.clk.pll = .nominal then n.returnSwitch
    else n.mClk fun c => { c with ret := 3, pll := .locking, lockCoast := false }
  else n

/-- A domain that the return brings back. -/
def strays (c : DomClk) : Bool := match c.st with | .nominal | .off => false | _ => true

/-- The return point (R149). FIELD leaves COAST with its Ebb: its lanes stop until their sync reset (R155). -/
def returnStart (n : Node) : Node :=
  if n.clk.due && !n.clk.latched && !n.clk.retLimit && n.clk.xtal == .ready && n.clk.ret == 0 && n.anyDom strays &&
      (n.rtc.lastTick.any fun t => t % 1000000 == 0) && !n.anyDom (fun c => c.ramp.isSome || c.sw.isSome) then
    let n := n.mClk fun c => { c with ret := 1, due := false }
    (n.eachDom fun n d =>
      let c := n.dom d
      if c.st = .coast then
        let n := n.setDom d { c with ratio := 1, ramp := some false }
        if d = .field then n.fieldStops else n
      else n).returnAdvance
  else n

/-- The multiplexer has started the new clock. -/
def switched (n : Node) (d : Domain) : Node :=
  let c := n.dom d
  let flood (c : DomClk) : DomClk := { c with ratio := 3, ramp := some true, sw := none }
  match c.sw with
  | none => n
  | some .rc =>
    let again := n.clk.ret == 0 && n.clk.pll == .coast
    (n.setDom d { c with
      st := .bridge
      ratio := 4
      ramp := none
      sw := if again then some .coast else none }).returnAdvance
  | some .coast => n.setDom d (flood c)
  | some .nominal =>
    if c.st = .slack ∨ c.st = .slackCoast then (n.setDom d { flood c with st := .nominal }).leftSlack d else n.setDom d (flood c)

/-- A forced switch marks its old source FAILED, which is a trip of it (R141). A return under way stops before the domain has switched
(R167), so that the old source is still the PLL as it ran. -/
def forced (n : Node) (d : Domain) : Node :=
  match (n.dom d).sw with
  | none => n
  | some tgt =>
    let n := ((n.mClk fun c => { c with forced := true }).irqEvent 7).clockRecord 2
    match tgt with
    | .rc =>
      let n := (n.mClk fun c => { c with ret := 0, due := false }).switched d
      if n.clk.pll = .locking then (n.clockRecord 1).masksNow else n.tripPll
    | _ => (n.switched d).tripRc

/-- The next step of a ramp (R138). -/
def rampNext (n : Node) (d : Domain) : Node :=
  let c := n.dom d
  match c.ramp with
  | none => n
  | some false =>
    if c.ratio < 4 then n.setDom d { c with ratio := c.ratio + 1 }
    else (n.setDom d { c with ramp := none, sw := some .rc }).returnAdvance
  | some true =>
    if 0 < c.ratio then n.setDom d { c with ratio := c.ratio - 1 }
    else
      let n := n.setDom d { c with ramp := none, st := if n.clk.pll = .nominal then .nominal else .coast }
      let n := match d with
        | .core => n.idleEnds
        | .field => n.syncCauses
        | .solv => n
      n.returnEnds

/-! Trim and CLKOUT (R126, R157 to R159). -/

/-- Table 4.3: the limits of a count of XTAL against RC, and of RC against its reference. -/
def xtalPasses (cnt : Nat) : Bool := decide (3892 ≤ cnt) && decide (cnt ≤ 4300)
def rcPasses (cnt : Nat) : Bool := decide (46875 ≤ cnt) && decide (cnt ≤ 50781)

/-- A judging window ends: the trim code, the counts that CLK_MON shows, and the judgement of RC and then, against a READY RC, of XTAL, which
is not judged before its first edge (R132, R135). -/
def trimWindow (n : Node) (code : BitVec 10) (xtalCnt rcCnt : Nat) : Node :=
  let n := n.mClk fun c => { c with
    trim := if c.lse = .ready ∨ c.xtal = .ready then code else c.trim
    xtalCnt := if c.rc = .ready then xtalCnt % 65536 else c.xtalCnt
    rcCnt := if c.lse = .ready then min rcCnt 0xFFFF else c.rcCnt }
  let judged := n.clk.rc == .ready && (n.clk.lse == .ready || n.clk.xtal == .ready)
  let n := if judged && !rcPasses rcCnt then n.tripRc else n
  let judged := n.clk.rc == .ready && (n.clk.xtal == .ready || (n.clk.xtal == .counting && xtalCnt != 0))
  if judged && !xtalPasses xtalCnt then n.tripXtal else n

def clkoutSet (n : Node) (w : Word) : Node :=
  let sel := w.toNat % 16
  let div := w.toNat / 65536
  n.mClk fun c =>
    if sel ≤ 10 ∧ clkoutNominal.getD sel 0 ≤ 50000000 * (div + 1) then { c with sel := sel, div := div } else { c with clkoutErr := true }

/-- The root of a domain after its ramp divider, in Hz (R127, Table 4.2); none where its clock is held. -/
def rootHz (n : Node) (d : Domain) : Option Rat :=
  let c := n.dom d
  let k : Nat := [2, 3, 4, 6, 8].getD c.ratio 8
  let src : Option Nat :=
    match c.st with
    | .nominal => some 800000000
    | .coast => some 320000000
    | .bridge => some (if c.ramp.isSome then (if n.clk.pll = .nominal then 800000000 else 320000000) else 25000000)
    | _ => none
  src.map fun f => (f : Rat) / (k : Rat)

def runsSrc (s : SrcSt) : Bool := s == .counting || s == .ready

/-- The frequency in Hz of the source CLKOUT selects (Table 4.16), none while it does not run (R158). -/
def clkoutSource (n : Node) : Option Rat :=
  let m := n.modeMask
  let derived (d : Domain) (k : Nat) (on : Bool) : Option Rat := if on then (n.rootHz d).map fun f => f / (k : Rat) else none
  match n.clk.sel with
  | 1 => if runsSrc n.clk.xtal then some 25000000 else none
  | 2 => if runsSrc n.clk.rc then some 25000000 else none
  | 3 => if runsSrc n.clk.lse then some 32768 else none
  | 4 => match n.clk.pll with | .nominal => some 100000000 | .coast => some 40000000 | _ => none
  | 5 => derived .solv 2 true
  | 6 => derived .core 4 true
  | 7 => derived .core 8 true
  | 8 => derived .core 16 true
  | 9 => derived .core 8 n.ethClock
  | 10 => derived .field 64 (bit m 8 && n.clk.field.st != .bridge)
  | _ => none

/-- The CLKOUT pin (R157): the source's frequency, the source cycles it is high and then low in each period; none is held low, as in
phases A to E (03 Table 3.8), or undriven without HVIO (20 R600). -/
def clkoutPin (n : Node) : Option (Rat × Nat × Nat) :=
  if !n.sys.hvio then none else match n.pwr.phase with
  | .f | .done => n.clkoutSource.map fun f => let k := n.clk.div + 1; if k = 1 then (f, 0, 0) else (f, k / 2, k - k / 2)
  | _ => none

end Node

/-- The RC's count ends (R130). -/
def execRcCountComplete (ok : Bool) (s : State) : Host.Outcome State Fault Refusal :=
  s.run fun n => if n.clk.rc = .counting then (if ok then n.rcCounted else n.rcCountFails) else n

/-- XTAL has counted 65,536 cycles (R132). -/
def execXtalCountComplete (s : State) : Host.Outcome State Fault Refusal := s.run Node.xtalCounted

/-- R130, R150. -/
def execPllLockComplete (s : State) : Host.Outcome State Fault Refusal := s.run Node.locked

/-- R151. -/
def execPllLockFail (s : State) : Host.Outcome State Fault Refusal := s.run Node.lockFails

/-- R142. -/
def execXtalPllTrip (pll : Bool) (s : State) : Host.Outcome State Fault Refusal :=
  s.run fun n => if pll then n.tripPll else n.tripXtal

/-- R137. -/
def execRcTrip (s : State) : Host.Outcome State Fault Refusal := s.run Node.tripRc

/-- R136. -/
def execLseTrip (s : State) : Host.Outcome State Fault Refusal := s.run Node.tripLse

/-- A judging window ends (R126, Table 4.3). -/
def execRcTrimWindow (code : BitVec 10) (xtalCnt rcCnt : Nat) (s : State) : Host.Outcome State Fault Refusal :=
  s.run fun n => n.trimWindow code xtalCnt rcCnt

/-- R140. -/
def execClockSwitchDone (d : Domain) (s : State) : Host.Outcome State Fault Refusal := s.run fun n => n.switched d

/-- R141. -/
def execForcedSwitch (d : Domain) (s : State) : Host.Outcome State Fault Refusal := s.run fun n => n.forced d

/-- R149. -/
def execReturnPoint (s : State) : Host.Outcome State Fault Refusal := s.run Node.returnStart

/-- A write of CLK_CLKOUT (R158, R159). -/
def execClkoutWrite (w : Word) (s : State) : Host.Outcome State Fault Refusal := s.run fun n => n.clkoutSet w

/-- R130, 05 R199. -/
def execEdgesResume (lse : Bool) (s : State) : Host.Outcome State Fault Refusal := s.run fun n => n.edgesBack lse

end Sys2Proof.Machine
end

