-- ==== Sys2Proof/Machine/Loader.lean ====
section
/-! DEFINITION. The loader (02 Table 2.5, R70, R71, R614): the checks of an image in their order, the refusal code and its detail, and
the chapters' own constraints on what the image sets. -/

namespace Sys2Proof.Machine

/-- A refusal: its code, and SECTION and ITEM of SEC_LOAD_DETAIL. -/
structure LoadFail where
  code : Nat
  secNo : Nat
  item : Nat
deriving DecidableEq, Repr

/-- A directory entry (R51) and its place in the directory. -/
structure DirEntry where
  idx : Nat
  type : Nat
  mandatory : Bool
  off : Nat
  len : Nat
  crc : Nat
deriving DecidableEq, Repr

/-- The bytes of a bank, as far as they are asked for; an erased byte reads 0xFF. -/
def bankBytes (m : Tab Byte) (o k : Nat) : List Byte := (List.range k).map fun i => tget 0xFF m (o + i)
def bankNat (m : Tab Byte) (o k : Nat) : Nat := leNat (bankBytes m o k)

def imageMax : Nat := 8323072
def imageLen (m : Tab Byte) : Nat := bankNat m 8 4

def dirEntry (m : Tab Byte) (i : Nat) : DirEntry :=
  let o := 0x40 + 16 * i
  ⟨i, bankNat m o 1, natBit (bankNat m (o + 1) 1) 0, bankNat m (o + 4) 4, bankNat m (o + 8) 4, bankNat m (o + 12) 4⟩

/-- The directory, in increasing type order (R71). -/
def directory (m : Tab Byte) : List DirEntry := sortBy (·.type) ((List.range (bankNat m 0x38 2)).map (dirEntry m))

/-- The signed body and its hash (R54, R56), with byte 0 of the hash lowest. -/
def signedBody (m : Tab Byte) : List Byte := bankBytes m 0 (imageLen m - 128)
def bodyHash (m : Tab Byte) : BitVec 256 := BitVec.ofNat 256 (leNat (sha256 (signedBody m)))

/-! Lists of failing items, first one first. -/

abbrev Bad := List (Nat × Nat)

def badItems {α : Type} (sec : Nat) (l : List α) (f : Nat → α → Bool) : Bad := (l.zipIdx.filter fun x => f x.2 x.1).map fun x => (sec, x.2)

/-- A key that an earlier entry has too. -/
def repeats {α β : Type} [DecidableEq β] (l : List α) (key : α → Option β) (i : Nat) (x : α) : Bool :=
  match key x with
  | none => false
  | some k => (l.take i).any fun y => key y == some k

/-- The entry that takes a count past its limit, and those after it. -/
def pastCount {α : Type} (l : List α) (kind : α → Bool) (lim i : Nat) (x : α) : Bool := kind x && decide (lim ≤ ((l.take i).filter kind).length)

/-! What the sections define. -/

def secIdent : Nat := 1
def secClock : Nat := 2
def secPower : Nat := 3
def secRoute : Nat := 4
def secLoop : Nat := 5
def secDio : Nat := 6
def secFabric : Nat := 7
def secTune : Nat := 8
def secCall : Nat := 9
def secSolver : Nat := 10
def secMap : Nat := 11
def secRing : Nat := 12
def mandatoryTypes : List Nat := [secIdent, secClock, secPower, secFabric, secRing]

/-- A value source, against a boolean one (10 R309). -/
def Source.isValue : Source → Bool
  | .laneE _ | .zLoop _ | .zIso _ | .solvOut _ _ | .loopBand _ | .aoState _ => true
  | _ => false

/-- The fabric cell a source is the output of. -/
def Source.cell : Source → Option CellRef
  | .condOut c => some (.cond c)
  | .apActive p | .apUnack p | .apPresent p => some (.point p)
  | .grpActive g | .grpUnack g | .grpFoValid g => some (.group g)
  | .staleOf x => x.cell
  | _ => none

namespace Node

/-- The source exists (10 R308 to R310 and the chapters that define each family). -/
def sourceExists (n : Node) : Source → Bool
  | .laneE c | .zLoop c | .zIso c | .chOpen c | .chShort c | .chIsoLow c | .chTrend c | .chPinned c => (n.input c).isSome
  | .solvOut t k => (n.template t).any fun x => !x.host && decide (k < x.outputs.length)
  | .loopBand c | .loopFail c | .loopSat c => (n.input c).any (·.type == 5)
  | .aoState a | .aoLinkLost a | .aoMismatch a | .aoCompliance a => (n.island a).isSome
  | .dioIn p => (n.pin p).any (! ·.out)
  | .bankFault b | .wdExpired b => decide (b < 4)
  | .faultAny => true
  | .solvFault t | .solvCarrying t => (n.template t).any (! ·.host)
  | .dmPrewarn | .dmExpired => n.watch.isSome
  | .condOut c => (n.cond c).isSome
  | .apActive p | .apUnack p | .apPresent p => (n.point p).isSome
  | .grpActive g | .grpUnack g | .grpFoValid g => (n.group g).isSome
  | .staleOf x => (x.isValue || (match x with | .dioIn _ => true | _ => false)) && n.sourceExists x

/-- The nominal publish period of a value source in µs; 0 where it has none (10 R616). -/
def publishPeriod (n : Node) : Source → Nat
  | .laneE c => ((n.input c).bind fun i => n.laneCfg i.lane).elim 0 LaneCfg.period
  | .solvOut t _ => (n.template t).elim 0 fun x => x.period * 50000
  | _ => 0

end Node

/-! RESOURCE_COUNT (0x30). -/

def routeNum : RouteItem → Nat × Nat | .input c => (0, c.num) | .lane c => (1, c.num)
def isPoint : FabItem → Bool | .point _ => true | _ => false
def isCond : FabItem → Bool | .cond _ => true | _ => false
def isGroup : FabItem → Bool | .group _ => true | _ => false
def isLadder : CallItem → Bool | .ladder _ => true | _ => false
def isTemplate : SolvItem → Bool | .template _ => true | _ => false

def fabKey : FabItem → Option (Nat × Nat)
  | .point c => some (0, c.num)
  | .cond c => some (1, c.num)
  | .group c => some (2, c.num)
  | .order _ => none

def callKey : CallItem → Option (Nat × Nat)
  | .engineer c => some (0, c.num)
  | .room c => some (1, c.num)
  | .ladder c => some (2, c.num)
  | _ => none

def numOver (lims : List Nat) (k : Nat × Nat) : Bool := decide (lims.getD k.1 0 ≤ k.2)

def countFails (s : Sections) : Bad :=
  badItems secRoute s.route (fun _ x => numOver [48, 8] (routeNum x)) ++
  badItems secLoop s.loop (fun i x => match x with
    | .input c => decide (48 ≤ c.num)
    | .island c => decide (8 ≤ c.num) || repeats s.loop (fun | .island y => some y.num | .input _ => none) i x) ++
  badItems secDio s.dio (fun _ x => match x with | .pin c => decide (32 ≤ c.num) | .bank c => decide (4 ≤ c.num)) ++
  badItems secFabric s.fabric (fun i x =>
    pastCount s.fabric isPoint 1024 i x || pastCount s.fabric isCond 256 i x || pastCount s.fabric isGroup 128 i x ||
      (fabKey x).any (numOver [1024, 256, 128]) || repeats s.fabric fabKey i x ||
      (match x with | .cond c => decide (8 < c.inputs.length) | _ => false)) ++
  badItems secCall s.call (fun i x =>
    pastCount s.call isLadder 16 i x || (callKey x).any (numOver [8, 4, 16]) || repeats s.call callKey i x ||
      (match x with | .ladder c => decide (4 < c.rungs.length) | _ => false)) ++
  badItems secSolver s.solver (fun i x =>
    pastCount s.solver isTemplate 64 i x ||
      (match x with | .template c => decide (64 ≤ c.num) | _ => false) ||
      repeats s.solver (fun | .template c => some c.num | _ => none) i x) ++
  badItems secMap s.map (fun _ x => match x with | .port c => decide (6 ≤ c.num) | _ => false) ++
  badItems secRing s.ring (fun _ c => decide (16 ≤ c.node))

/-! PARAMETER_RANGE (0x31). -/

def outside (x lo hi : Nat) : Bool := decide (x < lo) || decide (hi < x)

/-- 04 R160. -/
def clockBad (c : ClockCfg) : Bool :=
  let need (w : Word) := bit w 0 && bit w 1 && bit w 2 && bit w 24 && bit w 25
  !need c.runEn || !need c.sleepEn || bit c.sleepEn 16 || (c.deepEn &&& 0x00FFFFFF) != 0

/-- 03 Table 3.14: 0b11 for an island. -/
def powerBad (c : PowerCfg) : Bool := (List.range 8).any fun a => c.losAo.toNat / 4 ^ a % 4 == 3

/-- The lasting of one impedance check in µs (06 Table 6.4, R214). -/
def checkTime (t : Nat) : Nat := if Node.hasLoop t then 40986 else 20506

def subtypeBad (t s : Nat) : Bool :=
  match t with
  | 1 | 2 | 3 => decide (1 < s)
  | 4 => decide (7 < s)
  | _ => s != 0

def excTypes (t : Nat) : Bool := t == 1 || t == 2 || t == 3 || t == 7 || t == 8

/-- 06 R228, Table 6.2. -/
def excBad (c : InputCfg) : Bool :=
  let lim := if c.type = 8 then (25, 250) else (10, 255)
  excTypes c.type &&
    (outside c.excLo lim.1 lim.2 || outside c.excHi lim.1 lim.2 || decide (c.excMin < c.excLo) || decide (c.excMax < c.excMin) ||
      decide (c.excHi < c.excMax) || outside c.forceVal c.excLo c.excHi)

def rising : List (B64 × B64) → Bool
  | (a, _) :: (b, y) :: r => b64Lt a b && rising ((b, y) :: r)
  | _ => true

def scalingBad : Scaling → Bool
  | .pwl l => outside l.length 2 16 || !rising l
  | _ => false

def inputBad (c : InputCfg) : Bool :=
  outside c.type 1 8 || subtypeBad c.type c.subtype || decide (7 < c.lane) || outside c.period 1 3600 || outside c.openLim 1 1000000 ||
    outside c.shortLim 1 1000000 || decide (c.openLim ≤ c.shortLim) || outside c.isoMin 10 5000 || outside c.trendLoop 5 500 ||
    outside c.trendIso 10 90 || outside c.snrTgt 40 120 || excBad c || scalingBad c.scaling

/-- The check durations of the inputs up to an entry take more than 0.8 of their periods (06 R228). -/
def checkLoad (l : List RouteItem) : Rat :=
  l.foldl (fun a x => match x with | .input c => a + (checkTime c.type : Rat) / ((max 1 c.period * 1000000 : Nat) : Rat) | .lane _ => a) 0

def overLoad (l : List RouteItem) (i : Nat) (x : RouteItem) : Bool :=
  (match x with | .input _ => true | .lane _ => false) && decide ((4 : Rat) / 5 < checkLoad (l.take (i + 1)))

/-- 08 Table 8.4. -/
def spanBad (lo hi : B64) : Bool := !b64Finite lo || !b64Finite hi || (b64Le lo hi && b64Le hi lo)

def scaledCurrent (s : Sections) (c : Nat) : Bool := s.loop.any fun | .input y => y.num == c | .island _ => false

/-- 09 R303. -/
def dioBad : DioItem → Bool
  | .pin c => c.out && (c.wbEn || c.wake)
  | .bank c => outside c.wdTimeout 1 1000 || outside c.filter 1 255

def negative (x : B64) : Bool := b64Lt x 0

/-- 10 Table 10.7, R337. -/
def pointBad (n : Node) (c : PointCfg) : Bool :=
  let valued := c.src.isValue
  let cmp := c.sense == .high || c.sense == .low
  (valued != cmp) || (valued && (!b64Finite c.th || !b64Finite c.hys || negative c.hys)) || decide (72000 < c.onDelay) ||
    decide (72000 < c.offDelay) || decide (72000 < c.suppHold) || decide (3 < c.prio) || c.supp.any Source.isValue || outside c.staleAge 2 1200 ||
    (valued && decide (2 * 50000 * c.staleAge < 15 * n.publishPeriod c.src)) || decide (1728000 < c.shelveMax) || (c.prio == 0 && c.shelveMax != 0)

def condBad (c : CondCfg) : Bool :=
  c.inputs.isEmpty || c.inputs.any (·.src.isValue) || (c.op == .not && c.inputs.length != 1) || (c.op == .kofn && outside c.k 1 c.inputs.length)

def tuneRange (n : Node) (c : TuneCfg) : Bool :=
  outside c.item 2 6 || (decide (c.item ≤ 3) && (n.point c.cell).any fun p => !p.src.isValue) || (c.item == 3 && (negative c.lo || negative c.hi))

/-- 11 Table 11.3. -/
def callBad (n : Node) : CallItem → Bool
  | .engineer _ | .room _ => false
  | .dutyAtStart e => !(n.engineer e).any (·.present)
  | .ladder c =>
    outside c.triggers.length 1 8 || c.rungs.isEmpty || c.rungs.any (fun r => outside r.timer 600 36000 || r.timer % 20 != 0) ||
      c.triggers.any (fun | .src x => x.isValue | _ => false)
  | .watch c => outside c.period 180 1800 || outside c.warn 30 180 || decide (c.period ≤ c.warn)

/-- The kinds of EXT_PORTp_CFG that a port can have (17 Tables 17.1 and 17.9). -/
def portKinds (p : Nat) : List Nat := [[0, 1, 2], [0, 1, 2], [0, 3], [0, 4], [0, 5], [0, 5]].getD p []

/-- 17 R514, R522 to R540. -/
def mapBad : MapItem → Bool
  | .port c =>
    !(portKinds c.num).contains c.kind || (c.duplicate && c.num != 5) || (c.kind == 3 && decide (4 < c.rate)) || (c.modbus && outside c.mbAddr 1 247) || (c.kind == 4 && decide (251 < c.prefAddr)) ||
      (c.sentences && outside c.alertSet 1 3)
  | .alert c => c.alrNum.any (fun a => decide (999 < a)) || outside c.ident 1 9999999 || outside c.inst 1 999999 || decide (16 < c.text.length) || decide (1 < c.category)
  | .modbus _ | .engine _ => false

def countBits (w : BitVec 16) : Nat := ((List.range 16).filter fun i => bit w i).length

/-- The size of the epoch state of 16 Table 16.3. -/
def stateSize (n : Node) : Nat :=
  32 + 16 * n.points.length + 8 * n.groups.length + 8 * n.ladders.length + 20 * n.tunes.length +
    ((n.templates.filter (! ·.host)).map Node.templBytes).foldl (· + ·) 0

/-- 15 R471, 16 R511, 05 R193. -/
def ringBad (n : Node) (mask : BitVec 16) (l : List RingCfg) (c : RingCfg) : Bool :=
  outside c.hold 10 56 || !bit c.members c.node || !bit mask c.node || !(l.any fun e => bit mask e.node && e.refEligible) ||
    c.partner.any fun p =>
      p == c.node || !bit mask p || decide (countBits c.members < 3) || decide (c.hold < 55) || decide (50000 < stateSize n)

def rangeFails (n : Node) (mask : BitVec 16) (s : Sections) : Bad :=
  badItems secClock [s.clock] (fun _ c => clockBad c) ++ badItems secPower [s.power] (fun _ c => powerBad c) ++
  badItems secRoute s.route (fun i x => (match x with
    | .input c => inputBad c || (c.type == 5 && !scaledCurrent s c.num)
    | .lane _ => false) || overLoad s.route i x) ++
  badItems secLoop s.loop (fun _ x => match x with
    | .input c => spanBad c.lo c.hi || decide (600 < c.clrTime)
    | .island c => !c.src.isValue || spanBad c.lo c.hi || decide (2 < c.hbMode) || decide (2 < c.badMode) || outside c.hbTimeout 5 500) ++
  badItems secDio s.dio (fun _ x => dioBad x) ++
  badItems secFabric s.fabric (fun _ x => match x with | .point c => pointBad n c | .cond c => condBad c | _ => false) ++
  badItems secTune s.tune (fun _ c => tuneRange n c) ++ badItems secCall s.call (fun _ x => callBad n x) ++
  badItems secSolver s.solver (fun _ x => match x with | .region b k => decide (256 < b + k) | .template _ => false) ++
  badItems secMap s.map (fun _ x => mapBad x) ++ badItems secRing s.ring (fun _ c => ringBad n mask s.ring c) ++
  (if (List.range 16).all fun k => !bit mask k || s.ring.any (·.node == k) then [] else [(secRing, s.ring.length)])

/-! PIN_CONFLICT (0x32). -/

/-- The pins a CALL entry uses as outputs and as inputs. -/
def callOuts : CallItem → List Nat
  | .engineer c => [c.cabin]
  | .room c => [c.sounder]
  | .watch c => c.prewarnOut.toList
  | _ => []

def callIns : CallItem → List Nat
  | .engineer c => c.ackIn.toList
  | .room c => c.ackIn.toList
  | .watch c => c.startIn.toList ++ c.stopIn.toList ++ c.resetIn.toList
  | _ => []

def twice : List Nat → Bool
  | [] => false
  | x :: r => r.contains x || twice r

def callPins (x : CallItem) : List Nat := callOuts x ++ callIns x

/-- A call output that a fabric cell drives, a pin of the wrong direction, or a pin used before (11 R357). -/
def callPinBad (n : Node) (l : List CallItem) (i : Nat) (x : CallItem) : Bool :=
  (callOuts x).any (fun p => (n.pin p).any fun c => !c.out || (match c.src with | some (.cell _) => true | _ => false)) ||
    (callIns x).any (fun p => (n.pin p).any (·.out)) || twice (callPins x) ||
    (callPins x).any fun p => (l.take i).any fun y => (callPins y).contains p

def pinFails (n : Node) (s : Sections) : Bad :=
  badItems secRoute s.route (fun i x => repeats s.route (fun | .input c => some c.num | .lane _ => none) i x) ++
  badItems secLoop s.loop (fun i x => repeats s.loop (fun | .input c => some c.num | .island _ => none) i x) ++
  badItems secDio s.dio (fun i x => repeats s.dio (fun | .pin c => some c.num | .bank _ => none) i x ||
    (match x with | .pin c => !c.out && c.src.isSome | .bank _ => false)) ++
  badItems secCall s.call (callPinBad n s.call)

/-! REFERENCE (0x33). -/

def optMissing (n : Node) (x : Option Source) : Bool := x.any fun y => !n.sourceExists y

/-- A template invoked earlier in every tick that invokes this one (12 R395). -/
def invokedEarlier (n : Node) (c : TemplateCfg) (t k : Nat) : Bool :=
  (n.template t).any fun u => !u.host && decide (t < c.num) && decide (k < u.outputs.length) && u.period != 0 && c.period % u.period == 0 &&
    c.phase % u.period == u.phase % u.period

def templateRef (n : Node) (c : TemplateCfg) : Bool :=
  c.faultAp.any (fun p => (n.point p).isNone) ||
    c.inputs.any fun
      | .const _ => false
      | .src x _ => !n.sourceExists x || !x.isValue
      | .tmpl t k _ => !invokedEarlier n c t k

/-- An item of this node or its partner must exist (17 R515); those of other nodes cannot be judged here. -/
def ownItem (n : Node) (owner : Nat) : Bool := owner == n.sys.node || n.partner == some owner

def mapRef (n : Node) : MapItem → Bool
  | .port _ => false
  | .alert c => ownItem n c.owner && (match c.item with | .point p => (n.point p).isNone | .ladder l => (n.ladder l).isNone)
  | .modbus c =>
    match c.item with
    | .bool x | .value x | .scaled x _ => !n.sourceExists x
    | .pointBit o p _ | .stateWord o p | .ackPoint o p => ownItem n o && (n.point p).isNone
    | .ackGroup o g => ownItem n o && (n.group g).isNone
    | .callAck o l => ownItem n o && (n.ladder l).isNone
    | .tunable c i => (n.tune c i).isNone
  | .engine c => optMissing n c.src

def callRef (n : Node) (x : CallItem) : Bool :=
  (callPins x).any (fun p => (n.pin p).isNone) ||
    (match x with
    | .ladder c =>
      c.triggers.any (fun
        | .point p => (n.point p).isNone
        | .group g => (n.group g).isNone
        | .src y => !n.sourceExists y) ||
      c.rungs.any fun r => r.targets.any fun t => match t.1 with | .room k => !n.rooms.any (·.num == k) | _ => false
    | _ => false)

def refFails (n : Node) (s : Sections) : Bad :=
  badItems secLoop s.loop (fun _ x => match x with
    | .input c => !(n.input c.num).any (·.type == 5)
    | .island c => !n.sourceExists c.src) ++
  badItems secDio s.dio (fun _ x => match x with
    | .pin c => (match c.src with | some (.cell y) => !n.sourceExists y | some .call => !s.call.any (fun y => (callOuts y).contains c.num) | none => false)
    | .bank _ => false) ++
  badItems secFabric s.fabric (fun _ x => match x with
    | .point c => !n.sourceExists c.src || optMissing n c.supp || c.group.any fun g => (n.group g).isNone
    | .cond c => c.inputs.any fun i => !n.sourceExists i.src
    | _ => false) ++
  badItems secTune s.tune (fun _ c => (n.point c.cell).isNone) ++ badItems secCall s.call (fun _ x => callRef n x) ++
  badItems secSolver s.solver (fun _ x => match x with | .template c => templateRef n c | .region _ _ => false) ++
  badItems secMap s.map (fun _ x => mapRef n x) ++
  badItems secRing s.ring (fun _ c => c.partner.any fun p => !bit c.members p)

/-! FABRIC_ORDER (0x40). -/

def placeOf (n : Node) (c : CellRef) : Nat := n.evalOrder.findIdx (· == c)

/-- A cell that a source names stands at or after the cell at `k`. -/
def notBefore (n : Node) (k : Nat) (x : Source) : Bool := x.cell.any fun c => decide (k ≤ placeOf n c)

def cellDefined (n : Node) : CellRef → Bool
  | .cond c => (n.cond c).isSome
  | .point p => (n.point p).isSome
  | .group g => (n.group g).isSome

/-- What fails at an entry of the FABRIC section. A defined cell that the order leaves out is reported at the last entry of the
evaluation order, the one that could still have named it (log entry 100). -/
def orderItemBad (n : Node) (l : List FabItem) (i : Nat) : FabItem → Bool
  | .cond c => let k := placeOf n (.cond c.num); c.inputs.any fun x => notBefore n k x.src
  | .point c => let k := placeOf n (.point c.num); notBefore n k c.src || c.supp.any (notBefore n k)
  | .group c => let k := placeOf n (.group c.num); (n.members c.num).any fun p => decide (k ≤ placeOf n (.point p.num))
  | .order o =>
    let before := (l.take i).flatMap fun | .order x => x | _ => []
    let later := (l.drop (i + 1)).any fun | .order _ => true | _ => false
    let all := before ++ o
    o.zipIdx.any (fun x => !cellDefined n x.1 || (before ++ o.take x.2).contains x.1) ||
      (!later && l.any fun
        | .cond c => !all.contains (.cond c.num)
        | .point c => !all.contains (.point c.num)
        | .group c => !all.contains (.group c.num)
        | .order _ => false)

/-- With no evaluation order at all, the first cell is the one left out. -/
def orderFails (n : Node) (s : Sections) : Bad :=
  if s.fabric.any fun | .order _ => true | _ => false then badItems secFabric s.fabric (orderItemBad n s.fabric)
  else badItems secFabric s.fabric fun _ _ => true

/-! LANE_SCHEDULE (0x41, 07 R235 to R237, R259). -/

/-- A slot's length in µs (Table 7.1). -/
def slotTimes : List Nat := [16074, 8074, 4074]

def laneBad (n : Node) (c : LaneCfg) : Bool :=
  let own := (n.inputs.filter (·.lane == c.num)).map (·.num)
  let names := c.slots.any (fun x => !own.contains x) || twice c.slots || own.any fun x => !c.slots.contains x
  match own.length with
  | 0 => c.mode != 0 || !c.slots.isEmpty
  | 1 => c.mode != 1 || decide (8 < c.rate) || names || decide (1 < c.sleep.toNat)
  | k =>
    decide (16 < k) || c.mode != 2 || decide (2 < c.rate) || decide (5 < c.cycle) || names || decide (16 < c.slots.length) ||
      decide (cyclePeriods.getD c.cycle 0 < c.slots.length * slotTimes.getD c.rate 0 + 100) || decide (2 ^ c.slots.length ≤ c.sleep.toNat)

def laneFails (n : Node) (s : Sections) : Bad :=
  badItems secRoute s.route fun _ x => match x with
    | .lane c => laneBad n c
    | .input c => match n.laneCfg c.lane with | none => true | some l => c.sole != (l.mode == 1)

/-! TEMPLATE and SOLVER_BUDGET (0x51, 0x50; 12 R366, R393 to R395). -/

def up (a b : Nat) : Nat := (a + b - 1) / b

/-- f and d of 12 Table 12.2. -/
def costFd (op m n k : Nat) : Nat × Nat :=
  match op with
  | 1 => (up (n ^ 3) 6 + n * n, 2 * n)
  | 2 => (up (n ^ 3) 3, n)
  | 3 => (m * n * n - up (n ^ 3) 3, 2 * n)
  | 4 => (m * up (n * (n + 1)) 2, n)
  | 5 => (m * up (n * (n + 1)) 2, n)
  | 6 => (m * n * n - up (n ^ 3) 3 + 2 * m * n + up (n * n) 2, 3 * n)
  | 7 => (up (n ^ 3) 3 + (2 * k + 1) * n * n, n)
  | 8 => (m * n * n - up (n ^ 3) 3 + 2 * m * n + up (n * n) 2 + n, 3 * n)
  | _ => (5 * n ^ 3 + 4 * n * n * m + 2 * n * m * m + up (m ^ 3) 6, 2 * m)

/-- The cost of a job in SYSCLK cycles (R366). -/
def jobCost (op b m n k : Nat) : Nat :=
  let (f, d) := costFd op m n k
  let w := wordsIn op m n + wordsOut op m n + (if op = 9 then 2 * n * n else 0)
  1024 + b * (up f 4 + up w 4 + 8 * d + 32)

def TemplateCfg.cost (c : TemplateCfg) : Nat := jobCost c.op c.b c.m c.n c.k

/-- Cycles per epoch (R394). -/
def TemplateCfg.load (c : TemplateCfg) : Nat := c.cost * (if c.host then c.hostMax else 20 / max 1 c.period)

def invokedAt (c : TemplateCfg) (i : Nat) : Bool := !c.host && c.period != 0 && (i + c.period - c.phase % c.period) % c.period == 0

def needsM (op : Nat) : Bool := op != 1 && op != 2 && op != 7

def matrixBad (c : TemplateCfg) : Bool :=
  outside c.op 1 9 || outside c.b 1 64 || outside c.n 1 32 || (needsM c.op && outside c.m 1 32) ||
    ((c.op == 3 || c.op == 6 || c.op == 8) && decide (c.m < c.n)) ||
    (c.op == 7 && (outside c.k 1 8 || !b64Finite c.tol || !b64Lt 0 c.tol)) ||
    ((c.f.isSome || c.q.isSome) && decide (c.op < 6)) || c.f.any (·.length != c.n * c.n) || c.q.any (·.length != c.n * c.n) ||
    !b64Finite c.thr || negative c.thr

/-- The scheduled templates of a tick cost more than the deadline allows at 80 MHz. -/
def deadlineBad (all : List TemplateCfg) (c : TemplateCfg) : Bool :=
  let most := (all.map TemplateCfg.cost).foldl max 0
  (List.range 20).any fun i =>
    invokedAt c i && decide (c.deadline * 800 < ((all.filter (invokedAt · i)).map TemplateCfg.cost).foldl (· + ·) 0 + most)

def templateBad (all : List TemplateCfg) (c : TemplateCfg) : Bool :=
  matrixBad c || (c.carry && outside c.carryMax 1 255) ||
    (if c.host then c.carry || outside c.deadline 100 100000 || outside c.hostMax 1 255
     else !tmplPeriods.contains c.period || decide (c.period ≤ c.phase) || outside c.deadline 100 (c.period * 5000) || decide (32 < c.outputs.length) ||
       c.outputs.any (fun o => decide (c.b ≤ o.mat) || decide (wordsOut c.op c.m c.n ≤ o.word) || scalingBad o.scaling) ||
       c.inputs.length != c.b * wordsIn c.op c.m c.n || (c.op == 9 && (c.initX.length != c.b * c.n || c.initP.length != c.b * c.n * c.n)) ||
       deadlineBad all c)

/-- The entry that takes SCHED_RSV past 12 (R395). -/
def overSlots (l : List SolvItem) (i : Nat) : Bool :=
  let all := (l.take (i + 1)).filterMap fun | .template c => some c | _ => none
  (List.range 20).any fun t => decide (12 < (all.filter (invokedAt · t)).length)

/-- The fault alarm is an alarm point whose source is the template's FAULT (Table 12.5); one that does not exist is 0x33. -/
def alarmBad (n : Node) (c : TemplateCfg) : Bool := c.faultAp.any fun p => (n.point p).any (·.src != .solvFault c.num)

def templateFails (n : Node) (s : Sections) : Bad :=
  badItems secSolver s.solver fun i x => match x with
    | .template c => templateBad n.templates c || alarmBad n c || overSlots s.solver i
    | .region _ _ => false

def budgetFails (s : Sections) : Bad :=
  badItems secSolver s.solver fun i x => match x with
    | .template _ =>
      decide (72000000 < ((s.solver.take (i + 1)).map fun | .template c => c.load | .region _ _ => 0).foldl (· + ·) 0)
    | .region _ _ => false

/-! TUNE_BOUNDS (0x60) and MAP_CONFLICT (0x70). -/

/-- A tunable's value lies in its item's range (10 Table 10.7). -/
def itemRange (item : Nat) (v : B64) : Bool :=
  if item = 2 then b64Finite v else if item = 3 then b64Finite v && !negative v else decide (v.toNat ≤ 72000)

def valueLe (item : Nat) (a b : B64) : Bool := if item ≤ 3 then b64Le a b else decide (a.toNat ≤ b.toNat)

def tuneFails (s : Sections) : Bad :=
  badItems secTune s.tune fun i c =>
    !valueLe c.item c.lo c.hi || !itemRange c.item c.lo || !itemRange c.item c.hi || repeats s.tune (fun x => some (x.cell, x.item)) i c ||
      (match c.dflt with | none => true | some d => !valueLe c.item c.lo d || !valueLe c.item d c.hi)

def registersOf (m : ModbusCfg) : Nat := match m.item with | .value _ | .tunable _ _ => 4 | _ => 1

def mapClash : MapItem → MapItem → Bool
  | .alert a, .alert b =>
    let shared := a.ports.filter b.ports.contains
    let can (x : AlertCfg) := x.ports.contains 3
    let line (x : AlertCfg) := x.ports.any (· != 3)
    (!shared.isEmpty && a.alrNum.isSome && a.alrNum == b.alrNum) || (line a && line b && a.ident == b.ident && a.inst == b.inst) ||
      (can a && can b && a.n2kIdent == b.n2kIdent && a.n2kOcc == b.n2kOcc)
  | .modbus a, .modbus b => a.space == b.space && decide (a.addr < b.addr + registersOf b) && decide (b.addr < a.addr + registersOf a)
  | .port a, .port b => a.num == b.num
  | _, _ => false

def mapFails (s : Sections) : Bad := badItems secMap s.map fun i x => (s.map.take i).any (mapClash x)

/-! The checks in order (R70). -/

/-- 02 R52: an entry breaks the layout, has the type of an earlier one, or overlaps one. -/
def dirBad (len : Nat) (before : List DirEntry) (e : DirEntry) : Bool :=
  e.off % 256 != 0 || decide (e.off < 256) || decide (len < e.off + e.len + 128) ||
    before.any fun x => x.type == e.type || (decide (e.off < x.off + x.len) && decide (x.off < e.off + e.len))

def dirFail (len : Nat) : List DirEntry → List DirEntry → Option DirEntry
  | _, [] => none
  | before, e :: r => if dirBad len before e then some e else dirFail len (before ++ [e]) r

/-- Unknown types flagged mandatory, and missing mandatory types, in type order. -/
def unknownFail (l : List DirEntry) : Option (Nat × Nat) :=
  let unknown := (l.filter fun e => outside e.type 1 12 && e.mandatory).map fun e => (e.type, e.idx)
  let missing := (mandatoryTypes.filter fun t => !l.any (·.type == t)).map fun t => (t, 0xFFFF)
  (sortBy (·.1) (missing ++ unknown)).head?

def firstBad (code : Nat) (l : Bad) : Option LoadFail := l.head?.map fun x => ⟨code, x.1, x.2⟩

namespace Node

/-- The key ID the node accepts, the signer, and the public key (R59, R61). -/
def keyIdOf (key : List Byte) : BitVec 64 := BitVec.ofNat 64 (leNat ((sha256 key).take 8))

def acceptedKey (n : Node) : Nat × List Byte :=
  if n.sec.enrolled then (1, ((n.stor.ident.cert.bind Config.parseCertificate).elim [] (·.1))) else (0, Config.rootKey)

/-- Checks 1 to 7. The signer of check 6 is named twice, by the header (R50) and by the signature block (R53), and both must be the
accepted one; r and s are multi-byte fields of the image and so little-endian (log entry 98). -/
def headChecks (n : Node) (m : Tab Byte) (written : Nat) : Option Nat :=
  let len := imageLen m
  let sig := len - 128
  let (signer, key) := n.acceptedKey
  let keyId := if n.sec.enrolled then n.sec.keyId else keyIdOf key
  if bankBytes m 0 4 ≠ [0x43, 0x4B, 0x53, 0x49] ∨ bankBytes m sig 4 ≠ [0x43, 0x4B, 0x53, 0x47] then some 0x01
  else if bankNat m 4 2 ≠ 1 ∨ bankNat m 6 2 ≠ 0x100 then some 0x02
  else if imageMax < len ∨ len ≠ written then some 0x03
  else if n.stor.ident.issue < bankNat m 0xC 1 then some 0x04
  else if !natBit (bankNat m 0xE 2) n.sys.node then some 0x05
  else if bankNat m 0xD 1 ≠ signer ∨ bankNat m (sig + 4) 1 ≠ signer ∨ bankNat m (sig + 8) 8 ≠ keyId.toNat then some 0x10
  else if !ecdsaOk key (signedBody m) (bankNat m (sig + 16) 32) (bankNat m (sig + 48) 32) then some 0x12
  else none

/-- Checks 8 to 10. An entry of unknown type that is not mandatory is ignored (R49) only as to what it builds: the layout rules of R52
and the CRC of Table 2.5 speak of every entry, and hold for it too (log entry 99). -/
def layoutChecks (m : Tab Byte) : Option LoadFail :=
  let l := directory m
  let cnt := bankNat m 0x38 2
  if outside cnt 1 12 then some ⟨0x20, 0, 0⟩
  else match dirFail (imageLen m) [] l with
    | some e => some ⟨0x20, e.type, e.idx⟩
    | none =>
      match unknownFail l with
      | some (t, i) => some ⟨0x22, t, i⟩
      | none => (l.find? fun e => crc32 (bankBytes m e.off e.len) != e.crc).map fun e => ⟨0x21, e.type, e.idx⟩

/-- Checks 11 to 20, on a node that had the image. -/
def contentChecks (n : Node) (mask : BitVec 16) (s : Sections) : Option LoadFail :=
  [(0x30, countFails s), (0x31, rangeFails n mask s), (0x32, pinFails n s), (0x33, refFails n s), (0x40, orderFails n s), (0x41, laneFails n s),
    (0x51, templateFails n s), (0x50, budgetFails s), (0x60, tuneFails s), (0x70, mapFails s)].findSome? fun x => firstBad x.1 x.2

/-- The bytes of the section of a type, if the image has it. -/
def sectionBytes (m : Tab Byte) (t : Nat) : Option (List Byte) :=
  ((directory m).find? (·.type == t)).map fun e => bankBytes m e.off e.len

/-- The sections of a bank's image (Table 2.1): each builds its own part, an absent one builds nothing, and an entry of another type
builds nothing (R49). −0 as a pivot threshold is stored as +0 (13 R418). -/
def sectionsOf (m : Tab Byte) : Sections :=
  let items {α : Type} (t : Nat) (f : List Byte → List α) : List α := (sectionBytes m t).elim [] f
  { ident := (sectionBytes m secIdent).elim default Config.parseIdent
    clock := (sectionBytes m secClock).elim default Config.parseClock
    power := (sectionBytes m secPower).elim default Config.parsePower
    route := items secRoute Config.parseRoute
    loop := items secLoop Config.parseLoop
    dio := items secDio Config.parseDio
    fabric := items secFabric Config.parseFabric
    tune := items secTune Config.parseTune
    call := items secCall Config.parseCall
    solver := (items secSolver Config.parseSolver).map fun
      | .template c => .template { c with thr := if b64IsZero c.thr then 0 else c.thr }
      | x => x
    map := items secMap Config.parseMap
    ring := items secRing Config.parseRing }

/-- The image a bank holds. -/
def imageOf (b : BankSt) : Image := ⟨sectionsOf b.bytes, bodyHash b.bytes, b.gen, BitVec.ofNat 16 (bankNat b.bytes 0xE 2)⟩

/-- Every check of Table 2.5 on a bank: the first failure. A page that failed its last program fails check 7 (19 R579, log entry 32). -/
def checkImage (n : Node) (b : BankSt) : Option LoadFail :=
  match n.headChecks b.bytes b.written with
  | some c => some ⟨c, 0, 0⟩
  | none =>
    if b.bad then some ⟨0x12, 0, 0⟩
    else match layoutChecks b.bytes with
      | some f => some f
      | none => let i := imageOf b; contentChecks { n with img := some i } i.nodeMask i.sec

end Node

end Sys2Proof.Machine
end

