-- ==== Sys2Proof/Machine/Security.lean ====
section
/-! DEFINITION. Keys, maintenance mode, the loader's commands and image writes (02, 18 R570, R571, 20 R603). -/

namespace Sys2Proof.Machine

def unlockFirst : Word := 0x00004B56
def unlockSecond : Word := 0x0000564B

namespace Node

def secFlag (n : Node) (i : Nat) : Node := n.mSec fun s => { s with flags := setBit s.flags i }

/-- The inactive bank, true for B: the one that is not ACTIVE (R67). With both ACTIVE it is the one that does not run; with none
ACTIVE, on an unconfigured node, bank B (log entry 101). -/
def inactive (n : Node) : Bool :=
  if n.sec.b.state = 5 ∧ n.sec.a.state ≠ 5 then false else if n.sec.a.state = 5 ∧ n.sec.b.state ≠ 5 then true else !n.sec.runB

def inactiveBank (n : Node) : BankSt := n.bankOf n.inactive

/-- A write to a SEC register restarts the 60 min of R64. -/
def secTouch (n : Node) : Node := n.mSec fun s => { s with lastWrite := n.now }

/-- A bank's state and hash change, with their entry in the bank record (19 R581). -/
def bankMove (n : Node) (b : Bool) (state : Nat) (hash : BitVec 256) : Node :=
  let n := n.updBank b fun s => { s with state := state, hash := hash }
  n.flashAdd (.bank b ⟨state, (n.bankOf b).gen, hash⟩)

/-! Maintenance mode (R62 to R66). -/

def enterMaint (n : Node) : Node :=
  let n := n.mSec fun s => { s with maint := true, unlockStep := false, restarts := 0, lastWrite := n.now }
  n.later (n.configBody 0 3 0 [])

/-- Forces made in maintenance mode end with it (08 R277, 09 R302). -/
def leaveMaint (n : Node) (cause : Nat) : Node :=
  if !n.sec.maint then n
  else
    let n := n.mSec fun s => { s with maint := false }
    (n.later (n.configBody 0 4 cause [])).endAoForces.endDioForces

/-- R63: a restarted sequence; the third locks unlock writes out. -/
def unlockRestart (n : Node) : Node :=
  (n.secFlag 0).mSec fun s =>
    if 2 ≤ s.restarts then { s with unlockStep := false, restarts := 0, lockout := true }
    else { s with unlockStep := false, restarts := s.restarts + 1 }

/-- A write of SEC_UNLOCK (R62, R63). In maintenance mode it only restarts the 60 min of R64: there is nothing to unlock (log entry 102). -/
def unlockWrite (n : Node) (v : Word) (t : Nat) : Node :=
  let n := (n.setNow t).secTouch
  if n.sec.maint then n
  else if n.sec.lockout then n.secFlag 0
  else if !n.sec.keySw then n.unlockRestart
  else if n.sec.unlockStep then
    if v = unlockSecond ∧ n.now ≤ n.sec.unlockAt + 10000 then n.enterMaint else n.unlockRestart
  else if v = unlockFirst then n.mSec fun s => { s with unlockStep := true, unlockAt := n.now }
  else n.unlockRestart

/-- The loop on X9.3 (20 R603): between its two limits the manual gives no reading. An opening breaks the 100 ms of R62. -/
def keyLoop (n : Node) (ohms : Nat) : Node :=
  let closed := if ohms ≤ 100 then true else if 10000 ≤ ohms then false else Config.keyReads ohms n.sec.keyClosed
  let n := n.mSec fun s => { s with keyClosed := closed, keySw := s.keySw && closed }
  if !closed && n.sec.unlockStep then n.unlockRestart else n

def keySettled (n : Node) : Node :=
  let n := n.mSec fun s => { s with keySw := s.keyClosed }
  if n.sec.keySw then n else n.leaveMaint 1

/-! Commands (Table 2.3). -/

def imgResult (n : Node) (code : Nat) : Node :=
  let n := n.mSec fun s => { s with result := code }
  if code = 0 then n else n.secFlag 1

/-- A command's refusal: BUSY before the codes of Table 2.3 (18 R571). -/
def imgCode (n : Node) (code : Nat) : Nat := if n.sec.busy ≠ 0 then 0x87 else code

def eraseCode (n : Node) : Nat := if !n.sec.maint then 0x82 else if n.sec.act.isSome then 0x83 else 0
def openCode (n : Node) : Nat := if !n.sec.maint then 0x82 else if n.inactiveBank.state ≠ 0 then 0x83 else 0
def closeCode (n : Node) : Nat := if n.inactiveBank.state = 1 ∧ !n.inactiveBank.stuck then 0 else 0x83
def checkCode (n : Node) : Nat :=
  let s := n.inactiveBank.state
  if n.sec.act.isSome || !(s == 2 || s == 3 || s == 4) then 0x83 else 0

/-- R67, R76: the codes in the order of Table 2.3, where 0x83 comes before 0x85, also when its reason is the full bank record of 19
R581. -/
def activateCode (n : Node) : Nat :=
  let b := n.inactiveBank
  if !n.sec.maint then 0x82
  else if !n.ownDuty then 0x80
  else if b.state ≠ 3 then 0x81
  else if n.sec.act.isSome || !n.bankSlotFree n.inactive then 0x83
  else if n.img.any (·.hash == b.hash) then 0x85
  else 0

/-- The certificate in the inactive bank (R60). -/
def certificate (n : Node) : Option (List Byte × Word × List Byte) :=
  let l := bankBytes n.inactiveBank.bytes 0 n.inactiveBank.written
  match Config.parseCertificate l with
  | none => none
  | some (key, id, signed, r, s) => if ecdsaOk Config.rootKey signed r s then some (key, id, l) else none

def enrolCode (n : Node) : Nat :=
  if !n.sec.maint then 0x82 else if n.sec.enrolled then 0x84 else if n.certificate.isNone then 0x11 else 0

/-- A command that passes its conditions has its effect; another only its code. -/
def imgCommand (n : Node) (code : Nat) (f : Node → Node) : Node :=
  let n := n.secTouch
  if code = 0 then f (n.imgResult 0) else n.imgResult code

def imgErase (n : Node) : Node :=
  n.imgCommand (n.imgCode n.eraseCode) fun n => (n.mSec fun s => { s with busy := 1 }).flashAdd (.bankErase n.inactive 0)

/-- The bank is EMPTY (Table 2.4, 19 R582). Its generation stays shown until the next activation writes one (log entry 103). -/
def imgErased (n : Node) : Node :=
  if n.sec.busy ≠ 1 ∨ n.stor.state = 2 then n
  else
    let b := n.inactive
    let mine (op : FlashOp) : Bool := match op with | .bankErase x _ => x == b | _ => false
    let left := (n.stor.cur.any mine) || (n.stor.susp.any mine) || n.stor.wait.any mine
    let n := n.mStor fun s => { s with wait := s.wait.filter (! mine ·), susp := s.susp.filter (! mine ·) }
    let n := if left then (n.erasedSector (bankSector b)).appendBank b ⟨0, (n.bankOf b).gen, 0⟩ else n
    let n := if n.stor.cur.any mine then n.pickNext else n
    let n := n.updBank b fun s => { gen := s.gen }
    (n.mSec fun s => { s with busy := 0 }).irqEvent 5

def imgOpen (n : Node) : Node :=
  n.imgCommand (n.imgCode n.openCode) fun n =>
    (n.updBank n.inactive fun s => { s with written := 0, stuck := false, bad := false }).bankMove n.inactive 1 0

def imgClose (n : Node) : Node := n.imgCommand (n.imgCode n.closeCode) fun n => n.bankMove n.inactive 2 0
def imgCheck (n : Node) : Node := n.imgCommand (n.imgCode n.checkCode) fun n => n.mSec fun s => { s with busy := 2 }

/-- The checks end (R70): CHECKED with its hash, or FAILED with the code and detail. -/
def imgChecked (n : Node) : Node :=
  if n.sec.busy ≠ 2 then n
  else
    let b := n.inactive
    let n := ((n.mSec fun s => { s with busy := 0 }).secFlag 3).irqEvent 5
    match n.checkImage (n.bankOf b) with
    | none => (n.mSec fun s => { s with code := 0, detSection := 0, detItem := 0 }).bankMove b 3 (bodyHash (n.bankOf b).bytes)
    | some f => (n.mSec fun s => { s with code := f.code, detSection := f.secNo, detItem := f.item }).bankMove b 4 0

/-- R74, R77: the second epoch boundary after acceptance; a pair's duty sends its notice. -/
def imgActivate (n : Node) : Node :=
  n.imgCommand (n.imgCode n.activateCode) fun n =>
    let at' := epochAfter n.now 2
    let n := n.mSec fun s => { s with act := some ⟨n.inactive, at', !n.paired⟩ }
    match n.partner with
    | none => n
    | some p => n.sendFrame (1#16 <<< p) (.command (.activation n.inactiveBank.hash at'))

def imgExit (n : Node) : Node := n.imgCommand (if n.sec.maint then 0 else 0x82) fun n => n.leaveMaint 2

def imgEnrol (n : Node) : Node :=
  n.imgCommand (n.imgCode n.enrolCode) fun n =>
    match n.certificate with
    | none => n
    | some (key, id, l) =>
      (n.mSec fun s => { s with enrolled := true, keyId := keyIdOf key, integrator := id }).flashAdd (.ident (.cert l))

/-- A write of SEC_IMG_CMD by its code; an undefined code is refused with 0x86 (18 R571). -/
def imgBadCode (n : Node) : Node := n.secTouch.imgResult 0x86

/-- The page buffer takes 4 bytes: they join the program unit that waits for their page, or begin one (19 R577). -/
def bufferBytes (n : Node) (b : Bool) (a : Nat) (l : List Byte) : Node :=
  match n.stor.wait.getLast? with
  | some (.image x o bytes) =>
    if x = b ∧ o + bytes.length = a ∧ a % 256 ≠ 0 then
      n.mStor fun s => { s with wait := s.wait.dropLast ++ [.image x o (bytes ++ l)] }
    else n.flashAdd (.image b a l)
  | _ => n.flashAdd (.image b a l)

/-- 18 R570. -/
def imgData (n : Node) (w : Word) : Node :=
  let n := n.secTouch
  let b := n.inactive
  let o := n.sec.offset
  if !n.sec.maint || (n.bankOf b).state != 1 || decide (imageMax < o + 4) || decide (256 < n.sec.bufUsed + 4) then n.secFlag 2
  else
    let l := leBytes 4 w.toNat
    let n := n.mSec fun s => { s with offset := o + 4, bufUsed := s.bufUsed + 4 }
    let n := n.updBank b fun s => { s with
      written := max s.written (o + 4)
      bytes := if n.stor.state = 2 then s.bytes else l.zipIdx.foldl (fun m (v, i) => tset 0xFF m (o + i) v) s.bytes }
    n.bufferBytes b o l

end Node

/-- A write of SEC_UNLOCK (R62, R63). -/
def execSecUnlock (v : Word) (t : Nat) (s : State) : Host.Outcome State Fault Refusal := s.run fun n => n.unlockWrite v t

/-- 60 s of lockout end (R63). -/
def execUnlockLockoutExpiry (s : State) : Host.Outcome State Fault Refusal := s.run fun n => n.mSec fun x => { x with lockout := false }

/-- The key switch loop changes (20 R603). -/
def execKeySwitchChange (ohms : Nat) (s : State) : Host.Outcome State Fault Refusal := s.run fun n => n.keyLoop ohms

/-- The key switch has kept its state for 100 ms (R62, R64). -/
def execKeySwitchSettled (s : State) : Host.Outcome State Fault Refusal := s.run Node.keySettled

/-- 60 min without a SEC write (R64). -/
def execMaintTimeout (s : State) : Host.Outcome State Fault Refusal := s.run fun n => n.leaveMaint 3

/-- SEC_IMG_CMD ERASE (R67). -/
def execErase (s : State) : Host.Outcome State Fault Refusal := s.run Node.imgErase

/-- A bank erase completes (19 R582). -/
def execEraseDone (s : State) : Host.Outcome State Fault Refusal := s.run Node.imgErased

/-- SEC_IMG_CMD OPEN (R67). -/
def execOpenBank (s : State) : Host.Outcome State Fault Refusal := s.run Node.imgOpen

/-- SEC_IMG_CMD CLOSE (R67). -/
def execCloseBank (s : State) : Host.Outcome State Fault Refusal := s.run Node.imgClose

/-- SEC_IMG_CMD CHECK (R67). -/
def execCheckBank (s : State) : Host.Outcome State Fault Refusal := s.run Node.imgCheck

/-- The loader's checks end (R70). -/
def execCheckDone (s : State) : Host.Outcome State Fault Refusal := s.run Node.imgChecked

/-- SEC_IMG_CMD ACTIVATE (R74). -/
def execActivate (s : State) : Host.Outcome State Fault Refusal := s.run Node.imgActivate

/-- SEC_IMG_CMD EXIT (R64). -/
def execExitMaint (s : State) : Host.Outcome State Fault Refusal := s.run Node.imgExit

/-- SEC_IMG_CMD ENROL (R60). -/
def execEnrol (s : State) : Host.Outcome State Fault Refusal := s.run Node.imgEnrol

/-- A write of SEC_IMG_DATA (18 R570). -/
def execSecImgData (w : Word) (s : State) : Host.Outcome State Fault Refusal := s.run fun n => n.imgData w

end Sys2Proof.Machine
end

