-- ==== Sys2Proof/Machine/Power.lean ====
section
/-! DEFINITION. The supply, Hold-up, resets, operating modes and start-up (03), with what a start does in other chapters. -/

namespace Sys2Proof.Machine

/-- PWR_MODE_CMD codes (Table 3.13), which CONFIG subtype 5 carries too (log entry 34). -/
def modeCmd : PwrMode → Nat
  | .sleep => 2
  | .deep => 3
  | _ => 1

namespace Node

/-- VIN and the store are measured every 10 ms (Table 3.12): their values come from outside and are free. -/
def sampleVolt (n : Node) : Node :=
  let (v, n) := n.fresh
  n.mPwr fun p => { p with vin := v.toNat % 65536, store := v.toNat / 65536 % 65536 }

/-- A POWER record (14 Table 14.2): 1 supply lost, 2 supply restored, 3 park. -/
def powerBody (n : Node) (event : Nat) : RecBody :=
  ⟨0x11, 0, 0, event, leBytes 2 0 ++ leBytes 4 n.pwrStat.toNat ++ leBytes 4 n.pwrVolt.toNat⟩

/-! What a reset of CORE leaves (00 R14, R118 to R121): what AON holds, the field sides, the islands, the flash and the fuse. -/

def keptModes (d : Dio) : Tab DioBank :=
  d.banks.foldl (fun m (b, s) => tset {} m b { mode := s.mode }) []

def keptRtc (r : Rtc) : Rtc :=
  { osf := r.osf
    lbv := r.lbv
    trust := if r.osf then 0 else 1
    setResult := r.setResult
    sec := r.sec
    subsec := r.subsec
    leap := r.leap
    storeLow := r.storeLow
    now := r.now
    mark := r.now }

/-- CLK lies in AON (Table 4.12): counts since the start begin again, and an RC FAILED until the next start is counted again (log
entry 35). -/
def keptClk (c : Clk) : Clk :=
  { forced := c.forced
    latched := c.latched
    clkoutErr := c.clkoutErr
    xtal := c.xtal
    pll := c.pll
    lockCoast := c.lockCoast
    rc := if c.rc = .failed then .counting else c.rc
    lse := c.lse
    sel := c.sel
    div := c.div
    xtalCnt := c.xtalCnt
    rcCnt := c.rcCnt
    trim := c.trim
    latchCause := c.latchCause }

def keptPwr (p : Pwr) : Pwr :=
  { phase := .c
    rdy := p.rdy
    vinOk := p.vinOk
    ovActive := p.ovActive
    domOn := 0b0011
    flags := p.flags
    vin := p.vin
    store := p.store
    wakeSrc := p.wakeSrc
    wakeTime := p.wakeTime
    holdups := p.holdups
    trips := p.trips
    switchOpen := p.switchOpen
    tripped := p.tripped
    t0 := p.t0
    back := p.back
    cause := p.cause }

def coreReset (n : Node) : Node :=
  let n := n.rtcHold.cutFlash
  let m : Node :=
    { sys := { straps := n.sys.straps, hvio := n.sys.hvio }
      pwr := keptPwr n.pwr
      clk := keptClk n.clk
      rtc := keptRtc n.rtc
      afe := { shunts := n.afe.shunts, badSwitch := n.afe.badSwitch }
      loop := { islands := n.loop.islands }
      dio := { banks := keptModes n.dio, field := n.dio.field }
      jrnl := { last := n.jrnl.last, heard := n.jrnl.heard, due := n.keptRecords }
      stor := {
        sectors := n.stor.sectors
        ident := n.stor.ident
        tornLeap := n.stor.tornLeap
        tornEra := n.stor.tornEra
        tornRetired := n.stor.tornRetired }
      sec := { keyClosed := n.sec.keyClosed, enrolled := n.sec.enrolled, a := n.sec.a, b := n.sec.b }
      free := n.free }
  if m.rtc.trust = n.rtc.trust then m else m.mJrnl fun j => { j with due := j.due ++ [m.timeBody 1 0] }

/-- A restart with its cause, from a phase (R118). -/
def restart (n : Node) (cause : Nat) (ph : Phase) : Node :=
  n.coreReset.mPwr fun p => { p with
    cause := cause
    phase := ph
    back := false
    tripped := false }

/-! The supply (Table 3.1) and Hold-up (Table 3.5). -/

/-- A change of mode waits when Hold-up begins: it is discarded (R114). -/
def dropPending (n : Node) : Node :=
  if n.pwr.pend.isSome then n.mPwr fun p => { p with pend := none, result := 4 } else n

/-- t0 (R105, R107, R114, R117): steps 1 and 2 start. Phases A and B have no CORE, so the sequence is abandoned (log entry 36); a
latched node takes no action (04 R170), and a node in Deep sleep neither (R115). The store that no longer charges is not READY (R98). -/
def enterHoldup (n : Node) (t : Nat) (trip : Bool) : Node :=
  let n := n.setNow t
  let short := !n.pwr.rdy
  let n := n.mPwr fun p => { p with vinOk := false, rdy := false }
  match n.pwr.mode, n.pwr.phase with
  | .deep, _ => n
  | .off, _ => n.mPwr fun p => { p with back := false }
  | .holdup, _ => n.mPwr fun p => { p with back := false }
  | _, ph =>
    if n.clk.latched then n.mPwr fun p => { p with mode := .off, phase := .a, t0 := n.now, back := false }
    else if ph = .a ∨ ph = .b then n.mPwr fun p => { p with mode := .off, phase := .a }
    else
      let n := (n.dropPending).mPwr fun p => { p with
        mode := .holdup
        left := p.mode
        step := 1
        flags := if short then setBit (setBit p.flags 2) 3 else setBit p.flags 2
        holdups := satInc 0xFFFF p.holdups
        tripped := trip
        t0 := n.now
        parked := false
        flushed := false
        solvOut := false
        back := false }
      let n := (n.flashAdd (.ident .holdup)).irqEvent 6
      let n := n.mSys fun s => { s with resetPend := false }
      let n := n.mSec fun s => { s with act := none, notice := none, confirmDue := false }
      let n := n.sampleVolt.journalStart
      n.later (n.powerBody 1)

/-- R110: back in the mode that Hold-up left; the solver takes submissions from the next epoch boundary. -/
def leaveHoldup (n : Node) : Node :=
  let n := n.mPwr fun p => { p with
    mode := p.left
    step := 0
    flushed := false
    tripped := false
    solvOut := false
    domOn := if p.left = .run ∧ (p.phase = .f ∨ p.phase = .done) then setBit p.domOn 3 else p.domOn
    solvHold := true }
  let n := n.mJrnl fun j => { j with writeThrough := false }
  let n := n.mPair fun q => { q with finalDue := false }
  let n := n.applyDomains.solvDrained.sampleVolt
  n.later (n.powerBody 2)

/-- The supply is valid (Table 3.1, R110, R111). -/
def supplyBack (n : Node) : Node :=
  let n := n.mPwr fun p => { p with vinOk := true }
  match n.pwr.mode with
  | .holdup => if n.pwr.parked then n.mPwr fun p => { p with back := true } else n.leaveHoldup
  | .off =>
    if n.clk.latched then n.mPwr fun p => { p with back := true }
    else if n.pwr.phase = .a then n.rtcElapses.mPwr fun p => { p with mode := .run }
    else n.mPwr fun p => { p with back := true }
  | _ => n

/-- The input switch holds the supply off after a trip until its release. -/
def supplyValid (n : Node) : Node := if n.pwr.switchOpen then n else n.supplyBack

/-- The trip follows the warning of an input above 60 V (Table 3.1). -/
def overTrip (n : Node) (t : Nat) : Node :=
  if n.pwr.switchOpen then n
  else
    let n := (n.mPwr fun p => { p with
      switchOpen := true
      ovActive := true
      flags := setBit (setBit p.flags 0) 1
      trips := satInc 0xFFFF p.trips }).flashAdd (.ident .trip)
    n.enterHoldup t true

def overRelease (n : Node) : Node :=
  if n.pwr.switchOpen then (n.mPwr fun p => { p with switchOpen := false, ovActive := false }).supplyBack else n

/-- The step that HOLDUP_STEP shows when step 1 or 2 has ended (log entry 37). -/
def stepAfter (n : Node) : Nat := if !n.pwr.flushed then 2 else if n.pair.copy.any (·.final) || n.pair.finalDue then 3 else 0

/-- Step 1 ends (12 R398), also after an early park: the jobs left end ABORTED and SOLV turns off. -/
def solverOff (n : Node) : Node :=
  if n.pwr.mode = .holdup ∧ !n.pwr.solvOut then
    let n := n.abortAll
    (n.mPwr fun p => { p with
      domOn := clrBit p.domOn 3
      solvOut := true
      step := if p.step = 1 then n.stepAfter else p.step }).applyDomains
  else n

/-- Step 2 ends and step 3 begins: a duty copies its state, after a copy in progress (R105, R109). -/
def flushDone (n : Node) : Node :=
  if n.pwr.mode = .holdup ∧ !n.pwr.flushed ∧ !n.pwr.parked ∧ !n.coreHeld then
    let n := (n.flushAll.mPwr fun p => { p with flushed := true }).mJrnl fun j => { j with writeThrough := true }
    let n :=
      if n.pair.role == 4 && (n.partnerRole == some 2 || n.partnerRole == some 3) then
        if n.pair.copy.isSome then n.mPair fun q => { q with finalDue := true } else n.sendCopy true false
      else n
    n.mPwr fun p => { p with step := if p.step = 1 then 1 else n.stepAfter }
  else n

/-- The park frame of each bank, then KEEP (09 R287, R297). -/
def parkOutputs (n : Node) : Node :=
  if n.dioRuns then
    let los := n.powerCfg.elim 0 (·.losDio)
    let n := (List.range 4).foldl (fun n b => n.fieldFrame b (los.extractLsb' (8 * b) 8) true) n
    n.selectModes modeKeep
  else n

/-- Step 4 (R105, R116): outputs and islands park, evaluation stops, the park record goes to flash. FIELD turns off with CORE (R108, log entry
107). -/
def park (n : Node) : Node :=
  if n.pwr.mode = .holdup ∧ !n.pwr.parked then
    let n := n.parkOutputs.parkIslands
    let n := (n.mPwr fun p => { p with step := 4, parked := true }).sampleVolt
    if n.coreHeld || n.img.isNone || n.pwr.phase != .done then n
    else if n.ownDuty then
      (n.issueNow (n.powerBody 3)).flushAll.handOver
    else n.notify (n.powerBody 3)
  else n

/-- R108: CORE loses its power, and with it all but what AON, the field sides and flash hold. -/
def storeExhausted (n : Node) : Node :=
  if n.pwr.mode = .holdup ∧ n.pwr.parked then
    n.coreReset.mPwr fun p => { p with mode := .off, domOn := 1 }
  else n

/-- 04 R170: a restart that began with a supply loss clears the latch, and starts every source anew from phase A, once the supply is there.
A Hold-up that had reached step 4 gives the lower cause (R118). -/
def latchRestarts (n : Node) : Node :=
  if n.clk.latched ∧ (n.pwr.mode = .off ∨ n.pwr.mode = .holdup) then
    let parked := (n.pwr.mode == .holdup && n.pwr.parked) || (n.pwr.mode == .off && n.pwr.phase == .c)
    let cause := if !parked then 7 else if n.pwr.tripped then 3 else 2
    let n := (n.setNow (n.pwr.t0 + 1500000)).restart cause .a
    let n := n.mPwr fun p => { p with
      mode := if p.vinOk then .run else .off
      flags := if parked then setBit p.flags 4 else p.flags }
    n.mClk fun c => { c with latched := false, xtal := .off, pll := .off, lockCoast := false, rc := .off }
  else n

/-- R111, R117, R118: at t0 + 1.5 s, or when the supply came back after CORE had lost its power. -/
def holdupRestarts (n : Node) : Node :=
  let cause := if n.pwr.tripped then 3 else 2
  let parkedFlag (n : Node) : Node := n.mPwr fun p => { p with flags := setBit p.flags 4 }
  if n.clk.latched then n.latchRestarts
  else if !n.pwr.back then n
  else if n.pwr.mode = .holdup ∧ n.pwr.parked then
    parkedFlag ((n.setNow (n.pwr.t0 + 1500000)).restart cause .c)
  else if n.pwr.mode = .off ∧ n.pwr.phase = .c then
    parkedFlag (n.rtcElapses.loadNow.restart cause .c)
  else n

/-- R119. A latched node stays as it is (04 R170). After a park the lower cause of the Hold-up is reported (R118). -/
def brownOut (n : Node) : Node :=
  let parked := n.pwr.mode == .holdup && n.pwr.parked
  let cause := if parked then (if n.pwr.tripped then 3 else 2) else 4
  if n.pwr.vinOk && !n.clk.latched && n.pwr.phase != .a && n.pwr.phase != .b &&
      (match n.pwr.mode with | .run | .sleep | .holdup => true | _ => false) then
    ((n.selectModes modeSafe).restart cause .c).mPwr fun p => { p with flags := if parked then setBit p.flags 4 else p.flags }
  else n

/-- 05 R201, R120: AON starts from nothing; flash, the fuse, the field sides and the islands stand. -/
def aonEmpties (n : Node) : Node :=
  if !n.pwr.vinOk ∧ (n.pwr.mode = .off ∨ n.pwr.mode = .deep) then
    let n := n.selectModes modeOff
    let n := n.coreReset
    { n with
      pwr := { mode := .off, phase := .a, vinOk := false, switchOpen := n.pwr.switchOpen, ovActive := n.pwr.ovActive, cause := 1 }
      clk := {}
      rtc := {}
      jrnl := {}
      afe := {} }
  else n

/-! Modes (Tables 3.2 to 3.4). -/

/-- Table 3.4, an undefined command first (10 R613). -/
def modeRefusal (n : Node) (m : Option PwrMode) : Nat :=
  match m with
  | none => 7
  | some m =>
    if (m = .sleep ∧ !(n.powerCfg.any (·.sleepAllowed))) ∨ (m = .deep ∧ !(n.powerCfg.any (·.deepAllowed))) then 1
    else if m = .deep ∧ !n.sec.maint then 2
    else if m = .deep ∧ n.pair.role = 4 then 3
    else if n.pwr.mode = .holdup then 4
    else if n.pwr.pend.isSome then 5
    else if m = n.pwr.mode then 6
    else 0

/-- A write of PWR_MODE_CMD (R101, R103). -/
def modeRequest (n : Node) (code : Nat) : Node :=
  match n.pwr.mode with
  | .deep => n
  | .off => n
  | _ =>
    let m : Option PwrMode := if code = 1 then some .run else if code = 2 then some .sleep else if code = 3 then some .deep else none
    let r := n.modeRefusal m
    n.mPwr fun p => { p with lastCmd := code, result := r, pend := if r = 0 then m else p.pend }

/-- CONFIG subtype 5 (R102). -/
def modeBody (n : Node) (new : PwrMode) : RecBody := n.configBody 0 5 (modeCmd n.pwr.mode + 16 * modeCmd new) []

/-- SOLV on, and every lane on the Run schedule with a sync reset (Table 3.3). -/
def toRun (n : Node) : Node :=
  (n.mPwr fun p => { p with mode := .run, domOn := setBit p.domOn 3 }).applyDomains.syncCauses

/-- SOLV off, at the end of the jobs in flight (log entry 115), and the lanes on the Sleep schedule. -/
def toSleep (n : Node) : Node :=
  let off := n.solvHeld || n.solv.order.isEmpty
  (n.mPwr fun p => { p with mode := .sleep, domOn := if off then clrBit p.domOn 3 else p.domOn }).applyDomains.haltIdle

/-- The journal is flushed, the outputs go safe, and AON alone goes on, with the clocks its mask keeps, after a return under way, and the image's
wake sources (Table 3.3, 04 R161, R168). -/
def toDeep (n : Node) : Node :=
  let n := n.flushAll.selectModes modeSafe
  let img := n.img
  let ret := n.clk.ret
  let n := n.coreReset.mPwr fun p => { p with mode := .deep, domOn := 1 }
  let n := { n with img := img }
  if ret = 0 then n.deepSources else (n.mClk fun c => { c with ret := ret, maskDue := true }).returnAdvance

/-- A mode change at a return point's sequence: the masks of the old mode hold until its end (04 R168). -/
def holdMasks (n : Node) : Node :=
  if n.clk.ret = 0 then n
  else n.mClk fun c => { c with maskDue := true, heldMode := some (c.heldMode.getD n.pwr.mode) }

/-- Deep sleep begins at its boundary. A step and a LEAP_CNT change of the same boundary apply too, their records after the mode record (05
R194, R197). -/
def deepApplies (n : Node) (body : RecBody) : Node :=
  let due := n.rtc.stepPend.any fun x => decide (x.2 ≤ n.now)
  let n := if due then n.timeStep else n
  let n := n.leapApply
  let n := n.mRtc fun r => { r with lastTick := some r.now }
  let l := firstOrder n.jrnl.firstRecs
  let n := n.mJrnl fun j => { j with firstRecs := [] }
  ((body :: l).foldl issue n).handOver.toDeep

/-- R102: the change takes effect at the epoch boundary, in a node whose CORE runs. -/
def modeApplies (n : Node) : Node :=
  match n.pwr.pend with
  | none => n
  | some m =>
    if !n.coreRuns then n
    else
      let n := n.setNow (n.nextMultiple 1000000)
      let body := n.modeBody m
      let n := (n.mPwr fun p => { p with pend := none, result := 0 }).irqEvent 6
      match m with
      | .deep => n.deepApplies body
      | .sleep => ((n.stepOne body).holdMasks).toSleep
      | _ => ((n.stepOne body).holdMasks).toRun

/-- R102: the wake on alarm, at the end of the tick; a pending Run is satisfied by it. -/
def wakesOnAlarm (n : Node) (entered : List Nat) : Bool :=
  n.pwr.mode == .sleep && n.powerCfg.any (·.wakeOnAlarm) && !entered.isEmpty

def wakeNow (n : Node) : Node :=
  let n := (n.mPwr fun p => { p with
    pend := if p.pend = some .run then none else p.pend
    result := if p.pend = some .run then 0 else p.result
    solvWake := true }).irqEvent 6
  n.holdMasks.toRun

/-! Power-up (Table 3.7). -/

/-- Phase B's work once RC is READY: XTAL counts, or runs on from Deep sleep and the PLL relocks (04 R131, R161). -/
def phaseB (n : Node) : Node :=
  match n.clk.rc, n.clk.xtal with
  | .ready, .off => n.mClk fun c => { c with xtal := .counting }
  | .ready, .ready => if n.clk.pll = .off then n.mClk fun c => { c with pll := .locking, lockCoast := false } else n
  | .ready, .failed => if n.clk.pll = .off then n.pllToCoast else n
  | .off, _ => n.mClk fun c => { c with rc := .counting }
  | _, _ => n

/-- A wake source can act (R113): a marked input pin, or an RTC that counts and has not passed the wake time (05 R198). -/
def wakes (n : Node) (src : Nat) : Bool :=
  (n.powerCfg.any fun c => bit c.wakeEn src) &&
    (if src = 0 then n.pins.any fun c => !c.out && c.wake
     else if src = 3 then n.pwr.wakeTime != 0 && n.rtcCounts && decide (n.rtcCycles / 32768 ≤ n.pwr.wakeTime)
     else true)

/-- The RTC reaches the wake time. -/
def rtcReaches (n : Node) (t : Nat) : Node :=
  if n.rtcCycles / 32768 < t then n.rtcHold.mRtc fun r => { r with sec := t, subsec := 0 } else n

/-- A wake (R113): from phase B, with the RTC's time. -/
def wake (n : Node) (src : Nat) : Node :=
  if n.pwr.mode = .deep && n.pwr.vinOk && n.wakes src then
    let n := if src = 3 then n.rtcReaches n.pwr.wakeTime else n.rtcElapses
    let n := n.loadNow
    let n := (n.restart 6 .b).mPwr fun p => { p with wakeSrc := setBit 0 src }
    n.phaseB
  else n

/-- Bits set among the five straps (20 R604). -/
def strapOnes (w : BitVec 5) : Nat := ((List.range 5).filter fun i => bit w i).length

/-- What the newest entry of a bank record says; without one the bank reads WRITING for good (19 R580, Table 2.4). -/
def bankAtStart (n : Node) (b : Bool) : BankSt :=
  let s := n.sector (bankSector b)
  let old := n.bankOf b
  match s.cls, s.banks.getLast? with
  | .data, some e => { old with state := e.state, gen := e.gen, hash := e.hash, stuck := e.state == 1 }
  | _, _ => { old with state := 1, hash := 0, stuck := true }

/-- Phase C: CORE on, identity, straps, node time, sector headers and bank records read; SYS, SEC and STOR serve. -/
def phaseC (n : Node) : Node :=
  let id := n.stor.ident
  let por := n.pwr.cause == 1
  let n := n.mSys fun s => { s with
    issue := id.issue
    serial := id.serial
    cause := n.pwr.cause
    node := s.straps.toNat % 16
    strapBad := strapOnes s.straps % 2 == 0 }
  let n := n.loadNow
  let n := if por then
      (n.mRtc fun r => { r with leap := id.leapLog.getLast?.getD r.leap }).mPwr fun p => { p with holdups := id.holdups, trips := id.trips }
    else n
  let n := if n.stor.state ≠ 2 ∧ 1535 - n.retiredIn jrnlFirst jrnlLast < 8 then n.failStore 3
    else n.mStor fun s => { s with state := if s.state = 2 then 2 else 1 }
  let n := n.mJrnl fun j => { j with flashOk := n.stor.state == 1 }
  let n := n.mSec fun s => { s with a := n.bankAtStart false, b := n.bankAtStart true }
  let n := match id.cert.bind Config.parseCertificate with
    | some (key, who, _) => n.mSec fun s => { s with keyId := keyIdOf key, integrator := who }
    | none => n
  let n := (n.mPwr fun p => { p with phase := .d, domOn := 0b0011 }).applyDomains
  n.setDom .core { n.dom .core with clamp := true, releasing := true }

/-- R94: no image runs. The clamps hold every output safe; after a POR they stay off (R120, log entry 38). -/
def unconfigured (n : Node) : Node :=
  let n := n.mSys fun s => { s with unconfigured := true }
  (List.range 4).foldl (fun n b => if (n.bankSt b).mode = modeOff then n else n.selectMode modeSafe b) n

/-- The checks of one bank, with the code and detail they report. -/
def checkAtStart (n : Node) (b : Bool) : Bool × Node :=
  match n.checkImage (n.bankOf b) with
  | none => (true, n.mSec fun s => { s with code := 0, detSection := 0, detItem := 0 })
  | some f => (false, n.mSec fun s => { s with code := f.code, detSection := f.secNo, detItem := f.item })

def bankIn (n : Node) (state : Nat) : Option Bool :=
  if (n.bankOf false).state = state then some false else if (n.bankOf true).state = state then some true else none

/-- The bank that a start checks first, and the one it falls back to. Of two ACTIVE banks, where no PREVIOUS entry could be written, the older
generation stands for the PREVIOUS one (log entry 104). -/
def startBanks (n : Node) : Option Bool × Option Bool :=
  if n.sec.a.state = 5 ∧ n.sec.b.state = 5 then
    (if n.sec.a.gen < n.sec.b.gen then (some true, some false) else (some false, some true))
  else (n.bankIn 5, n.bankIn 6)

/-- R93: the PREVIOUS bank runs with FALLBACK, until the next restart, which finds it ACTIVE (log entry 104); the bank that failed is FAILED
(log entry 39). -/
def fallBack (n : Node) (failed prev : Option Bool) : Node :=
  match prev with
  | none => n.unconfigured
  | some b =>
    let (ok, n) := n.checkAtStart b
    if ok then
      let n := match failed with | some f => n.bankMove f 4 0 | none => n
      let n := n.bankMove b 5 (n.bankOf b).hash
      (n.mSec fun s => { s with runB := b, fallback := true }).mPwr fun p => { p with phase := .e }
    else n.unconfigured

/-- Phase D (R93, R94, 20 R604, 19 R595). -/
def phaseD (n : Node) : Node :=
  if n.pwr.phase != .d || n.sys.unconfigured || n.coreHeld then n
  else if n.sys.strapBad then (n.mSec fun s => { s with code := 5 }).unconfigured
  else if n.stor.state ≠ 1 then n.unconfigured
  else
    match n.startBanks with
    | (none, prev) => n.fallBack none prev
    | (some b, prev) =>
      let (ok, n) := n.checkAtStart b
      if ok then (n.mSec fun s => { s with runB := b }).mPwr fun p => { p with phase := .e }
      else n.fallBack (some b) prev

/-- The records that a reset kept go to the duty as notices, where the node starts as a member of a pair (16 R488). -/
def dueNotices (n : Node) : Node :=
  let l := n.jrnl.due
  l.foldl notify (n.mJrnl fun j => { j with due := [] })

/-- Phase E: the image applied, FIELD and SOLV on, every lane reset, and what flash restores (R121, 19 R587). -/
def phaseE (n : Node) : Node :=
  let n := { n with img := some (imageOf (n.bankOf n.sec.runB)) }
  let n := n.inputs.foldl initExc n.testSwitches
  let n := (n.mPwr fun p => { p with domOn := if p.mode = .holdup ∧ p.solvOut then 0b0111 else 0xF }).applyDomains.syncCauses
  let n := n.startFabric.startBaselines.compactDue
  let n := if n.paired then (n.setRole 1).dueNotices else (n.setRole 0).startNumbering (n.pwr.cause == 1)
  n.startPorts.mPwr fun p => { p with phase := .f }

/-- The next phase begins when the one under way is complete (Table 3.7). Phase D's work is STARTUP_BANK_CHECK, phase F's the next
tick boundary. -/
def powerUp (n : Node) : Node :=
  let on := match n.pwr.mode with | .run | .sleep => n.pwr.vinOk | .holdup => !n.pwr.parked | _ => false
  if !on || n.clk.latched then n
  else
    match n.pwr.phase with
    | .a =>
      match n.clk.rc with
      | .off =>
        let n := n.eachDom fun n d => n.setDom d { n.dom d with clamp := true }
        n.rtcHold.mClk fun c => { c with rc := .counting, lse := if c.lse = .off then .ready else c.lse }
      | .ready => (n.mPwr fun p => { p with phase := .b }).phaseB
      | _ => n
    | .b => if n.clk.pll = .nominal ∨ n.clk.pll = .coast then n.phaseC else n.phaseB
    | .c => n.phaseC
    | .d => n
    | .e => if n.coreHeld then n else n.phaseE
    | .f => n
    | .done => n

/-- The end of the first tick: outputs released, heartbeats started, the start reported; then phase G (R121, R287, 08 R279, 15
R467). -/
def startEnds (n : Node) : Node :=
  if n.pwr.phase = .f then
    let n := (n.selectModes modeFollow).mLoop fun l => { l with framesOn := true }
    let n := n.setDom .core { n.dom .core with clamp := false, releasing := false }
    let n := (n.mPwr fun p => { p with phase := .done }).irqEvent 0
    n.mTide fun t => { t with st := .listen }
  else n

end Node

/-! The meanings of the PWR commands. -/

/-- VIN below 6.2 V for 200 µs (Table 3.1). -/
def execVinLow (t : Nat) (s : State) : Host.Outcome State Fault Refusal := s.run fun n => n.enterHoldup t false

/-- VIN above 6.8 V for 50 ms (Table 3.1). -/
def execSupplyValid (s : State) : Host.Outcome State Fault Refusal := s.run Node.supplyValid

/-- VIN above 60 V (Table 3.1). -/
def execOvWarning (s : State) : Host.Outcome State Fault Refusal :=
  s.run fun n => n.mPwr fun p => { p with ovActive := true, flags := setBit p.flags 0 }

/-- The input switch opens (Table 3.1). -/
def execOvpTrip (t : Nat) (s : State) : Host.Outcome State Fault Refusal := s.run fun n => n.overTrip t

/-- The switch closes again (Table 3.1). -/
def execOvpRelease (s : State) : Host.Outcome State Fault Refusal := s.run Node.overRelease

/-- Hold-up begins (R105). -/
def execHoldupEntry (t : Nat) (s : State) : Host.Outcome State Fault Refusal :=
  s.run fun n => if n.pwr.mode = .holdup then n else n.enterHoldup t false

/-- t0 + 100 ms (12 R398). -/
def execHoldupSolverAbort (s : State) : Host.Outcome State Fault Refusal := s.run Node.solverOff

/-- Step 2 is complete (R105). -/
def execJournalFlushDone (s : State) : Host.Outcome State Fault Refusal := s.run Node.flushDone

/-- Step 4 (R105). -/
def execHoldupPark (s : State) : Host.Outcome State Fault Refusal := s.run Node.park

/-- R108. -/
def execHoldupStoreExhausted (s : State) : Host.Outcome State Fault Refusal := s.run Node.storeExhausted

/-- R111. -/
def execHoldupRestart (s : State) : Host.Outcome State Fault Refusal := s.run Node.holdupRestarts

/-- R98; with the supply back the AON store is above its low level too (log entry 40). -/
def execStoreCharged (s : State) : Host.Outcome State Fault Refusal :=
  s.run fun n => if n.pwr.vinOk then (n.mPwr fun p => { p with rdy := true }).mRtc fun r => { r with storeLow := false } else n

/-- R119. -/
def execBor (s : State) : Host.Outcome State Fault Refusal := s.run Node.brownOut

/-- PWR_MODE_CMD 1. -/
def execModeRun (s : State) : Host.Outcome State Fault Refusal := s.run fun n => n.modeRequest 1

/-- PWR_MODE_CMD 2. -/
def execModeSleep (s : State) : Host.Outcome State Fault Refusal := s.run fun n => n.modeRequest 2

/-- PWR_MODE_CMD 3. -/
def execModeDeepSleep (s : State) : Host.Outcome State Fault Refusal := s.run fun n => n.modeRequest 3

/-- R102. -/
def execModeChangeApply (s : State) : Host.Outcome State Fault Refusal := s.run Node.modeApplies

/-- R113. -/
def execDeepWake (src : Fin 4) (s : State) : Host.Outcome State Fault Refusal := s.run fun n => n.wake src.val

/-- R121. -/
def execPowerUpSequence (s : State) : Host.Outcome State Fault Refusal := s.run Node.powerUp

/-- R93. -/
def execStartupBankCheck (s : State) : Host.Outcome State Fault Refusal := s.run Node.phaseD

/-- 04 R170. -/
def execLatchRestart (s : State) : Host.Outcome State Fault Refusal := s.run Node.latchRestarts

/-- Table 3.10: VIN is at 60 V or below again, without a trip. -/
def execOvActiveEnd (s : State) : Host.Outcome State Fault Refusal :=
  s.run fun n => if n.pwr.switchOpen then n else n.mPwr fun p => { p with ovActive := false }

/-- 05 R201. -/
def execAonStoreExhausted (s : State) : Host.Outcome State Fault Refusal := s.run Node.aonEmpties

end Sys2Proof.Machine
end

