-- ==== Sys2Proof/Machine/Activate.lean ====
section
/-! DEFINITION. Activating an image (02 R74 to R92): the boundary's write to the bank record, the image applied with what each item keeps,
the records, and a refusal. -/

namespace Sys2Proof.Machine

/-- The direction and the safe state of a pin; a pin the image does not assign is an input. -/
def pinKind (c : Option PinCfg) : Bool × Bool := c.elim (false, false) fun x => (x.out, x.out && x.safe)

/-- What must be unchanged for an input to keep its baseline and flags (06 Table 6.7): type, subtype, wiring and lane. The wiring is the
type's (06 Table 6.1). -/
def inputKey (c : InputCfg) : Nat × Nat × Nat := (c.type, c.subtype, c.lane)

namespace Node

/-! What each item keeps; `o` is the node under the old image, `n` under the new one. -/

/-- R79. -/
def keptPoint (o : Node) (c : PointCfg) : PointSt :=
  match o.point c.num with
  | none => {}
  | some d =>
    let s := o.pointSt c.num
    if d.carryKey = c.carryKey then s else { prev := s.prev, mustRecord := s.prev != stNormal }

/-- R80, R84. A value kept is one in force that the new default does not already give. The same cell is the same number; its carry key is not
compared (log entry 111). -/
def keepCells (n o : Node) : Node :=
  let n := n.mFab fun f => { f with
    tuned := []
    cells := { points := n.points.foldl (fun m c => tset {} m c.num (o.keptPoint c)) [] } }
  n.tunes.foldl (fun n t =>
    let same := (o.tune t.cell t.item).any fun u => u.lo == t.lo && u.hi == t.hi
    let v := o.tuneNow t.cell t.item
    if same && n.tuneNow t.cell t.item != v then
      n.mFab fun f => { f with tuned := tset none f.tuned (tuneKey t.cell t.item) (some v) }
    else n) n

/-- 11 Table 11.4: ladders and the watch. -/
def keepCalls (n o : Node) : Node :=
  let kept := n.ladders.foldl (fun m c =>
    if (o.ladder c.num).any fun d => d.rungs.length == c.rungs.length && d.triggers == c.triggers then
      let s := o.ladderSt c.num
      tset {} m c.num { s with timer := min s.timer ((c.rungs.getD (s.rung - 1) ⟨[], 0⟩).timer) }
    else m) []
  let times (w : Option WatchCfg) : Option (Nat × Nat) := w.map fun x => (x.period, x.warn)
  let watched := times o.watch == times n.watch
  n.mCall fun c => { c with
    ladders := kept
    dmState := if watched then c.dmState else 0
    dmTimer := if watched then c.dmTimer else 0 }

/-- 11 Table 11.4: the roster stays with the same engineers; otherwise it starts anew, with a CALL record for each change after step 6. -/
def keepRoster (n o : Node) : Node :=
  let nums (x : Node) : List Nat := sortBy id (x.engineers.map (·.num))
  if nums o = nums n then n
  else
    let d := n.dutyAtStart
    let m : BitVec 8 := n.engineers.foldl (fun m e => if e.present then setBit m e.num else m) 0
    let n := if d = o.call.duty then n else n.later (callBody 0x00FE o.call.duty d 4 false 0)
    let n := if m = o.call.present then n else n.later (callBody 0x00FE o.call.present.toNat m.toNat 4 false 1)
    n.mCall fun c => { c with duty := d, present := m }

/-- R81, 12 R390: the template state of an unchanged number and carry key; nothing is published since the activation. -/
def keepTmpls (n o : Node) : Node :=
  n.mSolv fun s => { s with tmpl := n.templates.foldl (fun m t =>
    if o.sameTemplate t then tset {} m t.num { o.tmplSt t.num with published := false, okSeen := false } else m) [] }

/-- R82: the lane's own entry or its inputs differ, by number, type or subtype, or in the order of their entries (log entry 112). -/
def laneChanged (n o : Node) (l : Nat) : Bool :=
  let on (x : Node) : List (Nat × Nat × Nat) := (x.inputs.filter (·.lane == l)).map fun i => (i.num, i.type, i.subtype)
  n.laneCfg l != o.laneCfg l || on n != on o

def keepLanes (n o : Node) : Node :=
  (List.range 8).foldl (fun n l =>
    if n.laneChanged o l then (if n.laneRuns l then n.syncCause l else n.haltChain l) else n) n

/-- 07 R258, 08 R269: an input of another type or subtype has published nothing: its E is the quiet NaN again (log entry 113). -/
def keepChans (n o : Node) : Node :=
  let kind (x : Node) (c : Nat) : Option (Nat × Nat) := (x.input c).map fun i => (i.type, i.subtype)
  (List.range 48).foldl (fun n c =>
    if kind n c = kind o c then n else n.setLaneCh c { n.laneCh c with eng := b64NaN, last := none }) n

/-- 06, the activation of an image: baselines, flags, clamps and forcing; the shunts of 06 R211. -/
def keepInputs (n o : Node) : Node :=
  let kept (c : Nat) : Bool := (match n.input c, o.input c with | some x, some y => inputKey x == inputKey y | _, _ => false)
  let n := if n.afe.imuCh.any fun c => !kept c then n.abandonCheck else n
  (List.range 48).foldl (fun n c =>
    let was := n.afeExc c
    let n :=
      match n.input c with
      | none => (n.setAfeCh c {}).setAfeExc c {}
      | some i =>
        let same := kept c && (o.input c).any fun (x : InputCfg) => x.excLo == i.excLo && x.excHi == i.excHi
        let n := n.setAfeCh c (if kept c then { n.afeCh c with ckDirty := true } else { ckDirty := true })
        let n := if same then n else initExc n i
        n.setAfeExc c { n.afeExc c with pinCnt := 0 }
    n.pinnedChange c was) n.closeShunts

/-- 08: the bands of inputs that stay 4–20 mA, and E under new end values. -/
def keepLoops (n o : Node) : Node :=
  let was (c : Nat) : Bool := (o.input c).any (·.type == 5)
  let n := n.mLoop fun l => { l with
    ins := l.ins.filter fun e => was e.1 && (n.input e.1).any (·.type == 5)
    aos := l.aos.filter fun e => (n.island e.1).isSome }
  n.loopItems.foldl (fun n x =>
    match x with
    | .island _ => n
    | .input c =>
      let s := n.loopInSt c.num
      let same := (o.loopIn c.num).any fun d => d.lo == c.lo && d.hi == c.hi
      if same || !was c.num || s.band == 0 then n
      else n.setLaneCh c.num { n.laneCh c.num with eng := if failBand s.band then b64NaN else loopE c.lo c.hi s.cur }) n

/-- R83, and the sweep that an activation ends (09 Table 9.5). -/
def keepPins (n o : Node) : Node :=
  let mask : BitVec 32 := (List.range 32).foldl (fun m p => putBit m p (pinKind (n.pin p) != pinKind (o.pin p))) 0
  let safe : BitVec 32 := (List.range 32).foldl (fun m p => putBit m p (pinKind (n.pin p)).2) 0
  n.mDio fun d => { d with safeHold := mask, outCmd := (d.outCmd &&& ~~~mask) ||| (safe &&& mask) }

/-- The checkpoint entries of what is kept, under the new hash tag, so that a start on the new image restores it (R87, 10 R340, 11
R359). -/
def keptEntries (n : Node) : Node :=
  let n := n.tunes.zipIdx.foldl (fun n (t, i) =>
    match tget none n.fab.tuned (tuneKey t.cell t.item) with
    | some v => n.ckpt 1 i v.toNat
    | none => n) n
  let n := n.points.foldl (fun n c =>
    let s := n.pointSt c.num
    let n := if s.st = stOutOfService then n.ckpt 4 c.num 1 else n
    if s.shelf = 0 then n else n.ckpt 5 c.num s.shelf) n
  n.rosterEntry

/-- A change of pairing: the node is unpaired, or waits for its role. -/
def keepRole (n o : Node) : Node :=
  if n.paired == o.paired then n else if n.paired then n.setRole 1 else n.setRole 0

/-- The new image takes over. -/
def applyImage (n : Node) (img : Image) : Node :=
  let o := (n.endAoForces.endDioForces).sweepAbort n.dio.sweepBank 7
  let n := { o with img := some img }
  let n := (((n.keepCells o).keepCalls o).keepRoster o).keepTmpls o
  let n := ((((n.keepInputs o).keepChans o).keepLanes o).keepLoops o).keepPins o
  let n := if o.mapItems = n.mapItems then n else n.remapPorts o.alertCfgs
  (n.keepRole o).keptEntries.applyDomains

/-! The boundary. -/

/-- A record of step 1 before the others of the tick (R75), or its notice. -/
def firstOf (n : Node) (l : List RecBody) : Node :=
  if n.ownDuty then n.mJrnl fun j => { j with firstRecs := l ++ j.firstRecs } else l.foldl notify n

/-- An activation ends: ACT_DONE and its event (18 Tables 18.3 and 18.8). -/
def activationEnds (n : Node) : Node :=
  ((n.mSec fun s => { s with act := none, notice := none, confirmDue := false }).secFlag 4).irqEvent 5

/-- The activation is refused (R77, R92): its code, which SEC_LOAD_STAT shows too, and its record. -/
def activationRefused (n : Node) (code : Nat) : Node := (n.activationEnds.imgResult code).stepOne (n.configBody 0 2 code [])

/-- The pending tunable writes go (R88, 10 R335). -/
def discardTunes (n : Node) : Node :=
  if n.fab.tunePend.isEmpty then n
  else n.mFab fun f => { f with tunePend := [], lastApply := 0x0A, flags := setBit f.flags 2 }

/-- The generation of the next activation: one above the bank records' highest (log entry 109). -/
def nextGen (n : Node) : Nat := (max n.sec.a.gen n.sec.b.gen + 1) % 2 ^ 32

/-- A CONFIG record that waits for its tick shows the configuration of that tick (01 R34, 14 R425): subtypes other than 6 and 8 carry the
hash tag. -/
def retag (old new : Nat) (b : RecBody) : RecBody :=
  if b.type = 0x10 ∧ b.old ≠ 6 ∧ b.old ≠ 8 ∧ b.detail.take 4 = leBytes 4 old then { b with detail := leBytes 4 new ++ b.detail.drop 4 } else b

def retagAll (n : Node) (old new : Nat) : Node :=
  let f := List.map (retag old new)
  (n.mJrnl fun j => { j with due := f j.due, firstRecs := f j.firstRecs }).mPair fun q =>
    { q with notices := f q.notices, received := f q.received }

/-- The image takes over at the boundary; on an unconfigured node the start goes on with phase E (log entry 108). -/
def takeImage (n : Node) (b : Bool) : Node :=
  if n.img.isSome then n.applyImage (imageOf (n.bankOf b))
  else (n.mSys fun s => { s with unconfigured := false }).phaseE

/-- The bank that ran becomes PREVIOUS, with its entry while the bank record has a free slot (R75, 19 R581). -/
def demoteBank (n : Node) (b : Bool) : Node :=
  if (n.bankOf b).state ≠ 5 then n
  else
    let n := n.updBank b fun s => { s with state := 6 }
    if n.bankSlotFree b then n.appendBank b ⟨6, (n.bankOf b).gen, (n.bankOf b).hash⟩ else n

/-- R75: the generation, the image, the records. -/
def activated (n : Node) (b : Bool) : Node :=
  let gen := n.nextGen
  let oldTag := n.hashTag
  let newTag := (n.bankOf b).hash.toNat % 2 ^ 32
  let discards := n.pendingTunes.map fun x => tuneBody 8 newTag x.cell x.item x.value
  let n := n.updBank b fun s => { s with state := 5, gen := gen }
  let n := ((n.appendBank b ⟨5, gen, (n.bankOf b).hash⟩).demoteBank (!b)).discardTunes
  let n := n.activationEnds.mSec fun s => { s with runB := b, fallback := false }
  let n := (n.retagAll oldTag newTag).takeImage b
  n.firstOf (n.configBody 0 1 0 (leBytes 4 oldTag ++ leBytes 2 gen) :: discards)

/-- R75, R92: the write to the bank record succeeds or fails its last program verify, which a FAILED store always does (19 R595). FAILED is not
written to the record that has just failed: after a restart the bank reads CHECKED again (log entry 110). -/
def activateNow (n : Node) (b ok : Bool) : Node :=
  if ok && n.stor.state == 1 then n.activated b
  else (n.updBank b fun s => { s with state := 4 }).activationRefused 0x83

/-- The activation due at an epoch boundary `t`: applied, or, on the duty, refused at the first boundary without its confirmation
(R77). A standby's notice lapses at its boundary. -/
def activationDue (n : Node) (t : Nat) (ok : Bool) : Node :=
  let n := if n.sec.notice.any fun x => decide (x.2 ≤ t) && n.sec.act.isNone then
      n.mSec fun s => { s with notice := none, confirmDue := false }
    else n
  match n.sec.act with
  | none => n
  | some a =>
    if !a.confirmed then n.activationRefused 0x80
    else if a.boundary ≤ t then n.activateNow a.bank ok
    else n

/-- The node is in a state in which an activation can fall due. -/
def activates (n : Node) : Bool := n.coreRuns && !n.pwr.parked && !n.sys.strapBad && n.sec.act.isSome

end Node

/-- R77: no confirmation by the first epoch boundary after acceptance. -/
def execActivationConfirmTimeout (s : State) : Host.Outcome State Fault Refusal :=
  s.run fun n =>
    if n.activates && n.sec.act.any (! ·.confirmed) then (n.setNow (n.nextMultiple 1000000)).activationRefused 0x80 else n

/-- R75: the activation boundary. -/
def execActivationApply (ok : Bool) (s : State) : Host.Outcome State Fault Refusal :=
  s.run fun n =>
    let t := n.nextMultiple 1000000
    match n.sec.act with
    | none => n
    | some a => if n.activates && a.confirmed && decide (a.boundary ≤ t) then (n.setNow t).activateNow a.bank ok else n

end Sys2Proof.Machine
end

