-- ==== Sys2Proof/Machine/Tick.lean ====
section
/-! DEFINITION. Node time's boundaries (01 Tables 1.1 and 1.2): the fabric tick with its seven steps, the tick of a pair member without duty,
the epoch boundary, taking and giving up duty at a tick, and an uncorrectable fabric error. -/

namespace Sys2Proof.Machine

namespace Node

def tickLen : Nat := 50000
def epochLen : Nat := 1000000

/-- CORE has its power and node time runs in it: phase D or later, and neither Deep sleep nor off. -/
def timed (n : Node) : Bool :=
  (match n.pwr.mode with | .run | .sleep | .holdup => true | _ => false) && !n.clk.latched &&
    (match n.pwr.phase with | .a | .b | .c => false | _ => true)

/-! Step 1. -/

/-- R146: the timers of the ticks that passed while CORE was held, and the CLOCK record naming them. The ladders and the watch advance in
step 6. -/
def slackTimers (n : Node) : Node :=
  let k := n.clk.held
  let n := n.points.foldl (fun n c =>
    let s := n.pointSt c.num
    n.setPoint c.num { s with
      cnt := if s.running then s.cnt + k else s.cnt
      hold := countDown k s.hold
      shelf := if s.st = stShelved then countDown k s.shelf else s.shelf }) n
  n.later ⟨0x12, 0, 0, 6, leBytes 2 0 ++ leBytes 4 n.clkStat.toNat ++ leBytes 4 k⟩

def slackOver (n : Node) : Node := n.mClk fun c => { c with slackEnd := false, held := 0 }

/-- 16 R496: the takeover tick is never an epoch boundary. -/
def takesDuty (n : Node) (t : Nat) : Bool := n.pair.takeDue.isSome && t % epochLen != 0 && !n.roleHeld

def takeoverAt (n : Node) (t : Nat) : Node :=
  match n.pair.takeDue with
  | some (high, cause) => if n.takesDuty t then (n.takeDuty high cause t).resolveRoster.portsRefresh else n
  | none => n

/-- The records of step 1, in their order (01 Table 1.2). -/
def issueFirst (n : Node) : Node :=
  let l := firstOrder n.jrnl.firstRecs
  let n := n.mJrnl fun j => { j with firstRecs := [] }
  l.foldl issueNow n

/-- Step 1, with the activation and the tunables of an epoch boundary. -/
def stepFirst (n : Node) (t : Nat) : Node :=
  let n := n.issueStart
  let n := if t % epochLen = 0 then (n.activationDue t true).applyTunes else n
  n.issueFirst

/-! Step 2: the DIO edges and the solver's inputs; the other sources do not move before step 7. -/

def snapshot (n : Node) : Node := n.mCall fun c => { c with dmSnap := c.dmState }

/-! Step 5: what the Modbus map shows until the next tick (17 R538). -/

/-- The other nodes' points. -/
def showFar (n : Node) : Node := n.mExt fun e => { e with farShown := e.far }

def mapSources (n : Node) : List Source :=
  n.modItems.filterMap fun m => match m.item with
    | .bool x => some x
    | .value x => some x
    | .scaled x _ => some x
    | _ => none

def showSources (n : Node) : Node :=
  (n.mFab fun f => { f with shownSrc := n.mapSources.map fun x => let r := n.readSrc none x; (x, r.val, r.b, r.stale) }).showFar

/-! The end of step 6: the records that belong to no step (14 R432). -/

def issueReceived (n : Node) : Node :=
  let l := n.pair.received
  l.foldl issueNow (n.mPair fun q => { q with received := [] })

def issueLate (n : Node) : Node := n.issueGaps.issueDue.issueReceived

/-! Step 7 and the end of the tick. -/

/-- Outputs and islands for the following frames. -/
def commandAll (n : Node) : Node := n.commandOutputs.commandIslands

/-- 19 Table 19.4: running shelving clocks, at each epoch boundary. -/
def shelfEntries (n : Node) : Node :=
  n.points.foldl (fun n c => let s := n.pointSt c.num; if s.st = stShelved ∧ s.shelf ≠ 0 then n.ckpt 5 c.num s.shelf else n) n

/-- A domain that left Slack, and runs, releases its clamps (04 R145); CORE gives the outputs back to their frames (09 Table 9.2). -/
def releaseDom (n : Node) (d : Domain) : Node :=
  let c := n.dom d
  let heldNow := match c.st with | .slack | .slackCoast | .latched => true | _ => false
  if c.releasing && !heldNow && n.pwr.phase == .done then
    let n := n.setDom d { c with clamp := false, releasing := false }
    match d with
    | .core => (n.selectModes modeFollow).idleEnds
    | .field => n.syncsReleased
    | .solv => n
  else n

/-- What every tick ends with, evaluated or not: the ports, the check periods, and the clamps. -/
def tickEnds (n : Node) : Node :=
  let n := n.refreshDue
  let n := (List.range 6).foldl (fun n p => n.updPort p fun s => { s with cmds := 0 }) n
  let n := n.inputs.foldl tickCheck n
  let n := n.mDio fun d => { d with safeHold := 0 }
  (n.eachDom releaseDom).startEnds

/-- The fabric tick of an evaluating node at `t` (01 Table 1.2). -/
def dutyTick (n : Node) (t : Nat) : Node :=
  let held := if n.clk.slackEnd then n.clk.held else 0
  let n := if n.clk.slackEnd then n.slackTimers.slackOver else n
  let n := n.stepFirst t
  let n := n.snapshot
  let edges := n.risingPins
  let n := (n.panelEdges edges).mCall fun c => { c with inPrev := n.dio.inp }
  let ins := (n.invoked (t / tickLen)).map fun c => (c, n.snapInputs c)
  let n := n.applyCommands
  let n := n.evalCells
  let cells := n.fab.cells
  let entered := (n.points.filter fun c => enters (n.pointSt c.num)).map (·.num)
  let n := n.recordCells.showSources
  let n := n.callStep cells entered edges held
  let wakes := n.wakesOnAlarm entered
  let n := if wakes then n.later (n.modeBody .run) else n
  let n := n.issueLate
  let n := (n.commandAll.invokeAll ins).handOver.idleAlerts
  let n := if t % epochLen = 0 then n.shelfEntries.boundaryCopy else n
  let n := n.tickEnds
  if wakes then n.wakeNow else n

/-- START as the notice of a member that starts (16 R488). -/
def startNotice (n : Node) : Node := if n.pwr.phase == .f then n.notify n.startBody else n

/-- The tick of a pair member without duty: it evaluates nothing, commands its outputs off and its islands from their sources (16 Table
16.2), and takes a confirmed activation at its boundary (02 R78). R507: it issues no record under R146. -/
def standbyTick (n : Node) (t : Nat) : Node :=
  let n := n.slackOver.startNotice
  let n := if t % epochLen = 0 then n.activationDue t true else n
  let n := n.mCall fun c => { c with inPrev := n.dio.inp }
  n.showFar.commandAll.tickEnds

/-- A duty that gives up its duty at this tick (16 R505): DEMOTE is the tick's one record. -/
def demotionTick (n : Node) (cause : Nat) : Node := ((n.demoteNow cause).handOver).commandAll.tickEnds

/-- The work of a tick boundary. -/
def tickWork (n : Node) (t : Nat) : Node :=
  if n.coreHeld then n.mClk fun c => { c with held := c.held + 1 }
  else if n.pwr.parked || n.img.isNone || !(match n.pwr.phase with | .f | .done => true | _ => false) then n
  else
    let n := n.mPwr fun p => { p with solvWake := false }
    let cause := n.demoteCause
    if cause ≠ 0 then n.demotionTick cause
    else
      let n := n.takeoverAt t
      if n.ownDuty then n.dutyTick t else n.standbyTick t

/-- The first image of an unconfigured node takes effect at its boundary, before the tick's other work (02 R74, log entry 108). -/
def firstImage (n : Node) (t : Nat) : Node := if n.img.isNone && t % epochLen == 0 && n.coreRuns then n.activationDue t true else n

/-- The next tick boundary passes (01 R21, R24). -/
def tick (n : Node) : Node :=
  if n.timed then
    let t := n.nextMultiple tickLen
    ((((n.setNow t).mRtc fun r => { r with lastTick := some t }).firstImage t).tickWork t).writeThrough
  else n

/-- The next epoch boundary (01 R21): the RTC takes node time (05 R175), the results of the closed epoch, the baselines and the pending
lane syncs; host submissions count anew (12 R377); the epoch just closed may have been clean (04 R149). -/
def epoch (n : Node) : Node :=
  if n.timed then
    let t := n.nextMultiple epochLen
    let n := n.setNow t
    let n := if n.rtc.halt || n.coreHeld then n else n.loadRtc
    let n := n.closeResults.baselineEntries.syncsDue t
    let n := n.mSolv fun s => { s with tmpl := s.tmpl.map fun e => (e.1, { e.2 with hostUsed := 0 }) }
    let n := n.mSolv fun s => { s with tmpl := s.tmpl.filter fun e => e.2 != {} }
    let n := n.mClk fun c => { c with due := c.clean && c.xtal == .ready, clean := c.xtal == .ready }
    n.mPwr fun p => { p with solvHold := false }
  else n

/-- 10 R339, 01 Table 1.7: a corrected error is counted; an uncorrectable one holds every domain clamped until a restart. -/
def fabError (n : Node) (uncorrectable : Bool) : Node :=
  if uncorrectable then n.eachDom fun n d => n.enterSlack d .latched
  else n.mFab fun f => { f with ecc := satInc 0xFFFF f.ecc }

end Node

/-- The next tick boundary (01 R23). -/
def execTickBoundary (s : State) : Host.Outcome State Fault Refusal := s.run Node.tick

/-- The next epoch boundary (01 R21). -/
def execEpochBoundary (s : State) : Host.Outcome State Fault Refusal := s.run Node.epoch

/-- 10 R339. -/
def execFabEccError (uncorrectable : Bool) (s : State) : Host.Outcome State Fault Refusal := s.run fun n => n.fabError uncorrectable

/-! Commands of step 6 and its records' step 7 between two tick boundaries: the timer counts its last tick (log entry 13). -/

/-- 11 R356, Table 11.2: a running watch reaches DM_WARN. -/
def execDmPrewarn (s : State) : Host.Outcome State Fault Refusal :=
  s.run fun n =>
    match n.watch with
    | none => n
    | some w =>
      if n.evaluates ∧ n.call.dmState = 1 ∧ n.call.dmTimer ≤ w.warn * 20 + 1 then
        ((n.mCall fun c => { c with dmTimer := min c.dmTimer (w.warn * 20) }).dmMove 2).handOver.writeThrough
      else n

/-- 11 R356, Table 11.2: a watch in PREWARN reaches 0. -/
def execDmExpiry (s : State) : Host.Outcome State Fault Refusal :=
  s.run fun n =>
    if n.evaluates ∧ n.watch.isSome ∧ n.call.dmState = 2 ∧ n.call.dmTimer ≤ 1 then
      ((n.mCall fun c => { c with dmTimer := 0 }).dmMove 3).handOver.writeThrough
    else n

/-- 11 R349: a calling ladder's timer. -/
def execRungTimerExpiry (l : Fin 16) (s : State) : Host.Outcome State Fault Refusal :=
  s.run fun n =>
    match n.ladder l.val with
    | none => n
    | some c =>
      if n.evaluates ∧ (n.ladderSt c.num).rung ≠ 0 ∧ (n.ladderSt c.num).timer ≤ 1 then
        ((n.rungExpires c).bridgeUpdate).handOver.writeThrough
      else n

/-- The takeover tick (16 R496). -/
def execTakeDuty (s : State) : Host.Outcome State Fault Refusal :=
  s.run fun n => if n.takesDuty (n.nextMultiple Node.tickLen) then n.tick else n

/-- 16 R504: a lost ring demotes at once, the other causes at the next tick. -/
def execDemote (s : State) : Host.Outcome State Fault Refusal :=
  s.run fun n => if n.demoteCause = 0 then n else if n.demoteCause = 1 then n.demoteNow 1 else n.tick

end Sys2Proof.Machine
end

