-- ==== Sys2Proof/Machine/HostPort.lean ====
section
/-! DEFINITION. The host port (18): frames and their responses, what a read and a write of each register do, the host reset, and HVIO (20
R600). -/

namespace Sys2Proof.Machine

/-- Bytes 0 to 6 of a frame as they stand on the wire (R554). -/
def HostFrame.bytes (f : HostFrame) : List Byte := f.cmd :: (beBytes 2 f.addr.toNat ++ beBytes 4 f.data.toNat)

/-- The bits of a register that are not written 1 (00 R9, W1C). -/
def clearOnes {w : Nat} (v : BitVec w) (d : Word) : BitVec w := v &&& ~~~(d.setWidth w)

namespace Node

/-! Which addresses answer (R552, R561, R562). -/

/-- The port serves: from phase C on, with CORE running, and HVIO present. -/
def portServes (n : Node) : Bool := n.ringHears && n.sys.hvio

/-- SOLV is powered and its clock is on. -/
def solvServes (n : Node) : Bool := bit n.pwr.domOn 3 && n.clk.solv.st != .off

/-- The code an address gets, 0 for one whose block serves. -/
def addrCode (n : Node) (a : Nat) : Nat :=
  if (n.regView a).isNone then 6
  else if a < 0x200 || decide (0x2400 ≤ a) then 0
  else
    let ready := match n.pwr.phase with | .f | .done => true | _ => false
    if !ready || n.img.isNone then 7
    else if 0x1800 ≤ a && a < 0x1A00 && !n.solvServes then 7
    else 0

/-! Reads (R557): the side effects of a read, by address. -/

def readLo (a : Nat) : Option LoReg :=
  match a with
  | 0x0008 => some .serial
  | 0x0614 => some .nodeTime
  | 0x0C10 => some .syncTime
  | 0x1A08 => some .jrnlNewest
  | 0x1A10 => some .jrnlFlashed
  | 0x1A18 => some .jrnlOldest
  | 0x1A30 => some .jrnlPos
  | 0x1E0C => some .pairLast
  | 0x1E14 => some .pairFo
  | _ => none

/-- What a read of a lane register does (07 R249, R253). -/
def laneRead (n : Node) (l o : Nat) : Node :=
  match o with
  | 0x00 => n.updLane l LaneSt.snap
  | 0x04 => n.updLane l fun s => { s with snapPend := false }
  | 0x14 => n.updLane l LaneSt.popFifo
  | _ => n

def readEffect (n : Node) (a : Nat) : Node :=
  match readLo a with
  | some r => n.latchLo r
  | none =>
    if 0xC40 ≤ a ∧ a < 0xE40 then n.laneRead ((a - 0xC40) / 0x40) ((a - 0xC40) % 0x40)
    else match instAt a 0xE40 8 48 with
      | some c => n.setLaneCh c { n.laneCh c with engHi := highWord (n.laneCh c).eng.toNat }
      | none => if a = 0x1824 then n.memLatch else if a = 0x1828 then n.memAdvance else n

/-- A read as it executes: PWR_VOLT is the last measurement of its 10 ms (03 Table 3.12), and every register gives what it shows before
its own side effect. -/
def readReg (n : Node) (a : Nat) : Word × Node :=
  let n := if a = 0x0208 then n.sampleVolt else n
  ((n.regView a).getD 0, n.readEffect a)

/-! Writes (00 R9 to R12, R564), block by block; `a` is the offset in the block's span. -/

def resetRefusal (n : Node) (key : Nat) : Nat :=
  if key ≠ 0x5253 then 2 else if !(n.sec.maint || n.sys.unconfigured) then 3 else if n.sys.resetPend then 4 else 0

/-- SYS_CMD HOST_RESET (R567, Table 18.6). -/
def askReset (n : Node) (key : Nat) : Node :=
  let code := n.resetRefusal key
  n.mSys fun s => { s with cmdResult := code, resetPend := s.resetPend || code == 0 }

/-- SYS_CMD HP_CLEAR. -/
def clearErrors (n : Node) : Node :=
  n.mSys fun s => { s with cmdResult := 0, hpCrc := 0, hpLen := 0, hpTime := 0, hpNotReady := 0 }

def writeSys (n : Node) (a : Nat) (w : Word) : Node :=
  match a with
  | 0x18 => n.mSys fun s => { s with irq := clearOnes s.irq (w &&& 0x1E1) }
  | 0x1C => n.mSys fun s => { s with irqEn := w.setWidth 9 }
  | 0x20 =>
    match bitsOf 0 4 w with
    | 1 => n.askReset (bitsOf 16 16 w)
    | 2 => n.clearErrors
    | _ => n.mSys fun s => { s with cmdResult := 1 }
  | 0x2C => n.mSys fun s => { s with scratch := w }
  | _ => n

def writePwr (n : Node) (a : Nat) (w : Word) : Node :=
  match a with
  | 0x04 => n.mPwr fun p => { p with flags := clearOnes p.flags w }
  | 0x0C => n.modeRequest (bitsOf 0 4 w)
  | 0x24 => n.mPwr fun p => { p with wakeSrc := clearOnes p.wakeSrc w }
  | 0x28 => n.mPwr fun p => { p with wakeTime := w.toNat }
  | _ => n

def writeClk (n : Node) (a : Nat) (w : Word) : Node :=
  match a with
  | 0x00 => n.mClk fun c => { c with forced := c.forced && !bit w 1, clkoutErr := c.clkoutErr && !bit w 6 }
  | 0x1C => n.clkoutSet w
  | 0x28 => n.mClk fun c => { c with latchCause := clearOnes c.latchCause w }
  | _ => n

/-- LBV is set again while the store is low (05 R181). -/
def writeRtc (n : Node) (a : Nat) (w : Word) : Node :=
  match a with
  | 0x00 => if bit w 0 then n.haltSet else n.haltClear
  | 0x04 => n.mRtc fun r => { r with lbv := (r.lbv && !bit w 1) || r.storeLow }
  | 0x10 => if n.rtc.halt then n.mRtc fun r => { r with setSec := w.toNat } else n
  | 0x24 => n.leapWrite (bitsOf 0 8 w)
  | _ => n

def writeAfe (n : Node) (a : Nat) (w : Word) : Node :=
  match a with
  | 0x04 => n.mAfe fun f => { f with flags := clearOnes f.flags w }
  | 0x18 =>
    match bitsOf 8 2 w with
    | 1 => n.checkNow (bitsOf 0 6 w)
    | 2 => n.rebase (bitsOf 0 6 w)
    | _ => n
  | _ => match instAt a 0x100 4 48 with
    | some c => n.writeExc c w
    | none => n

def laneCommand (n : Node) (l op : Nat) : Node :=
  match op with
  | 1 => n.laneResync l
  | 2 => n.laneFlush l
  | 3 => n.laneSuspend l
  | 4 => n.laneResume l
  | _ => n.laneRefused 2

def writeLane (n : Node) (a : Nat) (w : Word) : Node :=
  match a with
  | 0x04 => n.mLane fun s => { s with
      ovfFlags := clearOnes s.ovfFlags w
      parityFlags := clearOnes s.parityFlags (w >>> 8) }
  | 0x08 => n.laneSync (w.setWidth 8) (bit w 8)
  | 0x18 => n.laneCommand (bitsOf 0 3 w) (bitsOf 8 4 w)
  | _ =>
    if 0x40 ≤ a ∧ a < 0x240 then
      let l := (a - 0x40) / 0x40
      match (a - 0x40) % 0x40 with
      | 0x24 => n.updLane l fun s => { s with ovf := s.ovf && !bit w 10, underrun := s.underrun && !bit w 11 }
      | 0x28 => n.updLane l fun s => { s with level := bitsOf 0 8 w, irqEn := bit w 8 }
      | _ => n
    else n

def writeLoop (n : Node) (a : Nat) (w : Word) : Node :=
  match a with
  | 0x04 => n.mLoop fun l => { l with flags := clearOnes l.flags w }
  | 0x10 =>
    match bitsOf 4 2 w with
    | 1 => n.forceIsland (bitsOf 0 3 w) (bitsOf 16 16 w)
    | 2 => n.releaseIsland (bitsOf 0 3 w)
    | _ => n.loopRefused 4
  | _ => n

def writeDio (n : Node) (a : Nat) (w : Word) : Node :=
  match a with
  | 0x04 => n.mDio fun d => { d with flags := clearOnes d.flags w }
  | 0x14 =>
    if bit w 8 then n.sweepStart (bitsOf 0 2 w) else n.mDio fun d => { d with sweepResult := 1, flags := setBit d.flags 3 }
  | 0x20 =>
    match bitsOf 8 3 w with
    | 1 => n.dioForce (bitsOf 0 5 w) true
    | 2 => n.dioForce (bitsOf 0 5 w) false
    | 3 => n.dioUnforce (bitsOf 0 5 w)
    | 4 => n.latchClear (bitsOf 0 5 w)
    | _ => n.dioRefused 3
  | _ => n

def writeFab (n : Node) (a : Nat) (w : Word) : Node :=
  match a with
  | 0x04 => n.mFab fun f => { f with flags := clearOnes f.flags w }
  | 0x18 =>
    let op := bitsOf 12 4 w
    n.fabHost op (bitsOf 0 10 w) (if op = 3 then n.fab.arg else 0) (if bit w 20 then some (bitsOf 16 4 w) else none)
  | 0x1C => n.mFab fun f => { f with arg := bitsOf 0 21 w }
  | 0x24 => n.mFab fun f => { f with winSel := w &&& 0x00FF33FF }
  | 0x28 => n.windowStart (bitsOf 0 2 w)
  | 0x30 => n.mFab fun f => { f with winData := f.winData.extractLsb' 32 32 ++ w }
  | 0x34 => n.mFab fun f => { f with winData := w ++ f.winData.extractLsb' 0 32 }
  | _ => match instAt a 0x140 4 32 with
    | some k => n.mFab fun f => { f with chg := f.chg &&& ~~~((w.setWidth 1024) <<< (32 * k)) }
    | none => n

def writeCall (n : Node) (a : Nat) (w : Word) : Node :=
  match a with
  | 0x04 => n.mCall fun c => { c with flags := clearOnes c.flags w }
  | 0x08 =>
    let arg := bitsOf 16 8 w
    match bitsOf 8 4 w with
    | 1 => n.callHost 0x11 (if bit w 4 then 0x00FF else bitsOf 0 4 w) 0
    | 2 => n.callHost 0x12 arg arg
    | 3 => n.callHost 0x13 0 arg
    | k => n.callHost (0x10 + k) 0x00FF 0
  | _ => n

/-- The FAULT request lasts until FAULT_SEEN is cleared (12 Table 12.8). -/
def writeSolv (n : Node) (a : Nat) (w : Word) : Node :=
  match a with
  | 0x04 => n.mSolv fun s => { s with flags := clearOnes s.flags w, faultReq := s.faultReq && !bit w 4 }
  | 0x08 => n.mSolv fun s => { s with descOp := w &&& 0x7F3F7F3F }
  | 0x0C => n.mSolv fun s => { s with descIn := bitsOf 0 18 w }
  | 0x10 => n.mSolv fun s => { s with descOut := bitsOf 0 18 w }
  | 0x14 => n.mSolv fun s => { s with descDl := bitsOf 0 17 w }
  | 0x18 => n.submitNow (bitsOf 0 2 w)
  | 0x20 => n.mSolv fun s => { s with memAddr := bitsOf 0 18 w, autoinc := bit w 31 }
  | 0x24 => n.mSolv fun s => { s with memLo := w }
  | 0x28 => n.memStore w
  | 0x34 => n.mSolv fun s => { s with irqCq := (w >>> 1).setWidth 3, irqFault := bit w 4 }
  | 0x60 => n.popCq (bitsOf 0 2 w)
  | 0x64 => n.mSolv fun s => { s with tsel := bitsOf 0 6 w }
  | _ => n

def writeJrnl (n : Node) (a : Nat) (w : Word) : Node :=
  match a with
  | 0x04 => n.mJrnl fun j => { j with flags := clearOnes j.flags w }
  | 0x20 => let op := bitsOf 0 3 w; if 1 ≤ op ∧ op ≤ 4 then n.cursorStart op else n.cursorBad
  | 0x28 => n.mJrnl fun j => { j with seek := j.seek / 2 ^ 32 * 2 ^ 32 + w.toNat }
  | 0x2C => n.mJrnl fun j => { j with seek := bitsOf 0 16 w * 2 ^ 32 + j.seek % 2 ^ 32 }
  | 0x38 => n.mJrnl fun j => { j with irqLevel := bitsOf 0 8 w, irqOn := bit w 8 }
  | _ => n

def writeTide (n : Node) (a : Nat) (w : Word) : Node :=
  match a with
  | 0x04 => n.mTide fun t => { t with flags := clearOnes t.flags w }
  | 0x24 => n.tideCommand (bitsOf 0 4 w)
  | _ => n

def writePair (n : Node) (a : Nat) (w : Word) : Node :=
  match a with
  | 0x04 => n.mPair fun q => { q with flags := clearOnes q.flags w }
  | 0x24 => n.pairCommand (bitsOf 0 4 w)
  | _ => n

def writeExt (n : Node) (a : Nat) (w : Word) : Node :=
  match a with
  | 0x04 => n.mExt fun e => { e with flags := clearOnes e.flags w }
  | 0x08 => n.clearLines.extCommand (bitsOf 8 4 w) (bitsOf 0 3 w)
  | _ => n

/-- A probe through the register asks the device, whose answer comes from outside and is free. -/
def writeStor (n : Node) (a : Nat) (w : Word) : Node :=
  match a with
  | 0x04 => n.mStor fun s => { s with flags := clearOnes s.flags w }
  | 0x08 =>
    if bitsOf 0 4 w = 1 then let (v, n) := n.fresh; n.probeCommand (bit v 0)
    else (n.mStor fun s => { s with cmdResult := 1 }).storFlag 6
  | 0x10 => n.mStor fun s => { s with rsel := bitsOf 0 3 w }
  | _ => n

/-- SEC_IMG_CMD (02 Table 2.3, R571). -/
def writeImg (n : Node) (code : Nat) : Node :=
  match code with
  | 1 => n.imgErase
  | 2 => n.imgOpen
  | 3 => n.imgClose
  | 4 => n.imgCheck
  | 5 => n.imgActivate
  | 6 => n.imgExit
  | 7 => n.imgEnrol
  | _ => n.imgBadCode

/-- Any write of a SEC register restarts the 60 min of 02 R64 (Table 18.4). -/
def writeSec (n : Node) (a : Nat) (w : Word) : Node :=
  let n := n.secTouch
  match a with
  | 0x04 => n.mSec fun s => { s with flags := clearOnes s.flags w }
  | 0x08 => n.unlockWrite w n.now
  | 0x0C => n.writeImg (bitsOf 0 4 w)
  | 0x18 => n.mSec fun s => { s with offset := bitsOf 0 23 w / 4 * 4 }
  | 0x1C => n.imgData w
  | 0x34 => n.mSec fun s => { s with hashSel := bitsOf 0 2 w }
  | _ => n

/-- A write as it executes. -/
def writeReg (n : Node) (a : Nat) (w : Word) : Node :=
  if a < 0x200 then n.writeSys a w
  else if a < 0x400 then n.writePwr (a - 0x200) w
  else if a < 0x600 then n.writeClk (a - 0x400) w
  else if a < 0x800 then n.writeRtc (a - 0x600) w
  else if a < 0xC00 then n.writeAfe (a - 0x800) w
  else if a < 0x1000 then n.writeLane (a - 0xC00) w
  else if a < 0x1200 then n.writeLoop (a - 0x1000) w
  else if a < 0x1400 then n.writeDio (a - 0x1200) w
  else if a < 0x1600 then n.writeFab (a - 0x1400) w
  else if a < 0x1800 then n.writeCall (a - 0x1600) w
  else if a < 0x1A00 then n.writeSolv (a - 0x1800) w
  else if a < 0x1C00 then n.writeJrnl (a - 0x1A00) w
  else if a < 0x1E00 then n.writeTide (a - 0x1C00) w
  else if a < 0x2000 then n.writePair (a - 0x1E00) w
  else if a < 0x2400 then n.writeExt (a - 0x2000) w
  else if a < 0x2600 then n.writeStor (a - 0x2400) w
  else n.writeSec (a - 0x2600) w

/-! Frames (R556 to R558, R563, R569). -/

/-- A response on HMISO: the error responses are counted as they are sent, and three of them set HOST. -/
def sendResp (n : Node) (r : Resp) : Node :=
  let n := n.mSys fun s => { s with
    miso := r
    misoIrq := n.hirq
    hpCrc := if r.code = 2 then satInc 0xFF s.hpCrc else s.hpCrc
    hpLen := if r.code = 3 then satInc 0xFF s.hpLen else s.hpLen
    hpTime := if r.code = 4 then satInc 0xFF s.hpTime else s.hpTime
    hpNotReady := if r.code = 1 then satInc 0xFF s.hpNotReady else s.hpNotReady }
  if r.code = 2 ∨ r.code = 3 ∨ r.code = 4 then n.irqEvent 8 else n

def noResp : Resp := ⟨8, 7, 0, 0⟩

/-- The nine bytes of HMISO in the last frame (Table 18.1, R554, R555): STATUS, ADDR, DATA, each most significant byte first, and their CRC. -/
def misoBytes (n : Node) : List Byte :=
  let r := n.sys.miso
  let b := BitVec.ofNat 8 (b2n n.sys.misoIrq * 128 + r.fcnt % 8 * 16 + r.code % 16) :: (beBytes 2 r.addr ++ beBytes 4 r.data.toNat)
  b ++ beBytes 2 (crc16 b)

/-- What a valid frame does when it executes (R556), and the DATA of its response. -/
def frameRuns (n : Node) (f : HostFrame) : Word × Node :=
  match f.cmd.toNat with
  | 0 => (n.sysSum, n)
  | 1 => n.readReg f.addr.toNat
  | _ => (0, n.writeReg f.addr.toNat f.data)

/-- The code by a frame's address; a NOP has none to judge (log entry 62). -/
def targetCode (n : Node) (f : HostFrame) : Nat := if f.cmd = 0 then 0 else n.addrCode f.addr.toNat

/-- The code of a frame: by its length, its CRC, its CMD, then its address (R557, Table 18.2). -/
def frameCode (n : Node) (f : HostFrame) (g : FrameForm) : Nat :=
  match g with
  | .early => 1
  | .badLength => 3
  | .full crc => if crc16 (HostFrame.bytes f) = crc.toNat then n.targetCode f else 2
  | .badCmd c crc => if crc16 (HostFrame.bytes { f with cmd := c }) = crc.toNat then 5 else 2

/-- A frame that executes leaves its response, under its number. -/
def frameDone (n : Node) (f : HostFrame) (k code : Nat) : Node :=
  let (d, n) := if code = 0 then n.frameRuns f else (0, n)
  n.mSys fun s => { s with wait := none, resp := some ⟨code, k, f.addr.toNat, d⟩ }

/-- An answered frame: it carries the response to the frame before it, takes its number, and leaves its own response; in BRIDGE its
operation waits (Table 18.4). -/
def answer (n : Node) (f : HostFrame) (code : Nat) : Node :=
  let n := n.sendResp (n.sys.resp.getD noResp)
  let k := n.sys.fcnt
  let n := n.mSys fun s => { s with fcnt := (k + 1) % 8, resp := none }
  if code = 0 && n.bridges then n.mSys fun s => { s with wait := some f } else n.frameDone f k code

/-- A frame too early: NOT_READY with the number and the address of the frame in progress, whose response stays pending. -/
def earlyFrame (n : Node) : Node :=
  match n.sys.wait, n.sys.resp with
  | some f, _ => n.sendResp ⟨1, (n.sys.fcnt + 7) % 8, f.addr.toNat, 0⟩
  | none, some r => n.sendResp ⟨1, r.fcnt, r.addr, 0⟩
  | none, none => n

/-- A host frame. -/
def hostFrame (n : Node) (f : HostFrame) (g : FrameForm) : Node :=
  if !n.portServes then n
  else if g = .early ∨ n.sys.wait.isSome then n.earlyFrame
  else n.answer f (n.frameCode f g)

/-- A frame that HCS_N held low for more than 1 ms (R563); log entry 62 gives its ADDR. -/
def lateFrame (n : Node) : Node :=
  if !n.portServes then n
  else if n.sys.wait.isSome then n.earlyFrame
  else n.answer ⟨0, 0, 0⟩ 4

/-- The end of BRIDGE: the frame that waited executes. -/
def frameResumes (n : Node) : Node :=
  match n.sys.wait with
  | some f => if n.bridges then n else n.frameDone f ((n.sys.fcnt + 7) % 8) (n.targetCode f)
  | none => n

/-! HVIO (20 R600) and the host reset (R567). -/

/-- The port goes, and begins to serve anew later (R557, Table 18.4). -/
def portGone (n : Node) : Node := n.mSys fun s => { s with resp := none, fcnt := 0, wait := none }

/-- R567: the node leaves its ring, writes its records, and restarts from phase C with cause HOST; the banks take SAFE. -/
def resetNow (n : Node) : Node :=
  if n.sys.resetPend && n.timed then
    let n := n.setNow (n.nextMultiple tickLen)
    let n := n.mRtc fun r => { r with lastTick := some r.now }
    let n := if n.inserted then n.leaveRing .off 7 else n
    (n.flushAll.selectModes modeSafe).restart 5 .c
  else n

end Node

/-- R556. -/
def execNop (f : BitVec 16 × Word × FrameForm) (s : State) : Host.Outcome State Fault Refusal :=
  s.run fun n => n.hostFrame ⟨0, f.1, f.2.1⟩ f.2.2

/-- R557. -/
def execRead (addr : BitVec 16) (f : Word × FrameForm) (s : State) : Host.Outcome State Fault Refusal :=
  s.run fun n => n.hostFrame ⟨1, addr, f.1⟩ f.2

/-- R557. -/
def execWrite (addr : BitVec 16) (data : Word) (f : FrameForm) (s : State) : Host.Outcome State Fault Refusal :=
  s.run fun n => n.hostFrame ⟨2, addr, data⟩ f

/-- R563. -/
def execHostFrameTimeout (s : State) : Host.Outcome State Fault Refusal := s.run Node.lateFrame

/-- A ramp's next step (04 R138); with the end of CORE's BRIDGE a host frame that waited executes (Table 18.4). -/
def execRampStep (d : Domain) (s : State) : Host.Outcome State Fault Refusal := s.run fun n => (n.rampNext d).frameResumes

/-- SYS_CMD HOST_RESET (R567). -/
def execHostReset (key : BitVec 16) (s : State) : Host.Outcome State Fault Refusal := s.run fun n => n.askReset key.toNat

/-- R567. -/
def execHostResetExecute (s : State) : Host.Outcome State Fault Refusal := s.run Node.resetNow

/-- SYS_CMD HP_CLEAR (R569). -/
def execHpClear (s : State) : Host.Outcome State Fault Refusal := s.run Node.clearErrors

/-- HVIO below 1.6 V (20 R600). -/
def execHvioLoss (s : State) : Host.Outcome State Fault Refusal :=
  s.run fun n => (n.mSys fun x => { x with hvio := false }).portGone

/-- A write of a register by its fields' access codes (00 R9 to R12, R564). -/
def execRegisterWrite (addr : BitVec 16) (data : Word) (s : State) : Host.Outcome State Fault Refusal :=
  s.run fun n => if n.portServes && n.addrCode addr.toNat == 0 then n.writeReg addr.toNat data else n

/-- HVIO is back (20 R600). -/
def execHvioRestored (s : State) : Host.Outcome State Fault Refusal := s.run fun n => n.mSys fun x => { x with hvio := true }

end Sys2Proof.Machine
end

