-- ==== Sys2Proof/Machine/Dispatch.lean ====
section
/-! DEFINITION. What a command does, arm by arm: one meaning for each constructor. -/

namespace Sys2Proof.Machine

/-- The effect of a command on everything but the queue. -/
def exec (i : Instr) (s : State) : Host.Outcome State Fault Refusal :=
  match i with
  | .tickBoundary => Sys2Proof.Machine.execTickBoundary s
  | .epochBoundary => Sys2Proof.Machine.execEpochBoundary s
  | .onDelayExpiry p => Sys2Proof.Machine.execOnDelayExpiry p s
  | .offDelayExpiry p => Sys2Proof.Machine.execOffDelayExpiry p s
  | .suppHoldExpiry p => Sys2Proof.Machine.execSuppHoldExpiry p s
  | .shelveExpiry p => Sys2Proof.Machine.execShelveExpiry p s
  | .ack p o => Sys2Proof.Machine.execAck p o s
  | .ackGroup g o => Sys2Proof.Machine.execAckGroup g o s
  | .shelve p o => Sys2Proof.Machine.execShelve p o s
  | .unshelve p o => Sys2Proof.Machine.execUnshelve p o s
  | .resetPoint p o => Sys2Proof.Machine.execResetPoint p o s
  | .outOfService p o => Sys2Proof.Machine.execOutOfService p o s
  | .inService p o => Sys2Proof.Machine.execInService p o s
  | .foReset g o => Sys2Proof.Machine.execFoReset g o s
  | .winRead => Sys2Proof.Machine.execWinRead s
  | .winWrite => Sys2Proof.Machine.execWinWrite s
  | .winOpDone => Sys2Proof.Machine.execWinOpDone s
  | .tunableApply => Sys2Proof.Machine.execTunableApply s
  | .fabEccError uncorrectable => Sys2Proof.Machine.execFabEccError uncorrectable s
  | .callAck scope o => Sys2Proof.Machine.execCallAck scope o s
  | .setDuty e => Sys2Proof.Machine.execSetDuty e s
  | .setPresent mask => Sys2Proof.Machine.execSetPresent mask s
  | .dmStart => Sys2Proof.Machine.execDmStart s
  | .dmStop => Sys2Proof.Machine.execDmStop s
  | .dmReset => Sys2Proof.Machine.execDmReset s
  | .dmPrewarn => Sys2Proof.Machine.execDmPrewarn s
  | .dmExpiry => Sys2Proof.Machine.execDmExpiry s
  | .rungTimerExpiry l => Sys2Proof.Machine.execRungTimerExpiry l s
  | .secUnlock v t => Sys2Proof.Machine.execSecUnlock v t s
  | .unlockLockoutExpiry => Sys2Proof.Machine.execUnlockLockoutExpiry s
  | .keySwitchChange ohms => Sys2Proof.Machine.execKeySwitchChange ohms s
  | .keySwitchSettled => Sys2Proof.Machine.execKeySwitchSettled s
  | .maintTimeout => Sys2Proof.Machine.execMaintTimeout s
  | .erase => Sys2Proof.Machine.execErase s
  | .eraseDone => Sys2Proof.Machine.execEraseDone s
  | .openBank => Sys2Proof.Machine.execOpenBank s
  | .closeBank => Sys2Proof.Machine.execCloseBank s
  | .checkBank => Sys2Proof.Machine.execCheckBank s
  | .checkDone => Sys2Proof.Machine.execCheckDone s
  | .activate => Sys2Proof.Machine.execActivate s
  | .exitMaint => Sys2Proof.Machine.execExitMaint s
  | .enrol => Sys2Proof.Machine.execEnrol s
  | .secImgData w => Sys2Proof.Machine.execSecImgData w s
  | .activationConfirmTimeout => Sys2Proof.Machine.execActivationConfirmTimeout s
  | .activationApply ok => Sys2Proof.Machine.execActivationApply ok s
  | .vinLow t => Sys2Proof.Machine.execVinLow t s
  | .supplyValid => Sys2Proof.Machine.execSupplyValid s
  | .ovWarning => Sys2Proof.Machine.execOvWarning s
  | .ovpTrip t => Sys2Proof.Machine.execOvpTrip t s
  | .ovpRelease => Sys2Proof.Machine.execOvpRelease s
  | .holdupEntry t => Sys2Proof.Machine.execHoldupEntry t s
  | .holdupSolverAbort => Sys2Proof.Machine.execHoldupSolverAbort s
  | .journalFlushDone => Sys2Proof.Machine.execJournalFlushDone s
  | .holdupPark => Sys2Proof.Machine.execHoldupPark s
  | .holdupStoreExhausted => Sys2Proof.Machine.execHoldupStoreExhausted s
  | .holdupRestart => Sys2Proof.Machine.execHoldupRestart s
  | .storeCharged => Sys2Proof.Machine.execStoreCharged s
  | .bor => Sys2Proof.Machine.execBor s
  | .modeRun => Sys2Proof.Machine.execModeRun s
  | .modeSleep => Sys2Proof.Machine.execModeSleep s
  | .modeDeepSleep => Sys2Proof.Machine.execModeDeepSleep s
  | .modeChangeApply => Sys2Proof.Machine.execModeChangeApply s
  | .deepWake src => Sys2Proof.Machine.execDeepWake src s
  | .powerUpSequence => Sys2Proof.Machine.execPowerUpSequence s
  | .startupBankCheck => Sys2Proof.Machine.execStartupBankCheck s
  | .rcCountComplete ok => Sys2Proof.Machine.execRcCountComplete ok s
  | .xtalCountComplete => Sys2Proof.Machine.execXtalCountComplete s
  | .pllLockComplete => Sys2Proof.Machine.execPllLockComplete s
  | .pllLockFail => Sys2Proof.Machine.execPllLockFail s
  | .xtalPllTrip pll => Sys2Proof.Machine.execXtalPllTrip pll s
  | .rcTrip => Sys2Proof.Machine.execRcTrip s
  | .lseTrip => Sys2Proof.Machine.execLseTrip s
  | .rcTrimWindow code xtalCnt rcCnt => Sys2Proof.Machine.execRcTrimWindow code xtalCnt rcCnt s
  | .clockSwitchDone d => Sys2Proof.Machine.execClockSwitchDone d s
  | .forcedSwitch d => Sys2Proof.Machine.execForcedSwitch d s
  | .rampStep d => Sys2Proof.Machine.execRampStep d s
  | .returnPoint => Sys2Proof.Machine.execReturnPoint s
  | .latchRestart => Sys2Proof.Machine.execLatchRestart s
  | .clkoutWrite w => Sys2Proof.Machine.execClkoutWrite w s
  | .rtcHaltSet => Sys2Proof.Machine.execRtcHaltSet s
  | .rtcHaltClear => Sys2Proof.Machine.execRtcHaltClear s
  | .haltTimeout => Sys2Proof.Machine.execHaltTimeout s
  | .leapCntWrite v => Sys2Proof.Machine.execLeapCntWrite v s
  | .leapCntApply => Sys2Proof.Machine.execLeapCntApply s
  | .timeStep => Sys2Proof.Machine.execTimeStep s
  | .slewEnd => Sys2Proof.Machine.execSlewEnd s
  | .lowBattery => Sys2Proof.Machine.execLowBattery s
  | .timeRefLoss => Sys2Proof.Machine.execTimeRefLoss s
  | .laneVisit l slot r => Sys2Proof.Machine.execLaneVisit l slot r s
  | .resultPublish l raw overrange parity t => Sys2Proof.Machine.execResultPublish l raw overrange parity t s
  | .laneUnlock l => Sys2Proof.Machine.execLaneUnlock l s
  | .syncReset l t => Sys2Proof.Machine.execSyncReset l t s
  | .laneSyncCmd lanes ring => Sys2Proof.Machine.execLaneSyncCmd lanes ring s
  | .resync l => Sys2Proof.Machine.execResync l s
  | .flush l => Sys2Proof.Machine.execFlush l s
  | .suspend l => Sys2Proof.Machine.execSuspend l s
  | .laneStop l => Sys2Proof.Machine.execLaneStop l s
  | .resume l => Sys2Proof.Machine.execResume l s
  | .resultLoRead l => Sys2Proof.Machine.execResultLoRead l s
  | .resultHiRead l => Sys2Proof.Machine.execResultHiRead l s
  | .fifoRead l => Sys2Proof.Machine.execFifoRead l s
  | .engLoRead c => Sys2Proof.Machine.execEngLoRead c s
  | .engHiRead c => Sys2Proof.Machine.execEngHiRead c s
  | .cjRead k reading => Sys2Proof.Machine.execCjRead k reading s
  | .checkDue c => Sys2Proof.Machine.execCheckDue c s
  | .impedanceCheckStart gap => Sys2Proof.Machine.execImpedanceCheckStart gap s
  | .checkGapTimeout c => Sys2Proof.Machine.execCheckGapTimeout c s
  | .impedanceCheckEnd z => Sys2Proof.Machine.execImpedanceCheckEnd z s
  | .checkNow c => Sys2Proof.Machine.execCheckNow c s
  | .rebase c => Sys2Proof.Machine.execRebase c s
  | .imuSelfTest pass => Sys2Proof.Machine.execImuSelfTest pass s
  | .excitationStep c => Sys2Proof.Machine.execExcitationStep c s
  | .excWrite c w => Sys2Proof.Machine.execExcWrite c w s
  | .excApply c => Sys2Proof.Machine.execExcApply c s
  | .islandFrame a crcOk => Sys2Proof.Machine.execIslandFrame a crcOk s
  | .islandReply a rdbk low => Sys2Proof.Machine.execIslandReply a rdbk low s
  | .islandHeartbeatExpiry a => Sys2Proof.Machine.execIslandHeartbeatExpiry a s
  | .islandPowerUp a => Sys2Proof.Machine.execIslandPowerUp a s
  | .islandPowerLoss a => Sys2Proof.Machine.execIslandPowerLoss a s
  | .loopForce a cur => Sys2Proof.Machine.execLoopForce a cur s
  | .loopRelease a => Sys2Proof.Machine.execLoopRelease a s
  | .dioFrame b crcOk => Sys2Proof.Machine.execDioFrame b crcOk s
  | .dioReply b levels vf => Sys2Proof.Machine.execDioReply b levels vf s
  | .inputFilterChange pin samples => Sys2Proof.Machine.execInputFilterChange pin samples s
  | .wireBreak pin broken => Sys2Proof.Machine.execWireBreak pin broken s
  | .outputLatchOff pin thermal => Sys2Proof.Machine.execOutputLatchOff pin thermal s
  | .backfeed pin on => Sys2Proof.Machine.execBackfeed pin on s
  | .watchdogExpiry b => Sys2Proof.Machine.execWatchdogExpiry b s
  | .fieldSupplyLoss b => Sys2Proof.Machine.execFieldSupplyLoss b s
  | .dioSweep b => Sys2Proof.Machine.execDioSweep b s
  | .sweepSlotEnd => Sys2Proof.Machine.execSweepSlotEnd s
  | .dioForceOn pin => Sys2Proof.Machine.execDioForceOn pin s
  | .dioForceOff pin => Sys2Proof.Machine.execDioForceOff pin s
  | .dioRelease pin => Sys2Proof.Machine.execDioRelease pin s
  | .clearLatch b => Sys2Proof.Machine.execClearLatch b s
  | .submit q t => Sys2Proof.Machine.execSubmit q t s
  | .jobEnd t => Sys2Proof.Machine.execJobEnd t s
  | .deadlineExpiry t => Sys2Proof.Machine.execDeadlineExpiry t s
  | .solverFaultDetected => Sys2Proof.Machine.execSolverFaultDetected s
  | .cqPop q => Sys2Proof.Machine.execCqPop q s
  | .memWrite hi => Sys2Proof.Machine.execMemWrite hi s
  | .memRead => Sys2Proof.Machine.execMemRead s
  | .journalFlashWrite => Sys2Proof.Machine.execJournalFlashWrite s
  | .ramEccError seq => Sys2Proof.Machine.execRamEccError seq s
  | .seek => Sys2Proof.Machine.execSeek s
  | .next => Sys2Proof.Machine.execNext s
  | .newest => Sys2Proof.Machine.execNewest s
  | .oldest => Sys2Proof.Machine.execOldest s
  | .cursorLoadDone => Sys2Proof.Machine.execCursorLoadDone s
  | .loLatchRead r => Sys2Proof.Machine.execLoLatchRead r s
  | .beaconSend => Sys2Proof.Machine.execBeaconSend s
  | .beaconRx rp b => Sys2Proof.Machine.execBeaconRx rp b s
  | .linkDown rp => Sys2Proof.Machine.execLinkDown rp s
  | .linkUp rp => Sys2Proof.Machine.execLinkUp rp s
  | .linkRestored rp => Sys2Proof.Machine.execLinkRestored rp s
  | .rotationBoundary => Sys2Proof.Machine.execRotationBoundary s
  | .token tk => Sys2Proof.Machine.execToken tk s
  | .holdEnd => Sys2Proof.Machine.execHoldEnd s
  | .claim n => Sys2Proof.Machine.execClaim n s
  | .tokenSilence => Sys2Proof.Machine.execTokenSilence s
  | .status src fseq f => Sys2Proof.Machine.execStatus src fseq f s
  | .time src fseq rp f rx rxNs => Sys2Proof.Machine.execTime src fseq rp f rx rxNs s
  | .drop src fseq lost => Sys2Proof.Machine.execDrop src fseq lost s
  | .splice src fseq neighbour joining => Sys2Proof.Machine.execSplice src fseq neighbour joining s
  | .records src fseq recs => Sys2Proof.Machine.execRecords src fseq recs s
  | .command src fseq load => Sys2Proof.Machine.execCommand src fseq load s
  | .frameReturn fseq copied => Sys2Proof.Machine.execFrameReturn fseq copied s
  | .fseqMissingTimeout src fseq => Sys2Proof.Machine.execFseqMissingTimeout src fseq s
  | .insertRequest => Sys2Proof.Machine.execInsertRequest s
  | .listenTimeout => Sys2Proof.Machine.execListenTimeout s
  | .leave => Sys2Proof.Machine.execLeave s
  | .join => Sys2Proof.Machine.execJoin s
  | .epochData src fseq final handover tag idx count bytes => Sys2Proof.Machine.execEpochData src fseq final handover tag idx count bytes s
  | .epochCommit src fseq final handover tag count crc hashTag last fo => Sys2Proof.Machine.execEpochCommit src fseq final handover tag count crc hashTag last fo s
  | .epochAck src fseq result tag confirm => Sys2Proof.Machine.execEpochAck src fseq result tag confirm s
  | .highQuery src fseq space => Sys2Proof.Machine.execHighQuery src fseq space s
  | .highReply src fseq space n => Sys2Proof.Machine.execHighReply src fseq space n s
  | .copyMissed => Sys2Proof.Machine.execCopyMissed s
  | .queryWaitEnd => Sys2Proof.Machine.execQueryWaitEnd s
  | .takeDuty => Sys2Proof.Machine.execTakeDuty s
  | .demote => Sys2Proof.Machine.execDemote s
  | .switchover => Sys2Proof.Machine.execSwitchover s
  | .ackSentence port num => Sys2Proof.Machine.execAckSentence port num s
  | .acnSentence port ident inst cmd => Sys2Proof.Machine.execAcnSentence port ident inst cmd s
  | .alfRepeat port => Sys2Proof.Machine.execAlfRepeat port s
  | .alcCycle port => Sys2Proof.Machine.execAlcCycle port s
  | .alrRepeat port => Sys2Proof.Machine.execAlrRepeat port s
  | .sentenceSent port => Sys2Proof.Machine.execSentenceSent port s
  | .addressClaim addr name => Sys2Proof.Machine.execAddressClaim addr name s
  | .isoRequest pgn => Sys2Proof.Machine.execIsoRequest pgn s
  | .heartbeat => Sys2Proof.Machine.execHeartbeat s
  | .alertRepeat => Sys2Proof.Machine.execAlertRepeat s
  | .alertResponse ident occ cmd => Sys2Proof.Machine.execAlertResponse ident occ cmd s
  | .engineRapidUpdate => Sys2Proof.Machine.execEngineRapidUpdate s
  | .engineDynamic => Sys2Proof.Machine.execEngineDynamic s
  | .arpIcmp port arp => Sys2Proof.Machine.execArpIcmp port arp s
  | .udpbcDatagram port sfi x => Sys2Proof.Machine.execUdpbcDatagram port sfi x s
  | .readCoils port unit start n => Sys2Proof.Machine.execReadCoils port unit start n s
  | .readDiscreteInputs port unit start n => Sys2Proof.Machine.execReadDiscreteInputs port unit start n s
  | .readHoldingRegisters port unit start n => Sys2Proof.Machine.execReadHoldingRegisters port unit start n s
  | .readInputRegisters port unit start n => Sys2Proof.Machine.execReadInputRegisters port unit start n s
  | .writeSingleCoil port unit addr on => Sys2Proof.Machine.execWriteSingleCoil port unit addr on s
  | .writeSingleRegister port unit addr v => Sys2Proof.Machine.execWriteSingleRegister port unit addr v s
  | .writeMultipleCoils port unit start vs => Sys2Proof.Machine.execWriteMultipleCoils port unit start vs s
  | .writeMultipleRegisters port unit start vs => Sys2Proof.Machine.execWriteMultipleRegisters port unit start vs s
  | .readWriteRegisters port unit rstart rn wstart vs => Sys2Proof.Machine.execReadWriteRegisters port unit rstart rn wstart vs s
  | .tcpConnect port => Sys2Proof.Machine.execTcpConnect port s
  | .tcpIdleClose port conn => Sys2Proof.Machine.execTcpIdleClose port conn s
  | .replayRequest port space first n => Sys2Proof.Machine.execReplayRequest port space first n s
  | .replaySend => Sys2Proof.Machine.execReplaySend s
  | .portStateChange port ev t => Sys2Proof.Machine.execPortStateChange port ev t s
  | .busOffRestart => Sys2Proof.Machine.execBusOffRestart s
  | .disable port => Sys2Proof.Machine.execDisable port s
  | .enable port => Sys2Proof.Machine.execEnable port s
  | .clearCounts port => Sys2Proof.Machine.execClearCounts port s
  | .nop f => Sys2Proof.Machine.execNop f s
  | .read addr f => Sys2Proof.Machine.execRead addr f s
  | .write addr data f => Sys2Proof.Machine.execWrite addr data f s
  | .hostFrameTimeout => Sys2Proof.Machine.execHostFrameTimeout s
  | .hostReset key => Sys2Proof.Machine.execHostReset key s
  | .hostResetExecute => Sys2Proof.Machine.execHostResetExecute s
  | .hpClear => Sys2Proof.Machine.execHpClear s
  | .hvioLoss => Sys2Proof.Machine.execHvioLoss s
  | .registerWrite addr data => Sys2Proof.Machine.execRegisterWrite addr data s
  | .flashProgramDone ok => Sys2Proof.Machine.execFlashProgramDone ok s
  | .flashEraseDone blank => Sys2Proof.Machine.execFlashEraseDone blank s
  | .flashTimeout => Sys2Proof.Machine.execFlashTimeout s
  | .backgroundReerase => Sys2Proof.Machine.execBackgroundReerase s
  | .storeFailed noId => Sys2Proof.Machine.execStoreFailed noId s
  | .probe answers => Sys2Proof.Machine.execProbe answers s
  | .epochProbe answers => Sys2Proof.Machine.execEpochProbe answers s
  | .fieldSupplyReturn b vf => Sys2Proof.Machine.execFieldSupplyReturn b vf s
  | .hvioRestored => Sys2Proof.Machine.execHvioRestored s
  | .ovActiveEnd => Sys2Proof.Machine.execOvActiveEnd s
  | .aonStoreExhausted => Sys2Proof.Machine.execAonStoreExhausted s
  | .edgesResume lse => Sys2Proof.Machine.execEdgesResume lse s
  | .memHiRead => Sys2Proof.Machine.execMemHiRead s

end Sys2Proof.Machine
end

