-- ==== Sys2Proof/Safety.lean ====
section
/-! DEFINITION. The terms in which claims about the block are stated: what a command gives, which blocks it may change, and the
conditions that every step keeps. -/

namespace Sys2Proof.Machine

/-- The command answers the next state in which the node is `m` and the queue stands as it was. -/
def Answers (i : Instr) (s : State) (m : Node) : Prop := exec i s = .next { s with node := m }

/-- The command answers a next state: the queue stands as it was, and the node is as `p` says. -/
def Gives (i : Instr) (s : State) (p : Node → Prop) : Prop :=
  ∃ t, exec i s = .next t ∧ t.pending = s.pending ∧ p t.node

/-- The parts of the node: the blocks of 01 Table 1.1, the running image, and the model's own counter of free values. -/
inductive Part where
  | sys | pwr | clk | rtc | afe | lane | loop | dio | fab | call | solv | jrnl | tide | pair | ext | stor | sec | img | free
deriving DecidableEq, Repr

/-- The part stands in `m` as it does in `n`. -/
def Part.Same : Part → Node → Node → Prop
  | .sys, n, m => m.sys = n.sys
  | .pwr, n, m => m.pwr = n.pwr
  | .clk, n, m => m.clk = n.clk
  | .rtc, n, m => m.rtc = n.rtc
  | .afe, n, m => m.afe = n.afe
  | .lane, n, m => m.lane = n.lane
  | .loop, n, m => m.loop = n.loop
  | .dio, n, m => m.dio = n.dio
  | .fab, n, m => m.fab = n.fab
  | .call, n, m => m.call = n.call
  | .solv, n, m => m.solv = n.solv
  | .jrnl, n, m => m.jrnl = n.jrnl
  | .tide, n, m => m.tide = n.tide
  | .pair, n, m => m.pair = n.pair
  | .ext, n, m => m.ext = n.ext
  | .stor, n, m => m.stor = n.stor
  | .sec, n, m => m.sec = n.sec
  | .img, n, m => m.img = n.img
  | .free, n, m => m.free = n.free

/-- Every part but those listed stands as it was: the frame of a command. -/
def Keeps (l : List Part) (n m : Node) : Prop := ∀ b : Part, b ∉ l → b.Same n m

/-- The solver memory is in its one canonical form (log entry 41): equal memories are equal data. -/
def Node.MemCanonical (n : Node) : Prop := twf 0 n.solv.mem = true

/-- What every step keeps of the integrator key (02 R60): once the fuse is blown it stays blown. -/
def Node.FuseBlown (n : Node) : Prop := n.sec.enrolled = true

end Sys2Proof.Machine
end

