-- ==== Sys2Proof/Certificates/Slice0/Obligations.lean ====
section
/-! DEFINITION. The statements about the block, for the provers. `Answers` says that a command answers exactly the next state given,
`Gives` that it answers a next state and what that state holds, and `Keeps` is a frame: every part not listed stands. -/

open Sys2Proof Sys2Proof.Machine Sys2Proof.Machine.Node

/-- A step takes the command at the front of the queue and runs it on the node with the queue's rest; with an empty queue the block idles
(log entry 1, the model's choice). Every command, with every operand and in every state, answers a next state that keeps the queue: none
ends in a fault or a refusal. -/
def Obligations.StepRunsFrontCommand : Prop :=
  (∀ (s : State) (c : Instr) (rest : List Instr), s.pending = c :: rest → step s = exec c { s with pending := rest }) ∧
  (∀ s : State, s.pending = [] → step s = .next s) ∧
  ∀ (s : State) (c : Instr), ∃ t, exec c s = .next t ∧ t.pending = s.pending

/-- The Reset columns of 03, 05, 11, 12, 14 to 18 and 19 at the registers named, by address, on a node with straps 0; and the queue and
solver memory empty. The values no rule gives are the model's (log entries 3 and 4) and are not stated. -/
def Obligations.ResetValues : Prop :=
  (∀ p ∈ [(0x0000, 0x00C14816), (0x001C, 1), (0x002C, 0), (0x0200, 0xF40), (0x0204, 0), (0x0404, 0), (0x0604, 1), (0x0608, 0), (0x0624, 5),
      (0x1600, 0), (0x1604, 0), (0x1804, 0), (0x181C, 0xFF), (0x1A00, 0), (0x1A04, 0), (0x1C00, 0), (0x1C04, 0), (0x1C08, 0),
      (0x1E00, 0), (0x1E04, 0), (0x2000, 0), (0x2004, 0), (0x2600, 0), (0x2604, 0), (0x2610, 0)],
    State.reset.node.regView p.1 = some (BitVec.ofNat 32 p.2)) ∧
    State.reset.pending = [] ∧ State.reset.node.MemCanonical ∧ State.reset.node.sec.maint = false ∧ State.reset.node.img = none

/-- Every step keeps the solver memory in its one canonical form (log entry 41): equal memories are equal data. -/
def Obligations.SolverMemoryStaysCanonical : Prop :=
  ∀ s t : State, s.node.MemCanonical → step s = .next t → t.node.MemCanonical

/-- 02 R60: no step unblows the ENROLLED fuse: once in its life is once for all. -/
def Obligations.FuseStaysBlown : Prop := ∀ s t : State, s.node.FuseBlown → step s = .next t → t.node.FuseBlown

/-- 16 R483: a VIEW holds a majority when more than half of MEMBERS is in it, or half with the lowest-numbered of MEMBERS. -/
def Obligations.MajorityOfMembers : Prop :=
  ∀ members view : BitVec 16,
    let count (p : Nat → Bool) := ((List.range 16).filter p).length
    let all := count (bit members ·)
    let here := count fun k => bit members k && bit view k
    Node.majorityOf members view = true ↔
      all < 2 * here ∨ (all = 2 * here ∧ ∃ k, k < 16 ∧ bit members k = true ∧ bit view k = true ∧ ∀ i, i < k → bit members i = false)

/-- 01 R21, R23, R24, 04 R146: a tick boundary takes node time to the next multiple of 50 ms. While CORE is held the tick only counts; the
node that issues evaluates its fabric once, empties its command queue, and shows its cells as they stand. -/
def Obligations.TickBoundary : Prop :=
  ∀ s : State,
    let n := s.node
    let t := n.nextMultiple 50000
    (n.timed = false → Answers .tickBoundary s n) ∧
    (n.timed = true → n.coreHeld = true → Answers .tickBoundary s { n with
      rtc := { n.rtc with
        now := max n.rtc.now t
        lastTick := some t }
      clk := { n.clk with held := n.clk.held + 1 } }) ∧
    (n.timed = true → n.coreHeld = false → (n.pwr.parked = true ∧ n.img.isSome = true) ∨ (n.img = none ∧ n.sec.act = none ∧ n.sec.notice = none) →
      n.jrnl.writeThrough = false → Answers .tickBoundary s { n with rtc := { n.rtc with
        now := max n.rtc.now t
        lastTick := some t } }) ∧
    (n.timed = true → n.coreHeld = false → n.pwr.parked = false → n.img.isSome = true → n.pwr.phase ∈ [.f, .done] →
      n.ownDuty = true → n.demoteCause = 0 → n.pair.takeDue = none → Gives .tickBoundary s fun m =>
        m.rtc.lastTick = some t ∧ m.fab.tick = (n.fab.tick + 1) % 2 ^ 32 ∧ m.fab.queue = [] ∧ m.fab.shown = m.fab.cells ∧
          m.call.fresh = false ∧ m.pwr.phase = .done)

/-- 01 R21, 05 R175, 07 R241, 12 R377, 04 R149: an epoch boundary takes node time to the next multiple of 1 s, and closes the epoch. -/
def Obligations.EpochBoundary : Prop :=
  ∀ s : State,
    let n := s.node
    let t := n.nextMultiple 1000000
    (n.timed = false → Answers .epochBoundary s n) ∧
    (n.timed = true → Gives .epochBoundary s fun m =>
      m.rtc.now = max n.rtc.now t ∧ m.pwr.solvHold = false ∧ m.clk.due = (n.clk.clean && decide (n.clk.xtal = .ready)) ∧
        m.clk.clean = decide (n.clk.xtal = .ready) ∧ m.lane.syncPend = n.lane.syncPend.filter (fun x => decide (t < x.boundary)) ∧
        (∀ e ∈ m.solv.tmpl, e.2.hostUsed = 0) ∧ m.fab = n.fab ∧ m.call = n.call ∧ m.dio = n.dio)

/-- 01 R24, R31, 14 R424 to R427: a record issued takes the next number of the space, the time of the tick under way, and its place in the
RAM ring; no number is issued twice. 14 R432, 16 R488: a record of no step: the issuer holds it until the end of step 6; a pair member
without duty sends its partner a notice, or holds up to 64. -/
def Obligations.RecordsNumberedAndHeld : Prop :=
  (∀ (n : Node) (b : RecBody),
    let m := n.issueNow b
    let r : Record := ⟨n.jrnl.nextSeq, n.sys.node, n.space, b.type, n.rtc.lastTick.getD n.rtc.now, b.source, b.old, b.new,
      Node.detail b.detail⟩
    m.jrnl.tickRecs = n.jrnl.tickRecs ++ [r] ∧ m.jrnl.last = n.jrnl.nextSeq ∧ m.jrnl.nextSeq = n.jrnl.nextSeq + 1 ∧
      m.jrnl.ram.getLast? = some ⟨r, false⟩ ∧ (n.jrnl.ram.length ≤ 4096 → m.jrnl.ram.length ≤ 4096) ∧ r.detail.length = 10 ∧
      Keeps [.jrnl] n m) ∧
  (∀ (n : Node) (b : RecBody),
    (n.ownDuty = true → n.later b = { n with jrnl := { n.jrnl with due := n.jrnl.due ++ [b] } }) ∧
    (n.ownDuty = false → Node.noticed b.type = false → n.later b = n) ∧
    (∀ p, n.ownDuty = false → Node.noticed b.type = true → n.partner = some p →
      (n.partnerDuty = true → n.tide.st = .inserted →
        n.later b = { n with tide := { n.tide with tx := n.tide.tx ++ [⟨0, 0, 1#16 <<< p, .command (.notice b)⟩] } }) ∧
      (n.partnerDuty = false ∨ n.tide.st ≠ .inserted → n.pair.notices.length < 64 →
        n.later b = { n with pair := { n.pair with notices := n.pair.notices ++ [b] } }) ∧
      (n.partnerDuty = false ∨ n.tide.st ≠ .inserted → 64 ≤ n.pair.notices.length →
        n.later b = { n with
          pair := { n.pair with notices := n.pair.notices.tail ++ [b] }
          jrnl := { n.jrnl with lost := satInc 0xFF n.jrnl.lost } })))

/-- 02 R62, R63: every case of a write of SEC_UNLOCK, with its whole effect. 02 R62 to R65, 20 R603: the end of the lockout, the key
switch loop, and the three ends of maintenance mode, each with the record that names its cause (1 the key switch, 2 EXIT, 3 the 60 min)
and the end of the forces made in it. -/
def Obligations.MaintenanceUnlocked : Prop :=
  (∀ (s : State) (v : Word) (t : Nat),
    let n := s.node
    let now := max n.rtc.now t
    let base := { n with rtc := { n.rtc with now := now } }
    let sec := { n.sec with lastWrite := now }
    (n.sec.maint = true → Answers (.secUnlock v t) s { base with sec := sec }) ∧
    (n.sec.maint = false → n.sec.lockout = true →
      Answers (.secUnlock v t) s { base with sec := { sec with flags := setBit sec.flags 0 } }) ∧
    (n.sec.maint = false → n.sec.lockout = false → n.sec.keySw = true → n.sec.unlockStep = false → v = 0x00004B56 →
      Answers (.secUnlock v t) s { base with sec := { sec with
        unlockStep := true
        unlockAt := now } }) ∧
    (n.sec.maint = false → n.sec.lockout = false → n.sec.keySw = true → n.sec.unlockStep = true → v = 0x0000564B →
      now ≤ n.sec.unlockAt + 10000 →
      Answers (.secUnlock v t) s (Node.later { base with sec := { sec with
        maint := true
        unlockStep := false
        restarts := 0 } } ⟨0x10, 0, 3, 0, leBytes 4 n.hashTag⟩)) ∧
    (n.sec.maint = false → n.sec.lockout = false →
      (n.sec.keySw = false ∨ (n.sec.unlockStep = false ∧ v ≠ 0x00004B56) ∨
        (n.sec.unlockStep = true ∧ (v ≠ 0x0000564B ∨ n.sec.unlockAt + 10000 < now))) →
      Answers (.secUnlock v t) s { base with sec := { sec with
        flags := setBit sec.flags 0
        unlockStep := false
        restarts := if 2 ≤ n.sec.restarts then 0 else n.sec.restarts + 1
        lockout := decide (2 ≤ n.sec.restarts) } })) ∧
  (∀ (s : State) (ohms : Nat),
    let n := s.node
    let left (sec : Sec) (cause : Nat) : Node :=
      (Node.later { n with sec := { sec with maint := false } } ⟨0x10, 0, 4, cause, leBytes 4 n.hashTag⟩).endAoForces.endDioForces
    Answers .unlockLockoutExpiry s { n with sec := { n.sec with lockout := false } } ∧
    (ohms ≤ 100 → Answers (.keySwitchChange ohms) s { n with sec := { n.sec with keyClosed := true } }) ∧
    (10000 ≤ ohms → n.sec.unlockStep = false → Answers (.keySwitchChange ohms) s { n with sec := { n.sec with
      keyClosed := false
      keySw := false } }) ∧
    (10000 ≤ ohms → n.sec.unlockStep = true → Gives (.keySwitchChange ohms) s fun m =>
      m.sec.keyClosed = false ∧ m.sec.keySw = false ∧ m.sec.unlockStep = false ∧ m.sec.flags = setBit n.sec.flags 0 ∧
        Keeps [.sec] n m) ∧
    (n.sec.keyClosed = true → Answers .keySwitchSettled s { n with sec := { n.sec with keySw := true } }) ∧
    (n.sec.keyClosed = false → n.sec.maint = false →
      Answers .keySwitchSettled s { n with sec := { n.sec with keySw := false } }) ∧
    (n.sec.keyClosed = false → n.sec.maint = true → Answers .keySwitchSettled s (left { n.sec with keySw := false } 1)) ∧
    (n.sec.maint = true → Answers .exitMaint s (left { n.sec with
      lastWrite := n.rtc.now
      result := 0 } 2)) ∧
    (n.sec.maint = false → Answers .exitMaint s { n with sec := { n.sec with
      lastWrite := n.rtc.now
      result := 0x82
      flags := setBit n.sec.flags 1 } }) ∧
    (n.sec.maint = true → Answers .maintTimeout s (left n.sec 3)))

/-- 02 R66: leaving maintenance mode, by EXIT, by the 60 min or by the key switch, cancels no CHECK in progress and no activation
accepted, and leaves both banks as they are. 08 R277, 09 R302: the forces that end with maintenance mode: no island stays forced, and the
forcing of outputs changes only the tables that hold it. -/
def Obligations.LeavingMaintenanceKeepsLoading : Prop :=
  (∀ s : State,
    let n := s.node
    let kept (m : Node) := m.sec.maint = false ∧ m.sec.busy = n.sec.busy ∧ m.sec.act = n.sec.act ∧ m.sec.a = n.sec.a ∧
      m.sec.b = n.sec.b ∧ m.stor = n.stor
    n.sec.maint = true →
      Gives .exitMaint s kept ∧ Gives .maintTimeout s kept ∧ (n.sec.keyClosed = false → Gives .keySwitchSettled s kept)) ∧
  (∀ s : State, s.node.sec.maint = true → twf {} s.node.loop.aos = true → twf none s.node.dio.forces = true →
    Gives .maintTimeout s fun m =>
      (∀ a < 8, (m.aoSt a).forced = none) ∧ m.dio.forces = [] ∧ m.sec = { s.node.sec with maint := false } ∧
        Keeps [.sec, .loop, .dio, .jrnl, .tide, .pair] s.node m)

/-- 02 R67, R73, R76, 18 R571: the loader's refusals, each with its code, RESULT, CMD_REFUSED and nothing else. 02 R60, R67, R74, R77,
Table 2.3: what each accepted command of the loader does. -/
def Obligations.LoaderCommands : Prop :=
  (∀ s : State,
    let n := s.node
    let bank := n.inactiveBank
    let refused (c : Instr) (code : Nat) : Prop := Answers c s { n with sec := { n.sec with
      lastWrite := n.rtc.now
      result := code
      flags := setBit n.sec.flags 1 } }
    (n.sec.busy ≠ 0 → ∀ c ∈ [Instr.erase, .openBank, .closeBank, .checkBank, .activate, .enrol], refused c 0x87) ∧
    (n.sec.busy = 0 →
      (n.sec.maint = false → ∀ c ∈ [Instr.erase, .openBank, .activate, .enrol], refused c 0x82) ∧
      (n.sec.act.isSome = true → (n.sec.maint = true → refused .erase 0x83) ∧ refused .checkBank 0x83) ∧
      (n.sec.maint = true → bank.state ≠ 0 → refused .openBank 0x83) ∧
      (bank.state ≠ 1 ∨ bank.stuck = true → refused .closeBank 0x83) ∧
      (bank.state ≠ 2 → bank.state ≠ 3 → bank.state ≠ 4 → refused .checkBank 0x83) ∧
      (n.sec.maint = true → n.sec.enrolled = true → refused .enrol 0x84) ∧
      (n.sec.maint = true → n.ownDuty = false → refused .activate 0x80) ∧
      (n.sec.maint = true → n.ownDuty = true → bank.state ≠ 3 → refused .activate 0x81))) ∧
  (∀ s : State,
    let n := s.node
    let b := n.inactive
    let bank := if b then n.sec.b else n.sec.a
    let base : Node := { n with sec := { n.sec with
      lastWrite := n.rtc.now
      result := 0 } }
    let put (v : BankSt) : Node := { base with sec := { base.sec with
      a := if b then n.sec.a else v
      b := if b then v else n.sec.b } }
    n.sec.busy = 0 →
    (n.sec.maint = true → n.sec.act = none →
      Answers .erase s (Node.flashAdd { base with sec := { base.sec with busy := 1 } } (.bankErase b 0))) ∧
    (n.sec.maint = true → bank.state = 0 → Answers .openBank s ((put { bank with
      state := 1
      hash := 0
      written := 0
      stuck := false
      bad := false }).flashAdd (.bank b ⟨1, bank.gen, 0⟩))) ∧
    (bank.state = 1 → bank.stuck = false → Answers .closeBank s ((put { bank with
      state := 2
      hash := 0 }).flashAdd (.bank b ⟨2, bank.gen, 0⟩))) ∧
    (n.sec.act = none → bank.state ∈ [2, 3, 4] → Answers .checkBank s { base with sec := { base.sec with busy := 2 } }) ∧
    (n.sec.maint = true → n.ownDuty = true → bank.state = 3 → n.sec.act = none → n.img.any (·.hash == bank.hash) = false →
      n.bankSlotFree b = true → Gives .activate s fun m =>
        m.sec = { base.sec with act := some ⟨b, epochAfter n.rtc.now 2, !n.paired⟩ } ∧ Keeps [.sec, .tide] n m ∧
        (n.paired = false → m.tide = n.tide) ∧
        (∀ p, n.partner = some p →
          m.tide.tx = n.tide.tx ++ [⟨0, 0, 1#16 <<< p, .command (.activation bank.hash (epochAfter n.rtc.now 2))⟩])) ∧
    (n.sec.maint = true → n.sec.enrolled = false →
      Answers .enrol s (match n.certificate with
        | none => { base with sec := { base.sec with
            result := 0x11
            flags := setBit n.sec.flags 1 } }
        | some (key, id, l) => Node.flashAdd { base with sec := { base.sec with
            enrolled := true
            keyId := keyIdOf key
            integrator := id } } (.ident (.cert l)))))

/-- 02 R76, 19 R581: an ACTIVATE that no earlier refusal meets is refused while another activation waits, with the bank record full, and for
the running image. -/
def Obligations.ActivateOfRunningImageRefused : Prop :=
  ∀ s : State,
    let n := s.node
    let bank := n.inactiveBank
    n.sec.busy = 0 → n.sec.maint = true → n.ownDuty = true → bank.state = 3 →
      (n.sec.act.isSome = true ∨ n.bankSlotFree n.inactive = false →
        Gives .activate s fun m => m.sec.result = 0x83 ∧ m.sec.act = n.sec.act ∧ Keeps [.sec] n m) ∧
      (n.sec.act = none → n.bankSlotFree n.inactive = true → (∃ i, n.img = some i ∧ i.hash = bank.hash) →
        Gives .activate s fun m => m.sec.result = 0x85 ∧ m.sec.act = none ∧ Keeps [.sec] n m)

/-- 18 R570: a write of SEC_IMG_DATA puts its four bytes, lowest first, at OFFSET of the inactive bank, or is refused. 02 R69, R70, 19
R582: an erase and a check end with the inactive bank EMPTY, CHECKED with its hash, or FAILED with the first failure's code. -/
def Obligations.ImageWriteEraseAndCheck : Prop :=
  (∀ (s : State) (w : Word),
    let n := s.node
    let b := n.inactive
    let o := n.sec.offset
    let ok := n.sec.maint = true ∧ (n.bankOf b).state = 1 ∧ o + 4 ≤ imageMax ∧ n.sec.bufUsed + 4 ≤ 256
    (¬ ok → Answers (.secImgData w) s { n with sec := { n.sec with
      lastWrite := n.rtc.now
      flags := setBit n.sec.flags 2 } }) ∧
    (ok → n.stor.state ≠ 2 → twf 0xFF (n.bankOf b).bytes = true → Gives (.secImgData w) s fun m =>
      m.sec.offset = o + 4 ∧ m.sec.bufUsed = n.sec.bufUsed + 4 ∧ m.sec.flags = n.sec.flags ∧
        (∀ i < 4, tget 0xFF (m.bankOf b).bytes (o + i) = w.extractLsb' (8 * i) 8) ∧
        (∀ a, a < o ∨ o + 4 ≤ a → tget 0xFF (m.bankOf b).bytes a = tget 0xFF (n.bankOf b).bytes a) ∧
        (m.bankOf b).written = max (n.bankOf b).written (o + 4) ∧ m.bankOf (!b) = n.bankOf (!b) ∧
        Keeps [.sec, .stor] n m)) ∧
  (∀ s : State,
    let n := s.node
    let b := n.inactive
    (n.sec.busy = 1 → n.stor.state ≠ 2 → Gives .eraseDone s fun m =>
      m.bankOf b = { gen := (n.bankOf b).gen } ∧ m.bankOf (!b) = n.bankOf (!b) ∧ m.sec.busy = 0 ∧
        m.sys.irq = setBit n.sys.irq 5 ∧ Keeps [.sec, .stor, .sys] n m) ∧
    (n.sec.busy = 2 → Gives .checkDone s fun m =>
      m.sec.busy = 0 ∧ m.sec.flags = setBit n.sec.flags 3 ∧ m.sys.irq = setBit n.sys.irq 5 ∧
        m.bankOf (!b) = n.bankOf (!b) ∧ Keeps [.sec, .stor, .sys] n m ∧
        (match n.checkImage (n.bankOf b) with
          | none => (m.bankOf b).state = 3 ∧ (m.bankOf b).hash = bodyHash (n.bankOf b).bytes ∧ m.sec.code = 0
          | some f => (m.bankOf b).state = 4 ∧ m.sec.code = f.code ∧ m.sec.detSection = f.secNo ∧ m.sec.detItem = f.item)))

/-- 02 R75, R77, R92: the activation boundary: refused without the standby's confirmation or when the bank record's write fails, and
otherwise the new generation, the banks' states and the image. -/
def Obligations.ActivationBoundary : Prop :=
  ∀ (s : State) (ok : Bool) (a : ActPend),
    let n := s.node
    let t := n.nextMultiple 1000000
    let ended (code : Nat) (sec : Sec) : Node := Node.stepOne { n with
      rtc := { n.rtc with now := max n.rtc.now t }
      sys := { n.sys with irq := setBit n.sys.irq 5 }
      sec := { sec with
        act := none
        notice := none
        confirmDue := false
        result := code
        flags := setBit (setBit n.sec.flags 4) 1 } } ⟨0x10, 0, 2, code, leBytes 4 n.hashTag⟩
    n.activates = true → n.sec.act = some a →
      (a.confirmed = false → Answers .activationConfirmTimeout s (ended 0x80 n.sec)) ∧
      (a.confirmed = true → a.boundary ≤ t → ok = false ∨ n.stor.state ≠ 1 →
        Answers (.activationApply ok) s (ended 0x83 { n.sec with
          a := if a.bank then n.sec.a else { n.sec.a with state := 4 }
          b := if a.bank then { n.sec.b with state := 4 } else n.sec.b })) ∧
      (a.confirmed = true → a.boundary ≤ t → ok = true → n.stor.state = 1 → Gives (.activationApply ok) s fun m =>
        m.sec.runB = a.bank ∧ m.sec.act = none ∧ (m.bankOf a.bank).state = 5 ∧
          (m.bankOf (!a.bank)).state = (if (n.bankOf (!a.bank)).state = 5 then 6 else (n.bankOf (!a.bank)).state) ∧
          (m.bankOf a.bank).gen = (max n.sec.a.gen n.sec.b.gen + 1) % 2 ^ 32 ∧ m.img = some (imageOf (m.bankOf a.bank)))

/-- 03 R96, Table 3.1: the over-voltage warning and its end, a valid supply, the trip and its release, outside Hold-up. 03 R96, R105,
R107, R114: Hold-up begins alike by VIN_LOW, by HOLDUP_ENTRY and by a trip of the input switch. -/
def Obligations.SupplyAndHoldupBegin : Prop :=
  (∀ (s : State) (t : Nat),
    let n := s.node
    Answers .ovWarning s { n with pwr := { n.pwr with
      ovActive := true
      flags := setBit n.pwr.flags 0 } } ∧
    (n.pwr.switchOpen = false → Answers .ovActiveEnd s { n with pwr := { n.pwr with ovActive := false } }) ∧
    (n.pwr.switchOpen = true → Answers .ovActiveEnd s n ∧ Answers .supplyValid s n ∧ Answers (.ovpTrip t) s n) ∧
    (n.pwr.switchOpen = false → n.pwr.mode ∈ [.run, .sleep, .deep] →
      Answers .supplyValid s { n with pwr := { n.pwr with vinOk := true } }) ∧
    (n.pwr.switchOpen = false → n.pwr.mode = .off → n.pwr.phase = .a → n.clk.latched = false → Gives .supplyValid s fun m =>
      m.pwr = { n.pwr with
        vinOk := true
        mode := .run } ∧ Keeps [.pwr, .rtc, .free] n m) ∧
    (n.pwr.switchOpen = false → n.pwr.mode = .deep → n.clk.latched = false →
      Answers (.ovpTrip t) s (Node.flashAdd { n with
        pwr := { n.pwr with
          switchOpen := true
          ovActive := true
          vinOk := false
          rdy := false
          flags := setBit (setBit n.pwr.flags 0) 1
          trips := satInc 0xFFFF n.pwr.trips }
        rtc := { n.rtc with now := max n.rtc.now t } } (.ident .trip))) ∧
    (n.pwr.switchOpen = true → n.pwr.mode = .off → n.clk.latched = false → n.pwr.phase ≠ .a →
      Answers .ovpRelease s { n with pwr := { n.pwr with
        switchOpen := false
        ovActive := false
        vinOk := true
        back := true } }) ∧
    (n.pwr.vinOk = true → Answers .storeCharged s { n with
      pwr := { n.pwr with rdy := true }
      rtc := { n.rtc with storeLow := false } })) ∧
  (∀ (s : State) (t : Nat),
    let n := s.node
    let entered (trip : Bool) (m : Node) : Prop :=
      m.pwr.mode = .holdup ∧ m.pwr.left = n.pwr.mode ∧ m.pwr.step = 1 ∧ m.pwr.rdy = false ∧ m.pwr.vinOk = false ∧
        m.pwr.t0 = max n.rtc.now t ∧ m.rtc.now = max n.rtc.now t ∧ m.pwr.holdups = satInc 0xFFFF n.pwr.holdups ∧
        m.pwr.parked = false ∧ m.pwr.flushed = false ∧ m.pwr.tripped = trip ∧ m.pwr.pend = none ∧
        (n.pwr.pend.isSome = true → m.pwr.result = 4) ∧ bit m.pwr.flags 2 = true ∧
        (n.pwr.rdy = false → bit m.pwr.flags 3 = true) ∧ m.sec.act = none ∧ m.sec.notice = none ∧
        m.sys.irq = setBit n.sys.irq 6 ∧ Keeps [.pwr, .rtc, .stor, .sys, .sec, .jrnl, .tide, .pair, .free] n m
    n.clk.latched = false → n.pwr.mode ∈ [.run, .sleep] → n.pwr.phase ∉ [.a, .b] →
      Gives (.vinLow t) s (entered false) ∧ Gives (.holdupEntry t) s (entered false) ∧
        (n.pwr.switchOpen = false → Gives (.ovpTrip t) s fun m =>
          entered true m ∧ m.pwr.switchOpen = true ∧ m.pwr.trips = satInc 0xFFFF n.pwr.trips))

/-- 03 R105, R108, R110, R111, 12 R398: the steps of Hold-up and its two ways out. -/
def Obligations.HoldupSteps : Prop :=
  ∀ s : State,
    let n := s.node
    n.pwr.mode = .holdup →
      (n.pwr.solvOut = false → Gives .holdupSolverAbort s fun m =>
        m.pwr.domOn = clrBit n.pwr.domOn 3 ∧ m.pwr.solvOut = true ∧ m.solv.order = [] ∧ m.pwr.mode = .holdup ∧
          (n.pwr.step = 1 → n.pwr.flushed = false → m.pwr.step = 2) ∧ (n.pwr.step ≠ 1 → m.pwr.step = n.pwr.step)) ∧
      (n.pwr.solvOut = true → Answers .holdupSolverAbort s n) ∧
      (n.pwr.flushed = false → n.pwr.parked = false → n.coreHeld = false → Gives .journalFlushDone s fun m =>
        m.pwr.flushed = true ∧ m.jrnl.writeThrough = true ∧ m.pwr.mode = .holdup) ∧
      (n.pwr.parked = false → Gives .holdupPark s fun m =>
        m.pwr.parked = true ∧ m.pwr.step = 4 ∧ m.pwr.domOn = n.pwr.domOn ∧ m.pwr.mode = .holdup) ∧
      (n.pwr.parked = false → n.pwr.switchOpen = false → Gives .supplyValid s fun m =>
        m.pwr.mode = n.pwr.left ∧ m.pwr.step = 0 ∧ m.pwr.vinOk = true ∧ m.pwr.solvHold = true ∧ m.jrnl.writeThrough = false) ∧
      (n.pwr.parked = true → n.pwr.switchOpen = false →
        Answers .supplyValid s { n with pwr := { n.pwr with
          vinOk := true
          back := true } }) ∧
      (n.pwr.parked = true → Gives .holdupStoreExhausted s fun m => m.pwr.mode = .off ∧ m.pwr.domOn = 1 ∧ m.img = none) ∧
      (n.pwr.parked = true → n.pwr.back = true → n.clk.latched = false → Gives .holdupRestart s fun m =>
        m.pwr.phase = .c ∧ m.pwr.mode = .run ∧ m.pwr.cause = (if n.pwr.tripped then 3 else 2) ∧ bit m.pwr.flags 4 = true ∧
          m.pwr.back = false ∧ m.rtc.now = max n.rtc.now (n.pwr.t0 + 1500000) ∧ m.img = none)

/-- 00 R14, 03 R118, R119, 04 R170: what a restart of CORE leaves: AON's copy of the last number, the fuse, the image banks, the identity
sector and the islands stand; the fabric, the ladders, the solver, the ring and the ports start from their reset values. -/
def Obligations.RestartsOfCore : Prop :=
  ∀ s : State,
    let n := s.node
    let restarted (cause : Nat) (ph : Phase) (m : Node) : Prop :=
      m.pwr.cause = cause ∧ m.pwr.phase = ph ∧ m.pwr.mode = .run ∧ m.img = none ∧ m.fab = {} ∧ m.call = {} ∧ m.solv = {} ∧
        m.lane = {} ∧ m.tide = {} ∧ m.ext = {} ∧ m.sec.enrolled = n.sec.enrolled ∧ m.sec.a = n.sec.a ∧ m.sec.b = n.sec.b ∧
        m.sec.maint = false ∧ m.stor.ident = n.stor.ident ∧ m.jrnl.last = n.jrnl.last ∧ m.loop.islands = n.loop.islands ∧
        m.sys.straps = n.sys.straps
    (n.pwr.vinOk = true → n.clk.latched = false → n.pwr.phase ∉ [.a, .b] → n.pwr.mode ∈ [.run, .sleep, .holdup] →
      Gives .bor s (restarted (if n.pwr.mode = .holdup ∧ n.pwr.parked = true then (if n.pwr.tripped then 3 else 2) else 4) .c)) ∧
    (n.clk.latched = true → n.pwr.mode = .off → n.pwr.phase ≠ .c → n.pwr.vinOk = true → Gives .latchRestart s fun m =>
      restarted 7 .a m ∧ m.clk.latched = false ∧ m.clk.rc = .off ∧ m.pair = {}) ∧
    (n.clk.latched = false → Answers .latchRestart s n) ∧
    (n.pwr.vinOk = false → n.pwr.mode ∈ [.off, .deep] → Gives .aonStoreExhausted s fun m =>
      m.pwr.mode = .off ∧ m.pwr.cause = 1 ∧ m.pwr.phase = .a ∧ m.clk = {} ∧ m.rtc = {} ∧ m.jrnl = {} ∧ m.img = none ∧
        m.sec.enrolled = n.sec.enrolled ∧ m.sec.a = n.sec.a ∧ m.sec.b = n.sec.b ∧ m.stor.ident = n.stor.ident)

/-- 03 R101, R103, Table 3.4: a write of PWR_MODE_CMD is kept as the last command, and refused by the first reason that applies or left
pending. 03 R102, R113, Table 3.3: an accepted change takes effect at the epoch boundary, and a wake leaves Deep sleep by phase B. -/
def Obligations.ModeCommandsAndChanges : Prop :=
  (∀ s : State,
    let n := s.node
    let code (m : PwrMode) : Nat :=
      if (m = .sleep ∧ n.powerCfg.any (·.sleepAllowed) = false) ∨ (m = .deep ∧ n.powerCfg.any (·.deepAllowed) = false) then 1
      else if m = .deep ∧ n.sec.maint = false then 2
      else if m = .deep ∧ n.pair.role = 4 then 3
      else if n.pwr.mode = .holdup then 4
      else if n.pwr.pend.isSome then 5
      else if m = n.pwr.mode then 6
      else 0
    let told (k : Nat) (m : PwrMode) : Node := { n with pwr := { n.pwr with
      lastCmd := k
      result := code m
      pend := if code m = 0 then some m else n.pwr.pend } }
    n.pwr.mode ∈ [.run, .sleep, .holdup] →
      Answers .modeRun s (told 1 .run) ∧ Answers .modeSleep s (told 2 .sleep) ∧ Answers .modeDeepSleep s (told 3 .deep)) ∧
  (∀ (s : State) (src : Fin 4),
    let n := s.node
    (n.pwr.pend = some .run → n.coreRuns = true → Gives .modeChangeApply s fun m =>
      m.pwr.mode = .run ∧ m.pwr.pend = none ∧ m.pwr.result = 0 ∧ m.pwr.domOn = setBit n.pwr.domOn 3 ∧
        m.rtc.now = max n.rtc.now (n.nextMultiple 1000000)) ∧
    (n.pwr.pend = some .sleep → n.coreRuns = true → Gives .modeChangeApply s fun m =>
      m.pwr.mode = .sleep ∧ m.pwr.pend = none ∧ m.pwr.result = 0 ∧
        m.pwr.domOn = if n.solvHeld = true ∨ n.solv.order = [] then clrBit n.pwr.domOn 3 else n.pwr.domOn) ∧
    (n.pwr.pend = some .deep → n.coreRuns = true → n.clk.ret = 0 → Gives .modeChangeApply s fun m =>
      m.pwr.mode = .deep ∧ m.pwr.domOn = 1 ∧ m.clk.pll = .off ∧ m.fab = {} ∧ m.tide = {} ∧ m.img = n.img) ∧
    (n.pwr.pend = none ∨ n.coreRuns = false → Answers .modeChangeApply s n) ∧
    (n.pwr.mode = .deep → n.pwr.vinOk = true → n.powerCfg.any (fun c => bit c.wakeEn src.val) = true →
      (src.val = 0 → ∃ c ∈ n.pins, c.out = false ∧ c.wake = true) →
      (src.val = 3 → n.pwr.wakeTime ≠ 0 ∧ n.rtcCounts = true ∧ n.rtcCycles / 32768 ≤ n.pwr.wakeTime) → Gives (.deepWake src) s fun m =>
        m.pwr.mode = .run ∧ m.pwr.phase = .b ∧ m.pwr.cause = 6 ∧ m.pwr.wakeSrc = setBit 0 src.val ∧ m.img = none ∧
          m.sec.enrolled = n.sec.enrolled) ∧
    (n.pwr.mode = .deep → n.powerCfg.any (fun c => bit c.wakeEn src.val) = false → Answers (.deepWake src) s n))

/-- 03 R121, Table 3.7: each phase of a start with a valid supply. 03 R121, 02 R93, R94, 20 R604: phase D runs the ACTIVE bank if it
passes; bad straps or a store that does not serve leave the node unconfigured. -/
def Obligations.PowerUpPhases : Prop :=
  (∀ s : State,
    let n := s.node
    n.pwr.mode = .run → n.pwr.vinOk = true → n.clk.latched = false →
      (n.pwr.phase = .a → n.clk.rc = .off → Gives .powerUpSequence s fun m =>
        m.clk.rc = .counting ∧ m.clk.lse = (if n.clk.lse = .off then .ready else n.clk.lse) ∧ m.clk.core.clamp = true ∧
          m.clk.field.clamp = true ∧ m.clk.solv.clamp = true ∧ Keeps [.clk, .rtc] n m) ∧
      (n.pwr.phase = .a → n.clk.rc = .ready → n.clk.xtal = .off → Answers .powerUpSequence s { n with
        pwr := { n.pwr with phase := .b }
        clk := { n.clk with xtal := .counting } }) ∧
      (n.pwr.phase = .b → n.clk.pll ∈ [.nominal, .coast] → Gives .powerUpSequence s fun m =>
        m.pwr.phase = .d ∧ m.sys.node = n.sys.straps.toNat % 16 ∧ m.sys.serial = n.stor.ident.serial ∧
          m.sys.issue = n.stor.ident.issue ∧ m.sys.cause = n.pwr.cause ∧ m.pwr.domOn = 0b0011 ∧ m.clk.core.clamp = true) ∧
      (n.pwr.phase = .e → n.coreHeld = false → Gives .powerUpSequence s fun m =>
        m.pwr.phase = .f ∧ m.pwr.domOn = 0xF ∧ m.img = some (imageOf (n.bankOf n.sec.runB)))) ∧
  (∀ (s : State) (b : Bool),
    let n := s.node
    n.pwr.phase = .d → n.sys.unconfigured = false → n.coreHeld = false →
      (n.sys.strapBad = true → Gives .startupBankCheck s fun m =>
        m.sys.unconfigured = true ∧ m.sec.code = 5 ∧ m.pwr.phase = .d ∧ Keeps [.sys, .sec, .dio, .jrnl, .tide, .pair] n m) ∧
      (n.sys.strapBad = false → n.stor.state ≠ 1 → Gives .startupBankCheck s fun m =>
        m.sys.unconfigured = true ∧ m.pwr.phase = .d ∧ Keeps [.sys, .dio, .jrnl, .tide, .pair] n m) ∧
      (n.sys.strapBad = false → n.stor.state = 1 → n.bankIn 5 = none → n.bankIn 6 = none → Gives .startupBankCheck s fun m =>
        m.sys.unconfigured = true ∧ m.pwr.phase = .d ∧ Keeps [.sys, .dio, .jrnl, .tide, .pair] n m) ∧
      (n.sys.strapBad = false → n.stor.state = 1 → n.startBanks.1 = some b →
        match n.checkImage (n.bankOf b) with
        | none => Answers .startupBankCheck s { n with
            sec := { n.sec with
              code := 0
              detSection := 0
              detItem := 0
              runB := b }
            pwr := { n.pwr with phase := .e } }
        | some _ => n.startBanks.2 = none → Gives .startupBankCheck s fun m => m.sys.unconfigured = true ∧ m.pwr.phase = .d))

/-- 04 R126, R130, R132, R133, R158, R159: the counts and locks that complete, edges that return, the trim window and CLKOUT. 04 R149,
R152: a return begins only when the epoch was clean, the crystal READY and the limit not reached; the domains in Coast then take the first
step of their Ebb. -/
def Obligations.ClockSourcesAndReturn : Prop :=
  (∀ (s : State) (code : BitVec 10) (x r : Nat) (w : Word),
    let n := s.node
    let c := n.clk
    (c.rc = .counting → (∀ d, (n.dom d).st ≠ .slackCoast) →
      Answers (.rcCountComplete true) s { n with clk := { c with
        rc := .ready
        rcRestarted := false } }) ∧
    (c.rc = .counting → n.solvDrains = false → Gives (.rcCountComplete true) s fun m =>
      m.clk.rc = .ready ∧ ∀ d, (n.dom d).st = .slackCoast → (m.dom d).st = .bridge ∧ (m.dom d).ratio = 4 ∧ (m.dom d).releasing = true) ∧
    (c.rc = .counting → Gives (.rcCountComplete false) s fun m =>
      m.clk.rc = .failed ∧ m.clk.noFallback = true ∧
        ((∃ d, (n.dom d).st = .slackCoast) → m.clk.latched = true ∧ m.clk.latchCause = setBit c.latchCause 0)) ∧
    (c.xtal = .counting → n.pwr.phase = .b → c.pll = .off → Answers .xtalCountComplete s { n with clk := { c with
      xtal := .ready
      pll := .locking
      lockCoast := false } }) ∧
    (c.xtal = .counting → n.pwr.phase ≠ .b ∨ c.pll ≠ .off → Answers .xtalCountComplete s { n with clk := { c with xtal := .ready } }) ∧
    (c.pll = .locking → c.lockCoast = false → c.xtal = .ready → c.ret ≠ 3 →
      Answers .pllLockComplete s { n with clk := { c with pll := .nominal } }) ∧
    (c.pll = .locking → c.lockCoast = true → c.rc = .ready → Gives .pllLockComplete s fun m =>
      m.clk.pll = .coast ∧ Keeps [.clk] n m ∧ ∀ d, (n.dom d).st = .bridge → (n.dom d).sw = none → (n.dom d).ramp = none →
        m.dom d = { n.dom d with sw := some .coast }) ∧
    (c.xtal = .failed → Answers (.edgesResume false) s { n with clk := { c with xtal := .counting } }) ∧
    (c.lse = .failed → Gives (.edgesResume true) s fun m => m.clk = { c with lse := .ready } ∧ Keeps [.clk, .rtc] n m) ∧
    (c.rc = .ready → c.lse = .ready → 46875 ≤ r → r ≤ 50781 → (3892 ≤ x ∧ x ≤ 4300) ∨ c.xtal ∈ [.off, .failed] →
      Answers (.rcTrimWindow code x r) s { n with clk := { c with
        trim := code
        xtalCnt := x % 65536
        rcCnt := r } }) ∧
    (c.rc = .ready → c.lse = .ready ∨ c.xtal = .ready → r < 46875 ∨ 50781 < r →
      Gives (.rcTrimWindow code x r) s fun m => m.clk.rc ≠ .ready) ∧
    (c.rc = .ready → c.xtal = .ready → 46875 ≤ r → r ≤ 50781 → x < 3892 ∨ 4300 < x →
      Gives (.rcTrimWindow code x r) s fun m => m.clk.xtal ≠ .ready) ∧
    (w.toNat % 16 ≤ 10 → clkoutNominal.getD (w.toNat % 16) 0 ≤ 50000000 * (w.toNat / 65536 + 1) →
      Answers (.clkoutWrite w) s { n with clk := { c with
        sel := w.toNat % 16
        div := w.toNat / 65536 } }) ∧
    (10 < w.toNat % 16 ∨ 50000000 * (w.toNat / 65536 + 1) < clkoutNominal.getD (w.toNat % 16) 0 →
      Answers (.clkoutWrite w) s { n with clk := { c with clkoutErr := true } })) ∧
  (∀ s : State,
    let n := s.node
    (n.clk.due = false ∨ n.clk.retLimit = true ∨ n.clk.xtal ≠ .ready ∨ n.clk.ret ≠ 0 ∨ n.clk.latched = true ∨
      (∀ d, (n.dom d).st = .nominal ∨ (n.dom d).st = .off) → Answers .returnPoint s n) ∧
    (n.clk.due = true → n.clk.latched = false → n.clk.retLimit = false → n.clk.xtal = .ready →
      n.clk.ret = 0 → (∃ t, n.rtc.lastTick = some t ∧ t % 1000000 = 0) →
      (∀ d, (n.dom d).ramp = none ∧ (n.dom d).sw = none) → (∃ d, (n.dom d).st = .coast) → Gives .returnPoint s fun m =>
        m.clk.ret = 1 ∧ m.clk.due = false ∧ ((n.dom .field).st ≠ .coast → Keeps [.clk] n m) ∧
          Keeps [.clk, .lane, .afe, .jrnl, .tide, .pair] n m ∧ ∀ d, if (n.dom d).st = .coast then m.dom d = { n.dom d with
          ratio := 1
          ramp := some false } else m.dom d = n.dom d))

/-- 04 R142, Table 4.6: a trip of XTAL or of the PLL while the PLL runs nominal: the PLL relocks on RC; a domain whose policy is
Breakwater stops with its clamp closed, any other is switched to RC at ÷8. 04 R136, R137, R151, R164, R172: trips of RC and LSE, and a
lock count that fails. -/
def Obligations.ClockFailures : Prop :=
  (∀ (s : State) (pll : Bool),
    let n := s.node
    n.clk.xtal = .ready → n.clk.pll = .nominal → n.clk.rc = .ready → n.clk.maskDue = false →
      (∀ d, (n.dom d).st = .nominal ∧ (n.dom d).sw = none ∧ (n.dom d).ramp = none) → Gives (.xtalPllTrip pll) s fun m =>
        m.clk.xtal = (if pll then .ready else .failed) ∧
        m.clk.xtalFails = (if pll then n.clk.xtalFails else satInc 0xFF n.clk.xtalFails) ∧
        m.clk.pll = .locking ∧ m.clk.lockCoast = true ∧ m.clk.latched = n.clk.latched ∧
        ∀ d, if n.breakwater d then (m.dom d).st = .slack ∧ (m.dom d).clamp = true
          else m.dom d = { n.dom d with
            ratio := 4
            sw := some .rc }) ∧
  (∀ s : State,
    let n := s.node
    (n.clk.rc = .ready → n.clk.pll ≠ .coast → n.clk.maskDue = false →
      (∀ d, (n.dom d).st ∉ [.bridge, .coast, .slackCoast] ∧ (n.dom d).sw = none ∧ (n.dom d).ramp = none) →
      Answers .rcTrip s (Node.clockRecord { n with clk := { n.clk with
        rc := .counting
        rcRestarted := true
        ret := 0
        due := false } } 1)) ∧
    (n.clk.rc = .ready → (∃ d, (n.dom d).onRc (n.clk.pll == .nominal) = true) → Gives .rcTrip s fun m =>
      m.clk.rc = .failed ∧ m.clk.latched = true ∧ m.clk.latchCause = setBit n.clk.latchCause 1 ∧
        ∀ d, (m.dom d).st = .latched ∧ (m.dom d).clamp = true) ∧
    (n.clk.lse = .ready → Gives .lseTrip s fun m =>
      m.clk = { n.clk with lse := .failed } ∧ m.rtc.osf = true ∧ m.rtc.trust = 0 ∧
        Keeps [.clk, .rtc, .jrnl, .tide, .pair, .free] n m) ∧
    (n.clk.pll = .locking → n.clk.lockCoast = true → (∀ d, (n.dom d).st ≠ .bridge ∧ (n.dom d).sw ≠ some .rc) →
      Answers .pllLockFail s (Node.clockRecord { n with clk := { n.clk with pll := .failed } } 1)) ∧
    (n.clk.pll = .locking → n.clk.lockCoast = true → (∃ d, (n.dom d).st = .bridge) → Gives .pllLockFail s fun m =>
      m.clk.pll = .failed ∧ m.clk.latched = true ∧ m.clk.latchCause = setBit n.clk.latchCause 2 ∧ ∀ d, (m.dom d).st = .latched) ∧
    (n.clk.pll = .locking → n.clk.lockCoast = false → n.clk.rc ≠ .failed → n.clk.ret = 0 → n.clk.maskDue = false →
      Answers .pllLockFail s (Node.clockRecord { n with clk := { n.clk with
        due := false
        lockCoast := true } } 1)))

/-- 04 R138 to R141, Table 4.8: a domain's switches and the steps of its ramp. With no switch or ramp under way nothing happens; outside a
return each switch and step has its whole effect; within one a switch to RC still leaves the domain in BRIDGE at ÷8, and a forced switch
always sets FORCED and its event. -/
def Obligations.SwitchesAndRamps : Prop :=
  ∀ (s : State) (d : Domain),
    let n := s.node
    let c := n.dom d
    (c.sw = none → Answers (.clockSwitchDone d) s n ∧ Answers (.forcedSwitch d) s n) ∧
    (n.sys.wait = none → c.ramp = none → Answers (.rampStep d) s n) ∧
    (∀ tgt, c.sw = some tgt → Gives (.forcedSwitch d) s fun m => m.clk.forced = true ∧ bit m.sys.irq 7 = true) ∧
    (c.sw = some .coast → Answers (.clockSwitchDone d) s (n.setDom d { c with
      ratio := 3
      ramp := some true
      sw := none })) ∧
    (c.sw = some .nominal → c.st ∉ [.slack, .slackCoast] → Answers (.clockSwitchDone d) s (n.setDom d { c with
      ratio := 3
      ramp := some true
      sw := none })) ∧
    (n.sys.wait = none → c.ramp = some false → c.ratio < 4 → Answers (.rampStep d) s (n.setDom d { c with ratio := c.ratio + 1 })) ∧
    (n.sys.wait = none → c.ramp = some true → 0 < c.ratio → Answers (.rampStep d) s (n.setDom d { c with ratio := c.ratio - 1 })) ∧
    (n.clk.ret = 0 →
      (c.sw = some .rc → Answers (.clockSwitchDone d) s (n.setDom d { c with
        st := .bridge
        ratio := 4
        ramp := none
        sw := if n.clk.pll = .coast then some .coast else none })) ∧
      (n.sys.wait = none → c.ramp = some false → 4 ≤ c.ratio → Answers (.rampStep d) s (n.setDom d { c with
        ramp := none
        sw := some .rc })) ∧
      (n.sys.wait = none → c.ramp = some true → c.ratio = 0 → Gives (.rampStep d) s fun m =>
        m.dom d = { c with
          ramp := none
          st := if n.clk.pll = .nominal then .nominal else .coast } ∧ ∀ e, e ≠ d → m.dom e = n.dom e)) ∧
    (∀ f, n.sys.wait = some f → n.clk.core.ramp = some true → n.clk.core.ratio = 0 → n.clk.core.sw = none →
      Gives (.rampStep .core) s fun m => m.sys.wait = none ∧ m.sys.resp.isSome = true)

/-- 05 R190, Table 5.3: RTC_CTRL.HALT and the host set: refused by the first reason that applies, with the RTC reloaded from node time,
and otherwise the target of a correction by Table 5.2. 05 R181, R184, R192, 15 R466: LEAP_CNT, the ends of the slews, the low battery, and
the loss of the reference. 05 R178, R185, R187: a step of whole seconds applies at its boundary and never moves node time back; spans of
time run on, and its record leads the tick. -/
def Obligations.NodeTimeSetAndStepped : Prop :=
  (∀ s : State,
    let n := s.node
    let r := n.rtc
    let d : Int := (r.setSec * 1000000 : Nat) - (r.now : Int)
    let refused (code : Nat) : Node := { n with rtc := { r with
      halt := false
      setResult := code
      sec := r.now / 1000000 % 2 ^ 32
      subsec := r.now % 1000000 * 32768 / 1000000
      mark := targetTime r } }
    Answers .rtcHaltSet s { n with rtc := { r with
      halt := true
      sec := n.rtcCycles / 32768
      subsec := n.rtcCycles % 32768
      mark := targetTime r } } ∧
    (r.halt = false → Answers .rtcHaltClear s n ∧ Answers .haltTimeout s n) ∧
    (r.halt = true → Answers .haltTimeout s (refused 3) ∧
      (n.tide.st = .inserted → r.reference = false → Answers .rtcHaltClear s (refused 1)) ∧
      (n.tide.st ≠ .inserted ∨ r.reference = true →
        (d < -3600000000 → Answers .rtcHaltClear s (refused 2)) ∧
        (-3600000000 ≤ d → r.stepPend.isSome = true → Answers .rtcHaltClear s (refused 4)) ∧
        (-3600000000 ≤ d → r.stepPend = none → r.setSec < 2 ^ 32 → Gives .rtcHaltClear s fun m =>
          m.rtc.halt = false ∧ m.rtc.setResult = 0 ∧ m.rtc.sec = r.setSec ∧ m.rtc.subsec = 0 ∧ m.rtc.osf = false ∧
            m.rtc.offset = d ∧ m.rtc.now = r.now ∧ Keeps [.rtc, .jrnl, .tide, .pair] n m ∧
            (-10 ≤ d → d ≤ 10 → m.rtc.slewing = 0 ∧ m.rtc.slewRem = 0 ∧ m.rtc.stepPend = none) ∧
            (-1000 ≤ d → d ≤ 1000 → d < -10 ∨ 10 < d → m.rtc.slewing = 1 ∧ m.rtc.slewRem = d ∧ m.rtc.stepPend = none) ∧
            (d < -1000 → m.rtc.slewing = 2 ∧ m.rtc.slewRem = d ∧ m.rtc.stepPend = none) ∧
            (1000 < d → d < 1000000 → m.rtc.slewing = 3 ∧ m.rtc.slewRem = d ∧ m.rtc.stepPend = none) ∧
            (1000000 ≤ d → m.rtc.stepPend = some (d / 1000000, epochAfter r.now (if r.reference = true ∧ n.tide.st = .inserted then 2 else 1)) ∧
              m.rtc.slewRem = d % 1000000))))) ∧
  (∀ (s : State) (v : BitVec 8),
    let n := s.node
    let r := n.rtc
    (r.reference = true ∨ n.tide.st ≠ .inserted →
      Answers (.leapCntWrite v) s { n with rtc := { r with leapPend := some v.toNat } }) ∧
    (r.reference = false → n.tide.st = .inserted → Answers (.leapCntWrite v) s n) ∧
    (r.leapPend = none → Answers .leapCntApply s n) ∧
    (∀ k, r.leapPend = some k → Gives .leapCntApply s fun m =>
      m.rtc = { r with
        leap := k
        leapPend := none } ∧ Keeps [.rtc, .stor, .jrnl, .tide, .pair] n m ∧
      (n.ownDuty = true → ∃ b, b.type = 0x13 ∧ b.new = 3 ∧ m.jrnl = { n.jrnl with firstRecs := n.jrnl.firstRecs ++ [b] })) ∧
    (r.slewing = 0 → Answers .slewEnd s n) ∧
    (r.slewing = 1 → Gives .slewEnd s fun m =>
      m.rtc.slewing = 0 ∧ m.rtc.slewRem = 0 ∧ m.rtc.offset = (if r.slewRem < 0 then -10 else 10) ∧
        Keeps [.rtc, .jrnl, .tide, .pair] n m) ∧
    (r.slewing ∈ [2, 3] → Gives .slewEnd s fun m =>
      m.rtc.slewing = 1 ∧ m.rtc.slewRem = (if r.slewRem < 0 then -1000 else 1000) ∧ m.rtc.offset = m.rtc.slewRem ∧
        Keeps [.rtc, .lane, .jrnl, .tide, .pair] n m) ∧
    Answers .lowBattery s { n with rtc := { r with
      lbv := true
      storeLow := true } } ∧
    (10 ≤ n.tide.noTime → r.reference = false → Gives .timeRefLoss s fun m =>
      m.rtc.tracked = false ∧ m.rtc.now = r.now ∧ Keeps [.rtc, .jrnl, .tide, .pair] n m)) ∧
  (∀ (s : State) (k : Int) (b : Nat),
    let n := s.node
    let jump := (k * 1000000).toNat
    n.rtc.stepPend = some (k, b) → Gives .timeStep s fun m =>
      m.rtc.now = max n.rtc.now b + jump ∧ m.sec.lastWrite = n.sec.lastWrite + jump ∧
        m.sec.unlockAt = n.sec.unlockAt + jump ∧ (0 ≤ n.rtc.slewRem → n.rtc.slewRem < 1000000 → m.rtc.stepPend = none) ∧
        (n.ownDuty = true → ∃ r, r.type = 0x13 ∧ r.new = 2 ∧ m.jrnl.firstRecs = n.jrnl.firstRecs ++ [r]) ∧
        m.fab = n.fab ∧ m.call = n.call ∧ m.dio = n.dio ∧ m.stor = n.stor)

/-- 06 R209, R215, 07 R237, R245: a scanned slot starts its channel's conversion and routes it, while no failed switch keeps its path open;
a channel due a reset of its own takes it here; the slot of an input that the IMU holds stays idle, and its SEQ advances. 06 R206, Table
6.8: the lane's source applies the channel's code, and an overload turns it off. 06 R212, Table 6.8: a cold-junction reading out of range or
away from the last second's fails the sensor; a valid one is taken, and returns a failed sensor after 100 in a row. -/
def Obligations.FrontEndReadings : Prop :=
  (∀ (s : State) (l : Fin 8) (slot : Fin 16) (r : VisitReport) (lc : LaneCfg) (i : InputCfg),
    let n := s.node
    let x := n.laneSt l.val
    let h := n.laneCh i.num
    (n.laneRuns l.val = false ∨ x.chain = false ∨ n.fieldHeld = true → Answers (.laneVisit l slot r) s n) ∧
    (twf {} n.lane.lanes = true → twf {} n.lane.chans = true → n.laneCfg l.val = some lc → lc.mode = 2 → n.laneRuns l.val = true →
      x.chain = true → n.fieldHeld = false → slot.val < lc.slots.length → n.slotRuns lc slot.val = true →
      n.input (lc.slots.getD slot.val 0xFF) = some i →
      (n.imuHolds i.num = true → Answers (.laneVisit l slot r) s (((n.setLane l.val { x.openPath with slot := slot.val }).takenOff
        i.num).setLaneCh i.num { h with seq := (h.seq + 1) % 65536 })) ∧
      (n.imuHolds i.num = false → Gives (.laneVisit l slot r) s fun m =>
        let y := m.laneSt l.val
        y.slot = slot.val ∧ y.conv = some i.num ∧ y.settle = 3 ∧
          (bit n.afe.badSwitch i.num = false → y.routed = some i.num) ∧ (bit n.afe.badSwitch i.num = true → y.routed = none ∧ y.exc = none) ∧
          (voltageExcited i.type = true → r.overload = true → y.exc = none) ∧
          (bit n.afe.badSwitch i.num = false → excited i.type = true → voltageExcited i.type = false ∨ r.overload = false →
            y.exc = some (n.afeExc i.num).code) ∧
          (h.chReset = false → m.lane.chans = n.lane.chans ∧ y.fifo = x.fifo) ∧
          (h.chReset = true → (m.laneCh i.num).seq = 0 ∧ (m.laneCh i.num).chReset = false ∧
            (x.fifo.length < 256 → y.fifo = x.fifo ++ [syncMarker i.num n.rtc.now])) ∧
          Keeps [.lane, .afe, .jrnl, .tide, .pair] n m))) ∧
  (∀ (s : State) (k : Fin 6) (x : Int),
    let n := s.node
    let c := n.cjAt k.val
    let recent := (x :: c.recent).take 10
    twf {} n.afe.cj = true →
      (x < -4000 ∨ 10500 < x ∨ (∃ y ∈ c.recent, 500 < x - y ∨ 500 < y - x) → Gives (.cjRead k x) s fun m =>
        m.cjAt k.val = { c with
          recent := recent
          failed := true
          good := 0
          used := (m.cjAt k.val).used } ∧
          (c.failed = false → bit m.afe.flags 3 = true) ∧ (c.failed = true → Keeps [.afe] n m) ∧ Keeps [.afe, .jrnl, .tide, .pair] n m) ∧
      (-4000 ≤ x → x ≤ 10500 → (∀ y ∈ c.recent, x - y ≤ 500 ∧ y - x ≤ 500) → Gives (.cjRead k x) s fun m =>
        m.cjAt k.val = { c with
          read := true
          temp := x
          recent := recent
          failed := c.failed && decide (c.good < 99)
          good := if c.failed = true ∧ c.good < 99 then c.good + 1 else 0
          used := (m.cjAt k.val).used } ∧
          (c.failed = false ∨ c.good < 99 → Keeps [.afe] n m) ∧ Keeps [.afe, .jrnl, .tide, .pair] n m))

/-- 06 R215, R217: a check falls due, starts, is given the lane's time after 1 s, and ends judged. 06 R218, R229, R230, Table 6.10:
CHECK_NOW and REBASE with their refusals in the table's order, and the IMU's self-test, whose failure gives every input back to its lane
(Table 6.7). -/
def Obligations.ImpedanceChecks : Prop :=
  (∀ (s : State) (c : Fin 48) (i : InputCfg) (z : ImpReading) (gap : Bool),
    let n := s.node
    let a := n.afeCh c.val
    let asks := a.due = true ∨ a.checkNow = true
    (n.input c.val = none → Answers (.checkDue c) s n ∧ Answers (.checkGapTimeout c) s n) ∧
    (n.afe.imuCh = none → Answers (.impedanceCheckEnd z) s n) ∧
    (n.checksHeld = true ∨ n.afe.imuCh.isSome = true ∨ n.nextCheck gap = none → Answers (.impedanceCheckStart gap) s n) ∧
    (n.checksHeld = false → n.afe.imuCh = none → n.nextCheck gap = some c.val → Gives (.impedanceCheckStart gap) s fun m =>
      m.afe.imuCh = some c.val ∧ m.afe.chans = n.afe.chans ∧ Keeps [.afe] n m) ∧
    (n.input c.val = some i →
      (n.checksHeld = false → a.due = false → i.period * 20 ≤ a.ticks + 1 →
        Answers (.checkDue c) s (n.setAfeCh c.val { a with
          due := true
          dueFor := 0
          ticks := 0 })) ∧
      (n.checksHeld = true ∨ a.due = true ∨ a.ticks + 1 < i.period * 20 → Answers (.checkDue c) s n) ∧
      (¬ asks ∨ a.dueFor < 19 ∨ a.offLane = true ∨ n.checksHeld = true → Answers (.checkGapTimeout c) s n) ∧
      (n.checksHeld = false → asks → 19 ≤ a.dueFor → a.offLane = false →
        (i.sole = false → (n.laneSt i.lane).conv ≠ some c.val →
          Answers (.checkGapTimeout c) s (n.setAfeCh c.val { a with offLane := true })) ∧
        (i.sole = false → (n.laneSt i.lane).conv = some c.val →
          Answers (.checkGapTimeout c) s ((n.setAfeCh c.val { a with offLane := true }).outputLost i.lane c.val)) ∧
        (i.sole = true →
          Answers (.checkGapTimeout c) s ((n.setAfeCh c.val { a with offLane := true }).stopChain i.lane))) ∧
      (n.afe.imuCh = some c.val → twf {} n.afe.chans = true → Gives (.impedanceCheckEnd z) s fun m =>
        let b := m.afeCh c.val
        m.afe.imuCh = none ∧ b.due = false ∧ b.checkNow = false ∧ b.offLane = false ∧ b.stale = false ∧ b.age = 0 ∧
          b.seq = (a.seq + 1) % 256 ∧ b.iso = z.ziso ∧ b.isoLow = decide (z.ziso < i.isoMin) ∧
          (Node.hasLoop i.type = true → b.mag = z.zloop ∧ b.phase = z.phase ∧ b.opened = decide (i.openLim < z.zloop) ∧
            b.short = decide (z.zloop < i.shortLim)) ∧
          (∀ k, k ≠ c.val → m.afeCh k = n.afeCh k) ∧ Keeps [.afe, .lane] n m))) ∧
  (∀ (s : State) (c : BitVec 6),
    let n := s.node
    let a := n.afeCh c.toNat
    let refused (code : Nat) : Node := { n with afe := { n.afe with
      cmdResult := code
      flags := setBit n.afe.flags 1 } }
    let done (b : AfeCh) : Node := { n with afe := { n.afe with
      chans := tset {} n.afe.chans c.toNat b
      cmdResult := 0 } }
    (n.input c.toNat = none → Answers (.checkNow c) s (refused 1) ∧ Answers (.rebase c) s (refused 1)) ∧
    ((n.input c.toNat).isSome = true →
      (n.checksHeld = true → Answers (.checkNow c) s (refused 2)) ∧
      (n.checksHeld = false → a.checkNow = true → Answers (.checkNow c) s (refused 3)) ∧
      (n.checksHeld = false → a.checkNow = false → Answers (.checkNow c) s (done { a with checkNow := true })) ∧
      (n.sec.maint = false → Answers (.rebase c) s (refused 4)) ∧
      (n.sec.maint = true → Answers (.rebase c) s (done { a with
        nBase := 0
        baseL := 0
        baseI := 0
        shortL := 0
        shortI := 0
        ckDirty := true }))) ∧
    (n.afe.imuFault = false → Answers (.imuSelfTest true) s n ∧ Gives (.imuSelfTest false) s fun m =>
      m.afe.imuFault = true ∧ m.afe.imuCh = none ∧ bit m.afe.flags 2 = true ∧
        (twf {} n.afe.chans = true → ∀ i ∈ n.inputs, (m.afeCh i.num).offLane = false) ∧ Keeps [.afe, .lane, .jrnl, .tide, .pair] n m) ∧
    (n.afe.imuFault = true → Answers (.imuSelfTest false) s n ∧ Gives (.imuSelfTest true) s fun m =>
      m.afe = { n.afe with imuFault := false } ∧ Keeps [.afe, .jrnl, .tide, .pair] n m))

/-- 06 R221 to R227: a write of AFE_CHn_EXC waits for its epoch boundary or is refused; applied, its fields hold, with forcing over the
clamped code, and step 1 of its tick has the CONFIG record; a step of the adaptive loop wants the code that the epoch's SNR asks for,
applies it within the clamps, and counts the steps that a clamp pins. -/
def Obligations.ExcitationControl : Prop :=
  ∀ (s : State) (c : Fin 48) (w : Word),
    let n := s.node
    let e := n.afeExc c.val
    let code := excWriteCode (n.input c.val) w
    (code = 0 → Answers (.excWrite c w) s { n with afe := { n.afe with
      excResult := 0
      excCh := c.val
      exc := tset {} n.afe.exc c.val { e with pend := some (w &&& 0x01FFFFFF) } } }) ∧
    (code ≠ 0 → Answers (.excWrite c w) s { n with afe := { n.afe with
      excResult := code
      excCh := c.val
      flags := setBit n.afe.flags 0 } }) ∧
    (n.input c.val = none ∨ e.pend = none → Answers (.excApply c) s n) ∧
    (∀ i v, n.input c.val = some i → e.pend = some v → twf {} n.afe.exc = true → Gives (.excApply c) s fun m =>
      let f := m.afeExc c.val
      f.pend = none ∧ f.excMin = bitsOf 0 8 v ∧ f.excMax = bitsOf 8 8 v ∧ f.forceVal = bitsOf 16 8 v ∧ f.forceEn = bit v 24 ∧
        (bit v 24 = true → f.code = bitsOf 16 8 v ∧ f.pinned = false) ∧
        (bit v 24 = false → f.code = max f.excMin (min f.want f.excMax)) ∧
        (n.ownDuty = true → m.jrnl.firstRecs = n.jrnl.firstRecs ++ [n.configBody c.val 7 0 (leBytes 4 v.toNat)]) ∧
        (∀ k, k ≠ c.val → m.afeExc k = n.afeExc k) ∧ Keeps [.afe, .jrnl, .tide, .pair] n m) ∧
    (n.input c.val = none → Answers (.excitationStep c) s n) ∧
    (∀ i, n.input c.val = some i →
      (i.adaptEn = false ∨ e.forceEn = true ∨ n.fieldCoasts = true ∨ n.fieldHeld = true ∨ e.lastEpoch.length < 4 →
        Answers (.excitationStep c) s n) ∧
      (i.adaptEn = true → e.forceEn = false → n.fieldCoasts = false → n.fieldHeld = false → 4 ≤ e.lastEpoch.length →
        twf {} n.afe.exc = true → Gives (.excitationStep c) s fun m =>
          let f := m.afeExc c.val
          let var := ratioVar (Config.fullScale i.type) e.lastEpoch
          f.want = wantedCode e.code (snrBelow var (i.snrTgt - 3)) (snrAbove var (i.snrTgt + 6)) ∧ f.lastEpoch = [] ∧
            f.code = max e.excMin (min f.want e.excMax) ∧
            (e.excMin ≤ f.want → f.want ≤ e.excMax → f.pinCnt = 0 ∧ f.pinned = false) ∧
            (e.excMax < f.want ∨ f.want < e.excMin → f.pinCnt = min 8 (e.pinCnt + 1) ∧
              (e.pinCnt = 7 → f.pinned = true ∧ f.pinDir = decide (e.excMax < f.want))) ∧
            (∀ k, k ≠ c.val → m.afeExc k = n.afeExc k) ∧ Keeps [.afe, .jrnl, .tide, .pair] n m))

/-- 07 R249, R253, R255, R258: the torn-read latches: the snapshot of a result, the FIFO window, and the shadow of E. -/
def Obligations.LaneReadsLatch : Prop :=
  ∀ (s : State) (l : Fin 8) (c : Fin 48),
    let n := s.node
    let x := n.laneSt l.val
    Answers (.resultLoRead l) s (n.setLane l.val { x with
      shadow := x.res.getD {}
      snapPend := true
      ovwr := false }) ∧
    Answers (.resultHiRead l) s (n.setLane l.val { x with snapPend := false }) ∧
    (x.fifo = [] → Answers (.fifoRead l) s (n.setLane l.val { x with
      latch := { ch := 0xFF }
      underrun := true })) ∧
    (∀ r rest, x.fifo = r :: rest → rest.length < 256 → Answers (.fifoRead l) s (n.setLane l.val { x with
      latch := r
      fifo := rest ++ x.markerPend.toList
      markerPend := none })) ∧
    Answers (.engLoRead c) s (n.setLaneCh c.val { n.laneCh c.val with
      engHi := BitVec.ofNat 32 ((n.laneCh c.val).eng.toNat / 2 ^ 32) }) ∧
    Answers (.engHiRead c) s n

/-- 07 R240, R242, R261, R264 to R266, Table 7.6: the lane commands, with their refusals in the table's order; SUSPEND records itself and
stops the lane at its grid instant. 07 R241, Table 7.6: a node-wide sync waits for the next epoch boundary, a ring-wide one for the second;
an empty mask and a sync already waiting are refused. -/
def Obligations.LaneCommandsAndSync : Prop :=
  (∀ (s : State) (l : Fin 8),
    let n := s.node
    let x := n.laneSt l.val
    let result (code : Nat) (m : Node) : Node := { m with lane := { m.lane with cmdResult := code } }
    (n.laneUsed l.val = false → ∀ c ∈ [Instr.resync l, .flush l, .suspend l, .resume l], Answers c s (result 1 n)) ∧
    (n.laneLive l.val = false → Answers (.laneUnlock l) s n) ∧
    (n.laneUsed l.val = true →
      (n.laneLive l.val = false → Answers (.resync l) s (result 4 n)) ∧
      (n.laneLive l.val = true → Answers (.resync l) s (result 0 (n.syncCause l.val)) ∧
        Answers (.laneUnlock l) s (n.setLane l.val { x with unlocked := true })) ∧
      (x.markerPend = none → Answers (.flush l) s (result 0 (n.setLane l.val { x with
        fifo := []
        dropped := 0 }))) ∧
      (∀ k, x.markerPend = some k → Answers (.flush l) s (result 0 (n.setLane l.val { x with
        fifo := [k]
        dropped := 0
        markerPend := none }))) ∧
      (n.sec.maint = false → Answers (.suspend l) s (result 3 n) ∧ Answers (.resume l) s (result 3 n)) ∧
      (n.sec.maint = true → n.laneLive l.val = false ∨ x.stopPend.isSome = true → Answers (.suspend l) s (result 4 n)) ∧
      (n.sec.maint = true → n.laneLive l.val = true → x.stopPend = none → Answers (.suspend l) s
        (result 0 ((n.setLane l.val { x with stopPend := some (n.nextGrid l.val n.rtc.now) }).laneRecordSync l.val 3))) ∧
      (n.sec.maint = true → x.suspended = false → x.failed = false → Answers (.resume l) s (result 4 n)) ∧
      (n.sec.maint = true → x.suspended = true ∨ x.failed = true → twf {} n.lane.lanes = true → Gives (.resume l) s fun m =>
        (m.laneSt l.val).suspended = false ∧ (m.laneSt l.val).failed = false ∧
          (m.laneRuns l.val = true → (m.laneSt l.val).sync = some (n.gridAfter l.val n.rtc.now)) ∧
          m.lane.cmdResult = 0 ∧ Keeps [.lane, .jrnl, .tide, .pair] n m)) ∧
    (x.stopPend = none → Answers (.laneStop l) s n) ∧
    (∀ t, x.stopPend = some t → twf {} n.lane.lanes = true → Gives (.laneStop l) s fun m =>
      let y := m.laneSt l.val
      m.rtc.now = max n.rtc.now t ∧ y.suspended = true ∧ y.chain = false ∧ y.routed = none ∧ y.exc = none ∧ y.stopPend = none ∧
        y.sync = none ∧ y.fifo = x.fifo ∧ y.res = x.res ∧ Keeps [.lane, .rtc] n m)) ∧
  (∀ (s : State) (lanes : BitVec 8) (ring : Bool),
    let n := s.node
    let result (code : Nat) : Node := { n with lane := { n.lane with syncResult := code } }
    (lanes = 0 → Answers (.laneSyncCmd lanes ring) s (result 1)) ∧
    (lanes ≠ 0 → n.lane.syncPend ≠ [] → Answers (.laneSyncCmd lanes ring) s (result 2)) ∧
    (lanes ≠ 0 → n.lane.syncPend = [] → ring = false → Answers (.laneSyncCmd lanes ring) s { n with lane := { n.lane with
      syncResult := 0
      syncTime := epochAfter n.rtc.now 1
      syncPend := [⟨lanes, false, epochAfter n.rtc.now 1⟩] } }) ∧
    (lanes ≠ 0 → n.lane.syncPend = [] → ring = true → n.tide.st ≠ .inserted →
      Answers (.laneSyncCmd lanes ring) s (result 0)) ∧
    (lanes ≠ 0 → n.lane.syncPend = [] → ring = true → n.tide.st = .inserted → Answers (.laneSyncCmd lanes ring) s { n with
      lane := { n.lane with
        syncResult := 0
        syncTime := epochAfter n.rtc.now 2
        syncPend := [⟨lanes, true, epochAfter n.rtc.now 2⟩] }
      tide := { n.tide with tx := n.tide.tx ++ [⟨0, 0, 0xFFFF, .command (.laneSync lanes (epochAfter n.rtc.now 2))⟩] } }))

/-- 07 R240, R243 to R246, R261: a lane reset at its sync instant restarts the chain, settles, puts one SYNC marker into the FIFO or the
marker's own place, restarts SEQ of every channel of the lane at 0, and converts a continuous lane's channel unless the IMU holds it; a
second cause of the same instant adds nothing, and another time is no sync instant (log entry 114, the model's choice). 07 R233, R234,
R237, R244, R246, R262, R263: an output of a running lane is discarded while the chain settles, lost with its SEQ on a parity error, the
third of a minute failing the lane, and otherwise published with the channel's next SEQ and the timestamp of its window, never before the
last one's (01 R29). -/
def Obligations.LaneResetAndResults : Prop :=
  (∀ (s : State) (l : Fin 8) (t : Nat),
    let n := s.node
    let x := n.laneSt l.val
    let later : Node := { n with rtc := { n.rtc with now := max n.rtc.now t } }
    (n.laneRuns l.val = false ∨ n.fieldHeld = true ∨ x.sync ≠ some t ∧ x.unlocked = false → Answers (.syncReset l t) s later) ∧
    (n.laneRuns l.val = true → n.fieldHeld = false →
      x.sync = some t ∨ (x.sync = none ∧ x.unlocked = true ∧ n.rateOff = false ∧ n.gridPeriod l.val ≠ 0 ∧ t % n.gridPeriod l.val = 0) →
      (x.resetAt = some t → Answers (.syncReset l t) s (later.setLane l.val { x with sync := none })) ∧
      (x.resetAt ≠ some t → twf {} n.lane.lanes = true → twf {} n.lane.chans = true → Gives (.syncReset l t) s fun m =>
        let y := m.laneSt l.val
        y.sync = none ∧ y.settle = 3 ∧ y.settling = true ∧ y.unlocked = (x.unlocked && n.rateOff) ∧ y.slot = 0 ∧ y.resetAt = some t ∧
          (n.soleInput l.val = none → y.chain = true ∧ y.conv = none ∧ y.routed = none) ∧
          (∀ i, n.soleInput l.val = some i → y.chain = !n.imuHolds i.num ∧ y.conv = (if n.imuHolds i.num then none else some i.num)) ∧
          (x.fifo.length < 256 → y.fifo = x.fifo ++ [syncMarker 0xFF t] ∧ y.markerPend = x.markerPend) ∧
          (256 ≤ x.fifo.length → y.fifo = x.fifo ∧ y.markerPend = some (syncMarker 0xFF t)) ∧
          (∀ lc c, n.laneCfg l.val = some lc → c ∈ lc.slots → (m.laneCh c).seq = 0) ∧
          (∀ k, k ≠ l.val → m.laneSt k = n.laneSt k) ∧ m.rtc.now = max n.rtc.now t ∧ Keeps [.lane, .rtc, .afe] n m))) ∧
  (∀ (s : State) (l : Fin 8) (raw : BitVec 32) (ovr : Bool) (t : Nat) (lc : LaneCfg) (i : InputCfg),
    let n := s.node
    let x := n.laneSt l.val
    let now := max n.rtc.now t
    let later : Node := { n with rtc := { n.rtc with now := now } }
    (n.laneRuns l.val = false ∨ x.chain = false ∨ n.fieldHeld = true ∨ x.conv = none → ∀ parity,
      Answers (.resultPublish l raw ovr parity t) s later) ∧
    (twf {} n.lane.lanes = true → twf {} n.lane.chans = true → n.laneRuns l.val = true → x.chain = true → n.fieldHeld = false →
      n.laneCfg l.val = some lc → x.conv.bind n.input = some i →
      (Gives (.resultPublish l raw ovr true t) s fun m =>
        let y := m.laneSt l.val
        let recent := (x.parityAt.filter fun y => decide (now < y + 60000000)).length
        m.lane.parityFlags = setBit n.lane.parityFlags l.val ∧ y.resync = satInc 0xFF x.resync ∧ y.fifo = x.fifo ∧ y.res = x.res ∧
          (x.settle = 0 → (m.laneCh i.num).seq = ((n.laneCh i.num).seq + 1) % 65536) ∧
          (recent < 2 → y.failed = x.failed ∧ y.sync.isSome = true) ∧ (2 ≤ recent → y.failed = true ∧ y.chain = false) ∧
          Keeps [.lane, .rtc, .jrnl, .tide, .pair] n m) ∧
      (x.settle ≠ 0 → i.sole = false ∨ x.exc = none ∨ x.exc = some (n.afeExc i.num).code →
        Answers (.resultPublish l raw ovr false t) s (later.setLane l.val { x with settle := x.settle - 1 })) ∧
      (x.settle ≠ 0 → i.sole = true → (∃ v, x.exc = some v ∧ v ≠ (n.afeExc i.num).code) → Gives (.resultPublish l raw ovr false t) s fun m =>
        let y := m.laneSt l.val
        y.settle = x.settle - 1 ∧ y.exc = some (n.afeExc i.num).code ∧ y.sync.isSome = true ∧ Keeps [.lane, .rtc] n m) ∧
      (x.settle = 0 → Gives (.resultPublish l raw ovr false t) s fun m =>
        let y := m.laneSt l.val
        (m.laneCh i.num).seq = ((n.laneCh i.num).seq + 1) % 65536 ∧ y.settling = false ∧ y.running = true ∧
          (∃ r, y.res = some r ∧ r.seq = (n.laneCh i.num).seq ∧ r.ch = i.num ∧
            (i.type ≠ 4 → r.lo = BitVec.ofInt 32 (clamp26 raw.toInt)) ∧
            r.ts = max (now - (if n.fieldCoasts then lc.fdPeriod * 17 / 4 else lc.fdPeriod * 17 / 10)) (x.res.elim 0 (·.ts))) ∧
          (lc.mode = 2 → y.conv = none ∧ y.routed = none ∧ y.exc = none) ∧
          (x.fifo.length < 256 → x.markerPend = none → y.fifo.length = x.fifo.length + 1) ∧
          (256 ≤ x.fifo.length → y.fifo = x.fifo ∧ y.dropped = satInc 0xFFFF x.dropped ∧
            m.lane.ovfFlags = setBit n.lane.ovfFlags l.val))))

/-- 08 R276, Tables 8.3 and 8.4: the island's own state machine: power, the heartbeat's end with its failure current, and the frame of a
node that sends them, which an island ignores when its CRC is bad. 08 R282, Table 8.6: five frames without a valid reply lose the link; a
reply ends the silence of its island and shows its state and read-back, and one of an island that has reset counts it; one read back within
200 µA never begins a mismatch. -/
def Obligations.IslandStates : Prop :=
  (∀ (s : State) (a : Fin 8) (c : IslandCfg),
    let n := s.node
    let x := n.isle a.val
    let o := n.aoSt a.val
    Answers (.islandPowerLoss a) s (n.setIsle a.val {}) ∧
    (x.state = .unpowered → Answers (.islandPowerUp a) s (n.setIsle a.val {
      state := .unconfigured
      cur := 3500 })) ∧
    (x.state ≠ .unpowered → Answers (.islandPowerUp a) s n) ∧
    (x.state = .run → x.timer = true → Answers (.islandHeartbeatExpiry a) s (n.setIsle a.val { x with
      state := .fail
      cur := if x.hbMode = 0 then 3500 else if x.hbMode = 1 then 21500 else x.cmd
      timer := false
      run3 := 0 })) ∧
    (x.state ≠ .run ∨ x.timer = false → Answers (.islandHeartbeatExpiry a) s n) ∧
    (n.islandFrames = false ∨ n.island a.val = none ∨ o.cmd = 0 → Answers (.islandFrame a true) s n ∧ Answers (.islandFrame a false) s n) ∧
    (n.islandFrames = true → n.island a.val = some c → o.cmd ≠ 0 → twf {} n.loop.islands = true → twf {} n.loop.aos = true →
      (Gives (.islandFrame a false) s fun m => m.loop.islands = n.loop.islands ∧ Keeps [.loop, .jrnl, .tide, .pair] n m) ∧
      (∀ ok, Gives (.islandFrame a ok) s fun m =>
        (o.missed < 5 → m.aoSt a.val = { o with missed := o.missed + 1 }) ∧
          (5 ≤ o.missed → (m.aoSt a.val).linkLost = true) ∧ (∀ k, k ≠ a.val → m.aoSt k = n.aoSt k ∧ m.isle k = n.isle k)) ∧
      (x.state ∈ [.unconfigured, .run] ∨ x.state ∈ [.fail, .parked] ∧ x.run3 = 2 →
        Gives (.islandFrame a true) s fun m => m.isle a.val = { x with
          state := .run
          cur := o.cmd
          cmd := o.cmd
          hbMode := o.hbMode
          hbTimeout := o.hbTimeout
          timer := true
          run3 := 0 } ∧ Keeps [.loop, .jrnl, .tide, .pair] n m) ∧
      (x.state ∈ [.fail, .parked] → x.run3 ≠ 2 → Gives (.islandFrame a true) s fun m =>
        m.isle a.val = { x with run3 := x.run3 + 1 }) ∧
      (x.state = .unpowered → Gives (.islandFrame a true) s fun m => m.isle a.val = x))) ∧
  (∀ (s : State) (a : Fin 8) (rdbk : BitVec 16) (low : Bool),
    let n := s.node
    let x := n.aoSt a.val
    let st := islandCode (n.isle a.val).state
    (n.islandFrames = false ∨ n.island a.val = none ∨ (n.isle a.val).state = .unpowered → Answers (.islandReply a rdbk low) s n) ∧
    (n.islandFrames = true → (n.island a.val).isSome = true → (n.isle a.val).state ≠ .unpowered → twf {} n.loop.aos = true →
      Gives (.islandReply a rdbk low) s fun m =>
        let y := m.aoSt a.val
        y.missed = 0 ∧ y.linkLost = false ∧ y.rdbk = rdbk.toNat ∧ y.state = st ∧ y.compliance = low ∧
          y.cmd = x.cmd ∧ y.forced = x.forced ∧ (st = 1 → 2 ≤ x.lastState → y.resets = satInc 0xFF x.resets ∧ y.wasReset = true) ∧
          (2 ≤ st → y.wasReset = false ∧ y.resets = x.resets) ∧
          (x.mismatch = false → rdbk.toNat ≤ x.cmd + 200 → x.cmd ≤ rdbk.toNat + 200 → y.mismatch = false) ∧
          (∀ k, k ≠ a.val → m.aoSt k = n.aoSt k) ∧ m.loop.islands = n.loop.islands ∧ Keeps [.loop, .jrnl, .tide, .pair] n m))

/-- 08 R277, R281, Table 8.8: FORCE and RELEASE of an island, with their refusals in the table's order. 09 R293, R307, Table 9.7, 00 R613:
forcing an output, its release, and CLEAR_LATCH, with their refusals in the table's order. -/
def Obligations.OutputForces : Prop :=
  (∀ (s : State) (a : Fin 8) (cur : BitVec 16),
    let n := s.node
    let x := n.aoSt a.val
    let refused (code : Nat) : Node := { n with loop := { n.loop with
      cmdResult := code
      flags := setBit n.loop.flags 5 } }
    let done (f : Option Nat) (event : Nat) : Node := Node.aoRecord { n with loop := { n.loop with
      aos := tset {} n.loop.aos a.val { x with forced := f }
      cmdResult := 0 } } a.val event false
    let ok := 3500 ≤ cur.toNat ∧ cur.toNat ≤ 22000
    (n.sec.maint = false → Answers (.loopForce a cur) s (refused 1) ∧ Answers (.loopRelease a) s (refused 1)) ∧
    (n.sec.maint = true →
      (¬ ok → Answers (.loopForce a cur) s (refused 2)) ∧
      (ok → n.island a.val = none → Answers (.loopForce a cur) s (refused 3)) ∧
      (ok → (n.island a.val).isSome = true → Answers (.loopForce a cur) s (done (some cur.toNat) 5)) ∧
      (n.island a.val = none → Answers (.loopRelease a) s (refused 3)) ∧
      ((n.island a.val).isSome = true → x.forced = none → Answers (.loopRelease a) s (refused 5)) ∧
      ((n.island a.val).isSome = true → x.forced.isSome = true → Answers (.loopRelease a) s (done none 6)))) ∧
  (∀ (s : State) (p : Fin 32),
    let n := s.node
    let f := n.fieldSide p.val
    let refused (code : Nat) : Node := { n with dio := { n.dio with
      cmdResult := code
      flags := setBit n.dio.flags 3 } }
    let done (v : Option Bool) (event : Nat) : Node := Node.pinRecord { n with dio := { n.dio with
      cmdResult := 0
      forces := tset none n.dio.forces p.val v } } p.val event
    (n.sec.maint = false → ∀ c ∈ [Instr.dioForceOn p, .dioForceOff p, .dioRelease p], Answers c s (refused 1)) ∧
    (n.sec.maint = true → n.isOutput p.val = false →
      ∀ c ∈ [Instr.dioForceOn p, .dioForceOff p, .dioRelease p], Answers c s (refused 2)) ∧
    (n.sec.maint = true → n.isOutput p.val = true →
      Answers (.dioForceOn p) s (done (some true) 6) ∧ Answers (.dioForceOff p) s (done (some false) 6) ∧
        (n.dioForced p.val = none → Answers (.dioRelease p) s (refused 4)) ∧
        ((n.dioForced p.val).isSome = true → Answers (.dioRelease p) s (done none 7))) ∧
    (4 ≤ p.val → Answers (.clearLatch p) s (refused 3)) ∧
    (p.val < 4 → Answers (.clearLatch p) s { n with dio := { n.dio with
      cmdResult := 0
      field := tset {} n.dio.field p.val (DioField.settle { f with
        latched := 0
        thermal := 0 } (n.bankSt p.val).mode) } }))

/-- 09 R285, R289, R291, R293, R294, R296: a valid frame stores its command at a powered field side, with directions, safe states, watchdog
and filter times from the image, clears the latch of each output commanded off, and keeps no latch of a pin that is no output and no wire
break of one that is not monitored; the third in a row ends the watchdog's safe states; one with a bad CRC stores nothing. 09 R285, R289,
R291, R305, R306: a reply shows the bank's inputs, read-back, supply and watchdog; with the supply absent the link is lost and the bank is at
fault. -/
def Obligations.DioFrames : Prop :=
  (∀ (s : State) (b : Fin 4),
    let n := s.node
    let f := n.fieldSide b.val
    let out := BitVec.ofNat 8 (n.pinBits b.val (·.out))
    let wb := BitVec.ofNat 8 (n.pinBits b.val (·.wbEn))
    (n.dioRuns = false → Answers (.dioFrame b true) s n ∧ Answers (.dioFrame b false) s n) ∧
    (n.dioRuns = true → twf {} n.dio.field = true → twf {} n.dio.banks = true →
      (f.powered = true → Gives (.dioFrame b true) s fun m =>
        let g := m.fieldSide b.val
        g.stored = true ∧ g.cmd = n.frameCmd b.val ∧ g.dir = out ∧ g.latched = f.latched &&& n.frameCmd b.val &&& out ∧ g.parked = false ∧
          (f.wdExpired = false → g.wdExpired = false) ∧
          (f.wdExpired = true → (n.bankSt b.val).mode = modeFollow →
            (f.run3 = 2 → g.wdExpired = false) ∧ (f.run3 < 2 → g.wdExpired = true ∧ g.run3 = f.run3 + 1)) ∧
          (∀ c, n.bankCfg b.val = some c → g.wdTimeout = c.wdTimeout ∧ g.filter = c.filter) ∧
          g.filtered = f.filtered ∧ g.broken = f.broken &&& wb &&& ~~~out ∧ g.cause = f.cause ∧
          (∀ k, k ≠ b.val → m.fieldSide k = n.fieldSide k) ∧ Keeps [.dio, .jrnl, .tide, .pair] n m) ∧
      (Gives (.dioFrame b false) s fun m => m.dio.field = n.dio.field ∧ Keeps [.dio, .jrnl, .tide, .pair] n m) ∧
      ((n.bankSt b.val).missed < 5 → Gives (.dioFrame b true) s fun m =>
        (m.bankSt b.val).missed = (n.bankSt b.val).missed + 1 ∧ (m.bankSt b.val).linkLost = (n.bankSt b.val).linkLost) ∧
      (5 ≤ (n.bankSt b.val).missed → Gives (.dioFrame b true) s fun m =>
        (m.bankSt b.val).linkLost = true ∧ (m.bankSt b.val).shownFault = true))) ∧
  (∀ (s : State) (b : Fin 4) (levels vf : BitVec 8),
    let n := s.node
    let f := n.fieldSide b.val
    (n.dioRuns = false → Answers (.dioReply b levels vf) s n) ∧
    (n.dioRuns = true → twf {} n.dio.banks = true →
      (f.powered = false ∨ vf.toNat < 70 → Gives (.dioReply b levels vf) s fun m =>
        (m.bankSt b.val).linkLost = true ∧ (m.bankSt b.val).shownFault = true ∧ m.dio.inp = n.dio.inp ∧
          Keeps [.dio, .jrnl, .tide, .pair] n m) ∧
      (f.powered = true → 70 ≤ vf.toNat → Gives (.dioReply b levels vf) s fun m =>
        let y := m.bankSt b.val
        y.missed = 0 ∧ y.linkLost = false ∧ y.vf = vf.toNat ∧ y.supplyOk = (decide (90 ≤ vf.toNat) && decide (vf.toNat ≤ 160)) ∧
          y.wdExpired = f.wdExpired ∧ y.pinFault = decide (f.cause ≠ 0) ∧ y.mode = (n.bankSt b.val).mode ∧
          m.dio.inp.extractLsb' (8 * b.val) 8 = f.filtered &&& ~~~f.broken &&& ~~~f.dir ∧
          m.dio.rdbk.extractLsb' (8 * b.val) 8 = levels ∧ (f.reports = [] → m.dio.field = n.dio.field) ∧
          Keeps [.dio, .jrnl, .tide, .pair] n m)))

/-- 09 R286, R293, R296: what a field side drives: nothing when unpowered or before the first frame, the safe states once its watchdog has
expired, and never an output that is latched off or not an output. 09 R296, R305: the watchdog's expiry, and the loss and the return of a
bank's field supply. -/
def Obligations.FieldSideDrivesAndWatchdog : Prop :=
  (∀ (f : DioField) (mode : Nat),
    (f.powered = false → f.drive mode = 0) ∧
    (∀ j, bit (f.drive mode) j = true → bit f.dir j = true ∧ bit f.latched j = false) ∧
    (f.stored = false → f.drive modeFollow = 0) ∧
    (f.powered = true → f.stored = true → f.wdExpired = true → f.parked = false →
      f.drive modeFollow = f.safe &&& f.dir &&& ~~~f.latched) ∧
    (f.powered = true → f.stored = true → f.wdExpired = false → f.drive modeFollow = f.cmd &&& f.dir &&& ~~~f.latched) ∧
    (f.powered = true → f.drive modeSafe = f.safe &&& f.dir &&& ~~~f.latched) ∧ f.drive modeOff = 0) ∧
  (∀ (s : State) (b : Fin 4) (vf : BitVec 8),
    let n := s.node
    let f := n.fieldSide b.val
    (f.powered = true → f.wdExpired = false → (n.bankSt b.val).mode = modeFollow → f.parked = false → twf {} n.dio.field = true →
      Gives (.watchdogExpiry b) s fun m => m.fieldSide b.val = { f with
        wdExpired := true
        run3 := 0
        backfeed := (m.fieldSide b.val).backfeed
        reports := (m.fieldSide b.val).reports } ∧
        (m.fieldSide b.val).drive modeFollow = (if f.stored then f.safe &&& f.dir &&& ~~~f.latched else 0) ∧
        Keeps [.dio, .jrnl, .tide, .pair] n m) ∧
    (f.powered = false ∨ f.wdExpired = true ∨ (n.bankSt b.val).mode ≠ modeFollow ∨ f.parked = true →
      Answers (.watchdogExpiry b) s n) ∧
    (twf {} n.dio.field = true → twf {} n.dio.banks = true → Gives (.fieldSupplyLoss b) s fun m =>
      m.fieldSide b.val = { powered := false } ∧ (∀ k, k ≠ b.val → m.fieldSide k = n.fieldSide k) ∧
        (n.dioRuns = true → (m.bankSt b.val).linkLost = true ∧ (m.bankSt b.val).shownFault = true) ∧
        Keeps [.dio, .jrnl, .tide, .pair] n m) ∧
    (f.powered = false → 70 < vf.toNat → Answers (.fieldSupplyReturn b vf) s (n.setField b.val {})) ∧
    (f.powered = true ∨ vf.toNat ≤ 70 → Answers (.fieldSupplyReturn b vf) s n))

/-- 09 R288 to R291, R293, R294, R298: what happens at a pin of a powered field side, by the directions and the monitoring that it has
stored: the thresholds of a sample, the filter of an input, and the faults, the first since the cause was cleared being kept. 09 R301,
R302, Tables 9.5 and 9.7: the diagnostic sweep is requested, or refused; the bank's next frame carries it; each slot reports its pin's cause
and clears it, and the last report ends it. -/
def Obligations.PinsAndSweep : Prop :=
  (∀ (f : DioField) (j : Fin 8) (vin vf : Nat),
    let g := f.sample j.val vin vf
    let r := bit g.reading j.val
    let k := tget 0 f.agree j.val + 1
    (bit f.wb j.val = false →
      (9000 ≤ vin → r = true) ∧ (vin ≤ 7000 → r = false) ∧ (7000 < vin → vin < 9000 → r = bit f.reading j.val)) ∧
    (bit f.wb j.val = true →
      (6 * vf ≤ 10 * vin → r = true) ∧ (10 * vin < 6 * vf → 10 * vin ≤ 4 * vf → r = false) ∧
        (4 * vf < 10 * vin → 10 * vin < 6 * vf → r = bit f.reading j.val)) ∧
    (r = bit f.filtered j.val → g.filtered = f.filtered) ∧
    (r ≠ bit f.filtered j.val → 0 < f.filter → f.filter ≤ k → g.filtered = putBit f.filtered j.val r) ∧
    (r ≠ bit f.filtered j.val → k < f.filter → g.filtered = f.filtered ∧ (twf 0 f.agree = true → tget 0 g.agree j.val = k))) ∧
  (∀ (s : State) (p : Fin 32) (on : Bool) (l : List (BitVec 16 × BitVec 16)),
    let n := s.node
    let b := p.val / 8
    let j := p.val % 8
    let f := n.fieldSide b
    let same := n.setField b f
    (f.powered = false →
      ∀ c ∈ [Instr.inputFilterChange p l, .wireBreak p on, .outputLatchOff p on, .backfeed p on], Answers c s n) ∧
    (f.powered = true →
      (bit f.dir j = false → Answers (.inputFilterChange p l) s
        (n.setField b (l.foldl (fun f x => f.sample j x.1.toNat x.2.toNat) f)) ∧
        Answers (.outputLatchOff p on) s same ∧ Answers (.backfeed p on) s same) ∧
      (bit f.dir j = true → Answers (.inputFilterChange p l) s same ∧ Answers (.wireBreak p on) s same ∧
        Answers (.outputLatchOff p on) s (n.setField b (DioField.stick { f with
          latched := setBit f.latched j
          thermal := putBit f.thermal j on } j (if on then 2 else 1))) ∧
        (bit (f.drive (n.bankSt b).mode) j = false → Answers (.backfeed p true) s
          (n.setField b (DioField.stick { f with backfeed := setBit f.backfeed j } j 4))) ∧
        (bit (f.drive (n.bankSt b).mode) j = true → Answers (.backfeed p true) s same) ∧
        Answers (.backfeed p false) s (n.setField b { f with backfeed := clrBit f.backfeed j })) ∧
      (bit f.wb j = false → Answers (.wireBreak p on) s same) ∧
      (bit f.dir j = false → bit f.wb j = true → Answers (.wireBreak p true) s
        (n.setField b (DioField.stick { f with broken := setBit f.broken j } j 3)) ∧
        Answers (.wireBreak p false) s (n.setField b { f with broken := clrBit f.broken j })))) ∧
  (∀ (s : State) (b : Fin 4) (levels vf : BitVec 8),
    let n := s.node
    let f := n.fieldSide b.val
    let j := n.dio.sweepSlot
    let refused (code : Nat) : Node := { n with dio := { n.dio with
      sweepResult := code
      flags := setBit n.dio.flags 3 } }
    (n.dio.sweepBusy = true → Answers (.dioSweep b) s (refused 2)) ∧
    (n.dio.sweepBusy = false →
      Answers .sweepSlotEnd s n ∧
      ((n.bankSt b.val).linkLost = true → Answers (.dioSweep b) s (refused 3)) ∧
      ((n.bankSt b.val).linkLost = false → (n.bankSt b.val).mode ≠ modeFollow → Answers (.dioSweep b) s (refused 4)) ∧
      ((n.bankSt b.val).linkLost = false → (n.bankSt b.val).mode = modeFollow → Gives (.dioSweep b) s fun m =>
        m.dio.sweepResult = 0 ∧ m.dio.sweepBank = b.val ∧ m.dio.sweepBusy = true ∧ m.dio.sweepReq = true ∧ m.dio.sweepDone = false ∧
          m.dio.sweepRes = n.dio.sweepRes ∧ (∀ k r, n.sweepPins b.val 0 = k :: r → m.dio.sweepSlot = k) ∧ m.dio.field = n.dio.field ∧
          Keeps [.dio] n m)) ∧
    (n.dioRuns = true → n.dio.sweepReq = true → n.dio.sweepBank = b.val → Gives (.dioFrame b true) s fun m =>
      m.dio.sweepReq = false ∧ (n.sweepPins b.val 0 ≠ [] → m.dio.sweepBusy = n.dio.sweepBusy) ∧
        (n.sweepPins b.val 0 = [] → m.dio.sweepBusy = false ∧ m.dio.sweepDone = true)) ∧
    (n.dio.sweepBusy = true → n.dio.sweepReq = false → n.dio.sweepBank = b.val → j < 8 → f.powered = true → (∀ x ∈ f.reports, x.1 ≠ j) →
      twf {} n.dio.field = true → Gives .sweepSlotEnd s fun m =>
        (m.fieldSide b.val).causeOf j = Node.liveFault f j ∧
          (m.fieldSide b.val).reports = f.reports ++ [(j, if n.dio.sweepLow = true ∨ (n.bankSt b.val).supplyOk = false then 5 else f.causeOf j)] ∧
          (∀ k r, n.sweepPins b.val (j + 1) = k :: r → m.dio.sweepSlot = k) ∧ m.dio.sweepRes = n.dio.sweepRes ∧ Keeps [.dio] n m) ∧
    (∀ i c rest, n.dioRuns = true → f.powered = true → 70 ≤ vf.toNat → f.reports = (i, c) :: rest → Gives (.dioReply b levels vf) s fun m =>
      (n.sweepPins b.val (i + 1) = [] → m.dio.sweepBusy = false ∧ m.dio.sweepDone = true ∧ m.dio.sweepRes = putCode n.dio.sweepAcc i c) ∧
        (n.sweepPins b.val (i + 1) ≠ [] → m.dio.sweepAcc = putCode n.dio.sweepAcc i c ∧ m.dio.sweepBusy = n.dio.sweepBusy)))

/-- 10 R325 to R327, 00 R613: a fabric command written at the host port of the node that owns its pair's duty: the first refusal that
applies, in the order of FAB_CMD_STAT, or a place in the queue under the next CMD_ID. 10 R326, R327, 00 R613: without an image no owner can
be reached: a host command is refused with 7, or with 3 where it needs maintenance mode, and one of a network port or a panel input is
dropped. -/
def Obligations.FabricCommands : Prop :=
  (∀ (s : State) (p : Fin 1024),
    let n := s.node
    let pt := n.point p.val
    let known (op : Nat) : Bool := if op = 2 ∨ op = 8 then (n.group p.val).isSome else pt.isSome
    let code (op arg : Nat) : Nat :=
      if known op = false then 2
      else if (op = 6 ∨ op = 7) ∧ n.sec.maint = false then 3
      else if 256 ≤ (n.fab.queue.filter (·.reason == 0)).length then 4
      else if op = 3 ∧ pt.any (fun c => c.prio == 0 || c.shelveMax == 0) = true then 5
      else if op = 3 ∧ pt.any (fun c => decide (c.shelveMax < arg)) = true then 6
      else 0
    let arrives (c : Instr) (op arg : Nat) : Prop :=
      (code op arg = 0 → Answers c s { n with fab := { n.fab with
        queue := n.fab.queue ++ [⟨op, p.val, arg, 0, n.sys.node, n.fab.cmdId, 0⟩]
        cmdId := if n.fab.cmdId = 0xFFFF then 1 else n.fab.cmdId + 1
        cmdResult := 0
        cmdStatId := n.fab.cmdId } }) ∧
      (code op arg ≠ 0 → Answers c s { n with fab := { n.fab with
        cmdResult := code op arg
        flags := if code op arg = 4 then setBit (setBit n.fab.flags 0) 3 else setBit n.fab.flags 0 } })
    n.img.isSome = true → n.ownDuty = true → n.pwr.parked = false →
      arrives (.ack p .host) 1 0 ∧ arrives (.ackGroup p .host) 2 0 ∧ arrives (.shelve p .host) 3 n.fab.arg ∧
        arrives (.unshelve p .host) 4 0 ∧ arrives (.resetPoint p .host) 5 0 ∧ arrives (.outOfService p .host) 6 0 ∧
        arrives (.inService p .host) 7 0 ∧ arrives (.foReset p .host) 8 0) ∧
  (∀ (s : State) (p : Fin 1024) (port : Fin 6),
    let n := s.node
    n.img = none →
      (∀ c ∈ [Instr.ack p .host, .ackGroup p .host, .shelve p .host, .unshelve p .host, .resetPoint p .host, .foReset p .host],
        Answers c s { n with fab := { n.fab with
          cmdResult := 7
          flags := setBit n.fab.flags 0 } }) ∧
      (∀ c ∈ [Instr.outOfService p .host, .inService p .host], Answers c s { n with fab := { n.fab with
          cmdResult := if n.sec.maint then 7 else 3
          flags := setBit n.fab.flags 0 } }) ∧
      (∀ o ∈ [Origin.net port, .panel], Answers (.ack p o) s n ∧ Answers (.ackGroup p o) s n ∧ Answers (.shelve p o) s n ∧
        Answers (.unshelve p o) s n ∧ Answers (.resetPoint p o) s n ∧ Answers (.outOfService p o) s n ∧
        Answers (.inService p o) s n ∧ Answers (.foReset p o) s n))

/-- 01 R36, 10 Tables 10.5 and 10.6: what each point command does in step 3 of the tick: its outcome (0 EFFECT, 1 NO_EFFECT) and the
point's new state. An ACK of a point that is Active-acknowledged or Normal has no effect. 10 R316, R318, R321 to R323: the last count of a
delay, of a suppression hold and of a shelving clock moves its point by Table 10.5 or by the return rule; any other count does nothing, nor
does one of a node that evaluates no fabric (10 R341). -/
def Obligations.PointCommandsAndTimers : Prop :=
  (∀ (c : PointCfg) (x : PointSt) (arg : Nat),
    (x.st = stActUnack → pointCommand c 1 arg x = ({ x with st := stActAck }, 0, 0)) ∧
    (x.st = stRectUnack → pointCommand c 1 arg x = ({ x with st := stNormal }, 0, 0)) ∧
    (x.st ≠ stActUnack → x.st ≠ stRectUnack → pointCommand c 1 arg x = (x, 1, 0)) ∧
    (c.prio ≠ 0 → c.shelveMax ≠ 0 → arg ≤ c.shelveMax → x.st ≠ stOutOfService → pointCommand c 3 arg x = ({ x with
      st := stShelved
      latched := false
      shelf := if arg = 0 then c.shelveMax else arg
      shelfSet := true }, 0, 0)) ∧
    (x.st = stShelved → pointCommand c 4 arg x = ({ x with
      st := if x.supp then stSuppressed else if x.f then stActUnack else stNormal
      shelf := 0
      shelfSet := false }, 0, 0)) ∧
    (x.latched = true → x.f = false → pointCommand c 5 arg x = ({ x with
      latched := false
      st := if x.st = stActAck then stNormal else stRectUnack }, 0, 0)) ∧
    (x.latched = false ∨ x.f = true → pointCommand c 5 arg x = (x, 1, 0)) ∧
    (x.st ≠ stOutOfService → pointCommand c 6 arg x = ({ x with
      st := stOutOfService
      latched := false
      shelf := 0
      shelfSet := false }, 0, 0)) ∧
    (x.st = stOutOfService → pointCommand c 7 arg x = ({ x with
      st := if x.supp then stSuppressed else if x.f then stActUnack else stNormal }, 0, 0))) ∧
  (∀ (s : State) (p : Fin 1024) (c : PointCfg),
    let n := s.node
    let x := n.pointSt p.val
    (n.evaluates = false → ∀ e ∈ [Instr.onDelayExpiry p, .offDelayExpiry p, .suppHoldExpiry p, .shelveExpiry p], Answers e s n) ∧
    (n.evaluates = true → n.point p.val = some c →
      (x.f = false → x.running = true → x.supp = false → n.ticksOf c 4 ≤ x.cnt + 1 → overlay x.st = false →
        Answers (.onDelayExpiry p) s (n.setPoint p.val { x with
          f := true
          cnt := 0
          running := false
          latched := if x.st = stActUnack ∨ x.st = stActAck then false else x.latched
          st := if x.st = stActUnack ∨ x.st = stActAck then x.st else stActUnack })) ∧
      (x.f = true ∨ x.running = false ∨ x.supp = true ∨ x.cnt + 1 < n.ticksOf c 4 → Answers (.onDelayExpiry p) s n) ∧
      (x.f = true → x.running = true → x.supp = false → n.ticksOf c 5 ≤ x.cnt + 1 → x.st = stActAck →
        Answers (.offDelayExpiry p) s (n.setPoint p.val { x with
          f := false
          cnt := 0
          running := false
          latched := if c.latch then true else x.latched
          st := if c.latch then stActAck else stNormal })) ∧
      (x.f = true → x.running = true → x.supp = false → n.ticksOf c 5 ≤ x.cnt + 1 → x.st = stActUnack →
        Answers (.offDelayExpiry p) s (n.setPoint p.val { x with
          f := false
          cnt := 0
          running := false
          latched := if c.latch then true else x.latched
          st := if c.latch then stActUnack else stRectUnack })) ∧
      (x.f = false ∨ x.running = false ∨ x.supp = true ∨ x.cnt + 1 < n.ticksOf c 5 → Answers (.offDelayExpiry p) s n) ∧
      (x.supp = true → x.hold = 1 → x.st = stSuppressed → x.f = false → x.r = false →
        Answers (.suppHoldExpiry p) s (n.setPoint p.val { x with
          supp := false
          hold := 0
          cnt := 0
          running := false
          st := stNormal })) ∧
      (x.supp = false ∨ x.hold ≠ 1 → Answers (.suppHoldExpiry p) s n) ∧
      (x.st = stShelved → x.shelf = 1 → x.shelfSet = false → Answers (.shelveExpiry p) s
        ((n.setPoint p.val { x with
          shelf := 0
          st := if x.supp then stSuppressed else if x.f then stActUnack else stNormal }).ckpt 5 p.val 0)) ∧
      (x.st ≠ stShelved ∨ 1 < x.shelf ∨ x.shelfSet = true → Answers (.shelveExpiry p) s n)))

/-- 02 R86, 10 R334: the refusals of a tunable write: outside its bounds, in maintenance mode only, not a finite number, no place, not the
duty. 02 R85, 10 R333: a pending tunable write applies with its configuration record and its checkpoint entry; a node without duty applies
none, and none applies where an activation takes place at the same boundary (02 R88). -/
def Obligations.Tunables : Prop :=
  (∀ (n : Node) (cell item : Nat) (v : B64) (t : TuneCfg),
    let known := n.fab.tunePend.any fun y => y.cell == cell && y.item == item
    (n.tune cell item = none → n.tuneRefusal cell item v = 1) ∧
    (n.tune cell item = some t →
      (b64Finite v = true → insideBounds t v = false → n.tuneRefusal cell item v = 2) ∧
      (insideBounds t v = true → t.maintOnly = true → n.sec.maint = false → n.tuneRefusal cell item v = 3) ∧
      (insideBounds t v = true → t.maintOnly = false → b64Finite v = true →
        (known = false → 64 ≤ n.fab.tunePend.length → n.tuneRefusal cell item v = 7) ∧
        (known = true ∨ n.fab.tunePend.length < 64 →
          n.tuneRefusal cell item v = if n.ownDuty then 0 else 8)))) ∧
  (∀ (s : State) (x : TunePend),
    let n := s.node
    (n.fab.tunePend = [] ∨ n.ownDuty = false ∨ n.activationFalls = true → Answers .tunableApply s n) ∧
    (n.fab.tunePend = [x] → n.ownDuty = true → n.activationFalls = false → twf none n.fab.tuned = true → Gives .tunableApply s fun m =>
      m.fab.tunePend = [] ∧ m.fab.lastApply = 0 ∧ tget none m.fab.tuned (tuneKey x.cell x.item) = some x.value ∧
        (∀ k, k ≠ tuneKey x.cell x.item → tget none m.fab.tuned k = tget none n.fab.tuned k) ∧
        m.jrnl = { n.jrnl with firstRecs := n.jrnl.firstRecs ++
          [⟨0x10, x.cell, 6, x.item * 4, leBytes 2 n.hashTag ++ leBytes 8 x.value.toNat⟩] } ∧
        Keeps [.fab, .jrnl, .stor] n m))

/-- 10 R332 to R336: the FAB window: an operation starts with the selector and the data as they stand or is refused while one runs, and
completes with its result; a WRITE that names a bound is refused before its cell is looked at (00 R613). 01 Table 1.7, 10 R339: a
corrected error of the fabric's memory is counted; an uncorrectable one clamps every domain. -/
def Obligations.FabricWindowAndErrors : Prop :=
  (∀ (s : State) (sel : Word) (v : B64),
    let n := s.node
    let w := n.fab
    let idx := bitsOf 0 10 sel
    let done (code : Nat) (d : B64) (pend : List TunePend) : Node := { n with fab := { w with
      winRun := none
      winResult := code
      winData := d
      tunePend := pend
      flags := if code = 0 then w.flags else setBit w.flags 1 } }
    (w.winRun = none → Answers .winRead s { n with fab := { w with winRun := some (1, w.winSel, w.winData) } } ∧
      Answers .winWrite s { n with fab := { w with winRun := some (2, w.winSel, w.winData) } } ∧ Answers .winOpDone s n) ∧
    (w.winRun.isSome = true → ∀ c ∈ [Instr.winRead, .winWrite], Answers c s { n with fab := { w with
      winResult := 6
      flags := setBit w.flags 1 } }) ∧
    (w.winRun = some (1, sel, v) → bitsOf 12 2 sel = 0 →
      (n.point idx = none → Answers .winOpDone s (done 4 w.winData w.tunePend)) ∧
      ((n.point idx).isSome = true → bitsOf 16 8 sel = 1 →
        Answers .winOpDone s (done 0 (n.shownPoint idx).value w.tunePend)) ∧
      ((n.point idx).isSome = true → bitsOf 16 8 sel = 9 →
        Answers .winOpDone s (done 0 (BitVec.ofNat 64 (n.shownPoint idx).runStart) w.tunePend)) ∧
      ((n.point idx).isSome = true → 10 ≤ bitsOf 16 8 sel → bitsOf 16 8 sel < 64 →
        Answers .winOpDone s (done 4 w.winData w.tunePend))) ∧
    (w.winRun = some (2, sel, v) → bitsOf 12 2 sel = 0 →
      (64 ≤ bitsOf 16 8 sel → Answers .winOpDone s (done 1 w.winData w.tunePend)) ∧
      (n.point idx = none → bitsOf 16 8 sel < 64 → Answers .winOpDone s (done 4 w.winData w.tunePend)) ∧
      ((n.point idx).isSome = true → bitsOf 16 8 sel ∈ [2, 3, 4, 5, 6] →
        let code := n.tuneRefusal idx (bitsOf 16 8 sel) v
        (code = 0 → Answers .winOpDone s (done 0 w.winData (putTune w.tunePend ⟨idx, bitsOf 16 8 sel, v⟩))) ∧
        (code ≠ 0 → Answers .winOpDone s (done code w.winData w.tunePend))) ∧
      ((n.point idx).isSome = true → bitsOf 16 8 sel ∈ [0, 1, 7, 8, 9] → Answers .winOpDone s (done 1 w.winData w.tunePend)))) ∧
  (∀ s : State,
    Answers (.fabEccError false) s { s.node with fab := { s.node.fab with ecc := satInc 0xFFFF s.node.fab.ecc } } ∧
    Gives (.fabEccError true) s fun m => (∀ d, (m.dom d).st = .latched ∧ (m.dom d).clamp = true) ∧ m.fab.ecc = s.node.fab.ecc)

/-- 11 R344, R353, R355, 00 R613: a call command written at the host port of the node that owns its pair's duty: the first refusal that
applies, or a place in the queue. The OP of CALL_CMD stands in the queue with 0x10 added. 11 R356, Table 11.2: the dead-man watch reaches
PREWARN and EXPIRED, each with its record, which goes to the ring with those of its step (01 R23); a node that does not evaluate moves
neither. 11 R349, R350: the last rung repeats when its timer ends, and keeps calling; a timer with more to count, or an IDLE ladder, does
nothing. -/
def Obligations.EngineerCall : Prop :=
  (∀ (s : State) (scope : CallScope) (e mask : BitVec 8),
    let n := s.node
    let full := 256 ≤ (n.fab.queue.filter (·.reason == 0)).length
    let queued (c : Instr) (op target arg : Nat) : Prop := Answers c s { n with
      fab := { n.fab with
        queue := n.fab.queue ++ [⟨op, target, arg, 0, n.sys.node, n.fab.cmdId, 0⟩]
        cmdId := if n.fab.cmdId = 0xFFFF then 1 else n.fab.cmdId + 1 }
      call := { n.call with
        cmdResult := 0
        cmdStatId := n.fab.cmdId } }
    let refused (c : Instr) (code : Nat) : Prop := Answers c s { n with call := { n.call with
      cmdResult := code
      flags := setBit n.call.flags 0 } }
    n.img.isSome = true → n.ownDuty = true → n.pwr.parked = false →
      (¬ full → queued (.callAck scope .host) 0x11 (Node.scopeCode scope) 0) ∧
      (full → refused (.callAck scope .host) 5) ∧
      (n.engineer e.toNat = none → refused (.setDuty e) 2) ∧
      ((n.engineer e.toNat).isSome = true → bit n.call.present e.toNat = false → refused (.setDuty e) 3) ∧
      ((n.engineer e.toNat).isSome = true → bit n.call.present e.toNat = true → ¬ full →
        queued (.setDuty e) 0x12 e.toNat e.toNat) ∧
      (n.maskUndefined mask.toNat = true → refused (.setPresent mask) 2) ∧
      (n.maskUndefined mask.toNat = false → mask.toNat.testBit n.call.duty = false → refused (.setPresent mask) 4) ∧
      (n.maskUndefined mask.toNat = false → mask.toNat.testBit n.call.duty = true → ¬ full →
        queued (.setPresent mask) 0x13 0 mask.toNat) ∧
      (n.watch = none → ¬ full → refused .dmStart 8 ∧ refused .dmStop 8 ∧ refused .dmReset 8) ∧
      (n.watch.isSome = true → ¬ full → queued .dmStart 0x14 0x00FF 0 ∧ queued .dmReset 0x16 0x00FF 0) ∧
      (n.watch.isSome = true → ¬ full → n.call.dmState = 3 → refused .dmStop 6) ∧
      (n.watch.isSome = true → ¬ full → n.call.dmState ≠ 3 → queued .dmStop 0x15 0x00FF 0)) ∧
  (∀ (s : State) (w : WatchCfg),
    let n := s.node
    let record (old new : Nat) : Record :=
      ⟨n.jrnl.nextSeq, n.sys.node, n.space, 0x04, n.tickTime, 0x00FF, old, new, Node.detail [5, 0, 0]⟩
    let issued (r : Record) (m : Node) : Prop :=
      m.jrnl.nextSeq = n.jrnl.nextSeq + 1 ∧ (∃ x ∈ m.jrnl.ram, x.item = r) ∧ m.jrnl.tickRecs = [] ∧
        (n.tide.st = .inserted → n.tide.hold = none → m.tide.recs = n.tide.recs ++ (n.jrnl.tickRecs ++ [r])) ∧
        Keeps [.call, .jrnl, .tide, .ext, .stor, .free] n m
    (n.evaluates = false ∨ n.watch = none → Answers .dmPrewarn s n ∧ Answers .dmExpiry s n) ∧
    (n.evaluates = true → n.watch = some w →
      (n.call.dmState = 1 → n.call.dmTimer ≤ w.warn * 20 + 1 → Gives .dmPrewarn s fun m =>
        m.call = { n.call with
          dmState := 2
          dmTimer := min n.call.dmTimer (w.warn * 20) } ∧ issued (record 1 2) m) ∧
      (n.call.dmState ≠ 1 ∨ w.warn * 20 + 1 < n.call.dmTimer → Answers .dmPrewarn s n) ∧
      (n.call.dmState = 2 → n.call.dmTimer ≤ 1 → Gives .dmExpiry s fun m =>
        m.call = { n.call with
          dmState := 3
          dmTimer := 0
          flags := setBit n.call.flags 2 } ∧ issued (record 2 3) m) ∧
      (n.call.dmState ≠ 2 ∨ 1 < n.call.dmTimer → Answers .dmExpiry s n))) ∧
  (∀ (s : State) (l : Fin 16) (c : LadderCfg),
    let n := s.node
    let x := n.ladderSt c.num
    (n.ladder l.val = none ∨ n.evaluates = false → Answers (.rungTimerExpiry l) s n) ∧
    (n.ladder l.val = some c → n.evaluates = true →
      (x.rung = 0 ∨ 1 < x.timer → Answers (.rungTimerExpiry l) s n) ∧
      (x.rung ≠ 0 → x.timer ≤ 1 → c.rungs.length ≤ x.rung → c.fastEscalate = false → twf {} n.call.ladders = true →
        Gives (.rungTimerExpiry l) s fun m =>
          m.ladderSt c.num = { x with
            timer := (c.rungs.getD (x.rung - 1) ⟨[], 0⟩).timer
            shortened := false
            repeats := satInc 0xFFF x.repeats } ∧
          m.jrnl.nextSeq = n.jrnl.nextSeq + 1 ∧ m.jrnl.tickRecs = [] ∧ (∀ k, k ≠ c.num → m.ladderSt k = n.ladderSt k) ∧
          Keeps [.call, .jrnl, .tide, .ext, .stor, .free] n m) ∧
      (x.rung ≠ 0 → x.timer ≤ 1 → x.rung < c.rungs.length → twf {} n.call.ladders = true → Gives (.rungTimerExpiry l) s fun m =>
        x.rung < (m.ladderSt c.num).rung ∧ n.jrnl.nextSeq < m.jrnl.nextSeq ∧ m.jrnl.tickRecs = [] ∧
          (∀ k, k ≠ c.num → m.ladderSt k = n.ladderSt k) ∧ Keeps [.call, .jrnl, .tide, .ext, .stor, .free] n m)))

/-- 12 R365, R378: a memory-window write outside the host region, or inside an area of an unretired job, is refused and keeps the word;
any other write stores HI:LO at ADDR and nowhere else. A LO read latches the high half, and HI reads the last value latched or written (00
R9); a HI access advances ADDR. -/
def Obligations.SolverMemoryWindow : Prop :=
  ∀ (s : State) (hi : Word),
    let n := s.node
    let a := n.solv.memAddr
    let next := if n.solv.autoinc then (a + 1) % 2 ^ 18 else a
    let outside := a < n.region.1 ∨ n.region.1 + n.region.2 ≤ a
    let taken := ∃ j ∈ n.hostJobs, ∃ x ∈ j.areas, x.1 ≤ a ∧ a < x.2
    let refused (code : Nat) : Node := { n with solv := { n.solv with
      memResult := code
      memHi := hi
      flags := setBit n.solv.flags 6
      memAddr := next } }
    (outside → Answers (.memWrite hi) s (refused 1)) ∧
    (¬outside → taken → Answers (.memWrite hi) s (refused 2)) ∧
    (¬outside → ¬taken → n.MemCanonical → Gives (.memWrite hi) s fun m =>
      tget 0 m.solv.mem a = hi ++ n.solv.memLo ∧ (∀ k, k ≠ a → tget 0 m.solv.mem k = tget 0 n.solv.mem k) ∧ m.MemCanonical ∧
        m.solv = { n.solv with
          mem := m.solv.mem
          memResult := 0
          memHi := hi
          memAddr := next } ∧ Keeps [.solv] n m) ∧
    Answers .memRead s { n with solv := { n.solv with memHi := (tget 0 n.solv.mem a).extractLsb' 32 32 } } ∧
    Answers .memHiRead s { n with solv := { n.solv with memAddr := next } }

/-- 12 R373 to R377, Table 12.3: a write of SOLV_SUBMIT gives the first refusal of the table that holds, or takes the lowest free slot and
counts against the template. -/
def Obligations.HostSubmission : Prop :=
  ∀ (s : State) (q : BitVec 2) (t : Nat),
    let n := s.node.setNow t
    let j (c : TemplateCfg) := n.descJob c q.toNat
    let refused (code : Nat) (full : Bool) : Node := { n with solv := { n.solv with
      subJobId := 0xFF
      subResult := code
      subQueue := q.toNat
      flags := if full then setBit (setBit n.solv.flags 1) 0 else setBit n.solv.flags 1 } }
    let refuses (code : Nat) := Answers (.submit q t) s (refused code (code == 1))
    (n.solvRefuses = true → refuses 8) ∧
    (n.solvRefuses = false →
      (q = 0 → refuses 2) ∧
      (q ≠ 0 →
        (n.template n.descTemplate = none → refuses 3) ∧
        (∀ c, n.template n.descTemplate = some c →
          (c.host = false → refuses 3) ∧
          (c.host = true →
            (badSize (j c) = true → refuses 4) ∧
            (badSize (j c) = false →
              (100000 < n.solv.descDl → refuses 9) ∧
              (n.solv.descDl ≤ 100000 →
                (n.badArea (j c) = true → refuses 5) ∧
                (n.badArea (j c) = false →
                  (n.overlaps (j c) = true → refuses 6) ∧
                  (n.overlaps (j c) = false →
                    (c.hostMax ≤ (n.tmplSt c.num).hostUsed → refuses 7) ∧
                    ((n.tmplSt c.num).hostUsed < c.hostMax →
                      (n.solvFull = true → refuses 1) ∧
                      (∀ k, n.solvFull = false → n.freeSlot = some k → twf {} n.solv.slots = true → twf {} n.solv.tmpl = true →
                        (∀ i o, (n.slotSt i).job = some o → o.slot = i) → Gives (.submit q t) s fun m =>
                          m.solv.subResult = 0 ∧ m.solv.subQueue = q.toNat ∧ m.solv.flags.getLsbD 1 = n.solv.flags.getLsbD 1 ∧
                            m.solv.subJobId = jobId k (((n.slotSt k).gen + 1) % 8) ∧
                            (m.slotSt k).gen = ((n.slotSt k).gen + 1) % 8 ∧ (m.slotSt k).job.isSome = true ∧
                            (m.tmplSt c.num).hostUsed = (n.tmplSt c.num).hostUsed + 1 ∧
                            Keeps [.rtc, .solv, .jrnl, .tide, .pair, .free] s.node m))))))))))

/-- 12 R373, R380, R382, R391: how jobs end. The running job ends by its own outcome or at its deadline, a queued one whose deadline
has passed at the head of its queue, and a second fault ends a job HWFAULT; a host job writes a completion entry at its queue's tail, a
scheduled one frees its slot, and a pop takes the first entry and frees its slot. With no job running a fault is
a single-bit error, corrected and counted (log entry 91, the model's choice). In Sleep the end of the last job turns SOLV off (log entry
115, the model's choice). -/
def Obligations.HostJobsEnd : Prop :=
  ∀ (s : State) (t : Nat),
    let n := s.node.setNow t
    let frame (m : Node) := Keeps [.rtc, .solv, .jrnl, .tide, .pair, .free, .pwr, .clk] s.node m ∧
      (s.node.solvDrains = false → Keeps [.rtc, .solv, .jrnl, .tide, .pair, .free] s.node m)
    let entered (j : Job) (p : CqEntry → Prop) (m : Node) := ∃ e r, m.cqOf j.queue = n.cqOf j.queue ++ e :: r ∧ e.slot = j.slot ∧
      e.jobId = jobId j.slot j.gen ∧ e.template = j.cfg.num ∧ e.rerun = j.rerun ∧ p e
    let slotted := ∀ i o, (n.slotSt i).job = some o → o.slot = i
    (Gives (.jobEnd t) s frame ∧ Gives (.deadlineExpiry t) s frame ∧ Gives .solverFaultDetected s frame) ∧
    (∀ j, n.runJob = some j → n.solv.running = some j.slot → twf {} n.solv.slots = true → slotted →
      (j.queue = 0 → Gives (.jobEnd t) s fun m => (m.slotSt j.slot).job = none) ∧
      (1 ≤ j.queue → j.queue ≤ 3 → n.now ≤ j.deadline → Gives (.jobEnd t) s (entered j fun e =>
        e.status = (((List.range j.b).map fun i => (n.runMatrix j i).code).find? (· != 0)).getD 0 ∧ e.time = n.now - j.start))) ∧
    (n.runJob = none → Answers (.jobEnd t) s n) ∧
    (∀ k j, n.lateRunning = some k → (n.slotSt k).job = some j → twf {} n.solv.slots = true → slotted →
      (j.queue = 0 → Gives (.deadlineExpiry t) s fun m => (m.slotSt k).job = none) ∧
      (1 ≤ j.queue → j.queue ≤ 3 → 1 ≤ j.b → Gives (.deadlineExpiry t) s (entered j fun e => e.status ≠ 0))) ∧
    (∀ k j, n.lateRunning = none → n.lateHead (n.now + 1) = some k → (n.slotSt k).job = some j → j.slot = k → 1 ≤ j.queue →
      j.queue ≤ 3 → 1 ≤ j.b → Gives (.deadlineExpiry t) s (entered j fun e => e.status = 1 ∧ e.time = 0)) ∧
    (s.node.runJob = none → s.node.solvHeld = false → Answers .solverFaultDetected s
      { s.node with solv := { s.node.solv with corrected := satInc 0xFFFF s.node.solv.corrected } }) ∧
    (s.node.runJob = none → s.node.solvHeld = true → Answers .solverFaultDetected s s.node) ∧
    (∀ j, s.node.runJob = some j → s.node.solv.running = some j.slot → s.node.rtc.now < j.deadline →
      (j.rerun = false → Answers .solverFaultDetected s { s.node with solv := { s.node.solv with
        slots := tupd {} s.node.solv.slots j.slot fun x => { x with job := some { j with rerun := true } }
        reruns := satInc 0xFF s.node.solv.reruns } }) ∧
      (j.rerun = true → 1 ≤ j.b → Gives .solverFaultDetected s fun m =>
        m.solv.hwfaults = satInc 0xFF s.node.solv.hwfaults ∧ bit m.solv.flags 5 = true)) ∧
    (∀ q : BitVec 2, s.node.cqOf q.toNat = [] → Answers (.cqPop q) s (s.node.solvFlag 7)) ∧
    (∀ (q : BitVec 2) e r, s.node.cqOf q.toNat = e :: r → twf {} s.node.solv.slots = true → Gives (.cqPop q) s fun m =>
      m.cqOf q.toNat = r ∧ (∀ p, p ≠ q.toNat → m.cqOf p = s.node.cqOf p) ∧ (m.slotSt e.slot).job = none ∧
        (m.slotSt e.slot).gen = (s.node.slotSt e.slot).gen ∧ (∀ k, k ≠ e.slot → m.slotSt k = s.node.slotSt k) ∧
        m.solv.mem = s.node.solv.mem ∧ m.solv.flags = s.node.solv.flags ∧ Keeps [.solv] s.node m)

/-- 14 R442, R443: a cursor command starts a load or is refused while one runs, and the window changes only when the load completes: it
holds the record asked for, the next held one, the newest or the oldest, or stays where there is none. A LO read latches its HI half. -/
def Obligations.JournalCursor : Prop :=
  ∀ s : State,
    let n := s.node
    let j := n.jrnl
    let start (op asked : Nat) : Node := { n with jrnl := { j with
      busy := true
      op := op
      asked := asked } }
    let refused : Node := { n with jrnl := { j with
      result := 4
      flags := setBit j.flags 5 } }
    let left (result : Nat) : Node := { n with jrnl := { j with
      busy := false
      op := 0
      result := result } }
    let loaded (q result : Nat) (skipped : Bool) (m : Node) := (∃ r, m.jrnl.window = some r ∧ r.seq = q) ∧ m.jrnl.pos = q ∧
      m.jrnl.result = result ∧ m.jrnl.skipped = skipped ∧ m.jrnl.fromFlash = (n.ramRecord q).isNone ∧ m.jrnl.busy = false ∧
      m.jrnl.ram = j.ram ∧ Keeps [.jrnl] n m
    (j.busy = false → Answers .seek s (start 1 j.seek) ∧ Answers .next s (start 2 (j.pos + 1)) ∧
      Answers .newest s (start 3 j.seek) ∧ Answers .oldest s (start 4 j.seek) ∧ Answers .cursorLoadDone s n) ∧
    (j.busy = true → Answers .seek s refused ∧ Answers .next s refused ∧ Answers .newest s refused ∧ Answers .oldest s refused) ∧
    (j.busy = true → n.heldNums = [] → Answers .cursorLoadDone s (left 6)) ∧
    (j.busy = true → n.heldNums ≠ [] →
      (j.op = 1 ∨ j.op = 2 →
        (j.asked ∈ n.heldNums → Gives .cursorLoadDone s (loaded j.asked 0 false)) ∧
        (∀ q, j.asked < q → q ∈ n.heldNums → (∀ x ∈ n.heldNums, j.asked ≤ x → q ≤ x) → (∃ x ∈ n.heldNums, x < j.asked) →
          Gives .cursorLoadDone s (loaded q 1 true)) ∧
        (∀ q, j.asked < q → q ∈ n.heldNums → (∀ x ∈ n.heldNums, q ≤ x) → Gives .cursorLoadDone s (loaded q 3 true)) ∧
        ((∀ x ∈ n.heldNums, x < j.asked) → Gives .cursorLoadDone s fun m =>
          m.jrnl.window = j.window ∧ m.jrnl.pos = j.pos ∧ m.jrnl.result = 2 ∧ m.jrnl.busy = false ∧ Keeps [.jrnl] n m)) ∧
      (∀ q, q ∈ n.heldNums → j.op = 3 → (∀ x ∈ n.heldNums, x ≤ q) → Gives .cursorLoadDone s (loaded q 0 false)) ∧
      (∀ q, q ∈ n.heldNums → j.op = 4 → (∀ x ∈ n.heldNums, q ≤ x) → Gives .cursorLoadDone s (loaded q 0 false))) ∧
    Answers (.loLatchRead .serial) s { n with sys := { n.sys with serialHi := highWord n.sys.serial } } ∧
    Answers (.loLatchRead .nodeTime) s { n with rtc := { n.rtc with ntHi := highWord n.rtc.now } } ∧
    Answers (.loLatchRead .syncTime) s { n with lane := { n.lane with syncHi := highWord n.lane.syncTime } } ∧
    Answers (.loLatchRead .jrnlNewest) s { n with jrnl := { j with newestHi := highWord n.newestHeld } } ∧
    Answers (.loLatchRead .jrnlFlashed) s { n with jrnl := { j with flashedHi := highWord n.flashedHigh } } ∧
    Answers (.loLatchRead .jrnlOldest) s { n with jrnl := { j with oldestHi := highWord n.oldestHeld } } ∧
    Answers (.loLatchRead .jrnlPos) s { n with jrnl := { j with posHi := highWord j.pos } } ∧
    Answers (.loLatchRead .pairLast) s { n with pair := { n.pair with lastHi := highWord n.pair.last } } ∧
    Answers (.loLatchRead .pairFo) s { n with pair := { n.pair with foHi := highWord n.pair.fo } }

/-- 14 R436, R437, R446, 19 R585, R591: the oldest records not in flash start as the next journal page, before an erase under way; the
page written is marked in the RAM ring; with CORE's clock held none starts and none ends (04 R144); and a record lost to a RAM error is
counted and named in a GAP. -/
def Obligations.RecordsToFlash : Prop :=
  ∀ s : State,
    let n := s.node
    let room (k : Nat) := 8 - ((n.sector k).slots.length + 1) % 8
    let page (k : Nat) : FlashOp := .jrnl (n.unwritten.take (room k))
    (n.coreHeld = true → Answers .journalFlashWrite s n ∧ Answers (.flashProgramDone true) s n ∧ Answers (.flashProgramDone false) s n) ∧
    (n.stor.state = 2 ∨ n.unwritten = [] → Answers .journalFlashWrite s n) ∧
    (∀ k, n.coreHeld = false → n.stor.state ≠ 2 → n.unwritten ≠ [] → n.jrnlOpen = some k →
      (n.stor.cur = none → Answers .journalFlashWrite s { n with stor := { n.stor with
        cur := some (page k)
        tries := 0 } }) ∧
      (∀ c, n.stor.cur = some c → c.erases.isSome = true → n.stor.susp = none → Answers .journalFlashWrite s { n with stor := { n.stor with
        susp := some c
        cur := some (page k)
        tries := 0 } }) ∧
      (∀ c, n.stor.cur = some c → c.erases = none → Answers .journalFlashWrite s n)) ∧
    (∀ k recs, n.coreHeld = false → n.stor.cur = some (.jrnl recs) → n.jrnlOpen = some k → twf {} n.stor.sectors = true →
      Gives (.flashProgramDone true) s fun m =>
        (m.sector k).slots = (n.sector k).slots ++ recs.map some ∧ (∀ r ∈ m.jrnl.ram, r.item ∈ recs → r.flashed = true) ∧
          m.jrnl.ram.map (·.item) = n.jrnl.ram.map (·.item) ∧ (m.sector k).cls = (n.sector k).cls ∧ Keeps [.stor, .jrnl] n m) ∧
    (∀ q, n.jrnl.ram.find? (·.item.seq == q) = none → Answers (.ramEccError q) s n) ∧
    (∀ q r, n.jrnl.ram.find? (·.item.seq == q) = some r →
      let gone : Jrnl := { n.jrnl with
        ram := n.jrnl.ram.filter (·.item.seq != q)
        flags := setBit n.jrnl.flags 2 }
      (r.flashed = true → Answers (.ramEccError q) s { n with jrnl := gone }) ∧
      (r.flashed = false → n.issuer = false → Answers (.ramEccError q) s { n with jrnl := { gone with
        lost := satInc 0xFF n.jrnl.lost } }) ∧
      (r.flashed = false → n.issuer = true → Answers (.ramEccError q) s { n with jrnl := { gone with
        lost := satInc 0xFF n.jrnl.lost
        gaps := addGap ⟨5, q, 1⟩ n.jrnl.gaps } }))

/-- 15 R451 to R453, R473, R477, Table 15.7: beacons go out while the node is past its start and its transmitters do not hold idle, a heard one
sets its link's fields, one with a bad CRC is counted and the eighth in a row takes its link DOWN, a link comes UP with both directions, and
a link that goes DOWN wraps its port, or ends the node's part in the ring where it was the last. -/
def Obligations.RingLinks : Prop :=
  ∀ (s : State) (rp : RingPort) (b : Beacon),
    let n := s.node
    let l := n.link rp
    let far : RingPort := match rp with | .ta => .tb | .tb => .ta
    let alive := n.pwr.phase = .done ∧ n.coreRuns = true ∧ n.pwr.parked = false ∧ n.txIdle = false
    (alive → Gives .beaconSend s fun m => (∃ x y, m.tide.beacons = some (x, y) ∧ x.node = n.sys.node ∧ y.node = n.sys.node ∧
      x.rxOk = n.tide.ta.rxOk ∧ y.rxOk = n.tide.tb.rxOk ∧ x.insertReq = n.tide.insertReq ∧ y.insertReq = n.tide.insertReq ∧
      x.ringState = ringCode n.tide.st ∧ y.ringState = ringCode n.tide.st) ∧ Keeps [.tide] n m) ∧
    (¬alive → Answers .beaconSend s n) ∧
    (n.ringHears = false → Answers (.beaconRx rp (some b)) s n ∧ Answers (.beaconRx rp none) s n) ∧
    (n.ringHears = true → l.up = false ∨ b.rxOk = true → Gives (.beaconRx rp (some b)) s fun m =>
      (m.link rp).rxOk = true ∧ (m.link rp).txOk = b.rxOk ∧ (m.link rp).neighbour = b.node ∧ (m.link rp).insertReq = b.insertReq ∧
        (m.link rp).up = l.up ∧ (m.link rp).badRun = 0 ∧ (l.samples.length < 15 → (m.link rp).delay = l.delay) ∧
        m.link far = n.link far ∧ Keeps [.tide, .free] n m) ∧
    (n.ringHears = true → l.up = true → b.rxOk = false → Gives (.beaconRx rp (some b)) s fun m =>
      (m.link rp).up = false ∧ (m.link rp).wasDown = true ∧ bit m.tide.flags 0 = true) ∧
    (n.ringHears = true → l.up = false ∨ l.badRun < 7 → Gives (.beaconRx rp none) s fun m =>
      m.link rp = { l with badRun := min 8 (l.badRun + 1) } ∧ m.link far = n.link far ∧
        m.tide.crcTa = (if rp = .ta then satInc 0xFF n.tide.crcTa else n.tide.crcTa) ∧
        m.tide.crcTb = (if rp = .tb then satInc 0xFF n.tide.crcTb else n.tide.crcTb) ∧ Keeps [.tide] n m) ∧
    (n.ringHears = true → l.up = true → 7 ≤ l.badRun → Gives (.beaconRx rp none) s fun m =>
      (m.link rp).up = false ∧ (m.link rp).wasDown = true ∧ bit m.tide.flags 0 = true) ∧
    (l.up = false → Answers (.linkDown rp) s (n.clearLine.setLink rp { l with
      rxOk := false
      txOk := false
      insertReq := false
      wasDown := true
      samples := [] })) ∧
    (l.rxOk = true → l.txOk = true → l.up = false → Gives (.linkUp rp) s fun m =>
      m.link rp = { l with up := true } ∧ m.link far = n.link far ∧ Keeps [.tide, .jrnl, .pair] n m) ∧
    (l.rxOk = false ∨ l.txOk = false ∨ l.up = true → Answers (.linkUp rp) s n) ∧
    (l.up = true → Gives (.linkDown rp) s fun m =>
      (m.link rp).up = false ∧ (m.link rp).rxOk = false ∧ (m.link rp).txOk = false ∧ (m.link rp).wasDown = true ∧ bit m.tide.flags 0 = true ∧
        (n.tide.st = .inserted → (n.link far).up = true → m.wrapped rp = true ∧ m.tide.st = .inserted ∧
          Keeps [.tide, .jrnl, .pair] n m) ∧
        (n.tide.st = .inserted → (n.link far).up = false → m.tide.st = .listen ∧ m.tide.hold = none ∧ m.tide.sent = [] ∧
          m.tide.kept = none ∧ m.rtc.tracked = false ∧ m.pair.role ≠ 4) ∧
        (n.tide.st ≠ .inserted → m.tide.st = n.tide.st ∧ Keeps [.tide, .jrnl, .pair] n m)) ∧
    (rp = .ta → n.tide.st = .inserted → n.tide.wrapA = true → n.tide.ta.up = true → n.tide.ta.wasDown = true →
      Answers (.linkRestored rp) s { n with tide := { n.tide with restorePend := some .ta } }) ∧
    (rp = .tb ∨ n.tide.st ≠ .inserted ∨ n.tide.wrapA = false ∨ n.tide.ta.up = false ∨ n.tide.ta.wasDown = false →
      Answers (.linkRestored rp) s n)

/-- 15 R457, R462, R469, R476: a token with an old GEN is discarded; its visit sets the node's VISITED bit and starts its hold; back at
the master it is kept for the next boundary, where a new one starts with the nodes it visited as its VIEW; a hold ends with the token
passed on, or waiting while the transmitters hold idle (04 R154). -/
def Obligations.TokenRound : Prop :=
  ∀ (s : State) (tk : TokenFrame),
    let n := s.node
    let c := n.clearLine
    let current := n.ringOn = true ∧ n.otherRing tk = false ∧ n.olderGen tk.gen = false
    let seen (m : Node) := m.tide.gen = tk.gen ∧ m.tide.genSeen = true ∧ m.tide.masterNode = tk.master ∧ m.tide.tokenSeen = true ∧
      m.tide.claiming = false
    (n.ringOn = false → Answers (.token tk) s c) ∧
    (n.ringOn = true → n.otherRing tk = false → n.olderGen tk.gen = true → Answers (.token tk) s c) ∧
    (current → n.tide.st = .inserted → bit tk.visited n.sys.node = false → Gives (.token tk) s fun m =>
      seen m ∧ m.tide.hold = some { tk with visited := tk.visited ||| n.ownBit } ∧ m.tide.st = .inserted ∧
        (n.tide.lastToken ≠ some (tk.gen, tk.boundary) → m.tide.view = tk.view)) ∧
    (current → n.tide.st = .inserted → bit tk.visited n.sys.node = true → tk.master = n.sys.node → Gives (.token tk) s fun m =>
      seen m ∧ m.tide.kept = some tk ∧ m.tide.master = true ∧ m.tide.hold = n.tide.hold) ∧
    (current → n.tide.st = .request → bit tk.view n.sys.node = false → tk.spliced = true → bit tk.visited n.sys.node = false →
      n.tide.spliceFor = none → Gives (.token tk) s fun m =>
        seen m ∧ m.tide.st = .inserted ∧ m.tide.insertReq = false ∧ m.tide.hold = some { tk with visited := tk.visited ||| n.ownBit }) ∧
    (current → n.tide.st ∈ [.listen, .request] → bit tk.view n.sys.node = true → Gives (.token tk) s fun m =>
      seen m ∧ m.tide.st = .refused ∧ bit m.tide.flags 5 = true ∧ m.tide.hold = n.tide.hold ∧ Keeps [.tide, .jrnl, .pair] n m) ∧
    (n.ringOn = false → Answers .rotationBoundary s c) ∧
    (∀ k, n.ringOn = true → n.tide.st = .inserted → n.tide.dissolve = false → n.tide.kept = some k → Gives .rotationBoundary s fun m =>
      m.tide.lastRot = some n.nextRotation ∧ m.tide.kept = none ∧ m.tide.view = k.visited ∧ ∃ h, m.tide.hold = some h ∧
        h.view = k.visited ∧ h.visited = n.ownBit ∧ h.gen = n.tide.gen ∧ h.boundary = n.nextRotation ∧ h.spliced = false ∧
        ∀ i, bit k.visited i = true → i < 16 → bit k.visited h.master = true ∧ h.master ≤ i) ∧
    (n.ringOn = true → n.tide.dissolve = false → n.tide.kept = none → Gives .rotationBoundary s fun m =>
      m.tide.lastRot = some n.nextRotation ∧ m.tide.hold = n.tide.hold ∧
        m.tide.silent = (if n.tide.tokenSeen then 0 else satInc 3 n.tide.silent) ∧ m.tide.tokenSeen = false ∧
        Keeps [.tide, .rtc, .pair] n m) ∧
    (n.tide.hold = none → Answers .holdEnd s c) ∧
    (∀ h, n.tide.hold = some h → n.spliceAt h = none → Answers .holdEnd s { n with tide := { n.tide with
      hold := none
      budget := 0
      dissolve := n.tide.dissolve || h.dissolve
      line := if n.txIdle then [] else [⟨0, 0, 0, .token h⟩]
      wait := if n.txIdle then n.tide.wait ++ [⟨0, 0, 0, .token h⟩] else n.tide.wait
      kept := if n.tide.wrapA && n.tide.wrapB then some h else n.tide.kept } }) ∧
    (∀ h rp join, n.tide.hold = some h → n.spliceAt h = some (rp, join) → Gives .holdEnd s fun m =>
      let out := if n.txIdle then m.tide.wait else m.tide.line
      m.tide.hold = none ∧ m.wrapped rp = false ∧ out.getLast? = some ⟨0, 0, 0, .token { h with spliced := true }⟩ ∧
        (∃ f ∈ out, f.load = .splice n.sys.node (if join then (n.link rp).neighbour else 0xFF)) ∧
        Keeps [.tide, .jrnl, .pair] n m)

/-- 15 R467, R475, Table 15.3: the claim of the lowest node comes back to it and gives a token of the next GEN; silence makes a node
claim, or, where it only listens, form its own ring; a node within 10 µs of a ring asks to be let in; and LEAVE and JOIN. -/
def Obligations.ClaimsAndRingStates : Prop :=
  ∀ (s : State) (k : Fin 16),
    let n := s.node
    let c := n.clearLine
    let t := n.tide
    let gen := (t.gen + 1) % 65536
    let inRing := n.ringOn = true ∧ t.st = .inserted
    let ready := n.ringOn = true ∧ t.st = .listen ∧ 3 ≤ t.listenRot ∧ (t.ta.up = true ∨ t.tb.up = true) ∧ n.rtc.tracked = true ∧
      -10 ≤ n.rtc.offset ∧ n.rtc.offset ≤ 10 ∧ n.img.isSome = true
    let turned (code : Nat) : Node := { n with tide := { t with
      cmdResult := code
      flags := setBit t.flags 7 } }
    let puts (k : Nat) (claiming : Bool) : Node := { n with tide := { t with
      claiming := claiming
      line := if n.txIdle then [] else [⟨0, 0, allNodes, .claim k⟩]
      wait := if n.txIdle then t.wait ++ [⟨0, 0, allNodes, .claim k⟩] else t.wait } }
    (¬inRing ∨ n.sys.node < k.val ∨ (k.val = n.sys.node ∧ t.claiming = false) → Answers (.claim k) s c) ∧
    (inRing → k.val < n.sys.node → Answers (.claim k) s (puts k.val t.claiming)) ∧
    (inRing → k.val = n.sys.node → t.claiming = true → Gives (.claim k) s fun m =>
      m.tide.gen = gen ∧ m.tide.master = true ∧ m.tide.masterNode = n.sys.node ∧ m.tide.claiming = false ∧
        m.tide.regens = satInc 0xFF t.regens ∧ bit m.tide.flags 2 = true ∧
        m.tide.kept = some ⟨n.sys.node, false, false, gen, t.view, t.view ||| n.ownBit, n.now⟩ ∧ Keeps [.tide, .jrnl, .pair] n m) ∧
    (inRing → 2 ≤ t.silent → t.tokenSeen = false → Answers .tokenSilence s (puts n.sys.node true)) ∧
    (¬inRing ∨ t.silent < 2 ∨ t.tokenSeen = true → Answers .tokenSilence s c) ∧
    (n.ringOn = true → t.st = .listen → 3 ≤ t.silent → Gives .listenTimeout s fun m =>
      m.tide.st = .inserted ∧ m.tide.master = true ∧ m.tide.masterNode = n.sys.node ∧ m.tide.wrapA = true ∧ m.tide.wrapB = true ∧
        m.tide.gen = 1 ∧ m.tide.kept = some ⟨n.sys.node, false, false, 1, 0, n.ownBit, n.now⟩ ∧ Keeps [.tide, .jrnl, .pair] n m) ∧
    (n.ringOn = false ∨ t.st ≠ .listen ∨ t.silent < 3 → Answers .listenTimeout s n) ∧
    (ready → Answers .insertRequest s { n with tide := { t with
      st := .request
      insertReq := true } }) ∧
    (¬ready → Answers .insertRequest s n) ∧
    (n.sec.maint = false → Answers .leave s (turned 1) ∧ Answers .join s (turned 1)) ∧
    (n.sec.maint = true → t.st ≠ .inserted → Answers .leave s (turned 3)) ∧
    (n.sec.maint = true → t.st ≠ .heldOut → t.st ≠ .refused → Answers .join s (turned 3)) ∧
    (n.sec.maint = true → t.st = .inserted → Gives .leave s fun m =>
      m.tide.st = .heldOut ∧ m.tide.cmdResult = 0 ∧ m.tide.hold = none ∧ m.tide.kept = none ∧ m.tide.tx = [] ∧ m.tide.wrapA = false ∧
        m.tide.wrapB = false ∧ m.rtc.reference = false ∧ m.rtc.tracked = false ∧ m.pair.role ≠ 4) ∧
    (n.sec.maint = true → t.st ∈ [.heldOut, .refused] → Answers .join s { n with tide := { t with
      cmdResult := 0
      st := .listen
      listenRot := 0
      silent := 0
      lastToken := none
      genSeen := false } })

/-- 14 R440, 15 R461, R468: of one sender, a frame held already is discarded, the next frame is passed on, a frame behind a missing one is
held, and the missing one, or the DROP that names it, passes both on in order. -/
def Obligations.FramesInOrder : Prop :=
  ∀ (s : State) (src : Fin 16) (f q : BitVec 16) (h : Nat) (recs behind : List Record) (load : CommandLoad),
    let n := s.node
    let p := n.peer src.val
    let heard := n.ringHears = true ∧ src.val ≠ n.sys.node ∧ twf {} n.tide.peers = true ∧ h < 65536
    let clean := p.missing = [] ∧ p.held = []
    let known := p.high = some h ∧ ((f.toNat + 65536 - h) % 65536 = 0 ∨ 32768 ≤ (f.toNat + 65536 - h) % 65536) ∧ f.toNat ∉ p.missing
    let nextOne := heard ∧ p.high = some h ∧ f.toNat = (h + 1) % 65536
    let waits := p.high = some h ∧ p.missing = [q.toNat] ∧ p.held = [(h, .records behind)] ∧ h = (q.toNat + 1) % 65536
    let at' (high : Nat) : Node := n.setPeer src.val { p with
      high := some high
      missing := []
      held := [] }
    (n.ringHears = false ∨ src.val = n.sys.node ∨ known → Answers (.records src f recs) s n ∧ Answers (.command src f load) s n ∧
      Answers (.drop src f q) s n ∧ (∀ x y, Answers (.splice src f x y) s n) ∧ (∀ rp t x y, Answers (.time src f rp t x y) s n)) ∧
    (nextOne → clean → Answers (.records src f recs) s ((at' f.toNat).hearRecords recs) ∧
      Answers (.command src f load) s ((at' f.toNat).hearCommand src.val load)) ∧
    (heard → clean → p.high = some h → f.toNat = (h + 2) % 65536 → Answers (.records src f recs) s (n.setPeer src.val { p with
      high := some f.toNat
      missing := [(h + 1) % 65536]
      held := [(f.toNat, .records recs)] })) ∧
    (heard → waits → Answers (.records src q recs) s (((at' h).hearRecords recs).hearRecords behind)) ∧
    (nextOne → waits → Answers (.drop src f q) s ((at' f.toNat).hearRecords behind)) ∧
    (n.tide.st = .inserted ∨ f.toNat ∉ p.missing → Answers (.fseqMissingTimeout src f) s n) ∧
    (heard → n.tide.st ≠ .inserted → waits → Answers (.fseqMissingTimeout src q) s ((at' h).hearRecords behind)) ∧
    (∀ r, nextOne → clean → n.paired = true → n.pair.role ≠ 4 → r.space = n.space → n.recordVoid r = false →
      Gives (.records src f [r]) s fun m =>
        (∃ x, m.jrnl.ram.getLast? = some x ∧ x.item = r ∧ (n.jrnl.writeThrough = false → x.flashed = false)) ∧
        m.jrnl.last = max n.jrnl.last r.seq ∧ m.fab = n.fab ∧ m.call = n.call) ∧
    (∀ lanes b, nextOne → clean → n.tide.st = .inserted → Answers (.command src f (.laneSync lanes b)) s
      { at' f.toNat with lane := { n.lane with
          syncPend := addSync n.lane.syncPend ⟨lanes, true, b⟩
          syncTime := b } })

/-- 15 R464 to R466, R469, R477: STATUS is kept for its sender; TIME of the reference judges the offset; SPLICE unwraps the port that
faces the joining node. 15 R460: a frame that returns with every COPIED bit is done; one without goes again with the same FSEQ, and after
RETRY 3 it is lost and a DROP names it. -/
def Obligations.ReportsAndReturns : Prop :=
  (∀ (s : State) (src : Fin 16) (f : BitVec 16) (h : Nat),
    let n := s.node
    let p := n.peer src.val
    let nextOne := n.ringHears = true ∧ src.val ≠ n.sys.node ∧ twf {} n.tide.peers = true ∧ h < 65536 ∧ p.high = some h ∧
      f.toNat = (h + 1) % 65536 ∧ p.missing = [] ∧ p.held = []
    let now := n.setPeer src.val { p with high := some f.toNat }
    (∀ x, nextOne → Gives (.status src f x) s fun m =>
      (m.peer src.val).status = some x ∧ (m.peer src.val).high = some f.toNat ∧ m.tide.st = n.tide.st ∧ m.tide.view = n.tide.view) ∧
    (∀ x, src.val = n.sys.node → n.ringOn = true → n.tide.st ∈ [.listen, .request] → Gives (.status src f x) s fun m =>
      m.tide.st = .refused ∧ bit m.tide.flags 5 = true ∧ Keeps [.tide, .jrnl, .pair] n m) ∧
    (∀ x, src.val = n.sys.node → n.ringOn = false ∨ n.tide.st ∉ [.listen, .request] → Answers (.status src f x) s n) ∧
    (∀ rp x a b, nextOne → src.val ≠ n.tide.refNode ∨ n.rtc.reference = true → Answers (.time src f rp x a b) s now) ∧
    (∀ rp (x : TimeFrame) (a b : Nat), nextOne → src.val = n.tide.refNode → n.rtc.reference = false →
      let ns : Int := ((x.tx : Int) - a) * 1000 + x.txNs - b + x.corr + (n.link rp).delay * 10
      let d : Int := (ns + 500) / 1000
      Gives (.time src f rp x a b) s fun m =>
        m.tide.noTime = 0 ∧ m.rtc.offset = d ∧ m.rtc.tracked = true ∧ m.rtc.now = n.rtc.now ∧
          (x.leapCnt ≠ n.rtc.leap → m.rtc.leapPend = some x.leapCnt) ∧
          (n.rtc.stepPend = none → x.stepPending = true → 0 < x.step → ∃ at', m.rtc.stepPend = some (x.step, at')) ∧
          (n.rtc.stepPend = none → x.stepPending = false → -10 ≤ d → d ≤ 10 → m.rtc.slewing = 0 ∧ m.rtc.slewRem = 0) ∧
          (n.rtc.stepPend = none → x.stepPending = false → 10 < d → d ≤ 1000 → m.rtc.slewing = 1 ∧ m.rtc.slewRem = d) ∧
          (n.tide.st = .request → 10 < d → m.tide.st = .listen) ∧ Keeps [.tide, .rtc, .jrnl, .pair, .free] n m) ∧
    (∀ x y : BitVec 8, nextOne → n.tide.st ≠ .inserted → Answers (.splice src f x y) s
      { now with tide := { now.tide with spliceFor := some y.toNat } }) ∧
    (∀ x y : BitVec 8, nextOne → n.tide.st = .inserted → n.tide.wrapA = true → n.tide.ta.up = true →
      n.tide.ta.neighbour = (if y = 0xFF then x.toNat else y.toNat) → Gives (.splice src f x y) s fun m =>
        m.tide.wrapA = false ∧ m.tide.wrapB = n.tide.wrapB ∧ m.tide.spliceFor = some y.toNat ∧ Keeps [.tide, .jrnl, .pair] n m)) ∧
  (∀ (s : State) (f copied : BitVec 16),
    let n := s.node
    let c := n.clearLine
    let left := n.tide.sent.filter (·.fseq != f.toNat)
    (n.tide.sent.find? (·.fseq == f.toNat) = none → Answers (.frameReturn f copied) s c) ∧
    (∀ x, n.tide.sent.find? (·.fseq == f.toNat) = some x →
      (n.required x &&& ~~~copied = 0 → Answers (.frameReturn f copied) s { c with tide := { c.tide with sent := left } }) ∧
      (n.required x &&& ~~~copied ≠ 0 → x.retry < 3 → n.tide.hold = none → Gives (.frameReturn f copied) s fun m =>
        m.tide.retx = satInc 0xFFFF n.tide.retx ∧ m.tide.sent = left ∧ (∃ y, m.tide.tx = y :: n.tide.tx ∧ y.fseq = x.fseq ∧
          y.retry = x.retry + 1 ∧ y.dst = x.dst ∧ ((∀ t, x.load ≠ .time t) → y.load = x.load)) ∧ Keeps [.tide] n m) ∧
      (n.required x &&& ~~~copied ≠ 0 → 3 ≤ x.retry → n.tide.hold = none → Gives (.frameReturn f copied) s fun m =>
        m.tide.lost = satInc 0xFFFF n.tide.lost ∧ bit m.tide.flags 3 = true ∧ m.tide.sent = left ∧
          m.tide.tx.getLast? = some ⟨0, 0, allNodes, .drop x.fseq⟩ ∧
          (∀ l, x.load = .records l → n.issuer = true → n.jrnl.gaps = [] → l.length = 1 →
            m.jrnl.gaps = l.map fun r => ⟨3, r.seq, 1⟩) ∧ Keeps [.tide, .jrnl, .pair] n m)))

/-- 16 R492, R493: what a partner makes of the frames of a copy, in order: DATA goes to the inactive buffer; a COMMIT makes it the
committed state in one step and makes the member STANDBY, but for Hold-up (16 Table 16.5), or discards it and keeps the committed state; each answers with its code. 16
R492, R493, R509: the ACK of a copy at the duty: 0 ends it and marks what the partner holds, another code or the next boundary abandons
and counts it, and a confirmation of the activation's hash is kept. -/
def Obligations.EpochCopies : Prop :=
  (∀ (s : State) (src : Fin 16) (f : BitVec 16) (h : Nat) (final handover : Bool) (tag idx count last fo : Nat) (bytes : List Byte)
    (crc hashTag : BitVec 32),
    let n := s.node
    let p := n.peer src.val
    let nextOne := n.ringHears = true ∧ src.val ≠ n.sys.node ∧ twf {} n.tide.peers = true ∧ h < 65536 ∧ p.high = some h ∧
      f.toNat = (h + 1) % 65536 ∧ p.missing = [] ∧ p.held = []
    let now := n.setPeer src.val { p with high := some f.toNat }
    let data : Instr := .epochData src f final handover tag idx count bytes
    let commit : Instr := .epochCommit src f final handover tag count crc hashTag last fo
    let open' := n.pair.query = none ∧ n.pair.takeDue = none
    let inTime := final = true ∨ n.fullTick tag * 50000 / 1000000 = n.now / 1000000
    let replies (code : Nat) (m : Node) := ∃ x, m.tide.tx = n.tide.tx ++ [⟨0, 0, 1#16 <<< src.val, .epochAck code tag x⟩]
    let discards (code : Nat) := Gives commit s fun m => replies code m ∧ m.pair.chunks = [] ∧ m.pair.chunkTag = none ∧
      m.pair.commit = n.pair.commit ∧ m.pair.role = n.pair.role ∧ Keeps [.tide, .pair, .sec] n m
    (nextOne → n.partner ≠ some src.val ∨ n.tide.st ≠ .inserted → Answers data s now ∧ Answers commit s now) ∧
    (nextOne → n.partner = some src.val → n.tide.st = .inserted →
      (n.pair.role ∈ [2, 3] → n.pair.query = none → Answers data s { now with pair := { n.pair with
        chunkTag := some tag
        chunks := (if n.pair.chunkTag = some tag then n.pair.chunks.filter (·.1 != idx) else []) ++ [(idx, bytes)] } }) ∧
      (n.pair.role ∉ [2, 3] ∨ n.pair.query ≠ none → Answers data s now) ∧
      (n.pair.role ∉ [2, 3, 6] ∨ ¬open' → Answers commit s now) ∧
      (n.pair.role = 6 → open' → Gives commit s fun m => replies 3 m ∧ m.pair = n.pair ∧ Keeps [.tide, .sec] n m) ∧
      (n.pair.role ∈ [2, 3] → open' →
        (¬inTime → discards 4) ∧
        (inTime →
          (n.wholeBuffer tag count = none → discards 2) ∧
          (∀ l, n.wholeBuffer tag count = some l →
            (crc.toNat ≠ crc32 l → discards 1) ∧
            (crc.toNat = crc32 l → hashTag.toNat ≠ n.hashTag → discards 3) ∧
            (crc.toNat = crc32 l → hashTag.toNat = n.hashTag → Gives commit s fun m =>
              replies 0 m ∧ m.pair.role = (if n.pwr.mode = .holdup then n.pair.role else 3) ∧ m.pair.commit = some ⟨tag, last, l⟩ ∧ m.pair.tag = tag ∧ m.pair.last = last ∧
                m.pair.finalHeld = final ∧ m.pair.chunks = [] ∧ m.call.duty = rd l 10 1 ∧
                Keeps [.tide, .pair, .sec, .fab, .call, .solv, .stor, .jrnl, .rtc] n m)))))) ∧
  (∀ (s : State) (src : Fin 16) (f : BitVec 16) (h result tag : Nat) (confirm : BitVec 32),
    let n := s.node
    let p := n.peer src.val
    let nextOne := n.ringHears = true ∧ src.val ≠ n.sys.node ∧ twf {} n.tide.peers = true ∧ h < 65536 ∧ p.high = some h ∧
      f.toNat = (h + 1) % 65536 ∧ p.missing = [] ∧ p.held = [] ∧ n.partner = some src.val ∧ n.tide.st = .inserted
    let now := n.setPeer src.val { p with high := some f.toNat }
    let ack : Instr := .epochAck src f result tag confirm
    let dropped (m : Node) := m.pair.copy = none ∧ m.pair.missed = satInc 0xFF n.pair.missed ∧ bit m.pair.flags 2 = true ∧
      (∀ x ∈ m.tide.tx, Node.isCopyFrame x.load = false) ∧ m.pair.role = n.pair.role ∧ Keeps [.tide, .pair, .pwr] n m
    (nextOne → n.pair.copy = none → confirm = 0 → Answers ack s now) ∧
    (∀ c, nextOne → n.pair.copy = some c → c.tag ≠ tag → confirm = 0 → Answers ack s now) ∧
    (∀ c, nextOne → n.pair.copy = some c → c.tag = tag → confirm = 0 → n.pair.finalDue = false →
      (result = 0 → Answers ack s { now with
        pair := { n.pair with
          copy := none
          tag := tag
          last := c.last
          demoteDue := if c.handover then 4 else n.pair.demoteDue }
        pwr := { n.pwr with step := if n.pwr.step = 3 then 0 else n.pwr.step } }) ∧
      (result ≠ 0 → Gives ack s dropped)) ∧
    (∀ a, nextOne → n.sec.act = some a → confirm ≠ 0 → confirm.toNat = (n.bankOf a.bank).hash.toNat % 2 ^ 32 → n.pair.copy = none →
      Answers ack s { now with sec := { n.sec with act := some { a with confirmed := true } } }) ∧
    (n.pair.copy = none → Answers .copyMissed s n) ∧
    (n.pair.copy ≠ none → n.pair.finalDue = false → Gives .copyMissed s dropped))

/-- 16 R487, R495: HIGH_QUERY is answered with the highest number heard in its space; the replies of every node in VIEW, or the end of the
wait, settle the number that the takeover starts from. -/
def Obligations.HighNumberQuery : Prop :=
  ∀ (s : State) (src space : Fin 16) (f : BitVec 16) (h high : Nat),
    let n := s.node
    let p := n.peer src.val
    let nextOne := n.ringHears = true ∧ src.val ≠ n.sys.node ∧ twf {} n.tide.peers = true ∧ h < 65536 ∧ p.high = some h ∧
      f.toNat = (h + 1) % 65536 ∧ p.missing = [] ∧ p.held = []
    let now := n.setPeer src.val { p with high := some f.toNat }
    let reply : Instr := .highReply src f space high
    let with' (q : Query) : List (Nat × Nat) := (q.replies.filter (·.1 != src.val)) ++ [(src.val, high)]
    let all (q : Query) : Prop := ∀ k, k < 16 → bit n.tide.view k = true → k ≠ n.sys.node → ∃ r ∈ with' q, r.1 = k
    let settles (rs : List (Nat × Nat)) (cause : Nat) (m : Node) := m.pair.query = none ∧ (∃ x, m.pair.takeDue = some (x, cause) ∧
      n.jrnl.last ≤ x ∧ tget 0 n.jrnl.heard n.space ≤ x ∧ (∀ r ∈ rs, r.2 ≤ x) ∧
      (x = n.jrnl.last ∨ x = tget 0 n.jrnl.heard n.space ∨ ∃ r ∈ rs, r.2 = x)) ∧ Keeps [.tide, .pair] n m
    (nextOne → n.tide.st = .inserted → Answers (.highQuery src f space) s { now with tide := { now.tide with
      tx := n.tide.tx ++ [⟨0, 0, 1#16 <<< src.val, .highReply space.val (tget 0 n.jrnl.heard space.val)⟩] } }) ∧
    (nextOne → n.tide.st ≠ .inserted → Answers (.highQuery src f space) s now) ∧
    (nextOne → n.pair.query = none ∨ space.val ≠ n.space → Answers reply s now) ∧
    (∀ q, nextOne → n.pair.query = some q → space.val = n.space → ¬all q → Answers reply s { now with pair := { n.pair with
      query := some { q with replies := with' q } } }) ∧
    (∀ q, nextOne → n.pair.query = some q → space.val = n.space → all q → Gives reply s (settles (with' q) q.cause)) ∧
    (n.pair.query = none → Answers .queryWaitEnd s n) ∧
    (∀ q, n.pair.query = some q → Gives .queryWaitEnd s (settles q.replies q.cause))

/-- 16 R496, R497, R504, R505, R509: duty is taken at a tick that is not an epoch boundary, with FAILOVER as its first record on a
failover; it is given up with DEMOTE as the tick's one record; and SWITCHOVER waits for the next boundary or is refused. -/
def Obligations.DutyTakenAndGivenUp : Prop :=
  (∀ (n : Node) (high cause tick : Nat), cause ≠ 0 →
    let m := n.takeDuty high cause tick
    m.pair.fo = high + 1 ∧ ∃ r, (m.jrnl.tickRecs.drop n.jrnl.tickRecs.length).head? = some r ∧ r.type = 0x40 ∧ r.seq = high + 1 ∧
      r.old = cause) ∧
  ∀ s : State,
    let n := s.node
    let t := n.nextMultiple 50000
    let runs := n.timed = true ∧ n.coreHeld = false ∧ n.pwr.parked = false ∧ n.img.isSome = true ∧ n.pwr.phase = .done
    let refused (code : Nat) : Node := { n with pair := { n.pair with
      cmdResult := code
      flags := setBit n.pair.flags 4 } }
    let busy := n.pair.handover = true ∨ n.pair.copy.any (·.handover) = true ∨ n.pair.demoteDue = 4
    let gone (role : Nat) (m : Node) := m.pair.role = role ∧ m.pair.demotes = satInc 0xFF n.pair.demotes ∧ bit m.pair.flags 1 = true ∧
      m.fab.queue = [] ∧ m.fab.role = 2 ∧ m.pair.demoteDue = 0
    let last (cause : Nat) (m : Node) := m.jrnl.nextSeq = n.jrnl.nextSeq + 1 ∧
      ∃ x, m.jrnl.ram.getLast? = some x ∧ x.item.type = 0x41 ∧ x.item.seq = n.jrnl.nextSeq ∧ x.item.old = cause
    (n.pair.takeDue = none ∨ t % 1000000 = 0 ∨ (n.pwr.mode = .holdup ∧ n.pair.role ≠ 4) → Answers .takeDuty s n) ∧
    (∀ high cause, runs → n.pair.takeDue = some (high, cause) → t % 1000000 ≠ 0 → n.pair.role ≠ 4 → n.pwr.mode ≠ .holdup →
      Gives .takeDuty s fun m =>
      m.pair.role = 4 ∧ m.pair.takeDue = none ∧ m.pair.takeovers = satInc 0xFF n.pair.takeovers ∧ bit m.pair.flags 0 = true ∧
        m.rtc.lastTick = some t ∧ high < m.jrnl.nextSeq ∧ (cause ≠ 0 → m.pair.fo = high + 1)) ∧
    (n.pair.role ≠ 4 → Answers .demote s n) ∧
    (n.pair.role = 4 → n.tide.st ≠ .inserted → Gives .demote s fun m => gone 5 m ∧
      (n.coreHeld = true ∨ n.clk.core.clamp = true → m.jrnl.nextSeq = n.jrnl.nextSeq) ∧
      (n.coreHeld = false → n.clk.core.clamp = false → last 1 m)) ∧
    (∀ cause, runs → n.clk.core.clamp = false → n.pair.role = 4 → n.tide.st = .inserted →
      (20 ≤ n.pair.noMaj ∧ cause = 2) ∨ (n.pair.noMaj < 20 ∧ n.partnerRole ≠ some 4 ∧ n.pair.demoteDue = 4 ∧ cause = 4) →
      Gives .demote s fun m => gone (if cause = 4 then 2 else 5) m ∧ last cause m) ∧
    (n.sec.maint = false → Answers .switchover s (refused 1)) ∧
    (n.sec.maint = true → n.pair.role ≠ 4 → Answers .switchover s (refused 2)) ∧
    (n.sec.maint = true → n.pair.role = 4 → n.partnerRole ≠ some 3 → Answers .switchover s (refused 3)) ∧
    (n.sec.maint = true → n.pair.role = 4 → n.partnerRole = some 3 → busy → Answers .switchover s (refused 5)) ∧
    (n.sec.maint = true → n.pair.role = 4 → n.partnerRole = some 3 → ¬busy → Answers .switchover s { n with pair := { n.pair with
      cmdResult := 0
      handover := true } })

/-- 17 R527, R528, R533, Table 17.5: an acknowledgement from a port that takes them queues the alert's own command, at most 16 in a tick;
one for no alert is counted REJECTED; ACN's other commands query or are refused with ARC. -/
def Obligations.NetworkAcknowledgements : Prop :=
  ∀ (s : State) (port : Fin 6) (num ident inst occ cmd : Nat),
    let n := s.node
    let c := n.clearLines
    let p := port.val
    let x := { n.portSt p with line := [] }
    let one (k : Nat) (v : PortSt) (m : Node) := m.portSt k = v ∧ (∀ i, i ≠ k → i < 6 → m.portSt i = { n.portSt i with line := [] }) ∧
      m.ext.alerts = n.ext.alerts
    let rejects (m : Node) := one p { x with rejected := satInc 0xFFFF x.rejected } m ∧ m.ext.flags = setBit n.ext.flags 3 ∧
      Keeps [.ext] n m
    let takes (k : Nat) (a : AlertCfg) (m : Node) :=
      let y := { n.portSt k with line := [] }
      (m.portSt k).accepted = satInc 0xFFFF y.accepted ∧ (m.portSt k).cmds = y.cmds + 1 ∧ (m.portSt k).rejected = y.rejected ∧
        (n.dest (some a.owner) = .unreachable → m.fab = n.fab ∧ m.tide = n.tide) ∧
        (n.dest (some a.owner) = .own → ∃ q, m.fab.queue = n.fab.queue ++ [q] ∧ q.path = 2 ∧
          (match a.item with | .point i => q.op = 1 ∧ q.target = i | .ladder i => q.op = 0x11 ∧ q.target = i)) ∧
        Keeps [.ext, .fab, .tide] n m
    twf {} n.ext.ports = true →
      (c.takesAck p = false ∨ c.byAlr p num = none → Gives (.ackSentence port num) s rejects) ∧
      (∀ i a, c.takesAck p = true → c.byAlr p num = some (i, a) →
        (16 ≤ x.cmds → Gives (.ackSentence port num) s rejects) ∧ (x.cmds < 16 → Gives (.ackSentence port num) s (takes p a))) ∧
      (∀ l : Fin 4, c.takesAcn p = false ∨ c.byIdent p ident inst = none → Gives (.acnSentence port ident inst l) s rejects) ∧
      (∀ i a, c.takesAcn p = true → c.byIdent p ident inst = some (i, a) →
        (n.dest (some a.owner) = .own → n.queueFull = false → x.cmds < 16 → Gives (.acnSentence port ident inst 0) s (takes p a)) ∧
        (16 ≤ x.cmds → Gives (.acnSentence port ident inst 0) s rejects) ∧
        (∀ l : Fin 4, l ≠ 0 → n.speaks p = false → Gives (.acnSentence port ident inst l) s fun m =>
          one p { x with accepted := satInc 0xFFFF x.accepted } m ∧ Keeps [.ext] n m) ∧
        (∀ l : Fin 4, 2 ≤ l.val → n.speaks p = true → (n.port p).any (·.serial) = false →
          let arc := n.say p (.arc ident inst l.val)
          let here (i : Nat) : PortSt := { n.portSt i with
            line := []
            accepted := if i = p then satInc 0xFFFF (n.portSt i).accepted else (n.portSt i).accepted }
          Gives (.acnSentence port ident inst l) s fun m =>
            (∀ i, i < 6 → m.portSt i = if (n.twins p).contains i && n.sends i then (if n.txIdle then { here i with
              queue := (n.portSt i).queue ++ [⟨.state, noAlert, arc⟩] } else { here i with
              sent := ((n.portSt i).sent + 1) % 2 ^ 32
              line := [arc] }) else here i) ∧ m.ext.alerts = n.ext.alerts ∧ Keeps [.ext] n m)) ∧
      (∀ sfi l, (c.hears p && (n.port p).any fun k => k.service 0 && k.sfis.contains sfi) = false →
        Gives (.udpbcDatagram port sfi l) s fun m =>
          (m.portSt p).rejected = l.foldl (fun r _ => satInc 0xFFFF r) x.rejected ∧ (m.portSt p).cmds = x.cmds ∧ Keeps [.ext] n m) ∧
      (∀ sfi, (c.hears p && (n.port p).any fun k => k.service 0 && k.sfis.contains sfi) = true →
        Answers (.udpbcDatagram port sfi []) s c ∧ Gives (.udpbcDatagram port sfi [.other]) s rejects ∧
        exec (.udpbcDatagram port sfi [.ack num]) s = exec (.ackSentence port num) s ∧
        (∀ l : Fin 4, exec (.udpbcDatagram port sfi [.acn ident inst l.val]) s = exec (.acnSentence port ident inst l) s)) ∧
      (cmd ≠ 0 → Answers (.alertResponse ident occ cmd) s c) ∧
      (∀ e, c.hears 3 = true → (n.port 3).any (fun k => k.kind == 4 && k.ackAccept) = true →
        (c.portAlerts 3).find? (fun e => e.2.n2kIdent == ident && e.2.n2kOcc == occ) = some e → (n.portSt 3).cmds < 16 →
        Gives (.alertResponse ident occ 0) s (takes 3 e.2))

/-- 17 R525, R526, Table 17.4: the repeats go to every alert not Normal and the cyclic list names them four to a sentence; a serial port
sends one sentence at a time and the classes wait in their order, 64 at most. 04 R144, R154: with CORE's clock held no sentence ends, and
while the transmitters hold idle what is sent waits. -/
def Obligations.SentenceRepeats : Prop :=
  ∀ (s : State) (port : Fin 6),
    let n := s.node
    let c := n.clearLines
    let p := port.val
    let x := { n.portSt p with line := [] }
    let shown := (n.portAlerts p).filter fun e => (n.alertSt e.1).shown
    let legacy := shown.filter fun e => e.2.alrNum.isSome
    let still (m : Node) := m.ext.alerts = n.ext.alerts ∧ Keeps [.ext] n m
    let room (m : Node) := x.queue.length ≤ 64 → (m.portSt p).queue.length ≤ 64
    let out (k : Nat) (m : Node) := if n.txIdle then (m.portSt p).line = [] ∧ (m.portSt p).queue.length = x.queue.length + k ∧
      (m.portSt p).sent = x.sent else (m.portSt p).line.length = k ∧ (m.portSt p).queue = x.queue ∧
      (m.portSt p).sent = (x.sent + k) % 2 ^ 32
    twf {} n.ext.ports = true →
      (n.speaks p = false ∨ n.port p = none ∨ n.alertPort p ≠ p →
        Answers (.alfRepeat port) s c ∧ Answers (.alrRepeat port) s c ∧ Answers (.alcCycle port) s c) ∧
      (∀ k, n.port p = some k → k.num = p → n.sends p = true → n.alertPort p = p →
        (k.alf = false → Answers (.alfRepeat port) s c ∧ Answers (.alcCycle port) s c) ∧
        (k.legacy = false → Answers (.alrRepeat port) s c) ∧
        (k.kind = 5 → k.sentences = true → k.alf = true →
          x.sent < 2 ^ 32 → Gives (.alfRepeat port) s (fun m => out shown.length m ∧ still m) ∧
          Gives (.alcCycle port) s (fun m => out (max 1 ((shown.length + 3) / 4)) m ∧ still m)) ∧
        (k.kind = 5 → k.sentences = true → k.legacy = true → x.sent < 2 ^ 32 →
          Gives (.alrRepeat port) s fun m => out legacy.length m ∧ still m) ∧
        (k.serial = true → k.alf = true → Gives (.alfRepeat port) s (fun m => room m ∧ still m) ∧
          Gives (.alcCycle port) s (fun m => room m ∧ still m)) ∧
        (k.serial = true → k.legacy = true → Gives (.alrRepeat port) s fun m => room m ∧ still m)) ∧
      (x.cur = none ∨ n.coreHeld = true → Answers (.sentenceSent port) s c) ∧
      (x.cur.isSome = true → n.coreHeld = false → x.refresh = false → Gives (.sentenceSent port) s fun m =>
        still m ∧ (nextSentence x.queue = none ∨ n.txIdle = true → m.portSt p = { x with
          cur := none
          sent := (x.sent + 1) % 2 ^ 32 }) ∧
        (∀ q, nextSentence x.queue = some q → n.txIdle = false → m.portSt p = { x with
          cur := some q
          queue := x.queue.erase q
          sent := (x.sent + 1) % 2 ^ 32
          line := [q.msg] }))

/-- 17 R529 to R532: the CAN port holds its address against a higher NAME and yields it to a lower one; it answers ISO Requests, and sends
its heartbeat, alert repeats and engine groups while it has an address; an Ethernet port answers ARP and ICMP echo. 04 R154: while the
transmitters hold idle a message waits. -/
def Obligations.CanAndNetworkLayer : Prop :=
  ∀ (s : State) (port : Fin 6) (addr : BitVec 8) (name : BitVec 64) (pgn : Nat) (arp : Bool),
    let n := s.node
    let c := n.clearLines
    let x := { n.portSt 3 with line := [] }
    let onCan (v : PortSt) (m : Node) := m.portSt 3 = v ∧ (∀ i, i ≠ 3 → i < 6 → m.portSt i = { n.portSt i with line := [] }) ∧
      m.ext.alerts = n.ext.alerts ∧ m.ext.flags = n.ext.flags ∧ Keeps [.ext] n m
    let waiting (v : PortSt) (k : QKind) (l : List NetMsg) : PortSt := { v with queue := v.queue ++ l.map fun m => ⟨k, noAlert, m⟩ }
    let answered (v : PortSt) (l : NetMsg) : PortSt := if n.txIdle then waiting v .answer [l] else { v with line := [l] }
    let answers (l : NetMsg) (m : Node) := onCan (answered x l) m
    let sends (l : NetMsg) (m : Node) := onCan (if n.txIdle then waiting x .state [l] else { x with
      line := [l]
      sent := (x.sent + 1) % 2 ^ 32 }) m ∧ m.ext.n2kAddr = n.ext.n2kAddr
    let out (l : List NetMsg) (m : Node) := if n.txIdle then m.portSt 3 = waiting x .state l else
      (m.portSt 3).line = l ∧ (m.portSt 3).queue = x.queue
    let shown := (n.portAlerts 3).filter fun e => (n.alertSt e.1).shown
    let contested := c.hears 3 = true ∧ n.ext.claimed = true ∧ n.ext.n2kAddr = addr.toNat
    let engine (p : Nat) : NetMsg := .n2kEngine p ((n.port 3).elim 0 (·.engineInst)) ((c.engineFields.filter (·.pgn == p)).map c.engineValue)
    twf {} n.ext.ports = true →
      (n.port 3 = none ∨ ¬contested → Answers (.addressClaim addr name) s c) ∧
      (∀ k, n.port 3 = some k → k.kind = 4 → contested →
        (k.name.toNat < name.toNat → Gives (.addressClaim addr name) s fun m => answers (.n2kClaim addr.toNat) m ∧
          m.ext.n2kAddr = addr.toNat ∧ m.ext.claimed = true ∧ m.ext.tried = n.ext.tried) ∧
        (name.toNat ≤ k.name.toNat → n.ext.tried < 252 → Gives (.addressClaim addr name) s fun m =>
          answers (.n2kClaim ((addr.toNat + 1) % 252)) m ∧ m.ext.n2kAddr = (addr.toNat + 1) % 252 ∧ m.ext.claimed = true ∧
            m.ext.tried = n.ext.tried + 1) ∧
        (name.toNat ≤ k.name.toNat → 252 ≤ n.ext.tried → Gives (.addressClaim addr name) s fun m =>
          answers (.n2kClaim 0xFE) m ∧ m.ext.n2kAddr = 0xFE ∧ m.ext.claimed = false)) ∧
      (c.hears 3 = false ∨ (n.port 3).any (·.kind == 4) = false → Answers (.isoRequest pgn) s c) ∧
      (c.hears 3 = true → (n.port 3).any (·.kind == 4) = true →
        (n.ext.claimed = true ∨ n.ext.tried = 0 → Gives (.isoRequest 60928) s (answers (.n2kClaim n.ext.n2kAddr))) ∧
        (n.ext.claimed = false → n.ext.tried ≠ 0 → Answers (.isoRequest pgn) s c) ∧
        (n.ext.claimed = true → Gives (.isoRequest 126996) s (sends .n2kProduct) ∧
          Gives (.isoRequest 126985) s
            (out ((n.portAlerts 3).map fun e => .n2kText e.2.n2kIdent e.2.n2kOcc e.2.text))) ∧
        (pgn ≠ 60928 → n.ext.claimed = false → Answers (.isoRequest pgn) s c) ∧
        (pgn ∉ [60928, 126996, 126985] → Answers (.isoRequest pgn) s c)) ∧
      (c.canSends = false → Answers .heartbeat s c ∧ Answers .alertRepeat s c ∧ Answers .engineRapidUpdate s c ∧
        Answers .engineDynamic s c) ∧
      (c.canSends = true → Gives .heartbeat s (sends .n2kHeartbeat) ∧ Gives .engineRapidUpdate s (sends (engine 127488)) ∧
        Gives .engineDynamic s (sends (engine 127489)) ∧ Gives .alertRepeat s fun m =>
          out (shown.map fun e => .n2kAlert 1 e.2.n2kIdent e.2.n2kOcc (n2kType (n.alertSt e.1).prio)
            (n2kState (n.alertSt e.1).state)) m ∧ m.ext.alerts = n.ext.alerts ∧ Keeps [.ext] n m) ∧
      ((c.hears port.val && (n.port port.val).any (·.ethernet)) = false → Answers (.arpIcmp port arp) s c) ∧
      ((c.hears port.val && (n.port port.val).any (·.ethernet)) = true → Gives (.arpIcmp port arp) s fun m =>
        m.portSt port.val = answered { n.portSt port.val with line := [] } (if arp then .arpReply else .icmpReply) ∧ Keeps [.ext] n m)

/-- 17 R535 to R538: a Modbus read answers the values of its addresses, or the exception of the first check that fails; a request for
another unit has no answer. At most four connections are open, and an idle one is closed. 17 R539 to R541, R543: a coil set to 1 queues
its command; a tunable is written whole or refused; function 6 is refused; function 23 writes and then reads. A broadcast has no answer.
04 R154: while the transmitters hold idle an answer waits. -/
def Obligations.Modbus : Prop :=
  (∀ (s : State) (port : Fin 6) (conn : Fin 4) (unit start cnt : Nat),
    let n := s.node
    let c := n.clearLines
    let p := port.val
    let x := { n.portSt p with line := [] }
    let one (v : PortSt) (flags : BitVec 7) (m : Node) := m.portSt p = v ∧ m.ext.flags = flags ∧
      (∀ i, i ≠ p → i < 6 → m.portSt i = { n.portSt i with line := [] }) ∧ Keeps [.ext] n m
    let sent (v : PortSt) (m : NetMsg) : PortSt := if n.txIdle then { v with queue := v.queue ++ [⟨.state, noAlert, m⟩] } else { v with
      line := [m]
      sent := (v.sent + 1) % 2 ^ 32 }
    let answered (v : PortSt) (m : NetMsg) : PortSt :=
      if n.txIdle then { v with queue := v.queue ++ [⟨.answer, noAlert, m⟩] } else { v with line := [m] }
    let reads (i : Instr) (fn : Nat) (sp : ModSpace) (most : Nat) :=
      let throws (code : Nat) := Gives i s (one (sent { x with rejected := satInc 0xFFFF x.rejected } (.modbusExc unit fn code))
        (setBit n.ext.flags 3))
      (c.modUnit p unit = false ∨ broadcast p unit = true → Answers i s c) ∧
      (c.modUnit p unit = true → broadcast p unit = false →
        (cnt = 0 ∨ most < cnt → throws 3) ∧
        (1 ≤ cnt → cnt ≤ most →
          (c.modReads sp start cnt = none → throws 2) ∧
          (∀ l, c.modReads sp start cnt = some l → l.length = cnt ∧
            Gives i s (one (sent { x with accepted := satInc 0xFFFF x.accepted } (.modbus unit fn l)) n.ext.flags))))
    let tcp := c.hears p && (n.port p).any fun k => k.service 1
    twf {} n.ext.ports = true →
      reads (.readCoils port unit start cnt) 1 .coil 2000 ∧ reads (.readDiscreteInputs port unit start cnt) 2 .discrete 2000 ∧
      reads (.readHoldingRegisters port unit start cnt) 3 .holding 125 ∧ reads (.readInputRegisters port unit start cnt) 4 .input 125 ∧
      (tcp = false → Answers (.tcpConnect port) s c) ∧
      (tcp = true → x.conns = 0xF → Gives (.tcpConnect port) s (one (answered x .tcpRefuse) n.ext.flags)) ∧
      (tcp = true → bit x.conns conn.val = false → (∀ i : Fin 4, i < conn → bit x.conns i.val = true) → Gives (.tcpConnect port) s
        (one (answered { x with conns := setBit x.conns conn.val } (.tcpAccept conn.val)) n.ext.flags)) ∧
      (bit x.conns conn.val = false → Answers (.tcpIdleClose port conn) s c) ∧
      (bit x.conns conn.val = true → Gives (.tcpIdleClose port conn) s
        (one (answered { x with conns := clrBit x.conns conn.val } (.tcpClose conn.val)) n.ext.flags))) ∧
  (∀ (s : State) (port : Fin 6) (unit a rstart rn : Nat) (v : BitVec 16) (vs : List (BitVec 16)) (bs : List Bool),
    let n := s.node
    let c := n.clearLines
    let p := port.val
    let x := { n.portSt p with line := [] }
    let reply (m : NetMsg) : PortSt := if broadcast p unit then x else
      if n.txIdle then { x with queue := x.queue ++ [⟨.state, noAlert, m⟩] } else { x with
        line := [m]
        sent := (x.sent + 1) % 2 ^ 32 }
    let throws (i : Instr) (fn code : Nat) := Gives i s fun m => m.portSt p = { reply (.modbusExc unit fn code) with
      rejected := satInc 0xFFFF x.rejected } ∧ m.ext.flags = setBit n.ext.flags 3 ∧ Keeps [.ext] n m
    let done (i : Instr) (fn : Nat) (d : List Nat) (l : List Part) (q : Node → Prop) := Gives i s fun m =>
      m.portSt p = { reply (.modbus unit fn d) with accepted := satInc 0xFFFF x.accepted } ∧ m.ext.flags = n.ext.flags ∧
        Keeps (.ext :: l) n m ∧ q m
    let foreign := c.modUnit p unit = false
    twf {} n.ext.ports = true →
      (foreign → Answers (.writeSingleCoil port unit a true) s c ∧ Answers (.writeSingleCoil port unit a false) s c ∧
        Answers (.writeSingleRegister port unit a v) s c ∧ Answers (.writeMultipleCoils port unit a bs) s c ∧
        Answers (.writeMultipleRegisters port unit a vs) s c ∧ Answers (.readWriteRegisters port unit rstart rn a vs) s c) ∧
      (broadcast p unit = true → Answers (.readWriteRegisters port unit rstart rn a vs) s c) ∧
      (¬foreign →
        throws (.writeSingleRegister port unit a v) 6 (if (n.modAt .holding a).isSome then 1 else 2) ∧
        (∀ b, n.modAt .coil a = none → throws (.writeSingleCoil port unit a b) 5 2) ∧
        ((n.modAt .coil a).isSome = true → done (.writeSingleCoil port unit a false) 5 [a, 0] [] fun _ => True) ∧
        (∀ e o k, n.modAt .coil a = some e → n.dest (some o) = .own → x.cmds < 16 →
          (e.1.item = .ackPoint o k → Gives (.writeSingleCoil port unit a true) s fun m =>
            (∃ q, m.fab.queue = n.fab.queue ++ [q] ∧ q.op = 1 ∧ q.target = k ∧ q.path = 2) ∧ (m.portSt p).cmds = x.cmds + 1 ∧
              (m.portSt p).accepted = satInc 0xFFFF x.accepted ∧ Keeps [.ext, .fab] n m) ∧
          (e.1.item = .ackGroup o k → Gives (.writeSingleCoil port unit a true) s fun m =>
            (∃ q, m.fab.queue = n.fab.queue ++ [q] ∧ q.op = 2 ∧ q.target = k ∧ q.path = 2) ∧ Keeps [.ext, .fab] n m) ∧
          (e.1.item = .callAck o k → Gives (.writeSingleCoil port unit a true) s fun m =>
            (∃ q, m.fab.queue = n.fab.queue ++ [q] ∧ q.op = 0x11 ∧ q.target = k ∧ q.path = 2) ∧ Keeps [.ext, .fab] n m)) ∧
        (bs = [] ∨ 1968 < bs.length → throws (.writeMultipleCoils port unit a bs) 15 3) ∧
        (∀ i, bs.length ≤ 1968 → i < bs.length → n.modAt .coil (a + i) = none → throws (.writeMultipleCoils port unit a bs) 15 2) ∧
        (bs ≠ [] → bs.length ≤ 1968 → (∀ i, i < bs.length → (n.modAt .coil (a + i)).isSome = true) → (∀ b ∈ bs, b = false) →
          done (.writeMultipleCoils port unit a bs) 15 [a, bs.length] [] fun _ => True) ∧
        (vs = [] ∨ 123 < vs.length → throws (.writeMultipleRegisters port unit a vs) 16 3) ∧
        (vs ≠ [] → vs.length ≤ 123 → Node.wholeTunables n vs.length a vs = none → throws (.writeMultipleRegisters port unit a vs) 16 2) ∧
        (∀ cell item w, vs.length ≤ 123 → Node.wholeTunables n vs.length a vs = some [(cell, item, w)] →
          (n.tuneException (cell, item, w) ≠ 0 →
            throws (.writeMultipleRegisters port unit a vs) 16 (n.tuneException (cell, item, w)) ∧
            (broadcast p unit = false →
              throws (.readWriteRegisters port unit rstart rn a vs) 23 (n.tuneException (cell, item, w)))) ∧
          (n.tuneException (cell, item, w) = 0 →
            done (.writeMultipleRegisters port unit a vs) 16 [a, vs.length] [.fab] (fun m =>
              m.fab = { n.fab with tunePend := putTune n.fab.tunePend ⟨cell, item, tuneRaw item w⟩ }) ∧
            (∀ l, broadcast p unit = false → 1 ≤ rn → rn ≤ 125 → n.modReads .holding rstart rn = some l →
              done (.readWriteRegisters port unit rstart rn a vs) 23 l [.fab] fun m =>
                m.fab = { n.fab with tunePend := putTune n.fab.tunePend ⟨cell, item, tuneRaw item w⟩ })))))

/-- 17 R516, R545, R546, R549, R550: a port that goes down or off bus drops its queue and records it, comes back under its role, and is
taken off and put back by DISABLE and ENABLE in maintenance mode; one replay runs at a time, and each datagram takes the next 40 records
held. 04 R129, R144, Table 4.9: an Ethernet link comes up only with ETHCLK; with CORE's clock held nothing is sent and no port returns. -/
def Obligations.PortsAndReplay : Prop :=
  ∀ (s : State) (port : Fin 6) (op : BitVec 3) (space : Fin 16) (first cnt t : Nat),
    let n := s.node
    let c := n.clearLines
    let p := port.val
    let x := { n.portSt p with line := [] }
    let works := x.state = 1 ∨ x.state = 4
    let q := op.toNat
    let turned (code : Nat) : Node := { c with ext := { c.ext with
      cmdResult := code
      flags := setBit n.ext.flags 6 } }
    let cut (state : Nat) (m : Node) := (m.portSt p).state = state ∧ (m.portSt p).queue = [] ∧ (m.portSt p).cur = none ∧
      (m.portSt p).sent = x.sent ∧ m.ext.alerts = n.ext.alerts ∧ Keeps [.ext, .rtc, .jrnl, .tide, .pair] n m
    let replays := n.sends p = true ∧ (n.port p).any (·.records) = true
    let sent (v : PortSt) (m : NetMsg) : PortSt := if n.txIdle then { v with queue := v.queue ++ [⟨.state, noAlert, m⟩] } else { v with
      line := [m]
      sent := (v.sent + 1) % 2 ^ 32 }
    let linkable (k : PortCfg) := k.ethernet = false ∨ n.ethClock = true
    let refuses (code : Nat) := Gives (.replayRequest port space first cnt) s fun m =>
      m.portSt p = sent { x with rejected := satInc 0xFFFF x.rejected } (.kvrn (n.kvHead true code space.val 0)) ∧ bit m.ext.flags 5 = true ∧
        m.ext.replay = n.ext.replay ∧ Keeps [.ext] n m
    twf {} n.ext.ports = true →
      (n.port p = none → Answers (.portStateChange port .down t) s (c.setNow t) ∧
        Answers (.portStateChange port .up t) s (c.setNow t) ∧ Answers (.portStateChange port .busOff t) s (c.setNow t)) ∧
      (∀ k, n.port p = some k →
        (works → k.kind ≠ 4 → Gives (.portStateChange port .down t) s fun m => cut 2 m ∧ bit m.ext.flags 0 = true) ∧
        (works → k.kind = 4 → Gives (.portStateChange port .busOff t) s fun m => cut 3 m ∧ bit m.ext.flags 4 = true ∧
          (m.portSt p).busOffAt.getLast? = some t) ∧
        (¬linkable k → Answers (.portStateChange port .up t) s (c.setNow t)) ∧
        (x.state = 2 → linkable k → Gives (.portStateChange port .up t) s fun m =>
          (m.portSt p).state = (if n.ownDuty then 1 else 4) ∧ m.ext.alerts = n.ext.alerts ∧ Keeps [.ext, .rtc, .jrnl, .tide, .pair] n m) ∧
        (k.kind ≠ 4 → ¬works → Gives (.portStateChange port .down t) s fun m =>
          m.portSt p = { x with failed := true } ∧ Keeps [.ext, .rtc] n m) ∧
        (x.state ≠ 2 → linkable k → Gives (.portStateChange port .up t) s fun m =>
          m.portSt p = { x with failed := false } ∧ Keeps [.ext, .rtc] n m)) ∧
      ((n.portSt 3).state ≠ 3 ∨ n.coreHeld = true → Answers .busOffRestart s c) ∧
      (∀ b, (n.portSt 3).state = 3 → n.coreHeld = false → (n.portSt 3).busOffAt.getLast? = some b → Gives .busOffRestart s fun m =>
        m.rtc.now = max n.rtc.now (b + if 3 ≤ (n.portSt 3).busOffAt.length then 60000000 else 1000000) ∧
          (m.portSt 3).state = (if n.ownDuty then 1 else 4) ∧ Keeps [.ext, .rtc, .jrnl, .tide, .pair] n m) ∧
      (n.sec.maint = false → Answers (.disable op) s (turned 1) ∧ Answers (.enable op) s (turned 1)) ∧
      (n.port q = none → Answers (.clearCounts op) s (turned 3) ∧ (n.sec.maint = true → Answers (.disable op) s (turned 3) ∧
        Answers (.enable op) s (turned 3))) ∧
      (∀ k, n.port q = some k → k.kind ≠ 0 →
        (n.sec.maint = true → (n.portSt q).state ≠ 5 → Gives (.disable op) s fun m =>
          (m.portSt q).state = 5 ∧ (m.portSt q).queue = [] ∧ (m.portSt q).cur = none ∧ m.ext.cmdResult = 0 ∧
            Keeps [.ext, .jrnl, .tide, .pair] n m) ∧
        (n.sec.maint = true → (n.portSt q).state = 5 → Gives (.enable op) s fun m =>
          (m.portSt q).state = (if (n.portSt q).failed || (k.ethernet && !n.ethClock) then 2 else if n.ownDuty then 1 else 4) ∧
            m.ext.cmdResult = 0 ∧ Keeps [.ext, .jrnl, .tide, .pair] n m) ∧
        Gives (.clearCounts op) s (fun m => m.ext.cmdResult = 0 ∧ (m.portSt q).coalesced = 0 ∧ (m.portSt q).sent = 0 ∧
          (m.portSt q).accepted = 0 ∧ (m.portSt q).rejected = 0 ∧ (m.portSt q).state = (n.portSt q).state ∧
          (m.portSt q).queue = (n.portSt q).queue ∧ Keeps [.ext] n m)) ∧
      (¬replays → Answers (.replayRequest port space first cnt) s c) ∧
      (replays → n.ext.replay.isSome = true → refuses 1) ∧
      (replays → n.ext.replay = none → space.val ≠ n.space → refuses 2) ∧
      (replays → n.ext.replay = none → space.val = n.space → cnt = 0 ∨ 4096 < cnt → refuses 3) ∧
      (replays → n.ext.replay = none → space.val = n.space → 1 ≤ cnt → cnt ≤ 4096 → Gives (.replayRequest port space first cnt) s fun m =>
        m.portSt p = { x with accepted := satInc 0xFFFF x.accepted } ∧ m.ext.replay = some ⟨p, space.val, first, first + cnt - 1⟩ ∧
          m.ext.flags = n.ext.flags ∧ Keeps [.ext] n m) ∧
      (n.ext.replay = none ∨ n.coreHeld = true → Answers .replaySend s c) ∧
      (∀ r, n.ext.replay = some r → r.port < 6 → n.sends r.port = true → n.heldRange r.next r.last ≠ [] →
        Gives .replaySend s fun m =>
          let l := (n.heldRange r.next r.last).take 40
          let final := if (n.heldRange r.next r.last).length ≤ 40 then 3 else 1
          m.portSt r.port = sent { n.portSt r.port with line := [] } (.kvrs (n.kvHead false final r.space l.length) l) ∧
          (m.ext.replay = none ↔ (n.heldRange r.next r.last).length ≤ 40) ∧ Keeps [.ext] n m)

/-- 18 R552, R554 to R558, R561 to R563, R569: a frame is not seen while the port does not serve; one too early is answered NOT_READY and
has no number; any other carries the pending response, takes the next number and leaves its own response, and only a frame of the right
length, CRC and CMD, to an address that serves, is executed. 18 Table 18.4: while CORE is in BRIDGE such a frame waits, and executes when
BRIDGE ends. The number in NOT_READY of a frame that waits, a NOP to an address that does not serve, and a timeout while a frame waits are
as log entries 62 and 117 choose. -/
def Obligations.HostFrames : Prop :=
  ∀ (s : State) (a : BitVec 16) (w : Word),
    let n := s.node
    let y := n.sys
    let served := n.sendResp (y.resp.getD Node.noResp)
    let begun : Node := { served with sys := { served.sys with
      fcnt := (y.fcnt + 1) % 8
      resp := none } }
    let left (code addr : Nat) (d : Word) (m : Node) : Node := { m with sys := { m.sys with
      wait := none
      resp := some ⟨code, y.fcnt, addr, d⟩ } }
    let waits (f : HostFrame) : Node := { begun with sys := { begun.sys with wait := some f } }
    let code := n.addrCode a.toNat
    let rows (g : FrameForm) : List (Instr × HostFrame) := [(.nop (a, w, g), ⟨0, a, w⟩), (.read a (w, g), ⟨1, a, w⟩), (.write a w g, ⟨2, a, w⟩)]
    let right (cmd : Byte) (crc : BitVec 16) := crc16 (cmd :: (beBytes 2 a.toNat ++ beBytes 4 w.toNat)) = crc.toNat
    (∀ r : Resp, let m := (n.sendResp r).sys
      m.miso = r ∧ m.misoIrq = n.hirq ∧ m.fcnt = y.fcnt ∧ m.resp = y.resp ∧
        m.hpCrc = (if r.code = 2 then satInc 0xFF y.hpCrc else y.hpCrc) ∧ m.hpLen = (if r.code = 3 then satInc 0xFF y.hpLen else y.hpLen) ∧
        m.hpTime = (if r.code = 4 then satInc 0xFF y.hpTime else y.hpTime) ∧
        m.hpNotReady = (if r.code = 1 then satInc 0xFF y.hpNotReady else y.hpNotReady) ∧
        m.irq = (if r.code ∈ [2, 3, 4] then setBit y.irq 8 else y.irq) ∧ Keeps [.sys] n (n.sendResp r)) ∧
    (∃ b : List Byte, n.misoBytes = b ++ beBytes 2 (crc16 b) ∧ b.length = 7 ∧ b.drop 1 = beBytes 2 y.miso.addr ++ beBytes 4 y.miso.data.toNat ∧
      b.headD 0 = BitVec.ofNat 8 (b2n y.misoIrq * 128 + y.miso.fcnt % 8 * 16 + y.miso.code % 16)) ∧
    (n.portServes = false → (∀ g, ∀ e ∈ rows g, Answers e.1 s n) ∧ Answers .hostFrameTimeout s n) ∧
    (∀ f, n.portServes = true → y.wait = some f →
      let m := n.sendResp ⟨1, (y.fcnt + 7) % 8, f.addr.toNat, 0⟩
      (∀ g, ∀ e ∈ rows g, Answers e.1 s m) ∧ Answers .hostFrameTimeout s m) ∧
    (n.portServes = true → y.wait = none →
      (y.resp = none → ∀ e ∈ rows .early, Answers e.1 s n) ∧
      (∀ r, y.resp = some r → ∀ e ∈ rows .early, Answers e.1 s (n.sendResp ⟨1, r.fcnt, r.addr, 0⟩)) ∧
      Answers .hostFrameTimeout s (left 4 0 0 begun) ∧
      (∀ e ∈ rows .badLength, Answers e.1 s (left 3 a.toNat 0 begun)) ∧
      (∀ crc, ∀ e ∈ rows (.full crc), ¬right e.2.cmd crc → Answers e.1 s (left 2 a.toNat 0 begun)) ∧
      (∀ cmd crc, ∀ e ∈ rows (.badCmd cmd crc), Answers e.1 s (left (if right cmd crc then 5 else 2) a.toNat 0 begun)) ∧
      (∀ crc, right 0 crc → (n.bridges = false → Answers (.nop (a, w, .full crc)) s (left 0 a.toNat begun.sysSum begun)) ∧
        (n.bridges = true → Answers (.nop (a, w, .full crc)) s (waits ⟨0, a, w⟩))) ∧
      (∀ crc, right 1 crc → (code ≠ 0 → Answers (.read a (w, .full crc)) s (left code a.toNat 0 begun)) ∧
        (code = 0 → n.bridges = false →
          Answers (.read a (w, .full crc)) s (left 0 a.toNat (begun.readReg a.toNat).1 (begun.readReg a.toNat).2)) ∧
        (code = 0 → n.bridges = true → Answers (.read a (w, .full crc)) s (waits ⟨1, a, w⟩))) ∧
      (∀ crc, right 2 crc → (code ≠ 0 → Answers (.write a w (.full crc)) s (left code a.toNat 0 begun)) ∧
        (code = 0 → n.bridges = false → Answers (.write a w (.full crc)) s (left 0 a.toNat 0 (begun.writeReg a.toNat w))) ∧
        (code = 0 → n.bridges = true → Answers (.write a w (.full crc)) s (waits ⟨2, a, w⟩)))) ∧
    (∀ d f, let m := n.rampNext d
      m.sys.wait = some f →
        (m.bridges = true → Answers (.rampStep d) s m) ∧
        (m.bridges = false → f.cmd = 2 → m.addrCode f.addr.toNat = 0 → Answers (.rampStep d) s
          (let v := m.writeReg f.addr.toNat f.data
          { v with sys := { v.sys with
            wait := none
            resp := some ⟨0, (m.sys.fcnt + 7) % 8, f.addr.toNat, 0⟩ } })))

/-- 00 R9, R11, 18 R561, R562, R564: a register write acts by its fields' access codes where the port serves the address: a read-only
register keeps its value, a write-1-to-clear bit written 1 clears, and a read-write field takes the value. 18 R557, R567, R569, 20 R600:
HOST_RESET needs its key, and maintenance mode or an unconfigured node; at the tick boundary the node restarts from phase C with cause
HOST; HP_CLEAR clears the port's counts; and the port begins anew after HVIO. -/
def Obligations.RegisterWritesAndReset : Prop :=
  (∀ (s : State) (a : BitVec 16) (w : Word),
    let n := s.node
    let at' (k : Nat) (m : Node) := Answers (.registerWrite (BitVec.ofNat 16 k) w) s m
    (n.portServes = false ∨ n.addrCode a.toNat ≠ 0 → Answers (.registerWrite a w) s n) ∧
    (n.portServes = true → n.addrCode a.toNat = 0 → Answers (.registerWrite a w) s (n.writeReg a.toNat w)) ∧
    (n.regView a.toNat = none → n.addrCode a.toNat = 6) ∧
    ((n.regView a.toNat).isSome = true → 0x200 ≤ a.toNat → a.toNat < 0x2400 → n.img = none → n.addrCode a.toNat = 7) ∧
    (n.portServes = true →
      (∀ k ∈ [0x00, 0x04, 0x08, 0x0C, 0x10, 0x14, 0x24, 0x28], at' k n) ∧
      at' 0x18 { n with sys := { n.sys with irq := n.sys.irq &&& ~~~((w &&& 0x1E1).setWidth 9) } } ∧
      at' 0x1C { n with sys := { n.sys with irqEn := w.setWidth 9 } } ∧
      at' 0x2C { n with sys := { n.sys with scratch := w } }) ∧
    (n.portServes = true → n.pwr.phase = .done → n.img.isSome = true →
      at' 0x0204 { n with pwr := { n.pwr with flags := n.pwr.flags &&& ~~~(w.setWidth _) } } ∧
      (∀ k ∈ [0x0200, 0x0208, 0x0214, 0x0800], at' k n) ∧
      at' 0x0604 { n with rtc := { n.rtc with lbv := (n.rtc.lbv && !bit w 1) || n.rtc.storeLow } } ∧
      at' 0x1404 { n with fab := { n.fab with flags := n.fab.flags &&& ~~~(w.setWidth _) } } ∧
      at' 0x1A04 { n with jrnl := { n.jrnl with flags := n.jrnl.flags &&& ~~~(w.setWidth _) } } ∧
      at' 0x1E04 { n with pair := { n.pair with flags := n.pair.flags &&& ~~~(w.setWidth _) } } ∧
      (n.solvServes = true → at' 0x180C { n with solv := { n.solv with descIn := w.toNat % 2 ^ 18 } } ∧
        at' 0x1824 { n with solv := { n.solv with memLo := w } }))) ∧
  (∀ (s : State) (key : BitVec 16),
    let n := s.node
    let allowed := n.sec.maint = true ∨ n.sys.unconfigured = true
    let told (code : Nat) (pend : Bool) : Node := { n with sys := { n.sys with
      cmdResult := code
      resetPend := pend } }
    (key ≠ 0x5253 → Answers (.hostReset key) s (told 2 n.sys.resetPend)) ∧
    (key = 0x5253 → ¬allowed → Answers (.hostReset key) s (told 3 n.sys.resetPend)) ∧
    (key = 0x5253 → allowed → n.sys.resetPend = true → Answers (.hostReset key) s (told 4 true)) ∧
    (key = 0x5253 → allowed → n.sys.resetPend = false → Answers (.hostReset key) s (told 0 true)) ∧
    Answers .hpClear s { n with sys := { n.sys with
      cmdResult := 0
      hpCrc := 0
      hpLen := 0
      hpTime := 0
      hpNotReady := 0 } } ∧
    (n.sys.resetPend = false ∨ n.timed = false → Answers .hostResetExecute s n) ∧
    (n.sys.resetPend = true → n.timed = true → Gives .hostResetExecute s fun m =>
      m.pwr.cause = 5 ∧ m.pwr.phase = .c ∧ m.pwr.mode = .run ∧ m.sys.resetPend = false ∧ m.sys.fcnt = 0 ∧ m.img = none ∧ m.fab = {} ∧
        m.call = {} ∧ m.solv = {} ∧ m.lane = {} ∧ m.tide = {} ∧ m.ext = {} ∧ m.sec.enrolled = n.sec.enrolled ∧
        m.sec.maint = false ∧ m.sys.straps = n.sys.straps ∧ m.loop.islands = n.loop.islands) ∧
    Answers .hvioLoss s { n with sys := { n.sys with
      hvio := false
      resp := none
      fcnt := 0
      wait := none } } ∧
    Answers .hvioRestored s { n with sys := { n.sys with hvio := true } })

/-- 19 R576 to R579, R582: how a program and an erase end: a program is tried four times, a sector of the journal or checkpoint region
that fails is retired, a bank erase goes on to its next sector. 19 R592, R595, R596: the store fails and takes no more writes, a probe
returns it where the cause was timeouts and the device answers, and after phase F every BLANK and UNKNOWN sector is given its re-erase. 03
R116, 04 R144: with CORE's clock held no program and no erase ends. -/
def Obligations.FlashStore : Prop :=
  (∀ s : State,
    let n := s.node
    let retired (k : Nat) (m : Node) := (m.sector k).cls = .retired ∧ bit m.stor.flags 1 = true ∧ Keeps [.stor, .jrnl, .sec] n m
    (∀ b, n.stor.cur = none ∨ n.coreHeld = true → Answers (.flashProgramDone b) s n ∧ Answers (.flashEraseDone b) s n ∧ Answers .flashTimeout s n) ∧
    (∀ b op, n.stor.cur = some op → (op.erases.isSome = true → Answers (.flashProgramDone b) s n) ∧
      (op.erases = none → Answers (.flashEraseDone b) s n)) ∧
    (∀ op, n.coreHeld = false → n.stor.cur = some op → op.erases = none → n.stor.tries < 3 →
      Answers (.flashProgramDone false) s { n with stor := { n.stor with
        timeouts := 0
        flags := setBit n.stor.flags 0
        tries := n.stor.tries + 1 } } ∧
      (n.stor.timeouts < 2 → Answers .flashTimeout s { n with stor := { n.stor with
        timeouts := n.stor.timeouts + 1
        flags := setBit (setBit n.stor.flags 3) 0
        tries := n.stor.tries + 1 } })) ∧
    (∀ op, n.coreHeld = false → n.stor.cur = some op → 2 ≤ n.stor.timeouts → Gives .flashTimeout s fun m =>
      m.stor.state = 2 ∧ m.stor.failCause = 1 ∧ m.stor.cur = none ∧ m.stor.wait = [] ∧ m.jrnl.flashOk = false ∧
        m.stor.sectors = n.stor.sectors ∧ Keeps [.stor, .jrnl, .sec] n m) ∧
    (∀ recs k, n.coreHeld = false → n.stor.cur = some (.jrnl recs) → 3 ≤ n.stor.tries → n.jrnlOpen = some k → twf {} n.stor.sectors = true →
      Gives (.flashProgramDone false) s (retired k)) ∧
    (∀ k, n.coreHeld = false → n.stor.cur = some (.eraseAhead k) → twf {} n.stor.sectors = true →
      Gives (.flashEraseDone false) s (retired k) ∧ (n.stor.timeouts < 2 → Gives .flashTimeout s (retired k)) ∧
      (n.unwritten = [] → Gives (.flashEraseDone true) s fun m =>
        m.sector k = { cls := .erasedOk, erases := n.erasesAfter k } ∧ (∀ i, i ≠ k → m.sector i = n.sector i) ∧ Keeps [.stor] n m)) ∧
    (∀ b k ok, n.coreHeld = false → n.stor.cur = some (.bankErase b k) → k < 127 → Gives (.flashEraseDone ok) s fun m =>
      m.stor.cur = some (.bankErase b (k + 1)) ∧ Keeps [.stor, .sec] n m)) ∧
  (∀ s : State,
    let n := s.node
    let back : Node := { n with
      stor := { n.stor with
        state := 1
        failCause := 0
        timeouts := 0 }
      jrnl := { n.jrnl with flashOk := true } }
    let failed (cause : Nat) (m : Node) := m.stor.state = 2 ∧ m.stor.failCause = cause ∧ m.stor.cur = none ∧ m.stor.susp = none ∧
      m.stor.wait = [] ∧ bit m.stor.flags 4 = true ∧ m.stor.sectors = n.stor.sectors ∧ m.stor.ident = n.stor.ident ∧
      m.jrnl.flashOk = false ∧ m.jrnl.ram = n.jrnl.ram ∧ Keeps [.stor, .jrnl, .sec] n m
    Gives (.storeFailed true) s (failed 2) ∧
    Gives (.storeFailed false) s (failed (if 1535 - n.retiredIn jrnlFirst jrnlLast < 8 then 3 else 1)) ∧
    (∀ a, n.stor.state ≠ 2 → Answers (.epochProbe a) s n ∧ Answers (.probe a) s { n with stor := { n.stor with
      cmdResult := 2
      flags := setBit n.stor.flags 6 } }) ∧
    (∀ a, n.stor.state = 2 → a = false ∨ n.stor.failCause ≠ 1 → Answers (.epochProbe a) s n ∧
      Answers (.probe a) s { n with stor := { n.stor with cmdResult := 0 } }) ∧
    (n.stor.state = 2 → n.stor.failCause = 1 → n.stor.eraPend = none → Answers (.epochProbe true) s back ∧
      Answers (.probe true) s { back with stor := { back.stor with cmdResult := 0 } }) ∧
    (∀ v, n.stor.state = 2 → n.stor.failCause = 1 → n.stor.eraPend = some v → n.stor.cur = none → n.stor.susp = none → n.stor.wait = [] →
      Answers (.epochProbe true) s (back.flashAdd (.ident (.era v)))) ∧
    (n.pwr.phase ≠ .done ∨ n.coreHeld = true → Answers .backgroundReerase s n) ∧
    (n.pwr.phase = .done → n.coreHeld = false → n.stor.state ≠ 2 → Gives .backgroundReerase s fun m =>
      (∀ e ∈ n.stor.sectors, e.2.cls = .blank ∨ e.2.cls = .unknown → m.flashHas (.repair e.1) = true) ∧
        m.stor.sectors = n.stor.sectors ∧ Keeps [.stor] n m))
end

