-- ==== Sys2Proof/Laws/State.lean ====
section
/-! SUPPORT. One lemma per field per update of the node, and what a command run on the node leaves of the queue. -/

namespace Sys2Proof.Machine.Node

variable (n : Node)

@[simp] theorem mSys_sys (f : Sys → Sys) : (n.mSys f).sys = f n.sys := rfl
@[simp] theorem mSys_pwr (f : Sys → Sys) : (n.mSys f).pwr = n.pwr := rfl
@[simp] theorem mSys_clk (f : Sys → Sys) : (n.mSys f).clk = n.clk := rfl
@[simp] theorem mSys_rtc (f : Sys → Sys) : (n.mSys f).rtc = n.rtc := rfl
@[simp] theorem mSys_afe (f : Sys → Sys) : (n.mSys f).afe = n.afe := rfl
@[simp] theorem mSys_lane (f : Sys → Sys) : (n.mSys f).lane = n.lane := rfl
@[simp] theorem mSys_loop (f : Sys → Sys) : (n.mSys f).loop = n.loop := rfl
@[simp] theorem mSys_dio (f : Sys → Sys) : (n.mSys f).dio = n.dio := rfl
@[simp] theorem mSys_fab (f : Sys → Sys) : (n.mSys f).fab = n.fab := rfl
@[simp] theorem mSys_call (f : Sys → Sys) : (n.mSys f).call = n.call := rfl
@[simp] theorem mSys_solv (f : Sys → Sys) : (n.mSys f).solv = n.solv := rfl
@[simp] theorem mSys_jrnl (f : Sys → Sys) : (n.mSys f).jrnl = n.jrnl := rfl
@[simp] theorem mSys_tide (f : Sys → Sys) : (n.mSys f).tide = n.tide := rfl
@[simp] theorem mSys_pair (f : Sys → Sys) : (n.mSys f).pair = n.pair := rfl
@[simp] theorem mSys_ext (f : Sys → Sys) : (n.mSys f).ext = n.ext := rfl
@[simp] theorem mSys_stor (f : Sys → Sys) : (n.mSys f).stor = n.stor := rfl
@[simp] theorem mSys_sec (f : Sys → Sys) : (n.mSys f).sec = n.sec := rfl
@[simp] theorem mSys_img (f : Sys → Sys) : (n.mSys f).img = n.img := rfl
@[simp] theorem mSys_free (f : Sys → Sys) : (n.mSys f).free = n.free := rfl

@[simp] theorem mPwr_sys (f : Pwr → Pwr) : (n.mPwr f).sys = n.sys := rfl
@[simp] theorem mPwr_pwr (f : Pwr → Pwr) : (n.mPwr f).pwr = f n.pwr := rfl
@[simp] theorem mPwr_clk (f : Pwr → Pwr) : (n.mPwr f).clk = n.clk := rfl
@[simp] theorem mPwr_rtc (f : Pwr → Pwr) : (n.mPwr f).rtc = n.rtc := rfl
@[simp] theorem mPwr_afe (f : Pwr → Pwr) : (n.mPwr f).afe = n.afe := rfl
@[simp] theorem mPwr_lane (f : Pwr → Pwr) : (n.mPwr f).lane = n.lane := rfl
@[simp] theorem mPwr_loop (f : Pwr → Pwr) : (n.mPwr f).loop = n.loop := rfl
@[simp] theorem mPwr_dio (f : Pwr → Pwr) : (n.mPwr f).dio = n.dio := rfl
@[simp] theorem mPwr_fab (f : Pwr → Pwr) : (n.mPwr f).fab = n.fab := rfl
@[simp] theorem mPwr_call (f : Pwr → Pwr) : (n.mPwr f).call = n.call := rfl
@[simp] theorem mPwr_solv (f : Pwr → Pwr) : (n.mPwr f).solv = n.solv := rfl
@[simp] theorem mPwr_jrnl (f : Pwr → Pwr) : (n.mPwr f).jrnl = n.jrnl := rfl
@[simp] theorem mPwr_tide (f : Pwr → Pwr) : (n.mPwr f).tide = n.tide := rfl
@[simp] theorem mPwr_pair (f : Pwr → Pwr) : (n.mPwr f).pair = n.pair := rfl
@[simp] theorem mPwr_ext (f : Pwr → Pwr) : (n.mPwr f).ext = n.ext := rfl
@[simp] theorem mPwr_stor (f : Pwr → Pwr) : (n.mPwr f).stor = n.stor := rfl
@[simp] theorem mPwr_sec (f : Pwr → Pwr) : (n.mPwr f).sec = n.sec := rfl
@[simp] theorem mPwr_img (f : Pwr → Pwr) : (n.mPwr f).img = n.img := rfl
@[simp] theorem mPwr_free (f : Pwr → Pwr) : (n.mPwr f).free = n.free := rfl

@[simp] theorem mClk_sys (f : Clk → Clk) : (n.mClk f).sys = n.sys := rfl
@[simp] theorem mClk_pwr (f : Clk → Clk) : (n.mClk f).pwr = n.pwr := rfl
@[simp] theorem mClk_clk (f : Clk → Clk) : (n.mClk f).clk = f n.clk := rfl
@[simp] theorem mClk_rtc (f : Clk → Clk) : (n.mClk f).rtc = n.rtc := rfl
@[simp] theorem mClk_afe (f : Clk → Clk) : (n.mClk f).afe = n.afe := rfl
@[simp] theorem mClk_lane (f : Clk → Clk) : (n.mClk f).lane = n.lane := rfl
@[simp] theorem mClk_loop (f : Clk → Clk) : (n.mClk f).loop = n.loop := rfl
@[simp] theorem mClk_dio (f : Clk → Clk) : (n.mClk f).dio = n.dio := rfl
@[simp] theorem mClk_fab (f : Clk → Clk) : (n.mClk f).fab = n.fab := rfl
@[simp] theorem mClk_call (f : Clk → Clk) : (n.mClk f).call = n.call := rfl
@[simp] theorem mClk_solv (f : Clk → Clk) : (n.mClk f).solv = n.solv := rfl
@[simp] theorem mClk_jrnl (f : Clk → Clk) : (n.mClk f).jrnl = n.jrnl := rfl
@[simp] theorem mClk_tide (f : Clk → Clk) : (n.mClk f).tide = n.tide := rfl
@[simp] theorem mClk_pair (f : Clk → Clk) : (n.mClk f).pair = n.pair := rfl
@[simp] theorem mClk_ext (f : Clk → Clk) : (n.mClk f).ext = n.ext := rfl
@[simp] theorem mClk_stor (f : Clk → Clk) : (n.mClk f).stor = n.stor := rfl
@[simp] theorem mClk_sec (f : Clk → Clk) : (n.mClk f).sec = n.sec := rfl
@[simp] theorem mClk_img (f : Clk → Clk) : (n.mClk f).img = n.img := rfl
@[simp] theorem mClk_free (f : Clk → Clk) : (n.mClk f).free = n.free := rfl

@[simp] theorem mRtc_sys (f : Rtc → Rtc) : (n.mRtc f).sys = n.sys := rfl
@[simp] theorem mRtc_pwr (f : Rtc → Rtc) : (n.mRtc f).pwr = n.pwr := rfl
@[simp] theorem mRtc_clk (f : Rtc → Rtc) : (n.mRtc f).clk = n.clk := rfl
@[simp] theorem mRtc_rtc (f : Rtc → Rtc) : (n.mRtc f).rtc = f n.rtc := rfl
@[simp] theorem mRtc_afe (f : Rtc → Rtc) : (n.mRtc f).afe = n.afe := rfl
@[simp] theorem mRtc_lane (f : Rtc → Rtc) : (n.mRtc f).lane = n.lane := rfl
@[simp] theorem mRtc_loop (f : Rtc → Rtc) : (n.mRtc f).loop = n.loop := rfl
@[simp] theorem mRtc_dio (f : Rtc → Rtc) : (n.mRtc f).dio = n.dio := rfl
@[simp] theorem mRtc_fab (f : Rtc → Rtc) : (n.mRtc f).fab = n.fab := rfl
@[simp] theorem mRtc_call (f : Rtc → Rtc) : (n.mRtc f).call = n.call := rfl
@[simp] theorem mRtc_solv (f : Rtc → Rtc) : (n.mRtc f).solv = n.solv := rfl
@[simp] theorem mRtc_jrnl (f : Rtc → Rtc) : (n.mRtc f).jrnl = n.jrnl := rfl
@[simp] theorem mRtc_tide (f : Rtc → Rtc) : (n.mRtc f).tide = n.tide := rfl
@[simp] theorem mRtc_pair (f : Rtc → Rtc) : (n.mRtc f).pair = n.pair := rfl
@[simp] theorem mRtc_ext (f : Rtc → Rtc) : (n.mRtc f).ext = n.ext := rfl
@[simp] theorem mRtc_stor (f : Rtc → Rtc) : (n.mRtc f).stor = n.stor := rfl
@[simp] theorem mRtc_sec (f : Rtc → Rtc) : (n.mRtc f).sec = n.sec := rfl
@[simp] theorem mRtc_img (f : Rtc → Rtc) : (n.mRtc f).img = n.img := rfl
@[simp] theorem mRtc_free (f : Rtc → Rtc) : (n.mRtc f).free = n.free := rfl

@[simp] theorem mAfe_sys (f : Afe → Afe) : (n.mAfe f).sys = n.sys := rfl
@[simp] theorem mAfe_pwr (f : Afe → Afe) : (n.mAfe f).pwr = n.pwr := rfl
@[simp] theorem mAfe_clk (f : Afe → Afe) : (n.mAfe f).clk = n.clk := rfl
@[simp] theorem mAfe_rtc (f : Afe → Afe) : (n.mAfe f).rtc = n.rtc := rfl
@[simp] theorem mAfe_afe (f : Afe → Afe) : (n.mAfe f).afe = f n.afe := rfl
@[simp] theorem mAfe_lane (f : Afe → Afe) : (n.mAfe f).lane = n.lane := rfl
@[simp] theorem mAfe_loop (f : Afe → Afe) : (n.mAfe f).loop = n.loop := rfl
@[simp] theorem mAfe_dio (f : Afe → Afe) : (n.mAfe f).dio = n.dio := rfl
@[simp] theorem mAfe_fab (f : Afe → Afe) : (n.mAfe f).fab = n.fab := rfl
@[simp] theorem mAfe_call (f : Afe → Afe) : (n.mAfe f).call = n.call := rfl
@[simp] theorem mAfe_solv (f : Afe → Afe) : (n.mAfe f).solv = n.solv := rfl
@[simp] theorem mAfe_jrnl (f : Afe → Afe) : (n.mAfe f).jrnl = n.jrnl := rfl
@[simp] theorem mAfe_tide (f : Afe → Afe) : (n.mAfe f).tide = n.tide := rfl
@[simp] theorem mAfe_pair (f : Afe → Afe) : (n.mAfe f).pair = n.pair := rfl
@[simp] theorem mAfe_ext (f : Afe → Afe) : (n.mAfe f).ext = n.ext := rfl
@[simp] theorem mAfe_stor (f : Afe → Afe) : (n.mAfe f).stor = n.stor := rfl
@[simp] theorem mAfe_sec (f : Afe → Afe) : (n.mAfe f).sec = n.sec := rfl
@[simp] theorem mAfe_img (f : Afe → Afe) : (n.mAfe f).img = n.img := rfl
@[simp] theorem mAfe_free (f : Afe → Afe) : (n.mAfe f).free = n.free := rfl

@[simp] theorem mLane_sys (f : Lanes → Lanes) : (n.mLane f).sys = n.sys := rfl
@[simp] theorem mLane_pwr (f : Lanes → Lanes) : (n.mLane f).pwr = n.pwr := rfl
@[simp] theorem mLane_clk (f : Lanes → Lanes) : (n.mLane f).clk = n.clk := rfl
@[simp] theorem mLane_rtc (f : Lanes → Lanes) : (n.mLane f).rtc = n.rtc := rfl
@[simp] theorem mLane_afe (f : Lanes → Lanes) : (n.mLane f).afe = n.afe := rfl
@[simp] theorem mLane_lane (f : Lanes → Lanes) : (n.mLane f).lane = f n.lane := rfl
@[simp] theorem mLane_loop (f : Lanes → Lanes) : (n.mLane f).loop = n.loop := rfl
@[simp] theorem mLane_dio (f : Lanes → Lanes) : (n.mLane f).dio = n.dio := rfl
@[simp] theorem mLane_fab (f : Lanes → Lanes) : (n.mLane f).fab = n.fab := rfl
@[simp] theorem mLane_call (f : Lanes → Lanes) : (n.mLane f).call = n.call := rfl
@[simp] theorem mLane_solv (f : Lanes → Lanes) : (n.mLane f).solv = n.solv := rfl
@[simp] theorem mLane_jrnl (f : Lanes → Lanes) : (n.mLane f).jrnl = n.jrnl := rfl
@[simp] theorem mLane_tide (f : Lanes → Lanes) : (n.mLane f).tide = n.tide := rfl
@[simp] theorem mLane_pair (f : Lanes → Lanes) : (n.mLane f).pair = n.pair := rfl
@[simp] theorem mLane_ext (f : Lanes → Lanes) : (n.mLane f).ext = n.ext := rfl
@[simp] theorem mLane_stor (f : Lanes → Lanes) : (n.mLane f).stor = n.stor := rfl
@[simp] theorem mLane_sec (f : Lanes → Lanes) : (n.mLane f).sec = n.sec := rfl
@[simp] theorem mLane_img (f : Lanes → Lanes) : (n.mLane f).img = n.img := rfl
@[simp] theorem mLane_free (f : Lanes → Lanes) : (n.mLane f).free = n.free := rfl

@[simp] theorem mLoop_sys (f : Loops → Loops) : (n.mLoop f).sys = n.sys := rfl
@[simp] theorem mLoop_pwr (f : Loops → Loops) : (n.mLoop f).pwr = n.pwr := rfl
@[simp] theorem mLoop_clk (f : Loops → Loops) : (n.mLoop f).clk = n.clk := rfl
@[simp] theorem mLoop_rtc (f : Loops → Loops) : (n.mLoop f).rtc = n.rtc := rfl
@[simp] theorem mLoop_afe (f : Loops → Loops) : (n.mLoop f).afe = n.afe := rfl
@[simp] theorem mLoop_lane (f : Loops → Loops) : (n.mLoop f).lane = n.lane := rfl
@[simp] theorem mLoop_loop (f : Loops → Loops) : (n.mLoop f).loop = f n.loop := rfl
@[simp] theorem mLoop_dio (f : Loops → Loops) : (n.mLoop f).dio = n.dio := rfl
@[simp] theorem mLoop_fab (f : Loops → Loops) : (n.mLoop f).fab = n.fab := rfl
@[simp] theorem mLoop_call (f : Loops → Loops) : (n.mLoop f).call = n.call := rfl
@[simp] theorem mLoop_solv (f : Loops → Loops) : (n.mLoop f).solv = n.solv := rfl
@[simp] theorem mLoop_jrnl (f : Loops → Loops) : (n.mLoop f).jrnl = n.jrnl := rfl
@[simp] theorem mLoop_tide (f : Loops → Loops) : (n.mLoop f).tide = n.tide := rfl
@[simp] theorem mLoop_pair (f : Loops → Loops) : (n.mLoop f).pair = n.pair := rfl
@[simp] theorem mLoop_ext (f : Loops → Loops) : (n.mLoop f).ext = n.ext := rfl
@[simp] theorem mLoop_stor (f : Loops → Loops) : (n.mLoop f).stor = n.stor := rfl
@[simp] theorem mLoop_sec (f : Loops → Loops) : (n.mLoop f).sec = n.sec := rfl
@[simp] theorem mLoop_img (f : Loops → Loops) : (n.mLoop f).img = n.img := rfl
@[simp] theorem mLoop_free (f : Loops → Loops) : (n.mLoop f).free = n.free := rfl

@[simp] theorem mDio_sys (f : Dio → Dio) : (n.mDio f).sys = n.sys := rfl
@[simp] theorem mDio_pwr (f : Dio → Dio) : (n.mDio f).pwr = n.pwr := rfl
@[simp] theorem mDio_clk (f : Dio → Dio) : (n.mDio f).clk = n.clk := rfl
@[simp] theorem mDio_rtc (f : Dio → Dio) : (n.mDio f).rtc = n.rtc := rfl
@[simp] theorem mDio_afe (f : Dio → Dio) : (n.mDio f).afe = n.afe := rfl
@[simp] theorem mDio_lane (f : Dio → Dio) : (n.mDio f).lane = n.lane := rfl
@[simp] theorem mDio_loop (f : Dio → Dio) : (n.mDio f).loop = n.loop := rfl
@[simp] theorem mDio_dio (f : Dio → Dio) : (n.mDio f).dio = f n.dio := rfl
@[simp] theorem mDio_fab (f : Dio → Dio) : (n.mDio f).fab = n.fab := rfl
@[simp] theorem mDio_call (f : Dio → Dio) : (n.mDio f).call = n.call := rfl
@[simp] theorem mDio_solv (f : Dio → Dio) : (n.mDio f).solv = n.solv := rfl
@[simp] theorem mDio_jrnl (f : Dio → Dio) : (n.mDio f).jrnl = n.jrnl := rfl
@[simp] theorem mDio_tide (f : Dio → Dio) : (n.mDio f).tide = n.tide := rfl
@[simp] theorem mDio_pair (f : Dio → Dio) : (n.mDio f).pair = n.pair := rfl
@[simp] theorem mDio_ext (f : Dio → Dio) : (n.mDio f).ext = n.ext := rfl
@[simp] theorem mDio_stor (f : Dio → Dio) : (n.mDio f).stor = n.stor := rfl
@[simp] theorem mDio_sec (f : Dio → Dio) : (n.mDio f).sec = n.sec := rfl
@[simp] theorem mDio_img (f : Dio → Dio) : (n.mDio f).img = n.img := rfl
@[simp] theorem mDio_free (f : Dio → Dio) : (n.mDio f).free = n.free := rfl

@[simp] theorem mFab_sys (f : Fab → Fab) : (n.mFab f).sys = n.sys := rfl
@[simp] theorem mFab_pwr (f : Fab → Fab) : (n.mFab f).pwr = n.pwr := rfl
@[simp] theorem mFab_clk (f : Fab → Fab) : (n.mFab f).clk = n.clk := rfl
@[simp] theorem mFab_rtc (f : Fab → Fab) : (n.mFab f).rtc = n.rtc := rfl
@[simp] theorem mFab_afe (f : Fab → Fab) : (n.mFab f).afe = n.afe := rfl
@[simp] theorem mFab_lane (f : Fab → Fab) : (n.mFab f).lane = n.lane := rfl
@[simp] theorem mFab_loop (f : Fab → Fab) : (n.mFab f).loop = n.loop := rfl
@[simp] theorem mFab_dio (f : Fab → Fab) : (n.mFab f).dio = n.dio := rfl
@[simp] theorem mFab_fab (f : Fab → Fab) : (n.mFab f).fab = f n.fab := rfl
@[simp] theorem mFab_call (f : Fab → Fab) : (n.mFab f).call = n.call := rfl
@[simp] theorem mFab_solv (f : Fab → Fab) : (n.mFab f).solv = n.solv := rfl
@[simp] theorem mFab_jrnl (f : Fab → Fab) : (n.mFab f).jrnl = n.jrnl := rfl
@[simp] theorem mFab_tide (f : Fab → Fab) : (n.mFab f).tide = n.tide := rfl
@[simp] theorem mFab_pair (f : Fab → Fab) : (n.mFab f).pair = n.pair := rfl
@[simp] theorem mFab_ext (f : Fab → Fab) : (n.mFab f).ext = n.ext := rfl
@[simp] theorem mFab_stor (f : Fab → Fab) : (n.mFab f).stor = n.stor := rfl
@[simp] theorem mFab_sec (f : Fab → Fab) : (n.mFab f).sec = n.sec := rfl
@[simp] theorem mFab_img (f : Fab → Fab) : (n.mFab f).img = n.img := rfl
@[simp] theorem mFab_free (f : Fab → Fab) : (n.mFab f).free = n.free := rfl

@[simp] theorem mCall_sys (f : Call → Call) : (n.mCall f).sys = n.sys := rfl
@[simp] theorem mCall_pwr (f : Call → Call) : (n.mCall f).pwr = n.pwr := rfl
@[simp] theorem mCall_clk (f : Call → Call) : (n.mCall f).clk = n.clk := rfl
@[simp] theorem mCall_rtc (f : Call → Call) : (n.mCall f).rtc = n.rtc := rfl
@[simp] theorem mCall_afe (f : Call → Call) : (n.mCall f).afe = n.afe := rfl
@[simp] theorem mCall_lane (f : Call → Call) : (n.mCall f).lane = n.lane := rfl
@[simp] theorem mCall_loop (f : Call → Call) : (n.mCall f).loop = n.loop := rfl
@[simp] theorem mCall_dio (f : Call → Call) : (n.mCall f).dio = n.dio := rfl
@[simp] theorem mCall_fab (f : Call → Call) : (n.mCall f).fab = n.fab := rfl
@[simp] theorem mCall_call (f : Call → Call) : (n.mCall f).call = f n.call := rfl
@[simp] theorem mCall_solv (f : Call → Call) : (n.mCall f).solv = n.solv := rfl
@[simp] theorem mCall_jrnl (f : Call → Call) : (n.mCall f).jrnl = n.jrnl := rfl
@[simp] theorem mCall_tide (f : Call → Call) : (n.mCall f).tide = n.tide := rfl
@[simp] theorem mCall_pair (f : Call → Call) : (n.mCall f).pair = n.pair := rfl
@[simp] theorem mCall_ext (f : Call → Call) : (n.mCall f).ext = n.ext := rfl
@[simp] theorem mCall_stor (f : Call → Call) : (n.mCall f).stor = n.stor := rfl
@[simp] theorem mCall_sec (f : Call → Call) : (n.mCall f).sec = n.sec := rfl
@[simp] theorem mCall_img (f : Call → Call) : (n.mCall f).img = n.img := rfl
@[simp] theorem mCall_free (f : Call → Call) : (n.mCall f).free = n.free := rfl

@[simp] theorem mSolv_sys (f : Solv → Solv) : (n.mSolv f).sys = n.sys := rfl
@[simp] theorem mSolv_pwr (f : Solv → Solv) : (n.mSolv f).pwr = n.pwr := rfl
@[simp] theorem mSolv_clk (f : Solv → Solv) : (n.mSolv f).clk = n.clk := rfl
@[simp] theorem mSolv_rtc (f : Solv → Solv) : (n.mSolv f).rtc = n.rtc := rfl
@[simp] theorem mSolv_afe (f : Solv → Solv) : (n.mSolv f).afe = n.afe := rfl
@[simp] theorem mSolv_lane (f : Solv → Solv) : (n.mSolv f).lane = n.lane := rfl
@[simp] theorem mSolv_loop (f : Solv → Solv) : (n.mSolv f).loop = n.loop := rfl
@[simp] theorem mSolv_dio (f : Solv → Solv) : (n.mSolv f).dio = n.dio := rfl
@[simp] theorem mSolv_fab (f : Solv → Solv) : (n.mSolv f).fab = n.fab := rfl
@[simp] theorem mSolv_call (f : Solv → Solv) : (n.mSolv f).call = n.call := rfl
@[simp] theorem mSolv_solv (f : Solv → Solv) : (n.mSolv f).solv = f n.solv := rfl
@[simp] theorem mSolv_jrnl (f : Solv → Solv) : (n.mSolv f).jrnl = n.jrnl := rfl
@[simp] theorem mSolv_tide (f : Solv → Solv) : (n.mSolv f).tide = n.tide := rfl
@[simp] theorem mSolv_pair (f : Solv → Solv) : (n.mSolv f).pair = n.pair := rfl
@[simp] theorem mSolv_ext (f : Solv → Solv) : (n.mSolv f).ext = n.ext := rfl
@[simp] theorem mSolv_stor (f : Solv → Solv) : (n.mSolv f).stor = n.stor := rfl
@[simp] theorem mSolv_sec (f : Solv → Solv) : (n.mSolv f).sec = n.sec := rfl
@[simp] theorem mSolv_img (f : Solv → Solv) : (n.mSolv f).img = n.img := rfl
@[simp] theorem mSolv_free (f : Solv → Solv) : (n.mSolv f).free = n.free := rfl

@[simp] theorem mJrnl_sys (f : Jrnl → Jrnl) : (n.mJrnl f).sys = n.sys := rfl
@[simp] theorem mJrnl_pwr (f : Jrnl → Jrnl) : (n.mJrnl f).pwr = n.pwr := rfl
@[simp] theorem mJrnl_clk (f : Jrnl → Jrnl) : (n.mJrnl f).clk = n.clk := rfl
@[simp] theorem mJrnl_rtc (f : Jrnl → Jrnl) : (n.mJrnl f).rtc = n.rtc := rfl
@[simp] theorem mJrnl_afe (f : Jrnl → Jrnl) : (n.mJrnl f).afe = n.afe := rfl
@[simp] theorem mJrnl_lane (f : Jrnl → Jrnl) : (n.mJrnl f).lane = n.lane := rfl
@[simp] theorem mJrnl_loop (f : Jrnl → Jrnl) : (n.mJrnl f).loop = n.loop := rfl
@[simp] theorem mJrnl_dio (f : Jrnl → Jrnl) : (n.mJrnl f).dio = n.dio := rfl
@[simp] theorem mJrnl_fab (f : Jrnl → Jrnl) : (n.mJrnl f).fab = n.fab := rfl
@[simp] theorem mJrnl_call (f : Jrnl → Jrnl) : (n.mJrnl f).call = n.call := rfl
@[simp] theorem mJrnl_solv (f : Jrnl → Jrnl) : (n.mJrnl f).solv = n.solv := rfl
@[simp] theorem mJrnl_jrnl (f : Jrnl → Jrnl) : (n.mJrnl f).jrnl = f n.jrnl := rfl
@[simp] theorem mJrnl_tide (f : Jrnl → Jrnl) : (n.mJrnl f).tide = n.tide := rfl
@[simp] theorem mJrnl_pair (f : Jrnl → Jrnl) : (n.mJrnl f).pair = n.pair := rfl
@[simp] theorem mJrnl_ext (f : Jrnl → Jrnl) : (n.mJrnl f).ext = n.ext := rfl
@[simp] theorem mJrnl_stor (f : Jrnl → Jrnl) : (n.mJrnl f).stor = n.stor := rfl
@[simp] theorem mJrnl_sec (f : Jrnl → Jrnl) : (n.mJrnl f).sec = n.sec := rfl
@[simp] theorem mJrnl_img (f : Jrnl → Jrnl) : (n.mJrnl f).img = n.img := rfl
@[simp] theorem mJrnl_free (f : Jrnl → Jrnl) : (n.mJrnl f).free = n.free := rfl

@[simp] theorem mTide_sys (f : Tide → Tide) : (n.mTide f).sys = n.sys := rfl
@[simp] theorem mTide_pwr (f : Tide → Tide) : (n.mTide f).pwr = n.pwr := rfl
@[simp] theorem mTide_clk (f : Tide → Tide) : (n.mTide f).clk = n.clk := rfl
@[simp] theorem mTide_rtc (f : Tide → Tide) : (n.mTide f).rtc = n.rtc := rfl
@[simp] theorem mTide_afe (f : Tide → Tide) : (n.mTide f).afe = n.afe := rfl
@[simp] theorem mTide_lane (f : Tide → Tide) : (n.mTide f).lane = n.lane := rfl
@[simp] theorem mTide_loop (f : Tide → Tide) : (n.mTide f).loop = n.loop := rfl
@[simp] theorem mTide_dio (f : Tide → Tide) : (n.mTide f).dio = n.dio := rfl
@[simp] theorem mTide_fab (f : Tide → Tide) : (n.mTide f).fab = n.fab := rfl
@[simp] theorem mTide_call (f : Tide → Tide) : (n.mTide f).call = n.call := rfl
@[simp] theorem mTide_solv (f : Tide → Tide) : (n.mTide f).solv = n.solv := rfl
@[simp] theorem mTide_jrnl (f : Tide → Tide) : (n.mTide f).jrnl = n.jrnl := rfl
@[simp] theorem mTide_tide (f : Tide → Tide) : (n.mTide f).tide = f n.tide := rfl
@[simp] theorem mTide_pair (f : Tide → Tide) : (n.mTide f).pair = n.pair := rfl
@[simp] theorem mTide_ext (f : Tide → Tide) : (n.mTide f).ext = n.ext := rfl
@[simp] theorem mTide_stor (f : Tide → Tide) : (n.mTide f).stor = n.stor := rfl
@[simp] theorem mTide_sec (f : Tide → Tide) : (n.mTide f).sec = n.sec := rfl
@[simp] theorem mTide_img (f : Tide → Tide) : (n.mTide f).img = n.img := rfl
@[simp] theorem mTide_free (f : Tide → Tide) : (n.mTide f).free = n.free := rfl

@[simp] theorem mPair_sys (f : Pair → Pair) : (n.mPair f).sys = n.sys := rfl
@[simp] theorem mPair_pwr (f : Pair → Pair) : (n.mPair f).pwr = n.pwr := rfl
@[simp] theorem mPair_clk (f : Pair → Pair) : (n.mPair f).clk = n.clk := rfl
@[simp] theorem mPair_rtc (f : Pair → Pair) : (n.mPair f).rtc = n.rtc := rfl
@[simp] theorem mPair_afe (f : Pair → Pair) : (n.mPair f).afe = n.afe := rfl
@[simp] theorem mPair_lane (f : Pair → Pair) : (n.mPair f).lane = n.lane := rfl
@[simp] theorem mPair_loop (f : Pair → Pair) : (n.mPair f).loop = n.loop := rfl
@[simp] theorem mPair_dio (f : Pair → Pair) : (n.mPair f).dio = n.dio := rfl
@[simp] theorem mPair_fab (f : Pair → Pair) : (n.mPair f).fab = n.fab := rfl
@[simp] theorem mPair_call (f : Pair → Pair) : (n.mPair f).call = n.call := rfl
@[simp] theorem mPair_solv (f : Pair → Pair) : (n.mPair f).solv = n.solv := rfl
@[simp] theorem mPair_jrnl (f : Pair → Pair) : (n.mPair f).jrnl = n.jrnl := rfl
@[simp] theorem mPair_tide (f : Pair → Pair) : (n.mPair f).tide = n.tide := rfl
@[simp] theorem mPair_pair (f : Pair → Pair) : (n.mPair f).pair = f n.pair := rfl
@[simp] theorem mPair_ext (f : Pair → Pair) : (n.mPair f).ext = n.ext := rfl
@[simp] theorem mPair_stor (f : Pair → Pair) : (n.mPair f).stor = n.stor := rfl
@[simp] theorem mPair_sec (f : Pair → Pair) : (n.mPair f).sec = n.sec := rfl
@[simp] theorem mPair_img (f : Pair → Pair) : (n.mPair f).img = n.img := rfl
@[simp] theorem mPair_free (f : Pair → Pair) : (n.mPair f).free = n.free := rfl

@[simp] theorem mExt_sys (f : Ext → Ext) : (n.mExt f).sys = n.sys := rfl
@[simp] theorem mExt_pwr (f : Ext → Ext) : (n.mExt f).pwr = n.pwr := rfl
@[simp] theorem mExt_clk (f : Ext → Ext) : (n.mExt f).clk = n.clk := rfl
@[simp] theorem mExt_rtc (f : Ext → Ext) : (n.mExt f).rtc = n.rtc := rfl
@[simp] theorem mExt_afe (f : Ext → Ext) : (n.mExt f).afe = n.afe := rfl
@[simp] theorem mExt_lane (f : Ext → Ext) : (n.mExt f).lane = n.lane := rfl
@[simp] theorem mExt_loop (f : Ext → Ext) : (n.mExt f).loop = n.loop := rfl
@[simp] theorem mExt_dio (f : Ext → Ext) : (n.mExt f).dio = n.dio := rfl
@[simp] theorem mExt_fab (f : Ext → Ext) : (n.mExt f).fab = n.fab := rfl
@[simp] theorem mExt_call (f : Ext → Ext) : (n.mExt f).call = n.call := rfl
@[simp] theorem mExt_solv (f : Ext → Ext) : (n.mExt f).solv = n.solv := rfl
@[simp] theorem mExt_jrnl (f : Ext → Ext) : (n.mExt f).jrnl = n.jrnl := rfl
@[simp] theorem mExt_tide (f : Ext → Ext) : (n.mExt f).tide = n.tide := rfl
@[simp] theorem mExt_pair (f : Ext → Ext) : (n.mExt f).pair = n.pair := rfl
@[simp] theorem mExt_ext (f : Ext → Ext) : (n.mExt f).ext = f n.ext := rfl
@[simp] theorem mExt_stor (f : Ext → Ext) : (n.mExt f).stor = n.stor := rfl
@[simp] theorem mExt_sec (f : Ext → Ext) : (n.mExt f).sec = n.sec := rfl
@[simp] theorem mExt_img (f : Ext → Ext) : (n.mExt f).img = n.img := rfl
@[simp] theorem mExt_free (f : Ext → Ext) : (n.mExt f).free = n.free := rfl

@[simp] theorem mStor_sys (f : Stor → Stor) : (n.mStor f).sys = n.sys := rfl
@[simp] theorem mStor_pwr (f : Stor → Stor) : (n.mStor f).pwr = n.pwr := rfl
@[simp] theorem mStor_clk (f : Stor → Stor) : (n.mStor f).clk = n.clk := rfl
@[simp] theorem mStor_rtc (f : Stor → Stor) : (n.mStor f).rtc = n.rtc := rfl
@[simp] theorem mStor_afe (f : Stor → Stor) : (n.mStor f).afe = n.afe := rfl
@[simp] theorem mStor_lane (f : Stor → Stor) : (n.mStor f).lane = n.lane := rfl
@[simp] theorem mStor_loop (f : Stor → Stor) : (n.mStor f).loop = n.loop := rfl
@[simp] theorem mStor_dio (f : Stor → Stor) : (n.mStor f).dio = n.dio := rfl
@[simp] theorem mStor_fab (f : Stor → Stor) : (n.mStor f).fab = n.fab := rfl
@[simp] theorem mStor_call (f : Stor → Stor) : (n.mStor f).call = n.call := rfl
@[simp] theorem mStor_solv (f : Stor → Stor) : (n.mStor f).solv = n.solv := rfl
@[simp] theorem mStor_jrnl (f : Stor → Stor) : (n.mStor f).jrnl = n.jrnl := rfl
@[simp] theorem mStor_tide (f : Stor → Stor) : (n.mStor f).tide = n.tide := rfl
@[simp] theorem mStor_pair (f : Stor → Stor) : (n.mStor f).pair = n.pair := rfl
@[simp] theorem mStor_ext (f : Stor → Stor) : (n.mStor f).ext = n.ext := rfl
@[simp] theorem mStor_stor (f : Stor → Stor) : (n.mStor f).stor = f n.stor := rfl
@[simp] theorem mStor_sec (f : Stor → Stor) : (n.mStor f).sec = n.sec := rfl
@[simp] theorem mStor_img (f : Stor → Stor) : (n.mStor f).img = n.img := rfl
@[simp] theorem mStor_free (f : Stor → Stor) : (n.mStor f).free = n.free := rfl

@[simp] theorem mSec_sys (f : Sec → Sec) : (n.mSec f).sys = n.sys := rfl
@[simp] theorem mSec_pwr (f : Sec → Sec) : (n.mSec f).pwr = n.pwr := rfl
@[simp] theorem mSec_clk (f : Sec → Sec) : (n.mSec f).clk = n.clk := rfl
@[simp] theorem mSec_rtc (f : Sec → Sec) : (n.mSec f).rtc = n.rtc := rfl
@[simp] theorem mSec_afe (f : Sec → Sec) : (n.mSec f).afe = n.afe := rfl
@[simp] theorem mSec_lane (f : Sec → Sec) : (n.mSec f).lane = n.lane := rfl
@[simp] theorem mSec_loop (f : Sec → Sec) : (n.mSec f).loop = n.loop := rfl
@[simp] theorem mSec_dio (f : Sec → Sec) : (n.mSec f).dio = n.dio := rfl
@[simp] theorem mSec_fab (f : Sec → Sec) : (n.mSec f).fab = n.fab := rfl
@[simp] theorem mSec_call (f : Sec → Sec) : (n.mSec f).call = n.call := rfl
@[simp] theorem mSec_solv (f : Sec → Sec) : (n.mSec f).solv = n.solv := rfl
@[simp] theorem mSec_jrnl (f : Sec → Sec) : (n.mSec f).jrnl = n.jrnl := rfl
@[simp] theorem mSec_tide (f : Sec → Sec) : (n.mSec f).tide = n.tide := rfl
@[simp] theorem mSec_pair (f : Sec → Sec) : (n.mSec f).pair = n.pair := rfl
@[simp] theorem mSec_ext (f : Sec → Sec) : (n.mSec f).ext = n.ext := rfl
@[simp] theorem mSec_stor (f : Sec → Sec) : (n.mSec f).stor = n.stor := rfl
@[simp] theorem mSec_sec (f : Sec → Sec) : (n.mSec f).sec = f n.sec := rfl
@[simp] theorem mSec_img (f : Sec → Sec) : (n.mSec f).img = n.img := rfl
@[simp] theorem mSec_free (f : Sec → Sec) : (n.mSec f).free = n.free := rfl

end Sys2Proof.Machine.Node

namespace Sys2Proof.Machine

@[simp] theorem State.run_eq (s : State) (f : Node → Node) : s.run f = .next ⟨f s.node, s.pending⟩ := rfl

end Sys2Proof.Machine
end

