-- ==== Sys2Proof/Laws/Frames.lean ====
section
/-! SUPPORT. How frames compose, and the frame of each shared operation of Machine/Ops.lean, once. -/

namespace Sys2Proof.Machine

@[simp] theorem Keeps.refl (l : List Part) (n : Node) : Keeps l n n := fun b _ => by cases b <;> rfl

theorem Part.Same.trans {b : Part} {n m k : Node} (h : b.Same n m) (g : b.Same m k) : b.Same n k := by
  cases b <;> exact (Eq.trans g h)

theorem Keeps.trans {l : List Part} {n m k : Node} (h : Keeps l n m) (g : Keeps l m k) : Keeps l n k :=
  fun b hb => (h b hb).trans (g b hb)

theorem Keeps.mono {l r : List Part} {n m : Node} (h : Keeps l n m) (sub : ∀ b ∈ l, b ∈ r) : Keeps r n m :=
  fun b hb => h b fun hl => hb (sub b hl)

/-- A part outside the frame's list stands. -/
theorem Keeps.part {l : List Part} {n m : Node} (h : Keeps l n m) (b : Part) (hb : b ∉ l) : b.Same n m := h b hb

/-- A fold of steps that all keep a frame keeps it. -/
theorem Keeps.foldl {β : Type} {l : List Part} (f : Node → β → Node) (h : ∀ n x, Keeps l n (f n x)) (r : List β) (n : Node) :
    Keeps l n (r.foldl f n) := by
  induction r generalizing n with
  | nil => simp
  | cons x r ih => exact (h n x).trans (ih _)

/-- What a fold of steps keeps, if every step keeps it. -/
theorem foldl_same {β γ : Type} (g : Node → γ) (f : Node → β → Node) (h : ∀ n x, g (f n x) = g n) (r : List β) (n : Node) :
    g (r.foldl f n) = g n := by
  induction r generalizing n with
  | nil => rfl
  | cons x r ih => rw [List.foldl_cons, ih, h]

namespace Node

variable (n : Node)

theorem mSys_keeps (f : Sys → Sys) : Keeps [.sys] n (n.mSys f) := fun b hb => by cases b <;> first | rfl | simp at hb
theorem mPwr_keeps (f : Pwr → Pwr) : Keeps [.pwr] n (n.mPwr f) := fun b hb => by cases b <;> first | rfl | simp at hb
theorem mClk_keeps (f : Clk → Clk) : Keeps [.clk] n (n.mClk f) := fun b hb => by cases b <;> first | rfl | simp at hb
theorem mRtc_keeps (f : Rtc → Rtc) : Keeps [.rtc] n (n.mRtc f) := fun b hb => by cases b <;> first | rfl | simp at hb
theorem mAfe_keeps (f : Afe → Afe) : Keeps [.afe] n (n.mAfe f) := fun b hb => by cases b <;> first | rfl | simp at hb
theorem mLane_keeps (f : Lanes → Lanes) : Keeps [.lane] n (n.mLane f) := fun b hb => by cases b <;> first | rfl | simp at hb
theorem mLoop_keeps (f : Loops → Loops) : Keeps [.loop] n (n.mLoop f) := fun b hb => by cases b <;> first | rfl | simp at hb
theorem mDio_keeps (f : Dio → Dio) : Keeps [.dio] n (n.mDio f) := fun b hb => by cases b <;> first | rfl | simp at hb
theorem mFab_keeps (f : Fab → Fab) : Keeps [.fab] n (n.mFab f) := fun b hb => by cases b <;> first | rfl | simp at hb
theorem mCall_keeps (f : Call → Call) : Keeps [.call] n (n.mCall f) := fun b hb => by cases b <;> first | rfl | simp at hb
theorem mSolv_keeps (f : Solv → Solv) : Keeps [.solv] n (n.mSolv f) := fun b hb => by cases b <;> first | rfl | simp at hb
theorem mJrnl_keeps (f : Jrnl → Jrnl) : Keeps [.jrnl] n (n.mJrnl f) := fun b hb => by cases b <;> first | rfl | simp at hb
theorem mTide_keeps (f : Tide → Tide) : Keeps [.tide] n (n.mTide f) := fun b hb => by cases b <;> first | rfl | simp at hb
theorem mPair_keeps (f : Pair → Pair) : Keeps [.pair] n (n.mPair f) := fun b hb => by cases b <;> first | rfl | simp at hb
theorem mExt_keeps (f : Ext → Ext) : Keeps [.ext] n (n.mExt f) := fun b hb => by cases b <;> first | rfl | simp at hb
theorem mStor_keeps (f : Stor → Stor) : Keeps [.stor] n (n.mStor f) := fun b hb => by cases b <;> first | rfl | simp at hb
theorem mSec_keeps (f : Sec → Sec) : Keeps [.sec] n (n.mSec f) := fun b hb => by cases b <;> first | rfl | simp at hb

theorem setNow_keeps (t : Nat) : Keeps [.rtc] n (n.setNow t) := mRtc_keeps _ _
theorem irqEvent_keeps (i : Nat) : Keeps [.sys] n (n.irqEvent i) := mSys_keeps _ _
theorem sendFrame_keeps (d : BitVec 16) (l : RingLoad) : Keeps [.tide] n (n.sendFrame d l) := mTide_keeps _ _
theorem laterGap_keeps (g : GapDue) : Keeps [.jrnl] n (n.laterGap g) := mJrnl_keeps _ _
theorem flashAdd_keeps (o : FlashOp) : Keeps [.stor] n (n.flashAdd o) := mStor_keeps _ _
theorem ckpt_keeps (k i v : Nat) : Keeps [.stor] n (n.ckpt k i v) := flashAdd_keeps n _
theorem pushRam_keeps (r : Record) (own : Bool) : Keeps [.jrnl] n (n.pushRam r own) := mJrnl_keeps _ _

/-- A record issued changes the journal alone. -/
theorem issueNow_keeps (b : RecBody) : Keeps [.jrnl] n (n.issueNow b) := by
  unfold issueNow
  exact (pushRam_keeps n _ true).trans (mJrnl_keeps _ _)

/-- What a notice can change: it is counted, sent or held (16 R488). -/
theorem notify_keeps (b : RecBody) : Keeps [.jrnl, .tide, .pair] n (n.notify b) := by
  unfold notify
  split
  · simp
  · split
    · simp
    · split
      · exact (sendFrame_keeps n _ _).mono (by simp)
      · dsimp only
        split
        · exact ((mJrnl_keeps n _).mono (by simp)).trans ((mPair_keeps _ _).mono (by simp))
        · exact (mPair_keeps n _).mono (by simp)

theorem later_keeps (b : RecBody) : Keeps [.jrnl, .tide, .pair] n (n.later b) := by
  unfold later
  split
  · exact (mJrnl_keeps n _).mono (by simp)
  · exact notify_keeps n b

theorem stepOne_keeps (b : RecBody) : Keeps [.jrnl, .tide, .pair] n (n.stepOne b) := by
  unfold stepOne
  split
  · exact (mJrnl_keeps n _).mono (by simp)
  · exact notify_keeps n b

theorem issue_keeps (b : RecBody) : Keeps [.jrnl, .tide, .pair] n (n.issue b) := by
  unfold issue
  split
  · exact (issueNow_keeps n b).mono (by simp)
  · exact notify_keeps n b

theorem issueGap_keeps (g : GapDue) : Keeps [.jrnl] n (n.issueGap g) :=
  Keeps.foldl _ (fun m _ => (issueNow_keeps m _).trans (mJrnl_keeps _ _)) _ n

/-- A record of no step waits in the journal of a node that issues (14 R432). -/
theorem later_own (b : RecBody) (h : n.ownDuty = true) :
    n.later b = n.mJrnl fun j => { j with due := j.due ++ [b] } := by simp [later, h]

theorem stepOne_own (b : RecBody) (h : n.ownDuty = true) :
    n.stepOne b = n.mJrnl fun j => { j with firstRecs := j.firstRecs ++ [b] } := by simp [stepOne, h]

/-- The reads that rest on the image and the node number alone. -/
theorem hashTag_of_img {n m : Node} (h : m.img = n.img) : m.hashTag = n.hashTag := by simp [hashTag, h]

theorem partner_of {n m : Node} (h : m.img = n.img) (g : m.sys = n.sys) : m.partner = n.partner := by
  simp [partner, ringCfg, h, g]

theorem ownDuty_of {n m : Node} (h : m.img = n.img) (g : m.sys = n.sys) (p : m.pair = n.pair) : m.ownDuty = n.ownDuty := by
  simp [ownDuty, paired, partner_of h g, p]

end Node

end Sys2Proof.Machine
end

