-- ==== Sys2Proof/Laws/Tables.lean ====
section
/-! SUPPORT. The laws of the sparse tables: a read after a write, and the canonical form kept. -/

namespace Sys2Proof.Machine

variable {α : Type} [DecidableEq α] {d : α}

theorem twfFrom_mono {m : Tab α} {lo hi : Nat} (h : twfFrom d hi m = true) (le : lo ≤ hi) : twfFrom d lo m = true := by
  cases m with
  | nil => rfl
  | cons e r =>
    simp only [twfFrom, Bool.and_eq_true, decide_eq_true_eq] at h ⊢
    exact ⟨⟨le_trans le h.1.1, h.1.2⟩, h.2⟩

/-- A key below every key listed reads as the default. -/
theorem tget_below {m : Tab α} {lo k : Nat} (h : twfFrom d lo m = true) (lt : k < lo) : tget d m k = d := by
  cases m with
  | nil => rfl
  | cons e r =>
    simp only [twfFrom, Bool.and_eq_true, decide_eq_true_eq] at h
    have : k < e.1 := lt_of_lt_of_le lt h.1.1
    simp [tget, this, Nat.ne_of_lt this]

theorem twfFrom_tset {m : Tab α} {lo k : Nat} {v : α} (h : twfFrom d lo m = true) (le : lo ≤ k) :
    twfFrom d lo (tset d m k v) = true := by
  induction m generalizing lo with
  | nil => by_cases hv : v = d <;> simp [tset, twfFrom, hv, le]
  | cons e r ih =>
    obtain ⟨j, w⟩ := e
    simp only [twfFrom, Bool.and_eq_true, decide_eq_true_eq] at h
    obtain ⟨⟨hl, hw⟩, hr⟩ := h
    rcases Nat.lt_trichotomy k j with hk | hk | hk
    · by_cases hv : v = d <;> simp [tset, twfFrom, hk, hv, hl, hw, hr, le, Nat.succ_le_of_lt hk]
    · subst hk
      by_cases hv : v = d
      · simpa [tset, hv] using twfFrom_mono hr (Nat.le_succ_of_le hl)
      · simp [tset, twfFrom, hv, hl, hr]
    · have := ih hr (Nat.succ_le_of_lt hk)
      simp [tset, twfFrom, Nat.not_lt_of_lt hk, Nat.ne_of_gt hk, hl, hw, this]

/-- A write keeps the canonical form. -/
theorem twf_tset {m : Tab α} (h : twf d m = true) (k : Nat) (v : α) : twf d (tset d m k v) = true :=
  twfFrom_tset h (Nat.zero_le k)

theorem twf_tupd {m : Tab α} (h : twf d m = true) (k : Nat) (f : α → α) : twf d (tupd d m k f) = true := twf_tset h k _

theorem twf_nil : twf d ([] : Tab α) = true := rfl

/-- A run of writes keeps the canonical form. -/
theorem twf_foldl_tset {β : Type} {m : Tab α} (h : twf d m = true) (l : List β) (k : β → Nat) (v : β → α) :
    twf d (l.foldl (fun m x => tset d m (k x) (v x)) m) = true := by
  induction l generalizing m with
  | nil => exact h
  | cons x r ih => exact ih (twf_tset h _ _)

theorem tget_tset_from {m : Tab α} {lo k : Nat} (h : twfFrom d lo m = true) (v : α) : tget d (tset d m k v) k = v := by
  induction m generalizing lo with
  | nil => by_cases hv : v = d <;> simp [tset, tget, hv]
  | cons e r ih =>
    obtain ⟨j, w⟩ := e
    simp only [twfFrom, Bool.and_eq_true, decide_eq_true_eq] at h
    rcases Nat.lt_trichotomy k j with hk | hk | hk
    · by_cases hv : v = d <;> simp [tset, tget, hk, hv, Nat.ne_of_lt hk]
    · subst hk
      by_cases hv : v = d
      · simp [tset, hv, tget_below h.2 (Nat.lt_succ_self k)]
      · simp [tset, tget, hv]
    · simp [tset, tget, Nat.not_lt_of_lt hk, Nat.ne_of_gt hk, ih h.2]

/-- A read after a write to the same key gives the value written. -/
theorem tget_tset_same {m : Tab α} (h : twf d m = true) (k : Nat) (v : α) : tget d (tset d m k v) k = v := tget_tset_from h v

theorem tget_tset_other_from {m : Tab α} {lo k i : Nat} (h : twfFrom d lo m = true) (ne : i ≠ k) (v : α) :
    tget d (tset d m k v) i = tget d m i := by
  induction m generalizing lo with
  | nil => by_cases hv : v = d <;> simp [tset, tget, hv, ne]
  | cons e r ih =>
    obtain ⟨j, w⟩ := e
    simp only [twfFrom, Bool.and_eq_true, decide_eq_true_eq] at h
    rcases Nat.lt_trichotomy k j with hk | hk | hk
    · by_cases hv : v = d
      · simp [tset, hk, hv]
      · rcases Nat.lt_or_ge i k with hi | hi
        · have hij : i < j := lt_trans hi hk
          simp [tset, tget, hk, hv, ne, hi, hij, Nat.ne_of_lt hij]
        · simp [tset, tget, hk, hv, ne, Nat.not_lt_of_le hi]
    · subst hk
      by_cases hv : v = d
      · rcases Nat.lt_or_ge i k with hi | hi
        · simp [tset, tget, hv, ne, hi, tget_below h.2 (lt_trans hi (Nat.lt_succ_self k))]
        · simp [tset, tget, hv, ne, Nat.not_lt_of_le hi]
      · simp [tset, tget, hv, ne]
    · simp only [tset, Nat.not_lt_of_lt hk, Nat.ne_of_gt hk, if_false, tget]
      simp [ih h.2]

/-- A write leaves every other key alone. -/
theorem tget_tset_other {m : Tab α} (h : twf d m = true) {k i : Nat} (ne : i ≠ k) (v : α) :
    tget d (tset d m k v) i = tget d m i := tget_tset_other_from h ne v

end Sys2Proof.Machine
end

