-- ==== Sys2Proof/WellFormed.lean ====
section
/-! DEFINITION. Which commands can arrive: an operand held as a number fits the field that carries it, as its chapter gives the
field's width. Operands whose type already fixes their range need no check. -/

namespace Sys2Proof

/-- A number of `w` bits. -/
def fits (w n : Nat) : Bool := decide (n < 2 ^ w)

/-- A record's fields fit 14 Table 14.1. -/
def Record.wf (r : Record) : Bool :=
  fits 48 r.seq && decide (r.seq ≠ 0) && fits 4 r.node && fits 4 r.space && fits 8 r.type && fits 64 r.time && fits 16 r.source &&
    fits 8 r.old && fits 8 r.new && decide (r.detail.length = 10)

/-- A beacon's timestamps are node times (15 R453). -/
def Beacon.wf (b : Beacon) : Bool :=
  fits 4 b.node && decide (b.ringState ≤ 5) && fits 64 b.t1 && fits 64 b.t2 && fits 64 b.t3 && fits 64 b.t4

/-- A token names its master (15 Table 15.2). -/
def TokenFrame.wf (t : TokenFrame) : Bool := fits 4 t.master && fits 16 t.gen && fits 64 t.boundary

/-- A STATUS frame's ring state, trust and role (15 R464). -/
def StatusFrame.wf (f : StatusFrame) : Bool := decide (f.ringState ≤ 5) && fits 2 f.trust && decide (f.role ≤ 6)

/-- A TIME frame's times (15 R465). -/
def TimeFrame.wf (f : TimeFrame) : Bool := fits 64 f.tx && decide (f.txNs < 1000) && fits 8 f.leapCnt

/-- A forwarded command's fields (10 R326), a notice's body (16 R488), or a boundary (02 R77, 07 Table 7.6). -/
def CommandLoad.wf : CommandLoad → Bool
  | .forward owner c => fits 4 owner && fits 8 c.op && fits 4 c.orig && fits 16 c.cmdId
  | .activation _ b => fits 64 b
  | .laneSync _ b => fits 64 b
  | .notice b => fits 8 b.type && fits 16 b.source && fits 8 b.old && fits 8 b.new && decide (b.detail.length ≤ 10)

/-- An undefined CMD is none of 18 R556. -/
def FrameForm.wf : FrameForm → Bool
  | .badCmd cmd _ => decide (2 < cmd.toNat)
  | _ => true

/-- The commands that can arrive. -/
def Instr.wf : Instr → Bool
  | .secUnlock _ t => fits 64 t
  | .vinLow t => fits 64 t
  | .ovpTrip t => fits 64 t
  | .holdupEntry t => fits 64 t
  | .rcTrimWindow _ x r => fits 16 x && fits 16 r
  | .resultPublish _ _ _ _ t => fits 64 t
  | .syncReset _ t => fits 64 t
  | .impedanceCheckEnd z => fits 20 z.zloop && fits 16 z.ziso && decide (-1800 ≤ z.phase) && decide (z.phase ≤ 1800)
  | .submit _ t => fits 64 t
  | .jobEnd t => fits 64 t
  | .deadlineExpiry t => fits 64 t
  | .ramEccError q => fits 48 q
  | .beaconRx _ b => b.all Beacon.wf
  | .token t => TokenFrame.wf t
  | .status _ _ f => StatusFrame.wf f
  | .time _ _ _ f rx rxNs => TimeFrame.wf f && fits 64 rx && decide (rxNs < 1000)
  | .records _ _ l => l.all Record.wf
  | .command _ _ c => CommandLoad.wf c
  | .epochData _ _ _ _ tag idx count bytes => fits 32 tag && decide (idx < count) && decide (bytes.length ≤ 1024)
  | .epochCommit _ _ _ _ tag _ _ _ last fo => fits 32 tag && fits 48 last && fits 48 fo
  | .epochAck _ _ r tag _ => fits 8 r && fits 32 tag
  | .highReply _ _ _ n => fits 48 n
  | .acnSentence _ ident inst _ => decide (ident < 10000000) && decide (inst < 1000000)
  | .isoRequest p => fits 18 p
  | .alertResponse ident occ cmd => fits 16 ident && fits 8 occ && fits 8 cmd
  | .readCoils _ u a c => fits 8 u && fits 16 a && fits 16 c
  | .readDiscreteInputs _ u a c => fits 8 u && fits 16 a && fits 16 c
  | .readHoldingRegisters _ u a c => fits 8 u && fits 16 a && fits 16 c
  | .readInputRegisters _ u a c => fits 8 u && fits 16 a && fits 16 c
  | .writeSingleCoil _ u a _ => fits 8 u && fits 16 a
  | .writeSingleRegister _ u a _ => fits 8 u && fits 16 a
  | .writeMultipleCoils _ u a l => fits 8 u && fits 16 a && fits 16 l.length
  | .writeMultipleRegisters _ u a l => fits 8 u && fits 16 a && fits 16 l.length
  | .readWriteRegisters _ u ra rc wa l => fits 8 u && fits 16 ra && fits 16 rc && fits 16 wa && fits 16 l.length
  | .replayRequest _ _ f c => fits 48 f && fits 16 c
  | .portStateChange _ _ t => fits 64 t
  | .nop (_, _, f) => FrameForm.wf f
  | .read _ (_, f) => FrameForm.wf f
  | .write _ _ f => FrameForm.wf f
  | _ => true

end Sys2Proof
end

