-- ==== Sys2Proof/Tests/Slice0.lean ====
section
/-! SUPPORT. Tests of the model, each on a small state built here and each expected result taken from the rule named beside it; the
WellFormed smoke; and a witness for the hypotheses of every statement. -/

namespace Sys2Proof.Tests

set_option Elab.async false

open Sys2Proof Sys2Proof.Machine Sys2Proof.Machine.Node

/-- The node that a command on its own leaves. -/
def after (c : Instr) (n : Node) : Node :=
  match exec c ⟨n, []⟩ with
  | .next t => t.node
  | _ => n

/-! A small image: a scanned lane with two inputs, an island, three pins, an alarm point with its group, tunables, a ladder and a watch, two
host templates, three ports. -/

def anInput (num : Nat) (sole : Bool) : InputCfg :=
  ⟨num, 3, 0, 0, sole, 60, 5000, 5, 100, 100, 100, true, 60, 0, 200, 10, 200, 0, false, .none⟩
def aLane : LaneCfg := ⟨0, 2, 0, 5, [4, 5], 0⟩
def anIsland : IslandCfg := ⟨0, .zLoop 4, 0, 0, 0, 0, 100⟩
def aPoint : PointCfg := ⟨1, .dioIn 3, .on1, 0, 0, 2, 1, 0, 1, false, some 0, none, false, false, .hold, 20, 1000, 7⟩
def aTune : TuneCfg := ⟨1, 4, 0, 100, none, false⟩
def aLadder : LadderCfg := ⟨0, [.point 1], true, false, [⟨[(.duty, false)], 600⟩]⟩
def aWatch : WatchCfg := ⟨none, none, none, none, 600, 60⟩
def aTemplate : TemplateCfg :=
  ⟨0, true, 1, 2, 4, 4, 0, 0, none, none, 1000, false, 0, none, 0, 0, 0, [], [], [], [], 1, 0⟩
def aJob (slot queue deadline : Nat) (rerun : Bool) : Job :=
  { slot := slot, gen := 1, queue := queue, cfg := aTemplate, b := 1, m := 1, n := 1, inB := 0, outB := 8, deadline := deadline, rerun := rerun }
def aPort (num kind : Nat) : PortCfg := ⟨num, kind, 7, 3, true, false, 0, 17, 0, [1], [0], 10, 500, [0x45, 0x52], 1, 0, 0, 0⟩
def anAlert : AlertCfg := ⟨[0, 3, 4], 0, .point 1, some 5, 100, 1, 9, 1, 0, [], false⟩

def anImage (partner : Option Nat) : Image :=
  ⟨⟨⟨[], [], []⟩, ⟨0, 0xFFFFFFFF, 0xFFFFFFFF, 0⟩, ⟨true, true, true, 0, 0, 0xF⟩, [.lane aLane, .input (anInput 4 false), .input (anInput 5 true)],
    [.island anIsland],
    [.pin ⟨3, false, false, true, true, none⟩, .pin ⟨8, true, false, false, false, some .call⟩],
    [.point aPoint, .group ⟨0, true⟩, .order [.point 1, .group 0]],
    [aTune], [.engineer ⟨0, 8, none, true⟩, .engineer ⟨1, 8, none, false⟩, .dutyAtStart 0, .ladder aLadder, .watch aWatch],
    [.template aTemplate, .region 0 4],
    [.port (aPort 0 1), .port (aPort 2 3), .port (aPort 3 4), .port (aPort 4 5), .alert anAlert, .modbus ⟨.coil, 0, .ackPoint 0 1⟩,
      .modbus ⟨.holding, 0, .tunable 1 4⟩, .modbus ⟨.coil, 1, .ackGroup 0 0⟩, .modbus ⟨.coil, 2, .callAck 0 0⟩],
    [⟨0, 100, true, 3, partner⟩]⟩, 0x1234, 3, 1⟩

/-- An unpaired node in Run mode. -/
def solo : Node :=
  { img := some (anImage none)
    pwr := { phase := .done }
    clk := { xtal := .ready, pll := .nominal, rc := .ready, lse := .ready, core := { st := .nominal }, field := { st := .nominal },
             solv := { st := .nominal } }
    rtc := { now := 2000000, lastTick := some 2000000 }
    loop := { framesOn := true }
    stor := { state := 1 }
    ext := { ports := [(0, { state := 1 }), (2, { state := 1 }), (3, { state := 1 }), (4, { state := 1 })] }
    call := { present := 1 } }

/-- A node of a pair, in a ring with its partner, in the role given. -/
def member (role partnerRole : Nat) : Node :=
  { solo with
    img := some (anImage (some 1))
    pair := { role := role }
    tide := { st := .inserted, view := 3, peers := [(1, { high := some 7, status := some ⟨3, 3, true, false, partnerRole, 0, 3⟩ })] } }

/-- A node in a ring, unpaired, that has passed on frame 7 of node 1. -/
def ringed : Node := { solo with tide := (member 0 0).tide }

/-- A node in the phases before the port serves. -/
def reset : Node := State.reset.node

def maint (n : Node) : Node := n.mSec fun s => { s with maint := true }
def aRecord (seq : Nat) : Record := ⟨seq, 0, 0, 1, 5, 0, 0, 0, List.replicate 10 0⟩

/-! The WellFormed smoke: each check refuses a term that breaks it. -/

theorem wf_refuses_long_times :
    ([Instr.secUnlock 0 (2 ^ 64), .vinLow (2 ^ 64), .ovpTrip (2 ^ 64), .holdupEntry (2 ^ 64), .resultPublish 0 0 false false (2 ^ 64),
      .syncReset 0 (2 ^ 64), .submit 1 (2 ^ 64), .jobEnd (2 ^ 64), .deadlineExpiry (2 ^ 64),
      .portStateChange 0 .up (2 ^ 64)].all fun c => !c.wf) = true := by decide

theorem wf_refuses_wide_numbers :
    ([Instr.rcTrimWindow 0 65536 0, .rcTrimWindow 0 0 65536, .impedanceCheckEnd ⟨2 ^ 20, 0, 0⟩, .impedanceCheckEnd ⟨0, 1801, 0⟩,
      .impedanceCheckEnd ⟨0, -1801, 0⟩, .impedanceCheckEnd ⟨0, 0, 65536⟩, .ramEccError (2 ^ 48), .isoRequest (2 ^ 18),
      .acnSentence 0 10000000 0 0, .acnSentence 0 0 1000000 0, .alertResponse 65536 0 0, .alertResponse 0 256 0, .alertResponse 0 0 256,
      .replayRequest 0 0 (2 ^ 48) 1, .replayRequest 0 0 0 65536].all fun c => !c.wf) = true := by decide

theorem wf_refuses_a_bad_cmd_that_is_none :
    ([Instr.nop (0, 0, .badCmd 2 0), .read 0 (0, .badCmd 0 0), .write 0 0 (.badCmd 1 0)].all fun c => !c.wf) = true ∧
      (Instr.nop (0, 0, .badCmd 3 0)).wf = true := by decide

theorem wf_refuses_ill_formed_frames :
    ([Instr.beaconRx .ta (some ⟨16, 0, false, false, 0, 0, 0, 0⟩), .beaconRx .ta (some ⟨0, 6, false, false, 0, 0, 0, 0⟩),
      .beaconRx .ta (some ⟨0, 0, false, false, 2 ^ 64, 0, 0, 0⟩), .token ⟨16, false, false, 0, 0, 0, 0⟩, .token ⟨0, false, false, 65536, 0, 0, 0⟩,
      .status 1 0 ⟨6, 0, false, false, 0, 0, 0⟩, .status 1 0 ⟨0, 4, false, false, 0, 0, 0⟩, .status 1 0 ⟨0, 0, false, false, 7, 0, 0⟩,
      .time 1 0 .ta ⟨2 ^ 64, 0, 0, false, 0, 0⟩ 0 0, .time 1 0 .ta ⟨0, 1000, 0, false, 0, 0⟩ 0 0, .time 1 0 .ta ⟨0, 0, 0, false, 0, 0⟩ 0 1000,
      .records 1 0 [aRecord 0], .records 1 0 [{ aRecord 1 with detail := [] }], .records 1 0 [{ aRecord 1 with node := 16 }]].all
        fun c => !c.wf) = true := by decide

set_option maxRecDepth 8000 in
theorem wf_refuses_ill_formed_loads :
    ([Instr.command 1 0 (.forward 16 ⟨1, 0, 0, 0, 0, 1, 0⟩), .command 1 0 (.forward 0 ⟨256, 0, 0, 0, 0, 1, 0⟩),
      .command 1 0 (.activation 0 (2 ^ 64)), .command 1 0 (.laneSync 0 (2 ^ 64)), .command 1 0 (.notice ⟨256, 0, 0, 0, []⟩),
      .command 1 0 (.notice ⟨0, 0, 0, 0, List.replicate 11 0⟩), .epochData 1 0 false false (2 ^ 32) 0 1 [],
      .epochData 1 0 false false 0 1 1 [], .epochData 1 0 false false 0 0 1 (List.replicate 1025 0),
      .epochCommit 1 0 false false (2 ^ 32) 1 0 0 0 0, .epochCommit 1 0 false false 0 1 0 0 (2 ^ 48) 0, .epochAck 1 0 256 0 0,
      .highReply 1 0 0 (2 ^ 48)].all fun c => !c.wf) = true := by decide

theorem wf_refuses_ill_formed_requests :
    ([Instr.readCoils 0 256 0 1, .readCoils 0 0 65536 1, .readDiscreteInputs 0 256 0 1, .readHoldingRegisters 0 0 65536 1,
      .readInputRegisters 0 0 0 65536, .writeSingleCoil 0 256 0 true, .writeSingleRegister 0 0 65536 0, .writeMultipleCoils 0 256 0 [],
      .writeMultipleRegisters 0 0 65536 [], .readWriteRegisters 0 256 0 1 0 []].all fun c => !c.wf) = true := by decide

set_option maxRecDepth 8000 in
theorem wf_takes_the_edges :
    ([Instr.vinLow (2 ^ 64 - 1), .impedanceCheckEnd ⟨2 ^ 20 - 1, -1800, 65535⟩, .records 1 0 [aRecord (2 ^ 48 - 1)], .isoRequest (2 ^ 18 - 1),
      .acnSentence 0 9999999 999999 0, .epochData 1 0 false false (2 ^ 32 - 1) 0 1 (List.replicate 1024 0), .tickBoundary].all
        (·.wf)) = true := by decide

/-- The table gives no row bits, so no word spells a command. -/
theorem test_no_word_spells_a_command : decodeTableWord 32 0 = none := rfl

/-! Solver arithmetic: the rows of 13 Tables 13.3 and 13.4 (R419), as output words, status word and ITER. -/

def theXs : List B64 :=
  [0, 0x8000000000000000, 1, 0x0010000000000000, 0x7FEFFFFFFFFFFFFF, 0x7FF0000000000000, 0xFFF0000000000000, b64NaN]
def oneByOne (op : Nat) (w : B64 → List B64) : List (List B64 × Nat) :=
  theXs.map fun x => let e := matrixEnd ⟨op, 1, 1, 3, 0, 0, none, none⟩ (w x) none; (e.out, e.status)
/-- SINGULAR with cause zero and DZ, or with cause NaN or negative and NV. -/
def singZ : Nat := 0x4082
def singN : Nat := 0xC102
def nans (k : Nat) : List B64 := List.replicate k b64NaN

theorem test_table_13_3_chol : oneByOne 1 (fun x => [x]) =
    [(nans 1, singZ), (nans 1, singZ), ([0x1E60000000000000], 0), ([0x2000000000000000], 0), ([0x5FEFFFFFFFFFFFFF], 0x10),
      ([0x7FF0000000000000], 0), (nans 1, singN), (nans 1, singN)] := by decide +kernel

theorem test_table_13_3_lu_qr : oneByOne 2 (fun x => [x]) =
    [([b64NaN, 0xFFFFFFFF], singZ), ([b64NaN, 0xFFFFFFFF], singZ), ([1, 0], 0), ([0x0010000000000000, 0], 0),
      ([0x7FEFFFFFFFFFFFFF, 0], 0), ([0x7FF0000000000000, 0], 0), ([0xFFF0000000000000, 0], 0), ([b64NaN, 0xFFFFFFFF], singN)] ∧
    oneByOne 3 (fun x => [x]) = theXs.map fun x => ([x, 0], 0) := by decide +kernel

theorem test_table_13_3_solves : ∀ op ∈ [4, 5], oneByOne op (fun x => [x, b64One]) =
    [(nans 1, singZ), (nans 1, singZ), ([0x7FF0000000000000], 0x50), ([0x7FD0000000000000], 0), ([0x0004000000000000], 0x30), ([0], 0),
      ([0x8000000000000000], 0), (nans 1, singN)] := by decide +kernel

theorem test_table_13_4_lsq : oneByOne 6 (fun x => [x, b64One]) =
    [(nans 3, singZ), (nans 3, singZ), ([0x7FF0000000000000, 0xFFF0000000000000, 0x7FF0000000000000], 0x50),
      ([0x7FD0000000000000, 0, 0], 0), ([0x0004000000000000, 0x3CA0000000000000, 0x3CA0000000000000], 0x30),
      ([0, b64NaN, b64NaN], 0x100), ([0x8000000000000000, b64NaN, b64NaN], 0x100), (nans 3, singN)] := by decide +kernel

theorem test_table_13_4_iref : (oneByOne 7 (fun x => [x, b64One]) =
    [(nans 2, singZ), (nans 2, singZ), ([0x7FF0000000000000, 0x7FF0000000000000], 0x50), ([0x7FD0000000000000, 0], 0),
      ([0x0004000000000000, 0x3CA0000000000000], 0x30), ([0, b64NaN], 0x100), ([0x8000000000000000, b64NaN], 0x100),
      (nans 2, singN)]) ∧
    (theXs.map fun x => (matrixEnd ⟨7, 1, 1, 3, 0, 0, none, none⟩ [x, b64One] none).iter) = [0, 0, 0, 1, 1, 0, 0, 0] := by decide +kernel

theorem test_table_13_4_gn : oneByOne 8 (fun x => [x, b64One, 0]) =
    [(nans 2, singZ), (nans 2, singZ), ([0xFFF0000000000000, 0x7FF0000000000000], 0x50), ([0xFFD0000000000000, 0x7FD0000000000000], 0),
      ([0x8004000000000000, 0x0004000000000000], 0x30), ([0, 0], 0), ([0, 0], 0), (nans 2, singN)] := by decide +kernel

theorem test_table_13_4_kupd : oneByOne 9 (fun x => [0, b64One, b64One, x, b64One]) =
    [([b64One, 0], 0), ([b64One, 0], 0), ([b64One, 1], 0x10), ([b64One, 0x0010000000000000], 0x10),
      ([0x0004000000000000, b64One], 0x30), ([0, b64NaN], 0x100), (nans 2, singN), (nans 2, singN)] := by decide +kernel

/-- 13 Table 13.6: the completion entry of job 0x5D, and the status words of its matrices 17 and 40. -/
theorem test_table_13_6_words :
    entryE0 ⟨13, 0x5D, 8, 2, 1, false, false, 17, 0, 118⟩ = 0x8012085D ∧ 2 + 1 * 16 + 1 * 2 ^ 9 + 2 * 2 ^ 14 = 0x8212 ∧
      (({ solo with solv := { cq2 := [⟨13, 0x5D, 8, 2, 1, false, false, 17, 0, 118⟩] } } : Node).cqE1 2) = 0x00760011 := by decide +kernel

/-- 12, Worked case: the costs of T00, T01 and T08 in cycles. -/
theorem test_template_costs :
    (jobCost 6 1 16 10 0, jobCost 9 8 1 2 0, jobCost 6 64 32 4 0) = (1756, 1584, 24512) := by decide +kernel

/-! The node, the loader and power (01 to 03). -/

/-- 01 R21, R24: a tick stands at the next multiple of 50 ms, counts, and empties the command queue. -/
theorem test_tick_boundary :
    let m := after .tickBoundary { solo with rtc := { now := 2000001 } }
    (m.rtc.now, m.rtc.lastTick, m.fab.tick, m.fab.queue) = (2050000, some 2050000, 1, []) := by decide +kernel

/-- 05 R175, 12 R377: an epoch boundary stands at the next multiple of 1 s, and the counts against HOST_MAX restart. -/
theorem test_epoch_boundary :
    let m := after .epochBoundary { solo with rtc := { now := 2000001 }, solv := { tmpl := [(0, { hostUsed := 3 })] } }
    (m.rtc.now, (m.tmplSt 0).hostUsed) = (3000000, 0) := by decide +kernel

/-- 02 R62, R63: the two unlock values in order within 10 ms enter maintenance mode; a wrong one restarts the sequence. -/
theorem test_unlock_sequence :
    let n := after (.secUnlock 0x00004B56 5) (reset.mSec fun s => { s with keySw := true })
    (n.sec.unlockStep, n.sec.maint, (after (.secUnlock 0x0000564B 10005) n).sec.maint, (after (.secUnlock 0x0000564B 10006) n).sec.maint,
      (after (.secUnlock 1 5) n).sec.restarts) = (true, false, true, false, 1) := by decide +kernel

/-- 20 R603: 100 Ω or less is closed, 10 kΩ or more open. -/
theorem test_key_switch_thresholds :
    ((after (.keySwitchChange 100) reset).sec.keyClosed,
      (after (.keySwitchChange 10000) (reset.mSec fun s => { s with keyClosed := true })).sec.keyClosed) = (true, false) := by decide

/-- 02 Table 2.3: ERASE outside maintenance mode is refused NOT_MAINTENANCE; OPEN of a bank that is not EMPTY, BANK_STATE. -/
theorem test_loader_refusals :
    ((after .erase solo).sec.result, (after .openBank ((maint solo).mSec fun s => { s with b := { state := 3 } })).sec.result,
      (after .closeBank solo).sec.result) = (0x82, 0x83, 0x83) := by decide +kernel

/-- 02 R76: ACTIVATE of the running image is refused SAME_IMAGE. -/
theorem test_activate_same_image :
    (after .activate ((maint solo).mSec fun s => { s with b := { state := 3, hash := 0x1234 } })).sec.result = 0x85 := by decide +kernel

/-- 02 R74, Table 2.6: an ACTIVATE accepted at 31.420 s is pending for 33 s. -/
theorem test_activate_second_boundary :
    (after .activate { (maint solo).mSec fun s => { s with b := { state := 3, hash := 7 } } with rtc := { now := 31420000 } }).sec.act =
      some ⟨true, 33000000, true⟩ := by decide +kernel

/-- 18 R570, 00 R8: image data goes to the bank lowest byte first. -/
theorem test_image_bytes :
    let n := after (.secImgData 0x04030201) ((maint solo).mSec fun s => { s with b := { state := 1 }, offset := 16 })
    (n.sec.offset, (List.range 4).map fun i => tget 0xFF n.sec.b.bytes (16 + i)) = (20, [1, 2, 3, 4]) := by decide +kernel

/-- 03 R105, R107: Hold-up begins at t0 with HOLDUP_RDY clear, and the supply back before step 4 returns to Run. -/
theorem test_holdup_enters_and_returns :
    let n := after (.vinLow 2000100) (solo.mPwr fun p => { p with rdy := true })
    ((n.pwr.mode, n.pwr.t0, n.pwr.rdy), (after .supplyValid n).pwr.mode, (after .supplyValid n).pwr.solvHold) =
      ((.holdup, 2000100, false), .run, true) := by decide +kernel

/-- 03 Table 3.4: Deep sleep outside maintenance mode is refused with 2; a mode the node is in already, with 6. -/
theorem test_mode_refusals : ((after .modeDeepSleep solo).pwr.result, (after .modeRun solo).pwr.result) = (2, 6) := by decide +kernel

/-- 03 Table 3.7: phase A starts the RC count; with RC READY it ends in phase B, and the crystal counts. -/
theorem test_phase_a :
    ((after .powerUpSequence reset).clk.rc,
      (after .powerUpSequence (reset.mClk fun c => { c with rc := .ready })).pwr.phase,
      (after .powerUpSequence (reset.mClk fun c => { c with rc := .ready })).clk.xtal) = (.counting, .b, .counting) := by decide +kernel

/-- 20 R604, 03 R121: bad strap parity leaves the node unconfigured with code 5. -/
theorem test_bad_straps :
    let m := after .startupBankCheck ((reset.mPwr fun p => { p with phase := .d }).mSys fun s => { s with strapBad := true })
    (m.sys.unconfigured, m.sec.code) = (true, 5) := by decide +kernel

/-! Clocks and time (04, 05). -/

/-- 04, Worked case: the crystal stops on a node with FIELD on Breakwater and CORE and SOLV on Coast. -/
theorem test_crystal_stop :
    let n := { solo with img := (anImage none) |> fun i => some { i with sec := { i.sec with clock := { i.sec.clock with policy := 2 } } } }
    let m := after (.xtalPllTrip false) n
    ((m.clk.xtal, m.clk.pll, m.clk.lockCoast, m.clk.xtalFails), (m.clk.field.st, m.clk.field.clamp), (m.clk.core.sw, m.clk.core.ratio)) =
      ((.failed, .locking, true, 1), (.slack, true), (some .rc, 4)) := by decide +kernel

/-- 04, Worked case: two falling edges later CORE is in BRIDGE at ÷8. -/
theorem test_switch_to_bridge :
    let n := solo.mClk fun c => { c with pll := .locking, lockCoast := true, core := { st := .nominal, ratio := 4, sw := some .rc } }
    let m := after (.clockSwitchDone .core) n
    (m.clk.core.st, m.clk.core.ratio, m.clk.core.sw) = (.bridge, 4, none) := by decide +kernel

/-- 04 R138: a Flood steps from ÷8 down to ÷2. -/
theorem test_flood_steps :
    ([4, 3, 2, 1].map fun r => (after (.rampStep .solv) (solo.mClk fun c => { c with
      pll := .coast, solv := { st := .bridge, ratio := r, ramp := some true } })).clk.solv.ratio) = [3, 2, 1, 0] := by decide +kernel

/-- 04 Table 4.11: CLK_CLKOUT with SEL 4, 100 MHz, needs a divisor of 2 or more. -/
theorem test_clkout_limit :
    ((after (.clkoutWrite 0x00000004) solo).clk.clkoutErr, (after (.clkoutWrite 0x00010004) solo).clk.sel) = (true, 4) := by decide +kernel

/-- 05, Worked case: 4.2 s ahead is a backward slew; 4.2 s behind is a step of 4 s at the next epoch boundary, with 0.2 s left to slew. -/
theorem test_corrections :
    let n := { solo with rtc := { now := 10200000, halt := true, reference := true } }
    let b := after .rtcHaltClear (n.mRtc fun r => { r with setSec := 6 })
    let f := after .rtcHaltClear { n with rtc := { now := 10800000, halt := true, reference := true, setSec := 15 } }
    ((b.rtc.slewing, b.rtc.slewRem, b.rtc.stepPend), (f.rtc.stepPend, f.rtc.slewRem)) =
      ((2, -4200000, none), (some (4, 11000000), 200000)) := by decide +kernel

/-- 05 R190: a set more than an hour back is refused with 2, and HALT held for 100 ms with 3. -/
theorem test_set_refusals :
    let n := { solo with rtc := { now := 7200000000, halt := true, reference := true, setSec := 3599 } }
    ((after .rtcHaltClear n).rtc.setResult, (after .haltTimeout n).rtc.setResult) = (2, 3) := by decide +kernel

/-! The front end, the lanes and the outputs (06 to 09). -/

/-- 06 R221, Worked case: the wanted code of 100 at 9/8 is 113, then 127, 143 and 161. -/
theorem test_excitation_steps :
    ([100, 113, 127, 143].map fun c => wantedCode c true false) = [113, 127, 143, 161] := by decide +kernel

/-- 06 Table 6.10: an excitation register out of its limits is refused with 0x10, and one with MIN above MAX with 0x11. -/
theorem test_exc_write_refusals :
    ((after (.excWrite 4 0x00C90A05) solo).afe.excResult, (after (.excWrite 4 0x00140A14) solo).afe.excResult,
      (after (.excWrite 7 0) solo).afe.excResult) = (0x10, 0x11, 0x12) := by decide +kernel

/-- 06 Table 6.8: a cold junction outside −40 °C to 105 °C, or 5 °C away from the last second's, fails. -/
theorem test_cold_junction :
    ((after (.cjRead 0 10500) solo).cjAt 0).failed = false ∧ ((after (.cjRead 0 10501) solo).cjAt 0).failed = true ∧
      ((after (.cjRead 0 2501) (solo.setCj 0 ⟨true, 2000, [2000], false, 0, []⟩)).cjAt 0).failed = true := by decide +kernel

/-- 07 R249, Table 7.8: the HI word of AI01's result is 0x01800000, and of AI02's 0x02800000. -/
theorem test_result_hi :
    (LaneResHi ⟨0x20B5A2, 0, 0x80, 1, 0⟩, LaneResHi ⟨0, 0, 0x80, 2, 0⟩) = (0x01800000, 0x02800000) := by decide +kernel

/-- 07 R249: a LO read snapshots, and clears OVWR. -/
theorem test_lo_read_snapshots :
    let m := after (.resultLoRead 0) (solo.setLane 0 { res := some ⟨5, 1, 0, 4, 9⟩, ovwr := true })
    ((m.laneSt 0).shadow.lo, (m.laneSt 0).snapPend, (m.laneSt 0).ovwr) = (5, true, false) := by decide +kernel

/-- 07 Table 7.6: a lane command to a lane that is not used is refused with 1, and RESUME of a running one with 4. -/
theorem test_lane_refusals :
    ((after (.flush 3) solo).lane.cmdResult, (after (.resume 0) (maint solo)).lane.cmdResult,
      (after (.suspend 0) solo).lane.cmdResult) = (1, 4, 3) := by decide +kernel

/-- 08 Table 8.2: the bands of its currents. -/
theorem test_loop_bands :
    ([0, 36000, 37000, 38000, 112000, 205000, 207500, 210000].map (bandOf · false)) = [1, 1, 2, 3, 3, 3, 4, 5] := by decide +kernel

/-- 08 Table 8.3, Worked case: a PARKED island runs at its third valid frame. -/
theorem test_parked_island_runs :
    let n (k : Nat) := (solo.setAo 0 { cmd := 4000 }).setIsle 0 { state := .parked, cur := 3500, run3 := k }
    (((after (.islandFrame 0 true) (n 1)).isle 0).state, ((after (.islandFrame 0 true) (n 2)).isle 0).state) = (.parked, .run) := by
  decide +kernel

/-- 08 Table 8.8: a force outside 3,500 µA to 22,000 µA is refused with 2. -/
theorem test_force_range :
    ((after (.loopForce 0 3499) (maint solo)).loop.cmdResult, (after (.loopForce 0 22001) (maint solo)).loop.cmdResult,
      ((after (.loopForce 0 22000) (maint solo)).aoSt 0).forced) = (2, 2, some 22000) := by decide +kernel

/-- 09 Table 9.4, Table 9.8: a broken wire is sticky cause 3. -/
theorem test_wire_break_cause :
    let m := after (.wireBreak 3 true) (solo.setField 0 { wb := 8 })
    (bit (m.fieldSide 0).broken 3, (m.fieldSide 0).causeOf 3) = (true, 3) := by decide +kernel

/-- 09 R296: with the watchdog expired the safe states are driven, and the frames' states no more. -/
theorem test_watchdog_drives_safe :
    (({ stored := true, dir := 0xFF, safe := 0x0F, cmd := 0xF0, wdExpired := true } : DioField).drive modeFollow,
      ({ stored := true, dir := 0xFF, safe := 0x0F, cmd := 0xF0 } : DioField).drive modeFollow) = (0x0F, 0xF0) := by decide +kernel

/-- 09 R305: with 7.0 V or less a bank's field side has no supply to start on. -/
theorem test_field_supply_threshold :
    ((after (.fieldSupplyReturn 0 70) (solo.setField 0 { powered := false })).fieldSide 0).powered = false ∧
      ((after (.fieldSupplyReturn 0 71) (solo.setField 0 { powered := false })).fieldSide 0).powered = true := by decide +kernel

/-! The fabric, the ladders, the solver (10 to 12). -/

/-- 10 R325, R327: an accepted command waits in the queue; an unknown point is refused with 2; a duration above SHELVE_MAX with 6. -/
theorem test_fabric_commands :
    ((after (.ack 1 .host) solo).fab.queue.map fun q => (q.op, q.target)) = [(1, 1)] ∧ (after (.ack 2 .host) solo).fab.cmdResult = 2 ∧
      (after (.shelve 1 .host) (solo.mFab fun f => { f with arg := 1001 })).fab.cmdResult = 6 := by decide +kernel

/-- 10 R332, R342: with the command queued, the next tick acknowledges an Active-unacknowledged point whose condition stands. -/
theorem test_ack_in_step_3 :
    let n := { solo with
      fab := { cells := { points := [(1, { r := true, f := true, st := stActUnack, prev := stActUnack })] }, queue := [⟨1, 1, 0, 0, 0, 1, 0⟩] }
      dio := { inp := 8 }
      call := { present := 1, fresh := false } }
    let m := after .tickBoundary n
    ((m.pointSt 1).st, m.fab.queue, m.jrnl.ram.map (·.item.type)) = (stActAck, [], [0x02, 0x01]) := by decide +kernel

/-- 10 R316: the on-delay of 2 ticks ends at its second count. -/
theorem test_on_delay :
    let n (c : Nat) := solo.setPoint 1 { r := true, running := true, cnt := c }
    (((after (.onDelayExpiry 1) (n 0)).pointSt 1).f, ((after (.onDelayExpiry 1) (n 1)).pointSt 1).st) = (false, stActUnack) := by decide +kernel

/-- 10 R331: FO_RESET of a group is queued; 10 R326: with 256 commands queued the next is refused with 4. -/
theorem test_queue_full :
    (after (.foReset 0 .host) solo).fab.queue.length = 1 ∧
      (after (.foReset 0 .host) (solo.mFab fun f => { f with queue := List.replicate 256 ⟨1, 1, 0, 0, 0, 1, 0⟩ })).fab.cmdResult = 4 := by
  decide +kernel

/-- 10 R333: a tunable outside its bounds is refused with 2, and inside them taken. -/
theorem test_tunable_bounds : (solo.tuneRefusal 1 4 101, solo.tuneRefusal 1 4 100, solo.tuneRefusal 1 5 0) = (2, 0, 1) := by decide +kernel

/-- 10 R339: an uncorrectable error takes every domain to its safe state. -/
theorem test_fab_ecc : ((after (.fabEccError true) solo).clk.core.st, (after (.fabEccError false) solo).fab.ecc) = (.latched, 1) := by
  decide +kernel

/-- 11 R344: an engineer who is not present is refused with 3, one who does not exist with 2, and a roster without the duty with 4. -/
theorem test_call_refusals :
    ((after (.setDuty 1) solo).call.cmdResult, (after (.setDuty 2) solo).call.cmdResult, (after (.setPresent 2) solo).call.cmdResult) =
      (3, 2, 4) := by decide +kernel

/-- 11 Table 11.2: the watch reaches PREWARN at DM_WARN and EXPIRED at 0. -/
theorem test_watch :
    let n (st t : Nat) := solo.mCall fun c => { c with dmState := st, dmTimer := t }
    ((after .dmPrewarn (n 1 1202)).call.dmState, (after .dmPrewarn (n 1 1201)).call.dmState, (after .dmExpiry (n 2 1)).call.dmState) =
      (1, 2, 3) := by decide +kernel

/-- 11 R350: the last rung repeats. -/
theorem test_rung_repeats :
    let m := after (.rungTimerExpiry 0) (solo.mCall fun c => { c with ladders := [(0, { rung := 1, timer := 1 })] })
    ((m.ladderSt 0).rung, (m.ladderSt 0).repeats, (m.ladderSt 0).timer) = (1, 1, 600) := by decide +kernel

/-- 12 R365: a write outside the host region is refused with 1, and one inside is stored. -/
theorem test_memory_window :
    let n (a : Nat) := solo.mSolv fun s => { s with memAddr := a, memLo := 7 }
    ((after (.memWrite 9) (n 4096)).solv.memResult, tget 0 (after (.memWrite 9) (n 4095)).solv.mem 4095) = (1, 0x0000000900000007) := by
  decide +kernel

/-- 12 Table 12.3: queue 0 is refused with 2 and an unknown template with 3. -/
theorem test_submit_refusals :
    ((after (.submit 0 0) solo).solv.subResult, (after (.submit 1 0) (solo.mSolv fun s => { s with descOp := 5 })).solv.subResult) = (2, 3) := by
  decide +kernel

/-- 12 R375, Table 12.9: slot 13 at generation 5 is job ID 0x5D, and slot 2 at generation 3 is 0x32. -/
theorem test_job_ids : (jobId 13 5, jobId 2 3) = (0x5D, 0x32) := by decide

/-! The journal, the ring, the pair (14 to 16). -/

/-- 14 R442: SEEK of a number with none above it is NOT_YET, and NEWEST shows the newest held. -/
theorem test_cursor :
    let n := solo.mJrnl fun j => { j with ram := [⟨aRecord 4, false⟩, ⟨aRecord 6, false⟩], busy := true, op := 1, asked := 7 }
    ((after .cursorLoadDone n).jrnl.result, (after .cursorLoadDone (n.mJrnl fun j => { j with asked := 5 })).jrnl.pos,
      (after .cursorLoadDone (n.mJrnl fun j => { j with op := 3 })).jrnl.pos) = (2, 6, 6) := by decide +kernel

/-- 14 R422: CRC-16 of polynomial 0x1021 from 0xFFFF, unreflected, has the check value 0x29B1; 02 R51: CRC-32 of IEEE 802.3, 0xCBF43926. -/
theorem test_crc_check_values :
    let l : List Byte := [0x31, 0x32, 0x33, 0x34, 0x35, 0x36, 0x37, 0x38, 0x39]
    (crc16 l, crc32 l) = (0x29B1, 0xCBF43926) := by decide +kernel

/-- 02 R54: SHA-256, whose first bytes for the message abc are BA 78 16 BF. -/
theorem test_sha256 : (sha256 [0x61, 0x62, 0x63]).take 4 = [0xBA, 0x78, 0x16, 0xBF] := by decide +kernel

/-- 15 R476: a token of an older GEN is discarded; one of the same GEN is held with the node's bit in VISITED. -/
theorem test_token :
    let n := ringed.mTide fun t => { t with gen := 3, genSeen := true }
    ((after (.token ⟨1, false, false, 2, 3, 2, 0⟩) n).tide.hold, (after (.token ⟨1, false, false, 3, 3, 2, 0⟩) n).tide.hold.map (·.visited)) =
      (none, some 3) := by decide +kernel

/-- 15 R467: a claim of a lower node is passed on, and one of a higher discarded. -/
theorem test_claims :
    let n := ringed.mSys fun s => { s with node := 2 }
    ((after (.claim 1) n).tide.line.map (·.load), (after (.claim 3) n).tide.line) = ([.claim 1], []) := by decide +kernel

/-- 15 R461: a frame held already is not taken again; the next one is. -/
theorem test_frame_order :
    ((after (.records 1 7 [{ aRecord 9 with space := 1, node := 1 }]) ringed).jrnl.ram.length,
      (after (.records 1 8 [{ aRecord 9 with space := 1, node := 1 }]) ringed).jrnl.heard) = (0, [(1, 9)]) := by decide +kernel

/-- 16 R483: more than half of MEMBERS, or half with the lowest. -/
theorem test_majority :
    (majorityOf 0b1111 0b0111, majorityOf 0b1111 0b0011, majorityOf 0b1111 0b1100) = (true, true, false) := by decide +kernel

/-- 16 R505: SWITCHOVER outside maintenance mode is refused with 1, without duty with 2, without a STANDBY with 3. -/
theorem test_switchover :
    ((after .switchover (member 4 3)).pair.cmdResult, (after .switchover (maint (member 3 4))).pair.cmdResult,
      (after .switchover (maint (member 4 2))).pair.cmdResult, (after .switchover (maint (member 4 3))).pair.handover) = (1, 2, 3, true) := by
  decide +kernel

/-- 16 R493: the ACK of a copy ends it, and the last SEQ it carried is known. -/
theorem test_epoch_ack :
    let n := (member 4 3).mPair fun p => { p with copy := some ⟨5, 40, false, false⟩ }
    ((after (.epochAck 1 8 0 5 0) n).pair.copy, (after (.epochAck 1 8 0 5 0) n).pair.last, (after (.epochAck 1 8 1 5 0) n).pair.missed) =
      (none, 40, 1) := by decide +kernel

/-! The interfaces, the host port, the flash (17 to 19). -/

/-- 17 R538, R539: a coil set to 1 queues its command; function 6 on a tunable is exception 1; an address that is not there, 2. -/
theorem test_modbus :
    ((after (.writeSingleCoil 2 17 0 true) solo).fab.queue.map (·.op)) = [1] ∧
      ((after (.writeSingleRegister 2 17 0 5) solo).portSt 2).line = [.modbusExc 17 6 1] ∧
      ((after (.readCoils 2 17 9 1) solo).portSt 2).line = [.modbusExc 17 1 2] := by decide +kernel

/-- 17 R536: a fifth connection is refused. -/
theorem test_tcp :
    ((after (.tcpConnect 4) solo).portSt 4).line = [.tcpAccept 0] ∧
      ((after (.tcpConnect 4) (solo.updPort 4 fun s => { s with conns := 0xF })).portSt 4).line = [.tcpRefuse] := by decide +kernel

/-- 17 R530: a lower NAME takes the address, and the node claims the next one; a higher NAME is answered with the own claim. -/
theorem test_address_claim :
    let n := solo.mExt fun e => { e with n2kAddr := 10, claimed := true }
    ((after (.addressClaim 10 499) n).ext.n2kAddr, (after (.addressClaim 10 501) n).ext.n2kAddr) = (11, 10) := by decide +kernel

/-- 17 R549: DISABLE outside maintenance mode is refused with 1. -/
theorem test_disable :
    ((after (.disable 4) solo).ext.cmdResult, ((after (.disable 4) (maint solo)).portSt 4).state) = (1, 5) := by decide +kernel

/-- 18 Table 18.10: F1 to F4 of the panel: after a BOR the pending response of F1 reads 5, START and FAB, and F2's reads 4, the cause. -/
theorem test_panel_frames :
    let n := { solo with sys := { irq := 1, cause := 4 }, fab := { chg := 3 } }
    let crc (cmd : Byte) (a : BitVec 16) (w : Word) : FrameForm := .full (BitVec.ofNat 16 (crc16 (cmd :: (beBytes 2 a.toNat ++ beBytes 4 w.toNat))))
    let f1 := after (.read 0x0018 (0, crc 1 0x0018 0)) n
    let f2 := after (.read 0x0010 (0, crc 1 0x0010 0)) f1
    let f3 := after (.write 0x0018 1 (crc 2 0x0018 1)) f2
    (f1.sys.miso, f2.sys.miso, f3.sys.miso.data, f3.sys.miso.fcnt) = (⟨8, 7, 0, 0⟩, ⟨0, 0, 0x18, 5⟩, 4, 1) := by decide +kernel

/-- 18 R567: HOST_RESET needs the key 0x5253, and maintenance mode. -/
theorem test_host_reset :
    ((after (.hostReset 0) (maint solo)).sys.cmdResult, (after (.hostReset 0x5253) solo).sys.cmdResult,
      (after (.hostReset 0x5253) (maint solo)).sys.resetPend) = (2, 3, true) := by decide +kernel

/-- 18 Table 18.5, 19 R596: PROBE with the store serving is refused with 2. -/
theorem test_probe : (after (.probe true) solo).stor.cmdResult = 2 := by decide +kernel

/-- 19 R577: the fourth attempt of a page that fails retires its sector. -/
theorem test_page_retries :
    let n (k : Nat) := solo.mStor fun s => { s with
      cur := some (.jrnl [aRecord 1]), tries := k, sectors := [(513, { cls := .data, serial := 1 })] }
    ((after (.flashProgramDone false) (n 2)).stor.tries, ((after (.flashProgramDone false) (n 3)).sector 513).cls) = (3, .retired) := by
  decide +kernel

/-- 01 Table 1.5: a step takes the first of the commands that wait. -/
theorem test_step_takes_the_front :
    (match step ⟨solo, [.hpClear, .lowBattery]⟩ with | .next t => t.pending | _ => []) = [.lowBattery] := by decide +kernel

/-! Witnesses: for every statement with hypotheses, states and operands that meet them together, clause by clause. -/

theorem witness_StepRunsFrontCommand :
    (⟨solo, [.hpClear]⟩ : State).pending = Instr.hpClear :: [] ∧ State.reset.pending = [] := by decide

theorem witness_SolverMemoryStaysCanonical :
    (⟨solo, [.memWrite 1]⟩ : State).node.MemCanonical ∧ ∃ t, step ⟨solo, [.memWrite 1]⟩ = .next t := ⟨by rfl, _, rfl⟩

theorem witness_FuseStaysBlown :
    (⟨solo.mSec fun s => { s with enrolled := true }, [.erase]⟩ : State).node.FuseBlown ∧
      ∃ t, step ⟨solo.mSec fun s => { s with enrolled := true }, [.erase]⟩ = .next t := ⟨by rfl, _, rfl⟩

theorem witness_TickBoundary :
    reset.timed = false ∧ ((solo.mClk fun c => { c with core := { st := .slack } }).timed = true ∧
      (solo.mClk fun c => { c with core := { st := .slack } }).coreHeld = true) ∧
    (∀ n ∈ [solo.mPwr fun p => { p with parked := true }, { solo with img := none }], n.timed = true ∧ n.coreHeld = false ∧
      ((n.pwr.parked = true ∧ n.img.isSome = true) ∨ (n.img = none ∧ n.sec.act = none ∧ n.sec.notice = none)) ∧
      n.jrnl.writeThrough = false) ∧
    (∀ n ∈ [solo, member 4 3, solo.mPwr fun p => { p with phase := .f }], n.timed = true ∧ n.coreHeld = false ∧ n.pwr.parked = false ∧
      n.img.isSome = true ∧ n.pwr.phase ∈ [.f, .done] ∧ n.ownDuty = true ∧ n.demoteCause = 0 ∧ n.pair.takeDue = none) := by decide +kernel

theorem witness_EpochBoundary : reset.timed = false ∧ solo.timed = true := by decide +kernel

theorem witness_RecordsNumberedAndHeld :
    solo.jrnl.ram.length ≤ 4096 ∧ solo.ownDuty = true ∧ ((member 3 4).ownDuty = false ∧ noticed 0x40 = false) ∧
    ((member 3 4).ownDuty = false ∧ noticed 0x30 = true ∧ (member 3 4).partner = some 1 ∧ (member 3 4).partnerDuty = true ∧
      (member 3 4).tide.st = .inserted) ∧
    ((member 2 2).partnerDuty = false ∧ (member 2 2).pair.notices.length < 64) ∧
    (64 ≤ ((member 2 2).mPair fun p => { p with notices := List.replicate 64 ⟨0x30, 0, 0, 0, []⟩ }).pair.notices.length) := by decide +kernel

theorem witness_MaintenanceUnlocked :
    let key := solo.mSec fun s => { s with keySw := true, keyClosed := true }
    let half := key.mSec fun s => { s with unlockStep := true, unlockAt := 1990000 }
    (maint solo).sec.maint = true ∧ (solo.mSec fun s => { s with lockout := true }).sec.lockout = true ∧
    (key.sec.maint = false ∧ key.sec.lockout = false ∧ key.sec.keySw = true ∧ key.sec.unlockStep = false) ∧
    (half.sec.unlockStep = true ∧ max half.rtc.now 5 ≤ half.sec.unlockAt + 10000) ∧
    (solo.sec.keySw = false ∧ key.sec.unlockStep = false ∧ (1 : Word) ≠ 0x00004B56 ∧ half.sec.unlockAt + 10000 < 2000001) ∧
    (100 ≤ 100 ∧ 10000 ≤ 10000 ∧ key.sec.keyClosed = true ∧ solo.sec.keyClosed = false ∧ (maint solo).sec.keyClosed = false ∧
      solo.sec.maint = false) := by decide +kernel

theorem witness_LeavingMaintenanceKeepsLoading :
    let n := (maint solo).mLoop fun l => { l with aos := [(7, { forced := some 4000 })] }
    n.sec.maint = true ∧ n.sec.keyClosed = false ∧ twf {} n.loop.aos = true ∧
      twf none ({ n.dio with forces := [(31, some true)] } : Dio).forces = true := by decide +kernel

theorem witness_LoaderCommands :
    let m := maint solo
    let b (k : Nat) : Node := m.mSec fun s => { s with b := { state := k } }
    (solo.mSec fun s => { s with busy := 1 }).sec.busy ≠ 0 ∧ (solo.sec.busy = 0 ∧ solo.sec.maint = false) ∧
    ((m.mSec fun s => { s with act := some ⟨true, 3000000, true⟩ }).sec.act.isSome = true) ∧
    ((b 1).sec.b.state ≠ 0 ∧ (b 0).sec.b.state ≠ 1 ∧ (b 5).sec.b.state ≠ 2 ∧ (b 5).sec.b.state ≠ 3 ∧ (b 5).sec.b.state ≠ 4) ∧
    (m.mSec fun s => { s with enrolled := true }).sec.enrolled = true ∧ (maint (member 3 4)).ownDuty = false ∧
    (m.ownDuty = true ∧ (b 2).sec.b.state ≠ 3) ∧ (m.sec.act = none ∧ m.sec.b.state = 0 ∧ (b 1).sec.b.stuck = false ∧ (b 4).sec.b.state ∈ [2, 3, 4]) ∧
    ((b 3).sec.b.state = 3 ∧ (b 3).img.any (·.hash == (b 3).sec.b.hash) = false ∧ (b 3).bankSlotFree true = true) ∧
    ((maint (member 4 3)).partner = some 1 ∧ m.paired = false) ∧ m.sec.enrolled = false := by decide +kernel

theorem witness_ActivateOfRunningImageRefused :
    let n := (maint solo).mSec fun s => { s with b := { state := 3, hash := 0x1234 } }
    (n.sec.busy = 0 ∧ n.sec.maint = true ∧ n.ownDuty = true ∧ n.sec.b.state = 3) ∧
      (n.mSec fun s => { s with act := some ⟨true, 3000000, true⟩ }).sec.act.isSome = true ∧
      (n.sec.act = none ∧ n.inactive = true ∧ n.bankSlotFree true = true ∧ n.img = some (anImage none) ∧
        (anImage none).hash = n.inactiveBank.hash) := by decide +kernel

theorem witness_ImageWriteEraseAndCheck :
    let n := (maint solo).mSec fun s => { s with b := { state := 1 } }
    (¬ (solo.sec.maint = true ∧ (solo.bankOf true).state = 1 ∧ solo.sec.offset + 4 ≤ imageMax ∧ solo.sec.bufUsed + 4 ≤ 256)) ∧
    (∀ o ∈ [0, imageMax - 4], n.sec.maint = true ∧ (n.bankOf true).state = 1 ∧ o + 4 ≤ imageMax ∧ n.sec.bufUsed + 4 ≤ 256) ∧
    (n.stor.state ≠ 2 ∧ twf 0xFF (n.bankOf true).bytes = true) ∧ (n.mSec fun s => { s with busy := 1 }).sec.busy = 1 ∧
    (n.mSec fun s => { s with busy := 2 }).sec.busy = 2 := by decide +kernel

theorem witness_ActivationBoundary :
    let n (c : Bool) := solo.mSec fun s => { s with act := some ⟨true, 2000000, c⟩ }
    ((n false).activates = true ∧ (n false).sec.act = some ⟨true, 2000000, false⟩) ∧
    ((n true).activates = true ∧ (n true).sec.act = some ⟨true, 2000000, true⟩ ∧ 2000000 ≤ (n true).nextMultiple 1000000 ∧
      (n true).stor.state = 1) := by decide +kernel

theorem witness_SupplyAndHoldupBegin :
    let opened := solo.mPwr fun p => { p with switchOpen := true }
    let off := solo.mPwr fun p => { p with mode := .off }
    (solo.pwr.switchOpen = false ∧ opened.pwr.switchOpen = true ∧ solo.pwr.mode ∈ [.run, .sleep, .deep]) ∧
    ((off.mPwr fun p => { p with phase := .a }).pwr.phase = .a ∧ off.pwr.mode = .off ∧ off.pwr.switchOpen = false ∧ off.clk.latched = false) ∧
    ((solo.mPwr fun p => { p with mode := .deep }).pwr.mode = .deep ∧ solo.clk.latched = false) ∧
    ((off.mPwr fun p => { p with switchOpen := true }).pwr.switchOpen = true ∧ off.pwr.phase ≠ .a) ∧ solo.pwr.vinOk = true ∧
    (∀ n ∈ [solo, solo.mPwr fun p => { p with mode := .sleep, phase := .c }], n.clk.latched = false ∧ n.pwr.mode ∈ [.run, .sleep] ∧
      n.pwr.phase ∉ [.a, .b] ∧ n.pwr.switchOpen = false) := by decide +kernel

theorem witness_HoldupSteps :
    let n := solo.mPwr fun p => { p with mode := .holdup, step := 1 }
    let k := n.mPwr fun p => { p with parked := true, step := 4 }
    (n.pwr.mode = .holdup ∧ n.pwr.solvOut = false ∧ n.pwr.step = 1 ∧ n.pwr.flushed = false ∧ n.pwr.parked = false ∧ n.coreHeld = false ∧
      n.pwr.switchOpen = false) ∧ (n.mPwr fun p => { p with solvOut := true }).pwr.solvOut = true ∧
    (k.pwr.parked = true ∧ k.pwr.mode = .holdup ∧ k.pwr.step ≠ 1 ∧ k.pwr.solvOut = false ∧ k.pwr.switchOpen = false) ∧
    ((k.mPwr fun p => { p with back := true }).pwr.back = true ∧ k.clk.latched = false) := by decide +kernel

theorem witness_RestartsOfCore :
    let l := (solo.mClk fun c => { c with latched := true }).mPwr fun p => { p with mode := .off }
    let e := solo.mPwr fun p => { p with mode := .off, vinOk := false }
    (solo.pwr.vinOk = true ∧ solo.clk.latched = false ∧ solo.pwr.phase ∉ [.a, .b] ∧ solo.pwr.mode ∈ [.run, .sleep, .holdup]) ∧
    (l.clk.latched = true ∧ l.pwr.mode = .off ∧ l.pwr.phase ≠ .c ∧ l.pwr.vinOk = true) ∧ solo.clk.latched = false ∧
    (e.pwr.vinOk = false ∧ e.pwr.mode ∈ [.off, .deep]) := by decide +kernel

theorem witness_ModeCommandsAndChanges :
    let p (m : PwrMode) := solo.mPwr fun p => { p with pend := some m }
    let d := solo.mPwr fun p => { p with mode := .deep, wakeTime := 3 }
    solo.pwr.mode ∈ [.run, .sleep, .holdup] ∧
    (∀ m ∈ [PwrMode.run, .sleep, .deep], (p m).pwr.pend = some m ∧ (p m).coreRuns = true ∧ (p m).clk.ret = 0) ∧
    (solo.pwr.pend = none ∧ d.coreRuns = false) ∧
    (∀ src : Fin 4, d.pwr.mode = .deep ∧ d.pwr.vinOk = true ∧ d.powerCfg.any (fun c => bit c.wakeEn src.val) = true ∧
      (src.val = 0 → ∃ c ∈ d.pins, c.out = false ∧ c.wake = true) ∧
      (src.val = 3 → d.pwr.wakeTime ≠ 0 ∧ d.rtcCounts = true ∧ d.rtcCycles / 32768 ≤ d.pwr.wakeTime)) ∧
    (({ d with img := none } : Node).powerCfg.any (fun c => bit c.wakeEn 0) = false) := by decide +kernel

theorem witness_PowerUpPhases :
    let n (ph : Phase) := reset.mPwr fun p => { p with phase := ph }
    let d := (n .d).mStor fun s => { s with state := 1 }
    let five := d.mSec fun s => { s with b := { state := 5 } }
    (reset.pwr.mode = .run ∧ reset.pwr.vinOk = true ∧ reset.clk.latched = false ∧ reset.pwr.phase = .a ∧ reset.clk.rc = .off) ∧
    ((reset.mClk fun c => { c with rc := .ready }).clk.rc = .ready ∧ reset.clk.xtal = .off) ∧
    (((n .b).mClk fun c => { c with pll := .coast }).clk.pll ∈ [.nominal, .coast]) ∧ ((n .e).pwr.phase = .e ∧ (n .e).coreHeld = false) ∧
    (d.pwr.phase = .d ∧ d.sys.unconfigured = false ∧ d.coreHeld = false) ∧ (d.mSys fun s => { s with strapBad := true }).sys.strapBad = true ∧
    (d.sys.strapBad = false ∧ (n .d).stor.state ≠ 1) ∧ (d.stor.state = 1 ∧ d.bankIn 5 = none ∧ d.bankIn 6 = none) ∧
    (five.startBanks.1 = some true ∧ five.startBanks.2 = none) := by decide +kernel

theorem witness_ClockSourcesAndReturn :
    let c (f : Clk → Clk) : Clk := (solo.mClk f).clk
    let counting := c fun c => { c with rc := .counting, xtal := .counting }
    let stuck := c fun c => { c with rc := .counting, core := { st := .slackCoast } }
    let back : Node := solo.mClk fun c => { c with pll := .coast, due := true, core := { st := .coast }, solv := { st := .coast } }
    (counting.rc = .counting ∧ solo.solvDrains = false ∧ (∀ d ∈ [counting.core, counting.field, counting.solv], d.st ≠ .slackCoast)) ∧
    stuck.core.st = .slackCoast ∧
    (counting.xtal = .counting ∧ (c fun c => { c with pll := .off }).pll = .off) ∧ solo.pwr.phase ≠ .b ∧
    (let l := c fun c => { c with pll := .locking }; l.pll = .locking ∧ l.lockCoast = false ∧ l.xtal = .ready ∧ l.ret ≠ 3) ∧
    (let l := c fun c => { c with pll := .locking, lockCoast := true, core := { st := .bridge } }
     l.pll = .locking ∧ l.lockCoast = true ∧ l.rc = .ready ∧ l.core.st = .bridge ∧ l.core.sw = none ∧ l.core.ramp = none) ∧
    ((c fun c => { c with xtal := .failed }).xtal = .failed ∧ (c fun c => { c with lse := .failed }).lse = .failed) ∧
    (solo.clk.rc = .ready ∧ solo.clk.lse = .ready ∧ solo.clk.xtal = .ready) ∧
    (∀ r ∈ [46875, 50781], ∀ x ∈ [3892, 4300], 46875 ≤ r ∧ r ≤ 50781 ∧ 3892 ≤ x ∧ x ≤ 4300) ∧
    (46874 < 46875 ∧ 50781 < 50782 ∧ 3891 < 3892 ∧ 4300 < 4301) ∧
    ((0x000F0005 : Word).toNat % 16 ≤ 10 ∧ clkoutNominal.getD ((0x000F0005 : Word).toNat % 16) 0 ≤ 50000000 * ((0x000F0005 : Word).toNat / 65536 + 1)) ∧
    (10 < (0x0B : Word).toNat % 16 ∧ 50000000 * ((4 : Word).toNat / 65536 + 1) < clkoutNominal.getD ((4 : Word).toNat % 16) 0) ∧
    solo.clk.due = false ∧
    (back.clk.due = true ∧ back.clk.latched = false ∧ back.clk.retLimit = false ∧ back.clk.xtal = .ready ∧ back.clk.pll ≠ .nominal ∧
      back.clk.ret = 0 ∧ back.rtc.lastTick = some 2000000 ∧ 2000000 % 1000000 = 0 ∧
      (∀ d ∈ [Domain.core, .field, .solv], (back.dom d).ramp = none ∧ (back.dom d).sw = none) ∧ (back.dom .core).st = .coast) := by decide +kernel

theorem witness_ClockFailures :
    let n (f : Clk → Clk) : Node := solo.mClk f
    let all : List Domain := [.core, .field, .solv]
    (solo.clk.xtal = .ready ∧ solo.clk.pll = .nominal ∧ solo.clk.rc = .ready ∧ solo.clk.maskDue = false ∧
      (∀ d ∈ all, (solo.dom d).st = .nominal ∧ (solo.dom d).sw = none ∧ (solo.dom d).ramp = none)) ∧
    (solo.clk.rc = .ready ∧ (∀ d ∈ all, (solo.dom d).st ∉ [.bridge, .coast, .slackCoast]) ∧ solo.clk.pll ≠ .coast) ∧
    (let m := n fun c => { c with core := { st := .bridge } }; m.clk.rc = .ready ∧ (m.dom .core).onRc (m.clk.pll == .nominal) = true) ∧
    (solo.clk.lse = .ready ∧ solo.rtc.tracked = false) ∧
    (let m := n fun c => { c with pll := .locking, lockCoast := true }
     m.clk.pll = .locking ∧ m.clk.lockCoast = true ∧ (∀ d ∈ all, (m.dom d).st ≠ .bridge ∧ (m.dom d).sw ≠ some .rc)) ∧
    (let m := n fun c => { c with pll := .locking, lockCoast := true, core := { st := .bridge } }
     m.clk.lockCoast = true ∧ (m.dom .core).st = .bridge) ∧
    (let m := n fun c => { c with pll := .locking }; m.clk.lockCoast = false ∧ m.clk.rc ≠ .failed ∧ m.clk.ret = 0) := by decide +kernel

theorem witness_SwitchesAndRamps :
    let c (d : DomClk) : Node := solo.mClk fun k => { k with core := d }
    solo.clk.ret = 0 ∧ (solo.dom .core).sw = none ∧ (((c { sw := some .rc }).dom .core).sw = some .rc ∧ solo.clk.pll ≠ .coast) ∧
    ((c { sw := some .coast }).dom .core).sw = some .coast ∧ (solo.dom .core).ramp = none ∧ solo.sys.wait = none ∧
    (((c { sw := some .nominal }).dom .core).sw = some .nominal ∧ ((c { sw := some .nominal }).dom .core).st ∉ [.slack, .slackCoast]) ∧
    (let m := (c { st := .bridge, ramp := some true }).mSys fun s => { s with wait := some ⟨1, 0x18, 0⟩ }
     m.sys.wait.isSome = true ∧ m.clk.core.ramp = some true ∧ m.clk.core.ratio = 0 ∧ m.clk.core.sw = none) ∧
    (∀ r ∈ [0, 3], ((c { ramp := some false, ratio := r }).dom .core).ramp = some false ∧ ((c { ratio := r }).dom .core).ratio < 4) ∧
    4 ≤ ((c { ramp := some false, ratio := 4 }).dom .core).ratio ∧
    (∀ r ∈ [1, 4], 0 < ((c { ramp := some true, ratio := r }).dom .core).ratio) ∧
    ((c { ramp := some true }).dom .core).ratio = 0 := by decide +kernel

theorem witness_NodeTimeSetAndStepped :
    let n (now set : Nat) : Node := { solo with rtc := { now := now, setSec := set, halt := true } }
    let d (now set : Nat) : Int := ((n now set).rtc.setSec * 1000000 : Nat) - ((n now set).rtc.now : Int)
    solo.rtc.halt = false ∧ (n 5 0).rtc.halt = true ∧
    ({ n 5 0 with tide := { st := .inserted } } : Node).tide.st = .inserted ∧ (n 5 0).tide.st ≠ .inserted ∧
    d 3600000001 0 < -3600000000 ∧ -3600000000 ≤ d 3600000000 0 ∧
    ((n 5 0).mRtc fun r => { r with stepPend := some (1, 1000000) }).rtc.stepPend.isSome = true ∧ (n 5 0).rtc.stepPend = none ∧
    (-10 ≤ d 10 0 ∧ d 999990 1 ≤ 10) ∧ (d 11 0 < -10 ∧ -1000 ≤ d 1000 0 ∧ 10 < d 999989 1 ∧ d 999000 1 ≤ 1000) ∧
    d 1001 0 < -1000 ∧ (1000 < d 998999 1 ∧ d 1 1 < 1000000) ∧ 1000000 ≤ d 0 1 ∧
    (solo.rtc.reference = false ∧ solo.tide.st ≠ .inserted ∧ ringed.tide.st = .inserted ∧ solo.rtc.leapPend = none) ∧
    ((solo.mRtc fun r => { r with leapPend := some 37 }).rtc.leapPend = some 37 ∧ solo.ownDuty = true) ∧
    (solo.rtc.slewing = 0 ∧ (solo.mRtc fun r => { r with slewing := 1 }).rtc.slewing = 1 ∧
      (∀ k ∈ [2, 3], (solo.mRtc fun r => { r with slewing := k }).rtc.slewing ∈ [2, 3])) ∧
    (10 ≤ (solo.mTide fun t => { t with noTime := 10 }).tide.noTime) ∧
    (let m := solo.mRtc fun r => { r with stepPend := some (4, 3000000), slewRem := 200000 }
     m.rtc.stepPend = some (4, 3000000) ∧ 0 ≤ m.rtc.slewRem ∧ m.rtc.slewRem < 1000000) := by decide +kernel

theorem witness_FrontEndReadings :
    let n : Node := solo.setLane 0 { chain := true }
    let off : Node := (n.setAfeCh 4 { offLane := true }).mAfe fun a => { a with imuCh := some 4 }
    let bad : Node := n.mAfe fun a => { a with badSwitch := 16 }
    (∀ m ∈ [n, off, bad], twf {} m.lane.lanes = true ∧ twf {} m.lane.chans = true ∧ m.laneCfg 0 = some aLane ∧ aLane.mode = 2 ∧
      m.laneRuns 0 = true ∧ (m.laneSt 0).chain = true ∧ m.fieldHeld = false ∧
      ∀ slot ∈ [0, 1], slot < aLane.slots.length ∧ m.slotRuns aLane slot = true ∧ (m.input (aLane.slots.getD slot 0xFF)).isSome = true) ∧
    (off.imuHolds 4 = true ∧ n.imuHolds 4 = false ∧ bad.imuHolds 4 = false) ∧ (bit bad.afe.badSwitch 4 = true ∧ bit n.afe.badSwitch 4 = false) ∧
    (excited 3 = true ∧ voltageExcited 3 = false ∧ ∃ ty ∈ List.range 16, voltageExcited ty = true ∧ excited ty = true) ∧
    ((n.laneCh 4).chReset = false ∧ ((n.setLaneCh 4 { chReset := true }).laneCh 4).chReset = true ∧ (n.laneSt 0).fifo.length < 256) ∧
    (let bad : Node := solo.setCj 0 ⟨true, 0, [0], true, 99, []⟩
     (-4001 : Int) < -4000 ∧ 10500 < (10501 : Int) ∧ (∃ y ∈ (bad.cjAt 0).recent, 500 < 501 - y) ∧ (bad.cjAt 0).failed = true ∧
       (solo.cjAt 0).failed = false ∧ twf {} solo.afe.cj = true ∧ (∀ y ∈ (bad.cjAt 0).recent, 500 - y ≤ 500 ∧ y - 500 ≤ 500) ∧
       99 ≤ (bad.cjAt 0).good ∧ ((solo.setCj 0 ⟨true, 0, [], true, 98, []⟩).cjAt 0).good < 99 ∧ twf {} bad.afe.cj = true) := by decide +kernel

theorem witness_ImpedanceChecks :
    let d (c : Nat) : Node := solo.setAfeCh c { due := true, dueFor := 19 }
    let asked : Node := solo.setAfeCh 4 { checkNow := true, dueFor := 19 }
    (solo.input 4 = some (anInput 4 false) ∧ solo.checksHeld = false ∧ (solo.afeCh 4).due = false ∧
      (anInput 4 false).period * 20 ≤ ((solo.setAfeCh 4 { ticks := 1199 }).afeCh 4).ticks + 1) ∧
    (solo.afeCh 4).ticks + 1 < (anInput 4 false).period * 20 ∧ (solo.mAfe fun a => { a with imuFault := true }).checksHeld = true ∧
    ((d 4).checksHeld = false ∧ (d 4).afe.imuCh = none ∧ (d 4).nextCheck true = some 4) ∧
    (((d 4).laneSt 0).conv ≠ some 4 ∧ ((asked.setLane 0 { conv := some 4 }).laneSt 0).conv = some 4 ∧ (asked.afeCh 4).checkNow = true ∧
      19 ≤ (asked.afeCh 4).dueFor ∧ (asked.afeCh 4).offLane = false ∧ asked.checksHeld = false) ∧
    ((solo.mAfe fun a => { a with imuFault := true }).afe.imuFault = true ∧ twf {} solo.afe.chans = true) ∧
    (∀ c ∈ [4, 5], (d c).checksHeld = false ∧ ((d c).afeCh c).due = true ∧ 19 ≤ ((d c).afeCh c).dueFor ∧ ((d c).afeCh c).offLane = false) ∧
    ((anInput 4 false).sole = false ∧ solo.input 5 = some (anInput 5 true) ∧ (anInput 5 true).sole = true) ∧
    (((d 4).mAfe fun a => { a with imuCh := some 4 }).afe.imuCh = some 4 ∧ twf {} (d 4).afe.chans = true ∧
      hasLoop (anInput 4 false).type = true) ∧
    solo.input 63 = none ∧ ((solo.input 4).isSome = true ∧ ((solo.setAfeCh 4 { checkNow := true }).afeCh 4).checkNow = true ∧
      (solo.afeCh 4).checkNow = false) ∧ (solo.sec.maint = false ∧ (maint solo).sec.maint = true) ∧ solo.afe.imuFault = false := by decide +kernel

theorem witness_ExcitationControl :
    let p : Node := solo.setAfeExc 4 { pend := some 0x01FF200A }
    let e : Node := solo.setAfeExc 4 { lastEpoch := [1, 2, 3, 4], excMax := 200 }
    excWriteCode (solo.input 4) 0x00140A0A = 0 ∧ excWriteCode (solo.input 4) 0xC9 ≠ 0 ∧ (solo.afeExc 4).pend = none ∧
    (p.input 4 = some (anInput 4 false) ∧ (anInput 4 false).num = 4 ∧ (p.afeExc 4).pend = some 0x01FF200A ∧ twf {} p.afe.exc = true ∧
      bit (0x01FF200A : Word) 24 = true ∧ bit (0x00FF200A : Word) 24 = false) ∧
    ((anInput 4 false).adaptEn = true ∧ (e.afeExc 4).forceEn = false ∧ e.fieldCoasts = false ∧ e.fieldHeld = false ∧
      4 ≤ (e.afeExc 4).lastEpoch.length ∧ twf {} e.afe.exc = true) ∧ solo.input 63 = none ∧ (solo.afeExc 4).lastEpoch.length < 4 := by
  decide +kernel

theorem witness_LaneReadsLatch :
    (solo.laneSt 0).fifo = [] ∧
      (let x := solo.setLane 7 { fifo := List.replicate 256 {} }
       (x.laneSt 7).fifo = {} :: List.replicate 255 {} ∧ (List.replicate 255 ({} : LaneRes)).length < 256) := by decide +kernel

theorem witness_LaneCommandsAndSync :
    let s : Node := solo.setLane 0 { suspended := true }
    let pend : Node := solo.setLane 0 { stopPend := some 3000000 }
    let m : Node := solo.setLane 0 { markerPend := some {} }
    solo.laneUsed 7 = false ∧ solo.laneUsed 0 = true ∧ s.laneLive 0 = false ∧ solo.laneLive 0 = true ∧ (solo.laneSt 0).markerPend = none ∧
    (m.laneSt 0).markerPend = some {} ∧ (maint solo).sec.maint = true ∧ solo.sec.maint = false ∧ (pend.laneSt 0).stopPend = some 3000000 ∧
    (solo.laneSt 0).stopPend = none ∧ ((solo.laneSt 0).suspended = false ∧ (solo.laneSt 0).failed = false) ∧
    ((s.laneSt 0).suspended = true ∧ twf {} s.lane.lanes = true ∧ twf {} pend.lane.lanes = true) ∧
    ((0x80 : BitVec 8) ≠ 0 ∧ (solo.mLane fun l => { l with syncPend := [⟨1, false, 3000000⟩] }).lane.syncPend ≠ [] ∧ solo.lane.syncPend = []) ∧
    (solo.tide.st ≠ .inserted ∧ ringed.tide.st = .inserted) := by decide +kernel

theorem witness_LaneResetAndResults :
    let n (k : Nat) : Node := solo.setLane 0 { chain := true, sync := some 2000000, routed := some 4, conv := some 4, settle := k }
    let full : Node := solo.setLane 0 { chain := true, unlocked := true, fifo := List.replicate 256 {} }
    let one : Node := { solo with img := some { anImage none with sec := { (anImage none).sec with
      route := [.lane ⟨0, 1, 0, 5, [5], 0⟩, .input (anInput 5 true)] } } }
    let sole : Node := one.setLane 0 { chain := true, settle := 1, conv := some 5, exc := some 7 }
    (∀ m ∈ [n 0, full, sole], twf {} m.lane.lanes = true ∧ twf {} m.lane.chans = true ∧ m.laneRuns 0 = true ∧ m.fieldHeld = false ∧
      (m.laneSt 0).chain = true) ∧
    (((n 0).laneSt 0).sync = some 2000000 ∧ ((n 0).laneSt 0).sync ≠ some 2000001 ∧ ((n 0).laneSt 0).unlocked = false) ∧
    ((full.laneSt 0).sync = none ∧ (full.laneSt 0).unlocked = true ∧ full.rateOff = false ∧ full.gridPeriod 0 ≠ 0 ∧
      (full.gridPeriod 0 * 3) % full.gridPeriod 0 = 0) ∧
    (((n 0).laneSt 0).resetAt ≠ some 2000000 ∧
      ((solo.setLane 0 { sync := some 2000000, resetAt := some 2000000 }).laneSt 0).resetAt = some 2000000) ∧
    ((n 0).soleInput 0 = none ∧ one.soleInput 0 = some (anInput 5 true)) ∧
    (((n 0).laneSt 0).fifo.length < 256 ∧ ((n 0).laneSt 0).markerPend = none ∧ 256 ≤ (full.laneSt 0).fifo.length) ∧
    ((n 0).laneCfg 0 = some aLane ∧ 4 ∈ aLane.slots ∧ ((n 0).laneSt 0).conv.bind (n 0).input = some (anInput 4 false) ∧ aLane.mode = 2) ∧
    (((n 1).laneSt 0).settle ≠ 0 ∧ ((n 0).laneSt 0).settle = 0 ∧ ((n 1).laneSt 0).exc = none) ∧ (solo.laneSt 0).conv = none ∧
    ((sole.laneSt 0).conv.bind sole.input = some (anInput 5 true) ∧ (anInput 5 true).sole = true ∧ (sole.laneSt 0).settle ≠ 0 ∧
      (sole.laneSt 0).exc = some 7 ∧ 7 ≠ (sole.afeExc 5).code) := by decide +kernel

theorem witness_IslandStates :
    let n (i : Island) : Node := solo.setIsle 0 i
    (solo.isle 0).state = .unpowered ∧ ((n { state := .run, timer := true }).isle 0).state = .run ∧
    ((n { state := .run, timer := true }).isle 0).timer = true ∧ (solo.island 7 = none ∧ reset.islandFrames = false) ∧
    (let c : Node := (n { state := .run }).setAo 0 { cmd := 4000, missed := 4 }
     c.islandFrames = true ∧ c.island 0 = some anIsland ∧ (c.aoSt 0).cmd ≠ 0 ∧ twf {} c.loop.islands = true ∧ twf {} c.loop.aos = true ∧
       (c.aoSt 0).missed < 5 ∧ 5 ≤ ((n {}).setAo 0 { cmd := 4000, missed := 5 } |>.aoSt 0).missed) ∧ (solo.aoSt 0).cmd = 0 ∧
    (islandCode ((n { state := .unconfigured }).isle 0).state = 1 ∧ 2 ≤ ((solo.setAo 0 { lastState := 2 }).aoSt 0).lastState ∧
      2 ≤ islandCode ((n { state := .run }).isle 0).state) ∧
    (((n { state := .unconfigured }).isle 0).state ∈ [.unconfigured, .run] ∧ twf {} solo.loop.aos = true) ∧
    ((n { state := .parked, run3 := 2 }).isle 0).run3 = 2 ∧
    (((n { state := .fail, run3 := 1 }).isle 0).state ∈ [.fail, .parked] ∧ ((n { state := .fail, run3 := 1 }).isle 0).run3 ≠ 2) ∧
    ((n { state := .run }).isle 0).state ≠ .unpowered ∧ ((solo.aoSt 0).mismatch = false ∧ (200 : BitVec 16).toNat ≤ (solo.aoSt 0).cmd + 200) := by
  decide +kernel

theorem witness_OutputForces :
    let m := maint solo
    solo.sec.maint = false ∧ m.sec.maint = true ∧ (∀ c ∈ [3500, 22000], 3500 ≤ c ∧ c ≤ 22000) ∧
    (¬ (3500 ≤ 3499 ∧ 3499 ≤ 22000) ∧ ¬ (3500 ≤ 22001 ∧ 22001 ≤ 22000)) ∧ (m.island 7 = none ∧ (m.island 0).isSome = true) ∧
    ((m.aoSt 0).forced = none ∧
      ((m.mLoop fun l => { l with aos := [(0, { forced := some 3500 })] }).aoSt 0).forced.isSome = true) ∧
    (m.isOutput 3 = false ∧ m.isOutput 8 = true ∧ m.dioForced 8 = none ∧
      ((m.mDio fun d => { d with forces := [(8, some true)] }).dioForced 8).isSome = true) ∧ (4 ≤ 31 ∧ 3 < 4) := by decide +kernel

theorem witness_DioFrames :
    let n : Node := solo.mDio fun d => { d with banks := [(0, { missed := 5 }), (1, { missed := 4 })] }
    let un : Node := solo.setField 0 { powered := false }
    reset.dioRuns = false ∧ (n.dioRuns = true ∧ twf {} n.dio.field = true ∧ twf {} n.dio.banks = true) ∧
    ((n.fieldSide 0).powered = true ∧ (n.fieldSide 0).wdExpired = false) ∧ ((n.bankSt 1).missed < 5 ∧ 5 ≤ (n.bankSt 0).missed) ∧
    ((un.fieldSide 0).powered = false ∧ un.dioRuns = true ∧ (69 : BitVec 8).toNat < 70 ∧ 70 ≤ (70 : BitVec 8).toNat) := by decide +kernel

theorem witness_FieldSideDrivesAndWatchdog :
    let f : DioField := { stored := true, dir := 1, cmd := 1 }
    let n : Node := (solo.setField 0 f).mDio fun d => { d with banks := [(0, { mode := modeFollow })] }
    let un : Node := solo.setField 3 { powered := false }
    ({ f with powered := false } : DioField).powered = false ∧ (bit (f.drive modeFollow) 0 = true ∧ f.powered = true ∧ f.stored = true) ∧
    ({} : DioField).stored = false ∧ (({ f with wdExpired := true } : DioField).wdExpired = true ∧ f.parked = false ∧ f.wdExpired = false) ∧
    ((n.fieldSide 0).powered = true ∧ (n.fieldSide 0).wdExpired = false ∧ (n.bankSt 0).mode = modeFollow ∧ (n.fieldSide 0).parked = false ∧
      twf {} n.dio.field = true ∧ twf {} n.dio.banks = true ∧ n.dioRuns = true) ∧
    ((un.fieldSide 3).powered = false ∧ 70 < (71 : BitVec 8).toNat ∧ (70 : BitVec 8).toNat ≤ 70) := by decide +kernel

theorem witness_PinsAndSweep :
    let un : Node := solo.setField 0 { powered := false }
    let n (m : Nat) : Node := solo.mDio fun d => { d with banks := [(0, { mode := m })] }
    let run (j : Nat) : Node := solo.mDio fun d => { d with sweepBusy := true, sweepSlot := j }
    let side (f : DioField) : Node := n modeFollow |>.setField 0 f
    let req : Node := (n modeFollow).mDio fun d => { d with sweepBusy := true, sweepReq := true }
    let up (m : DioField) : Prop := m.powered = true
    (un.fieldSide 0).powered = false ∧ (let f : DioField := {}; bit f.dir 3 = false ∧ bit f.wb 3 = false ∧ up f) ∧
    (let f : DioField := { wb := 8 }; bit f.dir 3 = false ∧ bit f.wb 3 = true ∧ up f) ∧
    (∀ x ∈ [(9000, 0), (7000, 0), (8000, 0)], 9000 ≤ x.1 ∨ x.1 ≤ 7000 ∨ (7000 < x.1 ∧ x.1 < 9000)) ∧
    (6 * 10000 ≤ 10 * 6000 ∧ 10 * 4000 ≤ 4 * 10000 ∧ (4 * 10000 < 10 * 5000 ∧ 10 * 5000 < 6 * 10000)) ∧
    (let f : DioField := { filter := 2, agree := [(3, 1)] }
     bit (f.sample 3 9000 0).reading 3 ≠ bit f.filtered 3 ∧ 0 < f.filter ∧ f.filter ≤ tget 0 f.agree 3 + 1 ∧
       bit (f.sample 3 7000 0).reading 3 = bit f.filtered 3) ∧
    (let f : DioField := { filter := 2 }; bit (f.sample 3 9000 0).reading 3 ≠ bit f.filtered 3 ∧ tget 0 f.agree 3 + 1 < f.filter ∧ twf 0 f.agree = true) ∧
    (let m := side { dir := 8, stored := true, cmd := 8 }
     bit (m.fieldSide 0).dir 3 = true ∧ bit ((m.fieldSide 0).drive (m.bankSt 0).mode) 3 = true) ∧
    (let m := side { dir := 8, stored := true }; bit ((m.fieldSide 0).drive (m.bankSt 0).mode) 3 = false) ∧
    (∀ m ∈ [req, req.mDio fun d => { d with sweepBank := 3 }], m.dioRuns = true ∧ m.dio.sweepReq = true) ∧
    (req.dio.sweepBank = 0 ∧ req.sweepPins 0 0 ≠ [] ∧ req.sweepPins 3 0 = []) ∧
    (let m := side { reports := [(3, 1)] }
     m.dioRuns = true ∧ up (m.fieldSide 0) ∧ 70 ≤ (70 : BitVec 8).toNat ∧ (m.fieldSide 0).reports = (3, 1) :: [] ∧ m.sweepPins 0 (3 + 1) = [] ∧
       m.sweepPins 0 (2 + 1) ≠ []) ∧
    ((solo.mDio fun d => { d with banks := [(0, { linkLost := true })] }).bankSt 0).linkLost = true ∧
    ((solo.bankSt 0).linkLost = false ∧ (solo.bankSt 0).mode ≠ modeFollow ∧ solo.dio.sweepBusy = false) ∧
    (((n modeFollow).bankSt 0).mode = modeFollow ∧ (n modeFollow).sweepPins 0 0 = 3 :: []) ∧
    (∀ j ∈ [0, 7], (run j).dio.sweepBusy = true ∧ (run j).dio.sweepReq = false ∧ (run j).dio.sweepBank = 0 ∧ (run j).dio.sweepSlot < 8 ∧
      up ((run j).fieldSide 0) ∧ ((run j).fieldSide 0).reports = [] ∧ twf {} (run j).dio.field = true) ∧
    ((run 3).sweepPins 0 4 = [] ∧ (run 0).sweepPins 0 1 = 3 :: []) := by decide +kernel

theorem witness_FabricCommands :
    (solo.img.isSome = true ∧ solo.ownDuty = true ∧ solo.pwr.parked = false) ∧ (member 4 3).ownDuty = true ∧
    ((solo.point 1).isSome = true ∧ (solo.point 1023).isSome = false ∧ (solo.group 0).isSome = true ∧ solo.sec.maint = false) ∧
    256 ≤ ((solo.mFab fun f => { f with queue := List.replicate 256 ⟨1, 1, 0, 0, 0, 1, 0⟩ }).fab.queue.filter (·.reason == 0)).length ∧
    ((solo.point 1).any (fun c => decide (c.shelveMax < 1001)) = true ∧ (solo.point 1).any (fun c => decide (c.shelveMax < 1000)) = false) ∧
    reset.img = none := by decide +kernel

theorem witness_PointCommandsAndTimers :
    let n (x : PointSt) : Node := solo.setPoint 1 x
    (({ st := stActUnack } : PointSt).st = stActUnack ∧ ({ st := stRectUnack } : PointSt).st = stRectUnack ∧
      ({} : PointSt).st ≠ stActUnack ∧ ({} : PointSt).st ≠ stRectUnack) ∧
    (aPoint.prio ≠ 0 ∧ aPoint.shelveMax ≠ 0 ∧ 1000 ≤ aPoint.shelveMax ∧ ({} : PointSt).st ≠ stOutOfService) ∧
    (({ latched := true } : PointSt).latched = true ∧ ({ latched := true } : PointSt).f = false ∧ ({ f := true } : PointSt).f = true) ∧
    (solo.point 1 = some aPoint ∧ solo.evaluates = true ∧ reset.evaluates = false) ∧
    (let x := (n { running := true, cnt := 1 }).pointSt 1
     x.f = false ∧ x.running = true ∧ x.supp = false ∧ solo.ticksOf aPoint 4 ≤ x.cnt + 1 ∧ overlay x.st = false) ∧
    (let x := (n { running := true, cnt := 0 }).pointSt 1; x.cnt + 1 < solo.ticksOf aPoint 4) ∧
    (∀ st ∈ [stActAck, stActUnack], let x := (n { f := true, running := true, st := st }).pointSt 1
     x.f = true ∧ x.running = true ∧ x.supp = false ∧ solo.ticksOf aPoint 5 ≤ x.cnt + 1 ∧ x.st = st) ∧
    (let x := (n { supp := true, hold := 1, st := stSuppressed }).pointSt 1
     x.supp = true ∧ x.hold = 1 ∧ x.st = stSuppressed ∧ x.f = false ∧ x.r = false) ∧
    (let x := (n { st := stShelved, shelf := 1 }).pointSt 1; x.st = stShelved ∧ x.shelf = 1 ∧ x.shelfSet = false) ∧
    1 < ((n { st := stShelved, shelf := 2 }).pointSt 1).shelf := by decide +kernel

theorem witness_Tunables :
    let full : Node := solo.mFab fun f => { f with tunePend := List.replicate 64 ⟨2, 4, 0⟩ }
    let one : Node := solo.mFab fun f => { f with tunePend := [⟨1, 4, 7⟩] }
    solo.tune 1 5 = none ∧ solo.tune 1 4 = some aTune ∧ (b64Finite 101 = true ∧ insideBounds aTune 101 = false) ∧
    (insideBounds { aTune with maintOnly := true } 100 = true ∧ ({ aTune with maintOnly := true } : TuneCfg).maintOnly = true ∧
      solo.sec.maint = false) ∧
    (insideBounds aTune 100 = true ∧ aTune.maintOnly = false ∧ b64Finite 100 = true) ∧
    ((full.fab.tunePend.any fun y => y.cell == 1 && y.item == 4) = false ∧ 64 ≤ full.fab.tunePend.length) ∧
    solo.fab.tunePend.length < 64 ∧ solo.fab.tunePend = [] ∧
    (one.fab.tunePend = [⟨1, 4, 7⟩] ∧ one.ownDuty = true ∧ one.activationFalls = false ∧ twf none one.fab.tuned = true) ∧
    ((member 3 4).ownDuty = false ∧ (one.mSec fun s => { s with act := some ⟨true, 2000000, true⟩ }).activationFalls = true) := by decide +kernel

theorem witness_FabricWindowAndErrors :
    let n (r : Nat × Word × B64) : Node := solo.mFab fun f => { f with winRun := some r }
    let sel (item idx : Nat) : Word := BitVec.ofNat 32 (item * 65536 + idx)
    solo.fab.winRun = none ∧ (n (1, sel 1 1, 0)).fab.winRun.isSome = true ∧
    ((n (1, sel 1 1023, 0)).fab.winRun = some (1, sel 1 1023, 0) ∧ bitsOf 12 2 (sel 1 1023) = 0 ∧ solo.point (bitsOf 0 10 (sel 1 1023)) = none) ∧
    (∀ i ∈ [1, 9, 10, 63], bitsOf 12 2 (sel i 1) = 0 ∧ (solo.point (bitsOf 0 10 (sel i 1))).isSome = true ∧ bitsOf 16 8 (sel i 1) = i) ∧
    ((n (2, sel 4 1, 100)).fab.winRun = some (2, sel 4 1, 100) ∧ bitsOf 16 8 (sel 4 1) ∈ [2, 3, 4, 5, 6] ∧
      solo.tuneRefusal 1 4 100 = 0 ∧ solo.tuneRefusal 1 4 101 ≠ 0) ∧ bitsOf 16 8 (sel 9 1) ∈ [0, 1, 7, 8, 9] ∧
    (64 ≤ bitsOf 16 8 (sel 64 1) ∧ bitsOf 12 2 (sel 64 1) = 0) := by decide +kernel

theorem witness_EngineerCall :
    let full : Node := solo.mFab fun f => { f with queue := List.replicate 256 ⟨1, 1, 0, 0, 0, 1, 0⟩ }
    let dm (st t : Nat) : Node := solo.mCall fun c => { c with dmState := st, dmTimer := t }
    let lad (r t : Nat) : Node := solo.mCall fun c => { c with ladders := [(0, { rung := r, timer := t })] }
    let two : LadderCfg := { aLadder with rungs := aLadder.rungs ++ aLadder.rungs }
    (solo.img.isSome = true ∧ solo.ownDuty = true ∧ solo.pwr.parked = false ∧ ¬ 256 ≤ (solo.fab.queue.filter (·.reason == 0)).length) ∧
    256 ≤ (full.fab.queue.filter (·.reason == 0)).length ∧
    (solo.engineer 2 = none ∧ (solo.engineer 1).isSome = true ∧ bit solo.call.present 1 = false ∧ (solo.engineer 0).isSome = true ∧
      bit solo.call.present 0 = true) ∧
    (solo.maskUndefined 4 = true ∧ solo.maskUndefined 2 = false ∧ (2 : Nat).testBit solo.call.duty = false ∧
      (3 : Nat).testBit solo.call.duty = true) ∧
    (solo.watch.isSome = true ∧ solo.watch = some aWatch ∧ (dm 3 0).call.dmState = 3 ∧ (dm 1 1).call.dmState ≠ 3) ∧
    (({ solo with img := some { anImage none with sec := { (anImage none).sec with call := [] } } } : Node).watch = none) ∧
    (reset.evaluates = false ∧ solo.evaluates = true) ∧
    ((dm 1 1201).call.dmState = 1 ∧ (dm 1 1201).call.dmTimer ≤ aWatch.warn * 20 + 1 ∧ aWatch.warn * 20 + 1 < (dm 1 1202).call.dmTimer) ∧
    ((dm 2 1).call.dmState = 2 ∧ (dm 2 1).call.dmTimer ≤ 1 ∧ 1 < (dm 2 2).call.dmTimer) ∧
    (solo.ladder 0 = some aLadder ∧ (solo.ladderSt 0).rung = 0 ∧ 1 < ((lad 1 2).ladderSt 0).timer) ∧
    (((lad 1 1).ladderSt 0).rung ≠ 0 ∧ ((lad 1 1).ladderSt 0).timer ≤ 1 ∧ aLadder.rungs.length ≤ ((lad 1 1).ladderSt 0).rung ∧
      aLadder.fastEscalate = false ∧ twf {} (lad 1 1).call.ladders = true) ∧
    ((({ lad 1 1 with img := some { anImage none with sec := { (anImage none).sec with call := [.ladder two] } } } : Node).ladder 0 = some two) ∧
      ((lad 1 1).ladderSt 0).rung < two.rungs.length) := by decide +kernel

theorem witness_SolverMemoryWindow :
    let n (a : Nat) : Node := solo.mSolv fun s => { s with memAddr := a }
    let held : Node := (n 0).mSolv fun s => { s with slots := [(0, { gen := 1, job := some (aJob 0 1 5 false) })], order := [0] }
    (solo.region.1 + solo.region.2 ≤ (n 4096).solv.memAddr) ∧
    (¬ (0 < solo.region.1 ∨ solo.region.1 + solo.region.2 ≤ 0) ∧ ∃ j ∈ held.hostJobs, ∃ x ∈ j.areas, x.1 ≤ held.solv.memAddr ∧ held.solv.memAddr < x.2) ∧
    (∀ a ∈ [0, 4095], ¬ (a < solo.region.1 ∨ solo.region.1 + solo.region.2 ≤ a) ∧ (n a).hostJobs = [] ∧ twf 0 (n a).solv.mem = true) := by
  decide +kernel

theorem witness_HostSubmission :
    let n (op : Word) (dl : Nat) : Node := solo.mSolv fun s => { s with descOp := op, descOut := 64, descDl := dl }
    let j (m : Node) := m.descJob aTemplate 1
    let held : Node := (n 0x02000100 0).mSolv fun s => { s with descIn := 8, slots := [(0, { gen := 1, job := some (aJob 0 1 5 false) })], order := [0] }
    let good : Node := n 0x02000100 100000
    (reset.setNow 0).solvRefuses = true ∧ (good.setNow 0).solvRefuses = false ∧ (1 : BitVec 2) ≠ 0 ∧
    (n 5 0).template (n 5 0).descTemplate = none ∧ (good.template good.descTemplate = some aTemplate ∧ aTemplate.host = true ∧
      ({ aTemplate with host := false } : TemplateCfg).host = false) ∧
    badSize (j (n 0 0)) = true ∧ 100000 < (n 0x02000100 100001).solv.descDl ∧
    (good.solv.descDl ≤ 100000 ∧ badSize (j good) = false) ∧
    (good.mSolv fun s => { s with descOut := 4096 }).badArea (j (good.mSolv fun s => { s with descOut := 4096 })) = true ∧
    (good.badArea (j good) = false ∧ held.overlaps (j held) = true ∧ good.overlaps (j good) = false) ∧
    aTemplate.hostMax ≤ ((good.mSolv fun s => { s with tmpl := [(0, { hostUsed := 1 })] }).tmplSt 0).hostUsed ∧
    (good.tmplSt aTemplate.num).hostUsed < aTemplate.hostMax ∧ good.solvFull = false ∧ good.freeSlot = some 0 ∧
    twf {} good.solv.slots = true ∧ twf {} good.solv.tmpl = true ∧ good.solv.slots = [] := by decide +kernel

theorem witness_HostSubmission_full :
    ({ solo with solv := { slots := (List.range 16).map fun k => (k, { gen := 1, job := some (aJob k 1 5 false) }) } } : Node).solvFull =
        true := by decide +kernel

theorem witness_HostJobsEnd :
    let job (d : Nat) (r : Bool) : Job := aJob 0 3 d r
    let n (d : Nat) (r : Bool) (run : Option Nat) : Node := solo.mSolv fun s => { s with slots := [(0, { gen := 1, job := some (job d r) })], order := [0], running := run }
    let cq : Node := solo.mSolv fun s => { s with cq3 := [⟨0, 0x10, 0, 0, 0, false, false, 0x7F, 0, 0⟩], slots := [(0, { gen := 1, job := some (job 5 false) })] }
    let q := n 1999999 false none
    (∀ d ∈ [2000000, 2000001], ∀ r ∈ [true, false], (n d r (some 0)).runJob = some (job d r) ∧ (n d r (some 0)).solv.running = some (job d r).slot ∧
      1 ≤ (job d r).queue ∧ (job d r).queue ≤ 3 ∧ twf {} (n d r (some 0)).solv.slots = true ∧ ((n d r (some 0)).setNow 5).now ≤ (job d r).deadline ∧
      1 ≤ (job d r).b) ∧
    (∀ r ∈ [true, false], (n 2000001 r (some 0)).rtc.now < (job 2000001 r).deadline) ∧
    (job 2000000 false).deadline ≤ ((n 2000000 false (some 0)).setNow 5).now ∧ solo.runJob = none ∧
    (q.lateRunning = none ∧ q.lateHead (q.now + 1) = some 0 ∧ (q.slotSt 0).job = some (job 1999999 false)) ∧
    (let l := n 1999999 false (some 0); l.lateRunning = some 0 ∧ (l.slotSt 0).job = some (job 1999999 false) ∧ (job 1999999 false).slot = 0) ∧
    (∀ i, i < 16 → ∀ o, ((n 5 false (some 0)).slotSt i).job = some o → o.slot = i) ∧
    (solo.solvHeld = false ∧ (solo.mPwr fun p => { p with domOn := 7 }).solvHeld = true) ∧
    (solo.cqOf 1 = [] ∧ cq.cqOf 3 = ⟨0, 0x10, 0, 0, 0, false, false, 0x7F, 0, 0⟩ :: [] ∧ twf {} cq.solv.slots = true) := by decide +kernel

theorem witness_JournalCursor :
    let n (op asked : Nat) : Node := solo.mJrnl fun j => { j with busy := true, op := op, asked := asked, ram := [⟨aRecord 4, false⟩, ⟨aRecord 6, false⟩] }
    solo.jrnl.busy = false ∧ (solo.mJrnl fun j => { j with busy := true }).jrnl.busy = true ∧ solo.heldNums = [] ∧
    ((n 1 4).jrnl.busy = true ∧ (n 1 4).heldNums = [4, 6] ∧ (n 1 4).jrnl.asked ∈ (n 1 4).heldNums) ∧
    (∀ op ∈ [1, 2], (n op 5).jrnl.op = op ∧ (n op 5).jrnl.asked < 6 ∧ 6 ∈ (n op 5).heldNums ∧
      (∀ x ∈ (n op 5).heldNums, (n op 5).jrnl.asked ≤ x → 6 ≤ x) ∧ ∃ x ∈ (n op 5).heldNums, x < (n op 5).jrnl.asked) ∧
    ((n 1 3).jrnl.asked < 4 ∧ ∀ x ∈ (n 1 3).heldNums, 4 ≤ x) ∧ (∀ x ∈ (n 1 7).heldNums, x < (n 1 7).jrnl.asked) ∧
    ((n 3 0).jrnl.op = 3 ∧ (∀ x ∈ (n 3 0).heldNums, x ≤ 6)) ∧ ((n 4 0).jrnl.op = 4 ∧ ∀ x ∈ (n 4 0).heldNums, 4 ≤ x) := by decide +kernel

theorem witness_RecordsToFlash :
    let n : Node := (solo.mJrnl fun j => { j with ram := [⟨aRecord 4, false⟩, ⟨aRecord 3, true⟩] }).mStor fun s => { s with sectors := [(513, { cls := .data, serial := 1 })] }
    let busy (op : FlashOp) : Node := n.mStor fun s => { s with cur := some op }
    (solo.mStor fun s => { s with state := 2 }).stor.state = 2 ∧ (n.coreHeld = false ∧ (n.mClk fun c => { c with core := { st := .slack } }).coreHeld = true) ∧
    solo.unwritten = [] ∧
    (n.stor.state ≠ 2 ∧ n.unwritten ≠ [] ∧ n.jrnlOpen = some 513 ∧ n.stor.cur = none) ∧
    ((busy (.eraseAhead 514)).stor.cur = some (.eraseAhead 514) ∧ (FlashOp.eraseAhead 514).erases.isSome = true ∧ n.stor.susp = none) ∧
    (FlashOp.ident .trip).erases = none ∧
    ((busy (.jrnl [aRecord 4])).stor.cur = some (.jrnl [aRecord 4]) ∧ (busy (.jrnl [aRecord 4])).jrnlOpen = some 513 ∧ twf {} n.stor.sectors = true) ∧
    n.jrnl.ram.find? (·.item.seq == 5) = none ∧ n.jrnl.ram.find? (·.item.seq == 4) = some ⟨aRecord 4, false⟩ ∧
    n.jrnl.ram.find? (·.item.seq == 3) = some ⟨aRecord 3, true⟩ ∧ (n.issuer = true ∧ (member 3 4).issuer = false) := by decide +kernel

theorem witness_RingLinks :
    let n (a b : LinkSt) : Node := ringed.mTide fun t => { t with ta := a, tb := b }
    let alive (m : Node) : Prop := m.pwr.phase = .done ∧ m.coreRuns = true ∧ m.pwr.parked = false ∧ m.txIdle = false
    let run (k : Nat) : LinkSt := { up := true, badRun := k }
    let b : Beacon := ⟨1, 3, false, true, 1, 2, 3, 4⟩
    alive solo ∧ ¬ reset.pwr.phase = .done ∧ reset.ringHears = false ∧
    (ringed.ringHears = true ∧ (ringed.link .ta).up = false ∧ b.rxOk = true ∧ (ringed.link .ta).samples.length < 15) ∧
    (((n (run 6) {}).link .ta).badRun < 7 ∧ 7 ≤ ((n (run 7) {}).link .ta).badRun ∧ ((n (run 7) {}).link .ta).up = true ∧ (n (run 7) {}).ringHears = true) ∧
    (((n { up := true } {}).link .ta).up = true ∧ ({ b with rxOk := false } : Beacon).rxOk = false) ∧
    (let l := (n {} { rxOk := true, txOk := true }).link .tb; l.rxOk = true ∧ l.txOk = true ∧ l.up = false) ∧
    ((ringed.link .tb).rxOk = false) ∧
    ((n { up := true } { up := true }).tide.st = .inserted ∧ ((n { up := true } { up := true }).link .tb).up = true ∧
      ((n { up := true } {}).link .tb).up = false) ∧
    ((solo.mTide fun t => { t with st := .listen, ta := { up := true } }).tide.st ≠ .inserted) ∧
    (let m := (n { up := true, wasDown := true } {}).mTide fun t => { t with wrapA := true }
     m.tide.st = .inserted ∧ m.tide.wrapA = true ∧ m.tide.ta.up = true ∧ m.tide.ta.wasDown = true) ∧ ringed.tide.wrapA = false := by decide +kernel

theorem witness_TokenRound :
    let n (f : Tide → Tide) : Node := ringed.mTide f
    let seen : Node := n fun t => { t with gen := 3, genSeen := true }
    let tk : TokenFrame := ⟨0, false, false, 3, 3, 2, 2000000⟩
    let kept : Node := n fun t => { t with kept := some { tk with visited := 3 } }
    let at' (st : RingSt) : Node := n fun t => { t with st := st }
    reset.ringOn = false ∧ (seen.ringOn = true ∧ seen.otherRing { tk with gen := 2 } = false ∧ seen.olderGen 2 = true) ∧
    (seen.ringOn = true ∧ seen.otherRing tk = false ∧ seen.olderGen tk.gen = false ∧ seen.tide.st = .inserted ∧
      bit tk.visited seen.sys.node = false ∧ seen.tide.lastToken ≠ some (tk.gen, tk.boundary)) ∧
    (bit ({ tk with visited := 3 } : TokenFrame).visited seen.sys.node = true ∧ tk.master = seen.sys.node) ∧
    (let r := at' .request
     let x : TokenFrame := { tk with view := 2, spliced := true }
     r.ringOn = true ∧ r.otherRing x = false ∧ r.olderGen x.gen = false ∧ r.tide.st = .request ∧ bit x.view r.sys.node = false ∧
       x.spliced = true ∧ bit x.visited r.sys.node = false ∧ r.tide.spliceFor = none) ∧
    (∀ st ∈ [RingSt.listen, .request], (at' st).ringOn = true ∧ (at' st).otherRing tk = false ∧ (at' st).olderGen tk.gen = false ∧
      (at' st).tide.st ∈ [.listen, .request] ∧ bit tk.view (at' st).sys.node = true) ∧
    (kept.ringOn = true ∧ kept.tide.st = .inserted ∧ kept.tide.dissolve = false ∧ kept.tide.kept = some { tk with visited := 3 }) ∧
    (ringed.tide.kept = none ∧ ringed.tide.hold = none) ∧
    ((n fun t => { t with hold := some tk }).tide.hold = some tk ∧ ringed.spliceAt tk = none) ∧
    (n fun t => { t with viewStable := true, splicePend := some .tb, tb := { up := true } }).spliceAt tk = some (.tb, true) := by decide +kernel

theorem witness_ClaimsAndRingStates :
    let n (f : Tide → Tide) : Node := ringed.mTide f
    let two : Node := ringed.mSys fun s => { s with node := 2 }
    let ready : Node := { n fun t => { t with st := .listen, listenRot := 3, tb := { up := true } } with rtc := { tracked := true, offset := -10 } }
    ¬ solo.tide.st = .inserted ∧ (ringed.sys.node < 1 ∧ ringed.ringOn = true ∧ ringed.tide.st = .inserted) ∧
    ((0 : Nat) = ringed.sys.node ∧ ringed.tide.claiming = false) ∧ (two.ringOn = true ∧ 1 < two.sys.node) ∧
    (n fun t => { t with claiming := true }).tide.claiming = true ∧ 2 ≤ (n fun t => { t with silent := 2 }).tide.silent ∧
    (n fun t => { t with silent := 2 }).tide.tokenSeen = false ∧ (n fun t => { t with tokenSeen := true }).tide.tokenSeen = true ∧
    ringed.tide.silent < 2 ∧
    (let m := n fun t => { t with st := .listen, silent := 3 }; m.ringOn = true ∧ m.tide.st = .listen ∧ 3 ≤ m.tide.silent) ∧
    (ready.ringOn = true ∧ ready.tide.st = .listen ∧ 3 ≤ ready.tide.listenRot ∧ ready.tide.tb.up = true ∧ ready.rtc.tracked = true ∧
      -10 ≤ ready.rtc.offset ∧ ready.rtc.offset ≤ 10 ∧ ready.img.isSome = true) ∧ ¬ 3 ≤ ringed.tide.listenRot ∧
    (ringed.sec.maint = false ∧ (maint ringed).sec.maint = true ∧ (maint ringed).tide.st = .inserted ∧ (maint solo).tide.st ≠ .inserted ∧
      (maint solo).tide.st ≠ .heldOut ∧ (maint solo).tide.st ≠ .refused) ∧
    (∀ st ∈ [RingSt.heldOut, .refused], (n fun t => { t with st := st }).tide.st ∈ [.heldOut, .refused]) := by decide +kernel

theorem witness_FramesInOrder :
    let n (p : Peer) : Node := ringed.mTide fun t => { t with peers := [(1, p)] }
    let wrap := n { high := some 65535 }
    let waits := n { high := some 0, missing := [65535], held := [(0, .records [aRecord 2])] }
    let std := member 3 4
    reset.ringHears = false ∧ (ringed.sys.node = 0) ∧
    (wrap.ringHears = true ∧ 1 ≠ wrap.sys.node ∧ twf {} wrap.tide.peers = true ∧ (wrap.peer 1).missing = [] ∧ (wrap.peer 1).held = [] ∧
      (wrap.peer 1).high = some 65535) ∧
    ((65535 + 65536 - 65535) % 65536 = 0 ∧ 32768 ≤ (32767 + 65536 - 65535) % 65536 ∨ (65535 + 65536 - 65535) % 65536 = 0) ∧
    ((0 : BitVec 16).toNat = (65535 + 1) % 65536 ∧ (1 : BitVec 16).toNat = (65535 + 2) % 65536) ∧
    (waits.ringHears = true ∧ twf {} waits.tide.peers = true ∧ (waits.peer 1).high = some 0 ∧
      (waits.peer 1).missing = [(65535 : BitVec 16).toNat] ∧ (waits.peer 1).held = [(0, .records [aRecord 2])] ∧
      0 = ((65535 : BitVec 16).toNat + 1) % 65536 ∧ (1 : BitVec 16).toNat = (0 + 1) % 65536) ∧
    ((1 : BitVec 16).toNat ∉ (waits.peer 1).missing ∧ waits.tide.st = .inserted ∧
      (waits.mTide fun t => { t with st := .listen }).tide.st ≠ .inserted ∧ std.jrnl.writeThrough = false) ∧
    (ringed.tide.st = .inserted ∧ (ringed.mTide fun t => { t with st := .listen }).tide.st ≠ .inserted) ∧
    (std.paired = true ∧ std.pair.role ≠ 4 ∧ (aRecord 9).space = std.space ∧ std.recordVoid (aRecord 9) = false ∧ std.ringHears = true ∧
      (std.peer 1).high = some 7 ∧ (std.peer 1).missing = [] ∧ twf {} std.tide.peers = true) := by decide +kernel

theorem witness_ReportsAndReturns :
    let n (f : Tide → Tide) : Node := ringed.mTide f
    let sent (r : Nat) : Node := n fun t => { t with sent := [⟨5, r, 0xFFFF, .records [aRecord 3]⟩] }
    (ringed.ringHears = true ∧ 1 ≠ ringed.sys.node ∧ twf {} ringed.tide.peers = true ∧ (ringed.peer 1).high = some 7 ∧
      (8 : BitVec 16).toNat = (7 + 1) % 65536 ∧ (ringed.peer 1).missing = [] ∧ (ringed.peer 1).held = []) ∧
    ((0 : Nat) = ringed.sys.node ∧ (∀ st ∈ [RingSt.listen, .request], (n fun t => { t with st := st }).tide.st ∈ [.listen, .request]) ∧
      ringed.tide.st ∉ [.listen, .request] ∧ (n fun t => { t with st := .listen }).ringOn = true ∧ reset.ringOn = false) ∧ (1 ≠ ringed.tide.refNode ∧ (n fun t => { t with refNode := 1 }).tide.refNode = 1) ∧
    ((ringed.mRtc fun r => { r with reference := true }).rtc.reference = true ∧ ringed.rtc.reference = false ∧ ringed.rtc.stepPend = none) ∧
    (∀ d ∈ [-10, 10, 11, 1000], (((d + 2000000 : Int) - 2000000) * 1000 + 0 - 0 + 0 + ((ringed.link .ta).delay : Int) * 10 + 500) / 1000 = d) ∧
    (n fun t => { t with st := .request }).tide.st = .request ∧ (ringed.mTide fun t => { t with st := .listen }).tide.st ≠ .inserted ∧
    (let m := n fun t => { t with wrapA := true, ta := { up := true, neighbour := 1 } }
     m.tide.st = .inserted ∧ m.tide.wrapA = true ∧ m.tide.ta.up = true ∧
       m.tide.ta.neighbour = (if (0xFF : BitVec 8) = 0xFF then (1 : BitVec 8).toNat else (0xFF : BitVec 8).toNat)) ∧
    ringed.tide.sent.find? (·.fseq == 5) = none ∧
    (∀ r ∈ [0, 2, 3], (sent r).tide.sent.find? (·.fseq == (5 : BitVec 16).toNat) = some ⟨5, r, 0xFFFF, .records [aRecord 3]⟩ ∧
      (sent r).required ⟨5, r, 0xFFFF, .records [aRecord 3]⟩ &&& ~~~(2 : BitVec 16) = 0 ∧
      (sent r).required ⟨5, r, 0xFFFF, .records [aRecord 3]⟩ &&& ~~~(0 : BitVec 16) ≠ 0 ∧ (sent r).tide.hold = none) ∧
    ((sent 3).issuer = true ∧ (sent 3).jrnl.gaps = []) := by decide +kernel

theorem witness_EpochCopies :
    let s : Node := member 3 4
    let nextOne (n : Node) : Prop := n.ringHears = true ∧ 1 ≠ n.sys.node ∧ twf {} n.tide.peers = true ∧ (n.peer 1).high = some 7 ∧
      (8 : BitVec 16).toNat = (7 + 1) % 65536 ∧ (n.peer 1).missing = [] ∧ (n.peer 1).held = []
    let whole (n : Node) : Node := n.mPair fun p => { p with chunkTag := some 40, chunks := [(0, [1, 2])] }
    nextOne s ∧ (nextOne ringed ∧ ringed.partner ≠ some 1) ∧ (s.partner = some 1 ∧ s.tide.st = .inserted) ∧
    (∀ r ∈ [2, 3], (member r 4).pair.role ∈ [2, 3] ∧ (member r 4).pair.query = none ∧ (member r 4).pair.takeDue = none) ∧
    ((member 4 3).pair.role ∉ [2, 3, 6] ∧ (member 6 4).pair.role = 6) ∧
    (¬ (false = true ∨ s.fullTick 39 * 50000 / 1000000 = s.now / 1000000) ∧ s.fullTick 40 * 50000 / 1000000 = s.now / 1000000) ∧
    (s.wholeBuffer 40 1 = none ∧ (whole s).wholeBuffer 40 1 = some [1, 2]) ∧
    ((0 : BitVec 32).toNat ≠ crc32 [1, 2] ∧ (BitVec.ofNat 32 (crc32 [1, 2])).toNat = crc32 [1, 2]) ∧
    ((0 : BitVec 32).toNat ≠ s.hashTag ∧ (0x1234 : BitVec 32).toNat = s.hashTag) := by decide +kernel

theorem witness_EpochCopies_acks :
    let nextOne (n : Node) : Prop := n.ringHears = true ∧ 1 ≠ n.sys.node ∧ twf {} n.tide.peers = true ∧ (n.peer 1).high = some 7 ∧
      (8 : BitVec 16).toNat = (7 + 1) % 65536 ∧ (n.peer 1).missing = [] ∧ (n.peer 1).held = []
    let d (c : CopySt) : Node := (member 4 3).mPair fun p => { p with copy := some c }
    (nextOne (member 4 3) ∧ (member 4 3).pair.copy = none) ∧
    (nextOne (d ⟨5, 40, false, true⟩) ∧ (d ⟨5, 40, false, true⟩).pair.copy = some ⟨5, 40, false, true⟩ ∧ (d ⟨5, 40, false, true⟩).pair.finalDue = false) ∧
    (let a := (member 4 3).mSec fun s => { s with act := some ⟨true, 3000000, false⟩, b := { state := 3, hash := 7 } }
     nextOne a ∧ a.sec.act = some ⟨true, 3000000, false⟩ ∧ (7 : BitVec 32) ≠ 0 ∧ (7 : BitVec 32).toNat = (a.bankOf true).hash.toNat % 2 ^ 32 ∧
       a.pair.copy = none) := by decide +kernel

theorem witness_HighNumberQuery :
    let s : Node := member 3 4
    let q (v : BitVec 16) : Node := (s.mPair fun p => { p with query := some ⟨1, []⟩ }).mTide fun t => { t with view := v }
    (s.ringHears = true ∧ 1 ≠ s.sys.node ∧ twf {} s.tide.peers = true ∧ (s.peer 1).high = some 7 ∧ (8 : BitVec 16).toNat = (7 + 1) % 65536 ∧
      (s.peer 1).missing = [] ∧ (s.peer 1).held = []) ∧
    (s.tide.st = .inserted ∧ (s.mTide fun t => { t with st := .listen }).tide.st ≠ .inserted) ∧ (s.pair.query = none ∧ 1 ≠ s.space) ∧
    ((q 3).pair.query = some ⟨1, []⟩ ∧ 0 = (q 3).space ∧
      ∀ k, k < 16 → bit (q 3).tide.view k = true → k ≠ (q 3).sys.node → ∃ r ∈ [(1, 0)], r.1 = k) ∧
    (bit (q 7).tide.view 2 = true ∧ 2 ≠ (q 7).sys.node ∧ ¬ ∃ r ∈ [(1, 0)], r.1 = 2) := by decide +kernel

theorem witness_DutyTakenAndGivenUp :
    let s : Node := (member 3 4).mPair fun p => { p with takeDue := some (9, 1) }
    let d (f : Pair → Pair) : Node := (member 4 3).mPair f
    let out : Node := (member 4 3).mTide fun t => { t with st := .listen }
    let runs (n : Node) : Prop := n.timed = true ∧ n.coreHeld = false ∧ n.pwr.parked = false ∧ n.img.isSome = true ∧ n.pwr.phase = .done
    (solo.pair.takeDue = none ∧ ({ solo with rtc := { now := 3000000 } } : Node).nextMultiple 50000 % 1000000 = 0) ∧
    (runs s ∧ s.pair.takeDue = some (9, 1) ∧ s.nextMultiple 50000 % 1000000 ≠ 0 ∧ s.pair.role ≠ 4 ∧ s.pwr.mode ≠ .holdup) ∧
    ((s.mPwr fun p => { p with mode := .holdup }).pwr.mode = .holdup) ∧
    (solo.pair.role ≠ 4) ∧ (out.pair.role = 4 ∧ out.tide.st ≠ .inserted ∧ out.coreHeld = false ∧ out.clk.core.clamp = false) ∧
    (out.mClk fun c => { c with core := { c.core with clamp := true } }).clk.core.clamp = true ∧
    (let n := d fun p => { p with noMaj := 20 }
     runs n ∧ n.clk.core.clamp = false ∧ n.pair.role = 4 ∧ n.tide.st = .inserted ∧ 20 ≤ n.pair.noMaj) ∧
    (let n := d fun p => { p with noMaj := 19, demoteDue := 4 }
     runs n ∧ n.pair.noMaj < 20 ∧ n.partnerRole ≠ some 4 ∧ n.pair.demoteDue = 4) ∧
    (solo.sec.maint = false ∧ (maint (member 3 4)).pair.role ≠ 4 ∧ (maint (member 4 2)).partnerRole ≠ some 3 ∧
      (maint (member 4 3)).partnerRole = some 3 ∧ (member 4 3).pair.handover = false ∧ (d fun p => { p with handover := true }).pair.handover = true) := by
  decide +kernel

theorem witness_NetworkAcknowledgements :
    let out : Node := { solo with img := some { anImage none with sec := { (anImage none).sec with map := [] } } }
    let busy : Node := solo.mExt fun e => { e with ports := [(0, { state := 1, cmds := 16 })] }
    let far : AlertCfg := { anAlert with owner := 9 }
    twf {} solo.ext.ports = true ∧ out.clearLines.takesAck 0 = false ∧ out.clearLines.takesAcn 0 = false ∧
    solo.clearLines.byAlr 0 6 = none ∧ solo.clearLines.takesAcn 0 = true ∧ (solo.clearLines.takesAck 0 = true ∧ solo.clearLines.byAlr 0 5 = some (0, anAlert) ∧ 16 ≤ (busy.portSt 0).cmds ∧ (solo.portSt 0).cmds < 16) ∧
    (solo.clearLines.byIdent 0 100 2 = none ∧ solo.clearLines.byIdent 0 100 1 = some (0, anAlert)) ∧
    (solo.dest (some anAlert.owner) = .own ∧ solo.queueFull = false ∧ reset.dest (some far.owner) = .unreachable) ∧
    ((member 3 4).speaks 0 = false ∧ solo.speaks 4 = true ∧ (solo.port 4).any (·.serial) = false ∧ solo.txIdle = false) ∧
    (let m := solo.mClk fun c => { c with core := { st := .bridge } }; m.speaks 4 = true ∧ m.txIdle = true ∧ m.clearLines.takesAcn 4 = true) ∧
    ((solo.clearLines.hears 0 && (solo.port 0).any fun k => k.service 0 && k.sfis.contains 1) = false ∧
      (solo.clearLines.hears 4 && (solo.port 4).any fun k => k.service 0 && k.sfis.contains 1) = true) ∧
    ((1 : Nat) ≠ 0 ∧ solo.clearLines.hears 3 = true ∧ (solo.port 3).any (fun k => k.kind == 4 && k.ackAccept) = true ∧
      (solo.clearLines.portAlerts 3).find? (fun e => e.2.n2kIdent == 9 && e.2.n2kOcc == 1) = some (0, anAlert)) := by decide +kernel

theorem witness_SentenceRepeats :
    let q : QMsg := ⟨.rep, 0, .n2kHeartbeat⟩
    let cur (l : List QMsg) : Node := solo.updPort 0 fun s => { s with cur := some q, queue := l }
    let quiet (n k : Nat) : PortCfg := { aPort n k with alertSet := 0 }
    let twin : Node := { solo with img := some { anImage none with sec := { (anImage none).sec with
      map := [.port { aPort 5 5 with duplicate := true }] } } }
    twf {} solo.ext.ports = true ∧ ((member 3 4).speaks 0 = false ∧ solo.port 1 = none ∧ twin.alertPort 5 ≠ 5) ∧
    (∀ p ∈ [(0, 1), (4, 5)], solo.port p.1 = some (aPort p.1 p.2) ∧ (aPort p.1 p.2).num = p.1 ∧ solo.sends p.1 = true ∧ solo.alertPort p.1 = p.1 ∧
      (aPort p.1 p.2).alf = true ∧ (aPort p.1 p.2).legacy = true ∧ (aPort p.1 p.2).sentences = true) ∧
    ((quiet 0 1).alf = false ∧ (quiet 0 1).legacy = false ∧ (aPort 4 5).kind = 5 ∧ (aPort 0 1).serial = true) ∧
    ((solo.portSt 0).cur = none ∧ (solo.portSt 0).queue.length ≤ 64) ∧
    (((cur []).portSt 0).cur.isSome = true ∧ ((cur []).portSt 0).refresh = false ∧ nextSentence ((cur []).portSt 0).queue = none ∧
      nextSentence ((cur [q]).portSt 0).queue = some q) := by decide +kernel

theorem witness_CanAndNetworkLayer :
    let n (tried : Nat) : Node := solo.mExt fun e => { e with n2kAddr := 251, claimed := true, tried := tried }
    twf {} (n 0).ext.ports = true ∧ (reset.port 3 = none ∧ solo.ext.claimed = false) ∧
    (∀ t ∈ [251, 252], (n t).port 3 = some (aPort 3 4) ∧ (aPort 3 4).kind = 4 ∧ (n t).clearLines.hears 3 = true ∧ (n t).ext.claimed = true ∧
      (n t).ext.n2kAddr = (251 : BitVec 8).toNat) ∧
    ((aPort 3 4).name.toNat < (501 : BitVec 64).toNat ∧ (500 : BitVec 64).toNat ≤ (aPort 3 4).name.toNat ∧ (n 251).ext.tried < 252 ∧
      252 ≤ (n 252).ext.tried) ∧
    (reset.clearLines.hears 3 = false ∧ (n 0).clearLines.canSends = true ∧ solo.clearLines.canSends = false ∧ 5 ∉ [60928, 126996, 126985] ∧
      solo.ext.tried = 0 ∧ (solo.mExt fun e => { e with tried := 252 }).ext.tried ≠ 0) ∧
    ((solo.clearLines.hears 0 && (solo.port 0).any (·.ethernet)) = false ∧ (solo.clearLines.hears 4 && (solo.port 4).any (·.ethernet)) = true) := by
  decide +kernel

theorem witness_Modbus :
    let c := solo.clearLines
    twf {} solo.ext.ports = true ∧ (c.modUnit 2 18 = false ∧ broadcast 2 0 = true ∧ c.modUnit 2 17 = true ∧ broadcast 2 17 = false ∧
      c.modUnit 4 255 = true ∧ c.modUnit 2 0 = true) ∧
    (2000 < 2001 ∧ 125 < 126 ∧ c.modReads .coil 2 2 = none ∧ c.modReads .coil 0 3 = some [0, 0, 0] ∧ c.modReads .holding 0 4 = some [0x4000, 0, 0, 0]) ∧
    (c.hears 0 && (solo.port 0).any fun k => k.service 1) = false ∧ (c.hears 4 && (solo.port 4).any fun k => k.service 1) = true ∧
    (let x := solo.updPort 4 fun s => { s with conns := 0xF }; (x.portSt 4).conns = 0xF ∧ bit (x.portSt 4).conns 3 = true) ∧
    (let x := solo.updPort 4 fun s => { s with conns := 0x7 }
     bit (x.portSt 4).conns 3 = false ∧ ∀ i : Fin 4, i < 3 → bit (x.portSt 4).conns i.val = true) ∧
    (solo.modAt .coil 3 = none ∧ (solo.modAt .coil 0).isSome = true ∧ solo.dest (some 0) = .own ∧ (solo.portSt 2).cmds < 16 ∧
      (solo.modAt .coil 0).map (·.1.item) = some (.ackPoint 0 1) ∧ (solo.modAt .coil 1).map (·.1.item) = some (.ackGroup 0 0) ∧
      (solo.modAt .coil 2).map (·.1.item) = some (.callAck 0 0)) ∧
    (1968 < (List.replicate 1969 false).length ∧ (∀ i, i < 3 → (solo.modAt .coil (0 + i)).isSome = true)) ∧
    (123 < (List.replicate 124 (0 : BitVec 16)).length ∧ wholeTunables solo 1 0 [1] = none ∧
      wholeTunables solo 4 0 [0x4034, 0, 0, 0] = some [(1, 4, 0x4034000000000000)] ∧
      wholeTunables solo 4 0 [0x4070, 0, 0, 0] = some [(1, 4, 0x4070000000000000)]) ∧
    (solo.tuneException (1, 4, 0x4034000000000000) = 0 ∧ solo.tuneException (1, 4, 0x4070000000000000) ≠ 0) := by decide +kernel

theorem witness_PortsAndReplay :
    let n (p st : Nat) : Node := solo.updPort p fun s => { s with state := st }
    let off : Node := solo.updPort 3 fun s => { s with state := 3, busOffAt := [1, 2, 3] }
    let held : Node := solo.mJrnl fun j => { j with ram := [⟨aRecord 4, false⟩, ⟨aRecord 5, false⟩] }
    let run : Node := held.mExt fun e => { e with replay := some ⟨4, 0, 4, 5⟩ }
    twf {} solo.ext.ports = true ∧ (solo.port 1 = none ∧ solo.port 4 = some (aPort 4 5) ∧ (aPort 4 5).kind ≠ 4 ∧ solo.port 3 = some (aPort 3 4) ∧
      (aPort 3 4).kind = 4) ∧ (∀ st ∈ [1, 4], ((n 4 st).portSt 4).state = 1 ∨ ((n 4 st).portSt 4).state = 4) ∧
    (((n 3 2).portSt 3).state = 2 ∧ (aPort 3 4).ethernet = false ∧ (solo.portSt 3).state ≠ 2 ∧ (solo.portSt 3).state ≠ 3) ∧
    (let m := n 4 5; ¬ ((m.portSt 4).state = 1 ∨ (m.portSt 4).state = 4) ∧ (aPort 4 5).kind ≠ 4) ∧
    ((off.portSt 3).state = 3 ∧ (off.portSt 3).busOffAt.getLast? = some 3 ∧ 3 ≤ (off.portSt 3).busOffAt.length) ∧
    (solo.sec.maint = false ∧ (maint solo).sec.maint = true ∧ (solo.portSt 4).state ≠ 5 ∧ ((n 4 5).portSt 4).state = 5 ∧ solo.port 7 = none ∧
      (aPort 4 5).kind ≠ 0) ∧
    (¬ (solo.sends 0 = true ∧ (solo.port 0).any (·.records) = true) ∧ solo.sends 4 = true ∧ (solo.port 4).any (·.records) = true) ∧
    (run.ext.replay = some ⟨4, 0, 4, 5⟩ ∧ solo.ext.replay = none ∧ 1 ≠ solo.space ∧ 0 = solo.space ∧ 4096 < 4097 ∧ (1 ≤ 4096 ∧ 4096 ≤ 4096)) ∧
    (run.sends 4 = true ∧ run.heldRange 4 5 ≠ []) ∧
    (let m := solo.mClk fun c => { c with core := { st := .coast } }
     m.ethClock = false ∧ (aPort 4 5).ethernet = true ∧ solo.ethClock = true ∧ (n 4 2).ethClock = true ∧ ((n 4 2).portSt 4).state = 2) ∧
    (off.coreHeld = false ∧ (off.mClk fun c => { c with core := { st := .slack } }).coreHeld = true) := by decide +kernel

theorem witness_HostFrames :
    let n : Node := solo.mSys fun s => { s with resp := some ⟨0, 7, 0x18, 5⟩ }
    let b (m : Node) : Node := m.mClk fun c => { c with core := { st := .bridge, ramp := some true } }
    let waits (m : Node) : Node := m.mSys fun s => { s with wait := some ⟨2, 0x1C, 5⟩ }
    reset.portServes = false ∧ (solo.portServes = true ∧ solo.sys.wait = none ∧ solo.sys.resp = none ∧ solo.bridges = false) ∧
    (n.portServes = true ∧ n.sys.wait = none ∧ n.sys.resp = some ⟨0, 7, 0x18, 5⟩) ∧
    ((b n).portServes = true ∧ (b n).sys.wait = none ∧ (b n).bridges = true) ∧ ((waits (b n)).portServes = true ∧ (waits (b n)).sys.wait.isSome = true) ∧
    (solo.addrCode 0x18 = 0 ∧ solo.addrCode 0x1400 = 0 ∧ solo.addrCode 3 ≠ 0 ∧ ({ solo with img := none } : Node).addrCode 0x1400 ≠ 0) ∧
    (let right (cmd : Byte) (c : BitVec 16) : Prop := crc16 (cmd :: (beBytes 2 (0x18 : BitVec 16).toNat ++ beBytes 4 (1 : Word).toNat)) = c.toNat
     (∀ cmd ∈ [0, 1, 2, 3], right cmd (BitVec.ofNat 16 (crc16 (cmd :: (beBytes 2 0x18 ++ beBytes 4 1))))) ∧ ¬right 0 0) ∧
    (let m := ((waits (b n)).rampNext .core); m.sys.wait.isSome = true ∧ m.bridges = false ∧ m.addrCode 0x1C = 0) ∧
    ((waits (b n)).rampNext .solv).bridges = true := by decide +kernel

theorem witness_RegisterWritesAndReset :
    let m := maint solo
    (reset.portServes = false ∧ solo.addrCode 3 ≠ 0 ∧ solo.addrCode 0x1C = 0 ∧ solo.regView 3 = none) ∧
    ((({ solo with img := none } : Node).regView 0x200).isSome = true ∧ (0x200 : BitVec 16).toNat < 0x2400) ∧
    (solo.portServes = true ∧ solo.pwr.phase = .done ∧ solo.img.isSome = true ∧ solo.solvServes = true) ∧
    ((0x5252 : BitVec 16) ≠ 0x5253 ∧ ¬ (solo.sec.maint = true ∨ solo.sys.unconfigured = true) ∧ m.sec.maint = true ∧ m.sys.resetPend = false ∧
      (m.mSys fun s => { s with resetPend := true }).sys.resetPend = true ∧ m.timed = true ∧ reset.timed = false) := by decide +kernel

theorem witness_FlashStore :
    let n (op : FlashOp) (tries outs : Nat) : Node := solo.mStor fun s =>
      { s with cur := some op, tries := tries, timeouts := outs, sectors := [(513, { cls := .data, serial := 1 }), (514, { cls := .blank })] }
    let failed (c : Nat) (e : Option Nat) : Node := solo.mStor fun s => { s with state := 2, failCause := c, eraPend := e }
    (solo.coreHeld = false ∧ (solo.mClk fun c => { c with core := { st := .slack } }).coreHeld = true) ∧ solo.stor.cur = none ∧ (FlashOp.eraseAhead 514).erases.isSome = true ∧ (FlashOp.ident .trip).erases = none ∧
    (∀ t ∈ [0, 2], (n (.ident .trip) t 1).stor.cur = some (.ident .trip) ∧ (n (.ident .trip) t 1).stor.tries < 3 ∧ (n (.ident .trip) t 1).stor.timeouts < 2) ∧
    2 ≤ (n (.ident .trip) 0 2).stor.timeouts ∧
    ((n (.jrnl [aRecord 1]) 3 0).stor.cur = some (.jrnl [aRecord 1]) ∧ 3 ≤ (n (.jrnl [aRecord 1]) 3 0).stor.tries ∧
      (n (.jrnl [aRecord 1]) 3 0).jrnlOpen = some 513 ∧ twf {} (n (.jrnl [aRecord 1]) 3 0).stor.sectors = true) ∧
    ((n (.eraseAhead 514) 0 0).stor.cur = some (.eraseAhead 514) ∧ (n (.eraseAhead 514) 0 0).unwritten = []) ∧
    ((n (.bankErase true 126) 0 0).stor.cur = some (.bankErase true 126) ∧ 126 < 127) ∧
    (solo.stor.state ≠ 2 ∧ (failed 3 none).stor.state = 2 ∧ (failed 3 none).stor.failCause ≠ 1) ∧
    ((failed 1 none).stor.failCause = 1 ∧ (failed 1 none).stor.eraPend = none ∧ (failed 1 (some 4)).stor.eraPend = some 4 ∧
      (failed 1 (some 4)).stor.cur = none ∧ (failed 1 (some 4)).stor.susp = none ∧ (failed 1 (some 4)).stor.wait = []) ∧
    (reset.pwr.phase ≠ .done ∧ solo.pwr.phase = .done ∧ ∃ e ∈ (n (.ident .trip) 0 0).stor.sectors, e.2.cls = .blank) := by decide +kernel

end Sys2Proof.Tests
end

section
/-! The frame of the records and settings that the end of forces uses, and what running a command gives. -/

namespace Sys2Proof.Machine

/-- A command that runs `f` on the node gives what holds of the node that `f` leaves. -/
theorem Gives.of_run {i : Instr} {s : State} (f : Node → Node) {p : Node → Prop} (h : exec i s = s.run f) (hp : p (f s.node)) :
    Gives i s p := ⟨_, h, rfl, hp⟩

/-- The key listed first, written with the default, leaves the rest of the table. -/
theorem tset_head_default {α : Type} [DecidableEq α] (d : α) (e : Nat × α) (r : Tab α) : tset d (e :: r) e.1 d = r := by
  simp [tset]

namespace Node

variable (n : Node)

theorem setAo_keeps (a : Nat) (v : AoSt) : Keeps [.loop] n (n.setAo a v) := mLoop_keeps n _
theorem aoRecord_keeps (a event : Nat) (detect : Bool) : Keeps [.jrnl, .tide, .pair] n (n.aoRecord a event detect) := later_keeps n _
theorem pinRecord_keeps (p event : Nat) : Keeps [.jrnl, .tide, .pair] n (n.pinRecord p event) := later_keeps n _

@[simp] theorem aoRecord_loop (a event : Nat) (detect : Bool) : (n.aoRecord a event detect).loop = n.loop :=
  (aoRecord_keeps n a event detect).part .loop (by simp)

@[simp] theorem pinRecord_dio (p event : Nat) : (n.pinRecord p event).dio = n.dio :=
  (pinRecord_keeps n p event).part .dio (by simp)

/-- An island's state as CORE holds it rests on LOOP alone. -/
theorem aoSt_of_loop {n m : Node} (h : m.loop = n.loop) (a : Nat) : m.aoSt a = n.aoSt a := by simp [aoSt, h]

end Node

end Sys2Proof.Machine
end

section
/-! The end of the forces of islands (08 R281) and of outputs (09 Table 9.7), one force at a time. -/

namespace Sys2Proof.Machine.Node

variable (n : Node)

/-- The step of `endAoForces` for one island. -/
def endAoForce (n : Node) (a : Nat) : Node :=
  if (n.aoSt a).forced.isSome then (n.setAo a { n.aoSt a with forced := none }).aoRecord a 6 false else n

theorem endAoForces_eq : n.endAoForces = (List.range 8).foldl endAoForce n := rfl

theorem endAoForce_keeps (a : Nat) : Keeps [.loop, .jrnl, .tide, .pair] n (n.endAoForce a) := by
  unfold endAoForce
  split
  · exact ((setAo_keeps n _ _).mono (by simp)).trans ((aoRecord_keeps _ _ _ _).mono (by simp))
  · exact Keeps.refl _ n

theorem endAoForces_keeps : Keeps [.loop, .jrnl, .tide, .pair] n n.endAoForces := Keeps.foldl _ endAoForce_keeps _ n

theorem twf_endAoForce (h : twf {} n.loop.aos = true) (a : Nat) : twf {} (n.endAoForce a).loop.aos = true := by
  unfold endAoForce
  split
  · simpa [setAo] using twf_tset h _ _
  · exact h

/-- One island's force ends, and every other island's stands. -/
theorem endAoForce_forced (h : twf {} n.loop.aos = true) (a b : Nat) :
    ((n.endAoForce a).aoSt b).forced = if b = a then none else (n.aoSt b).forced := by
  by_cases hf : (n.aoSt a).forced.isSome
  · rw [endAoForce, if_pos hf, aoSt_of_loop (aoRecord_loop _ _ _ _)]
    split
    case isTrue hb => simp [hb, setAo, aoSt, tget_tset_same h]
    case isFalse hb => simp [setAo, aoSt, tget_tset_other h hb]
  · rw [endAoForce, if_neg hf]
    split
    case isTrue hb => simpa [hb] using hf
    case isFalse => rfl

theorem foldl_endAoForce_forced (l : List Nat) (b : Nat) (h : twf {} n.loop.aos = true) (hb : b ∈ l ∨ (n.aoSt b).forced = none) :
    ((l.foldl endAoForce n).aoSt b).forced = none := by
  induction l generalizing n with
  | nil => simpa using hb
  | cons a l ih =>
    refine ih _ (twf_endAoForce n h a) ?_
    rw [endAoForce_forced n h]
    by_cases hab : b = a <;> simp_all

/-- After the end of the forces no island is forced. -/
theorem endAoForces_forced (h : twf {} n.loop.aos = true) {a : Nat} (ha : a < 8) : (n.endAoForces.aoSt a).forced = none := by
  rw [endAoForces_eq]
  exact foldl_endAoForce_forced n _ a h (.inl (List.mem_range.mpr ha))

/-- The step of `endDioForces` for one entry of the table of forces. -/
def endDioForce (n : Node) (e : Nat × Option Bool) : Node :=
  (n.mDio fun d => { d with forces := tset none d.forces e.1 none }).pinRecord e.1 7

theorem endDioForces_eq : n.endDioForces = n.dio.forces.foldl endDioForce n := rfl

theorem endDioForce_keeps (e : Nat × Option Bool) : Keeps [.dio, .jrnl, .tide, .pair] n (n.endDioForce e) :=
  ((mDio_keeps n _).mono (by simp)).trans ((pinRecord_keeps _ _ _).mono (by simp))

theorem endDioForces_keeps : Keeps [.dio, .jrnl, .tide, .pair] n n.endDioForces := Keeps.foldl _ endDioForce_keeps _ n

/-- The fold over the table's own entries takes its first entry away at each step. -/
theorem foldl_endDioForce_forces (l : Tab (Option Bool)) (h : n.dio.forces = l) : (l.foldl endDioForce n).dio.forces = [] := by
  induction l generalizing n with
  | nil => exact h
  | cons e l ih => exact ih _ (by simp [endDioForce, h, tset_head_default])

/-- After the end of the forces no output is forced. -/
theorem endDioForces_forces : n.endDioForces.dio.forces = [] := foldl_endDioForce_forces n _ rfl

end Sys2Proof.Machine.Node
end

section
/-! Leaving maintenance mode (02 R64 to R66): what it changes of SEC, what it leaves alone, and the forces it ends. -/

namespace Sys2Proof.Machine.Node

variable (n : Node) (cause : Nat)

/-- What leaving maintenance mode does before it ends the forces: the mode and the record of it. -/
def maintEnded (n : Node) (cause : Nat) : Node :=
  let n := n.mSec fun s => { s with maint := false }
  n.later (n.configBody 0 4 cause [])

theorem leaveMaint_eq {n : Node} (h : n.sec.maint = true) : n.leaveMaint cause = (n.maintEnded cause).endAoForces.endDioForces := by
  simp [leaveMaint, maintEnded, h]

theorem maintEnded_sec : (n.maintEnded cause).sec = { n.sec with maint := false } := (later_keeps (n.mSec _) _).part .sec (by simp)
theorem maintEnded_loop : (n.maintEnded cause).loop = n.loop := (later_keeps (n.mSec _) _).part .loop (by simp)

theorem maintEnded_keeps : Keeps [.sec, .jrnl, .tide, .pair] n (n.maintEnded cause) :=
  ((mSec_keeps n _).mono (by simp)).trans ((later_keeps (n.mSec _) _).mono (by simp))

theorem leaveMaint_keeps : Keeps [.sec, .loop, .dio, .jrnl, .tide, .pair] n (n.leaveMaint cause) := by
  by_cases h : n.sec.maint = true
  · rw [leaveMaint_eq cause h]
    exact ((maintEnded_keeps n cause).mono (by simp)).trans
      (((endAoForces_keeps _).mono (by simp)).trans ((endDioForces_keeps _).mono (by simp)))
  · simp [leaveMaint, h]

/-- Of the SEC block leaving maintenance mode changes the mode alone: the loader's state and both banks stand (R66). -/
theorem leaveMaint_sec {n : Node} (h : n.sec.maint = true) : (n.leaveMaint cause).sec = { n.sec with maint := false } := by
  rw [leaveMaint_eq cause h]
  calc (n.maintEnded cause).endAoForces.endDioForces.sec
      = (n.maintEnded cause).endAoForces.sec := (endDioForces_keeps (n.maintEnded cause).endAoForces).part .sec (by simp)
    _ = (n.maintEnded cause).sec := (endAoForces_keeps (n.maintEnded cause)).part .sec (by simp)
    _ = { n.sec with maint := false } := maintEnded_sec n cause

theorem leaveMaint_stor : (n.leaveMaint cause).stor = n.stor := (leaveMaint_keeps n cause).part .stor (by simp)

theorem leaveMaint_aoSt_forced {n : Node} (h : n.sec.maint = true) (hw : twf {} n.loop.aos = true) {a : Nat} (ha : a < 8) :
    ((n.leaveMaint cause).aoSt a).forced = none := by
  have hl : (n.maintEnded cause).endAoForces.endDioForces.loop = (n.maintEnded cause).endAoForces.loop :=
    (endDioForces_keeps (n.maintEnded cause).endAoForces).part .loop (by simp)
  have hw' : twf {} (n.maintEnded cause).loop.aos = true := by rw [maintEnded_loop]; exact hw
  rw [leaveMaint_eq cause h, aoSt_of_loop hl]
  exact endAoForces_forced (n.maintEnded cause) hw' ha

theorem leaveMaint_forces {n : Node} (h : n.sec.maint = true) : (n.leaveMaint cause).dio.forces = [] := by
  rw [leaveMaint_eq cause h]
  exact endDioForces_forces _

/-- The loader's part of the node, which the ways out of maintenance mode keep: the operation in progress, the accepted activation,
both banks and the flash store; and maintenance mode is over. -/
def LoadingKept (n m : Node) : Prop :=
  m.sec.maint = false ∧ m.sec.busy = n.sec.busy ∧ m.sec.act = n.sec.act ∧ m.sec.a = n.sec.a ∧ m.sec.b = n.sec.b ∧ m.stor = n.stor

theorem leaveMaint_loadingKept {n : Node} (h : n.sec.maint = true) : LoadingKept n (n.leaveMaint cause) := by
  simp [LoadingKept, leaveMaint_sec cause h, leaveMaint_stor]

theorem imgExit_eq {n : Node} (h : n.sec.maint = true) :
    n.imgExit = (n.mSec fun s => { s with lastWrite := n.now, result := 0 }).leaveMaint 2 := by
  simp [imgExit, imgCommand, imgResult, secTouch, mSec, now, h]

theorem keySettled_eq_of_open {n : Node} (h : n.sec.keyClosed = false) :
    n.keySettled = (n.mSec fun s => { s with keySw := false }).leaveMaint 1 := by
  simp [keySettled, mSec, h]

theorem imgExit_loadingKept {n : Node} (h : n.sec.maint = true) : LoadingKept n n.imgExit := by
  simp [LoadingKept, imgExit_eq h, leaveMaint_sec, leaveMaint_stor, h]

theorem keySettled_loadingKept {n : Node} (h : n.sec.maint = true) (hk : n.sec.keyClosed = false) : LoadingKept n n.keySettled := by
  simp [LoadingKept, keySettled_eq_of_open hk, leaveMaint_sec, leaveMaint_stor, h]

end Sys2Proof.Machine.Node
end

section
open Sys2Proof Sys2Proof.Machine Sys2Proof.Machine.Node

/-- Settles O10: every way out of maintenance mode is `leaveMaint`, which changes of SEC the mode alone; its two folds end each force
that stands. -/
theorem leavingMaintenanceKeepsLoading : Obligations.LeavingMaintenanceKeepsLoading := by
  unfold Obligations.LeavingMaintenanceKeepsLoading
  constructor
  · intro s n kept hm
    refine ⟨.of_run imgExit rfl ?_, .of_run (leaveMaint · 3) rfl ?_, fun hk => .of_run keySettled rfl ?_⟩
    · exact imgExit_loadingKept hm
    · exact leaveMaint_loadingKept 3 hm
    · exact keySettled_loadingKept hm hk
  · intro s hm haos _
    refine .of_run (leaveMaint · 3) rfl ⟨fun a ha => ?_, ?_, ?_, ?_⟩
    · exact leaveMaint_aoSt_forced 3 hm haos ha
    · exact leaveMaint_forces 3 hm
    · exact leaveMaint_sec 3 hm
    · exact leaveMaint_keeps s.node 3

end

section
/-! A refused command of the loader (02 R67, R76, 18 R571): its code and CMD_REFUSED, and nothing outside SEC. -/

namespace Sys2Proof.Machine.Node

variable (n : Node)

theorem imgCommand_of_refused {code : Nat} (h : code ≠ 0) (f : Node → Node) :
    n.imgCommand code f = n.mSec fun s => { s with lastWrite := n.now, result := code, flags := setBit s.flags 1 } := by
  simp [imgCommand, imgResult, secFlag, secTouch, mSec, h]

/-- The order of the codes of ACTIVATE on a CHECKED bank: an activation pending or a full bank record first. -/
theorem activateCode_of_blocked {n : Node} (hm : n.sec.maint = true) (hd : n.ownDuty = true) (hc : n.inactiveBank.state = 3)
    (h : n.sec.act.isSome = true ∨ n.bankSlotFree n.inactive = false) : n.activateCode = 0x83 := by
  have hb : (n.sec.act.isSome || !n.bankSlotFree n.inactive) = true := by simpa using h
  simp [activateCode, hm, hd, hc, hb]

theorem activateCode_of_running {n : Node} (hm : n.sec.maint = true) (hd : n.ownDuty = true) (hc : n.inactiveBank.state = 3)
    (ha : n.sec.act = none) (hf : n.bankSlotFree n.inactive = true) {i : Image} (hi : n.img = some i)
    (hh : i.hash = n.inactiveBank.hash) : n.activateCode = 0x85 := by
  simp [activateCode, hm, hd, hc, ha, hf, hi, hh]

/-- An ACTIVATE refused on an idle loader: RESULT is its code, and no activation begins. -/
theorem activate_refused {s : State} {code : Nat} (hb : s.node.sec.busy = 0) (hc : s.node.activateCode = code) (h : code ≠ 0) :
    Gives .activate s fun m => m.sec.result = code ∧ m.sec.act = s.node.sec.act ∧ Keeps [.sec] s.node m := by
  have hi : s.node.imgCode s.node.activateCode = code := by simp [imgCode, hb, hc]
  refine .of_run imgActivate rfl ?_
  rw [imgActivate, hi, imgCommand_of_refused _ h]
  exact ⟨rfl, rfl, mSec_keeps _ _⟩

end Sys2Proof.Machine.Node
end

section
open Sys2Proof Sys2Proof.Machine Sys2Proof.Machine.Node

/-- Settles O12: the code of ACTIVATE in each of the two cases, and what a refused command of the loader leaves. -/
theorem activateOfRunningImageRefused : Obligations.ActivateOfRunningImageRefused := by
  unfold Obligations.ActivateOfRunningImageRefused
  intro s n bank hbusy hm hd hc
  constructor
  · intro h
    exact activate_refused hbusy (activateCode_of_blocked hm hd hc h) (by decide)
  · rintro ha hf ⟨i, hi, hh⟩
    have hr := activate_refused hbusy (activateCode_of_running hm hd hc ha hf hi hh) (by decide)
    rwa [ha] at hr

end

section
/-! The rules of the operations on a lane and on the front end that a visit and a cold-junction reading share: each one's frame, and what
a read of the lane or sensor written gives. -/

namespace Sys2Proof.Machine

/-- A command that runs `f` on the node answers the node that `f` leaves. -/
theorem Answers.of_run {i : Instr} {s : State} {m : Node} (f : Node → Node) (h : exec i s = s.run f) (hf : f s.node = m) :
    Answers i s m := by rw [Answers, h, ← hf]; rfl

/-- Both branches keep a frame, so the choice between them does. -/
theorem Keeps.ite {l : List Part} {n a b : Node} {c : Prop} [Decidable c] (ha : Keeps l n a) (hb : Keeps l n b) :
    Keeps l n (if c then a else b) := by split <;> assumption

namespace Node

variable (n : Node)

theorem setLane_keeps (l : Nat) (v : LaneSt) : Keeps [.lane] n (n.setLane l v) := mLane_keeps n _
theorem setLaneCh_keeps (c : Nat) (v : LaneCh) : Keeps [.lane] n (n.setLaneCh c v) := mLane_keeps n _
theorem updLane_keeps (l : Nat) (f : LaneSt → LaneSt) : Keeps [.lane] n (n.updLane l f) := setLane_keeps n l _
theorem resetChannel_keeps (c : Nat) : Keeps [.lane] n (n.resetChannel c) := setLaneCh_keeps n c _
theorem convert_keeps (l : Nat) (i : InputCfg) : Keeps [.lane] n (n.convert l i) := setLane_keeps n l _
theorem setAfeExc_keeps (c : Nat) (v : AfeExc) : Keeps [.afe] n (n.setAfeExc c v) := mAfe_keeps n _
theorem setCj_keeps (k : Nat) (v : CjSt) : Keeps [.afe] n (n.setCj k v) := mAfe_keeps n _
theorem afeRecord_keeps (source event : Nat) (detect : Bool) (w : Word) :
    Keeps [.jrnl, .tide, .pair] n (n.afeRecord source event detect w) := later_keeps n _

@[simp] theorem afeRecord_afe (source event : Nat) (detect : Bool) (w : Word) : (n.afeRecord source event detect w).afe = n.afe :=
  (afeRecord_keeps n source event detect w).part .afe (by simp)

@[simp] theorem afeRecord_lane (source event : Nat) (detect : Bool) (w : Word) : (n.afeRecord source event detect w).lane = n.lane :=
  (afeRecord_keeps n source event detect w).part .lane (by simp)

@[simp] theorem afeFlag_lane (i : Nat) : (n.afeFlag i).lane = n.lane := rfl
@[simp] theorem setAfeExc_lane (c : Nat) (v : AfeExc) : (n.setAfeExc c v).lane = n.lane := rfl
@[simp] theorem setAfeExc_laneSt (c : Nat) (v : AfeExc) (l : Nat) : (n.setAfeExc c v).laneSt l = n.laneSt l := rfl
@[simp] theorem updLane_chans (l : Nat) (f : LaneSt → LaneSt) : (n.updLane l f).lane.chans = n.lane.chans := rfl
@[simp] theorem resetChannel_lanes (c : Nat) : (n.resetChannel c).lane.lanes = n.lane.lanes := rfl
@[simp] theorem convert_chans (l : Nat) (i : InputCfg) : (n.convert l i).lane.chans = n.lane.chans := rfl

/-- A lane's state rests on the table of lanes alone, a channel's on the table of channels. -/
theorem laneSt_of_lanes {n m : Node} (h : m.lane.lanes = n.lane.lanes) (l : Nat) : m.laneSt l = n.laneSt l := by simp [laneSt, h]
theorem laneCh_of_chans {n m : Node} (h : m.lane.chans = n.lane.chans) (c : Nat) : m.laneCh c = n.laneCh c := by simp [laneCh, h]

theorem twf_updLane {n : Node} (h : twf {} n.lane.lanes = true) (l : Nat) (f : LaneSt → LaneSt) :
    twf {} (n.updLane l f).lane.lanes = true := twf_tset h _ _

theorem laneSt_updLane {n : Node} (h : twf {} n.lane.lanes = true) (l : Nat) (f : LaneSt → LaneSt) :
    (n.updLane l f).laneSt l = f (n.laneSt l) := tget_tset_same h _ _

theorem laneCh_resetChannel {n : Node} (h : twf {} n.lane.chans = true) (c : Nat) :
    (n.resetChannel c).laneCh c = { n.laneCh c with seq := 0, resSeq := none, fifoSeq := none, chReset := false } :=
  tget_tset_same h _ _

theorem twf_setCj {n : Node} (h : twf {} n.afe.cj = true) (k : Nat) (v : CjSt) : twf {} (n.setCj k v).afe.cj = true := twf_tset h _ _

theorem cjAt_setCj_same {n : Node} (h : twf {} n.afe.cj = true) (k : Nat) (v : CjSt) : (n.setCj k v).cjAt k = v := tget_tset_same h _ _

theorem cjAt_setCj_other {n : Node} (h : twf {} n.afe.cj = true) {j k : Nat} (hj : j ≠ k) (v : CjSt) :
    (n.setCj k v).cjAt j = n.cjAt j := tget_tset_other h hj _

end Node

end Sys2Proof.Machine
end

section
/-! A cold-junction reading (06 R212, Table 6.8): taken, or the sensor's failure. What each bank uses is noted after it (R213), and changes
nothing else of a sensor. -/

namespace Sys2Proof.Machine.Node

variable (n : Node)

/-- The step of `noteCj` for one bank. -/
def noteCjBank (n : Node) (k : Nat) : Node :=
  if ((n.cjAt k).used.head?.map (·.2)) == some (n.cjNow k, !n.cjValid k) then n
  else n.setCj k { n.cjAt k with used := ((n.now, n.cjNow k, !n.cjValid k) :: (n.cjAt k).used).take 64 }

theorem noteCj_eq : n.noteCj = (List.range 6).foldl noteCjBank n := rfl

theorem noteCjBank_keeps (k : Nat) : Keeps [.afe] n (n.noteCjBank k) := .ite (Keeps.refl _ n) (setCj_keeps n _ _)

theorem noteCj_keeps : Keeps [.afe] n n.noteCj := Keeps.foldl _ noteCjBank_keeps _ n

theorem noteCjBank_flags (k : Nat) : (n.noteCjBank k).afe.flags = n.afe.flags := by unfold noteCjBank; split <;> rfl

theorem noteCj_flags : n.noteCj.afe.flags = n.afe.flags := foldl_same (·.afe.flags) _ noteCjBank_flags _ n

theorem twf_noteCjBank {n : Node} (h : twf {} n.afe.cj = true) (k : Nat) : twf {} (n.noteCjBank k).afe.cj = true := by
  unfold noteCjBank
  split
  · exact h
  · exact twf_setCj h _ _

/-- Of a sensor, noting what a bank uses changes that list alone. -/
theorem noteCjBank_cjAt {n : Node} (h : twf {} n.afe.cj = true) (j k : Nat) :
    ∃ u, (n.noteCjBank j).cjAt k = { n.cjAt k with used := u } := by
  unfold noteCjBank
  split
  · exact ⟨_, rfl⟩
  · by_cases hk : k = j
    · subst hk
      exact ⟨_, cjAt_setCj_same h _ _⟩
    · exact ⟨_, cjAt_setCj_other h hk _⟩

theorem foldl_noteCjBank_cjAt {n : Node} (h : twf {} n.afe.cj = true) (r : List Nat) (k : Nat) :
    ∃ u, (r.foldl noteCjBank n).cjAt k = { n.cjAt k with used := u } := by
  induction r generalizing n with
  | nil => exact ⟨_, rfl⟩
  | cons j r ih =>
    obtain ⟨v, hv⟩ := noteCjBank_cjAt h j k
    obtain ⟨u, hu⟩ := ih (twf_noteCjBank h j)
    exact ⟨u, by rw [List.foldl_cons, hu, hv]⟩

/-- After the note a sensor stands as it was, but for what its bank has used. -/
theorem noteCj_cjAt {n : Node} (h : twf {} n.afe.cj = true) (k : Nat) :
    n.noteCj.cjAt k = { n.cjAt k with used := (n.noteCj.cjAt k).used } := by
  obtain ⟨u, hu⟩ := foldl_noteCjBank_cjAt h (List.range 6) k
  rw [noteCj_eq, hu]

/-- A sensor written, then any step that leaves AFE's sensors alone, then the note. -/
theorem noteCj_cjAt_of_setCj {n m : Node} (h : twf {} n.afe.cj = true) {k : Nat} {v : CjSt} (hm : m.afe.cj = (n.setCj k v).afe.cj) :
    m.noteCj.cjAt k = { v with used := (m.noteCj.cjAt k).used } := by
  have hw : twf {} m.afe.cj = true := by rw [hm]; exact twf_setCj h k v
  have hv : m.cjAt k = v := by simpa [cjAt, hm] using cjAt_setCj_same h k v
  rw [noteCj_cjAt hw, hv]

/-- A sensor after a reading that is not valid. -/
def cjFailed (c : CjSt) (x : Int) : CjSt := { c with recent := (x :: c.recent).take 10, failed := true, good := 0 }

/-- A sensor after a valid reading: a failed one returns with the hundredth in a row. -/
def cjTaken (c : CjSt) (x : Int) : CjSt :=
  { c with
    read := true
    temp := x
    recent := (x :: c.recent).take 10
    failed := c.failed && decide (c.good < 99)
    good := if c.failed = true ∧ c.good < 99 then c.good + 1 else 0 }

/-- The model's wording of a valid reading, by whether the sensor comes back. -/
theorem cjTaken_eq (c : CjSt) (x : Int) : cjTaken c x = { c with
    read := true
    temp := x
    recent := (x :: c.recent).take 10
    failed := c.failed && !(c.failed && decide (99 ≤ c.good))
    good := if c.failed && !(c.failed && decide (99 ≤ c.good)) then c.good + 1 else 0 } := by
  rcases Nat.lt_or_ge c.good 99 with hg | hg
  · simp [cjTaken, hg, Nat.not_le_of_lt hg]
  · simp [cjTaken, hg, Nat.not_lt_of_le hg]

/-- The record of a sensor's failure, detected, or of its return. -/
def cjRecord (n : Node) (k : Nat) (detect : Bool) : Node := n.afeRecord (0x0100 + k) 4 detect (n.afeCj k)

theorem cjRecord_keeps (k : Nat) (d : Bool) : Keeps [.jrnl, .tide, .pair] n (n.cjRecord k d) := afeRecord_keeps n _ _ _ _

@[simp] theorem cjRecord_afe (k : Nat) (d : Bool) : (n.cjRecord k d).afe = n.afe := (cjRecord_keeps n k d).part .afe (by simp)

@[simp] theorem afeFlag_cj (j : Nat) : (n.afeFlag j).afe.cj = n.afe.cj := rfl

/-- A reading that is not valid: a sensor's first failure is flagged and recorded. -/
theorem readCj_of_bad {k : Nat} {x : Int} (hx : cjGood (n.cjAt k) x = false) :
    n.readCj k x = (if (n.cjAt k).failed then n.setCj k (cjFailed (n.cjAt k) x)
      else ((n.setCj k (cjFailed (n.cjAt k) x)).afeFlag 3).cjRecord k true).noteCj := by
  simp only [readCj, hx]
  rfl

/-- A valid reading: a sensor's return is recorded. -/
theorem readCj_of_good {k : Nat} {x : Int} (hx : cjGood (n.cjAt k) x = true) :
    n.readCj k x = (if (n.cjAt k).failed && decide (99 ≤ (n.cjAt k).good) then (n.setCj k (cjTaken (n.cjAt k) x)).cjRecord k false
      else n.setCj k (cjTaken (n.cjAt k) x)).noteCj := by
  simp only [readCj, hx, cjTaken_eq]
  rfl

theorem cjGood_eq_true_iff {c : CjSt} {x : Int} :
    cjGood c x = true ↔ -4000 ≤ x ∧ x ≤ 10500 ∧ ∀ y ∈ c.recent, x - y ≤ 500 ∧ y - x ≤ 500 := by
  simp [cjGood, and_assoc]

/-- The two ways a reading is not valid: out of range, or away from a reading of the last second. -/
theorem cjGood_of_out {c : CjSt} {x : Int} (h : x < -4000 ∨ 10500 < x ∨ ∃ y ∈ c.recent, 500 < x - y ∨ 500 < y - x) :
    cjGood c x = false := by
  rw [← Bool.not_eq_true, cjGood_eq_true_iff]
  rintro ⟨hlo, hhi, hnear⟩
  rcases h with h | h | ⟨y, hy, h⟩
  · omega
  · omega
  · have := hnear y hy
    omega

theorem readCj_keeps (k : Nat) (x : Int) : Keeps [.afe, .jrnl, .tide, .pair] n (n.readCj k x) := by
  have hset (v : CjSt) : Keeps [.afe, .jrnl, .tide, .pair] n (n.setCj k v) := (setCj_keeps n k v).mono (by simp)
  have hnote (m : Node) : Keeps [.afe, .jrnl, .tide, .pair] m m.noteCj := (noteCj_keeps m).mono (by simp)
  have hflag (m : Node) : Keeps [.afe, .jrnl, .tide, .pair] m (m.afeFlag 3) := (mAfe_keeps m _).mono (by simp)
  have hrecord (m : Node) (d : Bool) : Keeps [.afe, .jrnl, .tide, .pair] m (m.cjRecord k d) := (cjRecord_keeps m k d).mono (by simp)
  cases hx : cjGood (n.cjAt k) x
  · rw [readCj_of_bad n hx]
    exact .trans (.ite (hset _) ((hset _).trans ((hflag _).trans (hrecord _ _)))) (hnote _)
  · rw [readCj_of_good n hx]
    exact .trans (.ite ((hset _).trans (hrecord _ _)) (hset _)) (hnote _)

/-- A reading that is not valid fails the sensor. -/
theorem readCj_cjAt_of_bad {n : Node} (h : twf {} n.afe.cj = true) {k : Nat} {x : Int} (hx : cjGood (n.cjAt k) x = false) :
    (n.readCj k x).cjAt k = { cjFailed (n.cjAt k) x with used := ((n.readCj k x).cjAt k).used } := by
  rw [readCj_of_bad n hx]
  exact noteCj_cjAt_of_setCj h (by split <;> simp)

/-- A valid reading is taken. -/
theorem readCj_cjAt_of_good {n : Node} (h : twf {} n.afe.cj = true) {k : Nat} {x : Int} (hx : cjGood (n.cjAt k) x = true) :
    (n.readCj k x).cjAt k = { cjTaken (n.cjAt k) x with used := ((n.readCj k x).cjAt k).used } := by
  rw [readCj_of_good n hx]
  exact noteCj_cjAt_of_setCj h (by split <;> simp)

theorem bit_setBit_same {w : Nat} (v : BitVec w) {i : Nat} (hi : i < w) : bit (setBit v i) i = true := by
  simp [bit, setBit, hi]

/-- The failure of a sensor is flagged (Table 6.8). -/
theorem readCj_flag {n : Node} {k : Nat} {x : Int} (hx : cjGood (n.cjAt k) x = false) (hf : (n.cjAt k).failed = false) :
    bit (n.readCj k x).afe.flags 3 = true := by
  rw [readCj_of_bad n hx, if_neg (by simp [hf]), noteCj_flags, cjRecord_afe]
  exact bit_setBit_same _ (by decide)

/-- A sensor that has failed already fails again with no record. -/
theorem readCj_keeps_of_failed {n : Node} {k : Nat} {x : Int} (hx : cjGood (n.cjAt k) x = false) (hf : (n.cjAt k).failed = true) :
    Keeps [.afe] n (n.readCj k x) := by
  rw [readCj_of_bad n hx, if_pos hf]
  exact (setCj_keeps n _ _).trans (noteCj_keeps _)

/-- A valid reading that returns no sensor makes no record. -/
theorem readCj_keeps_of_good {n : Node} {k : Nat} {x : Int} (hx : cjGood (n.cjAt k) x = true)
    (hf : (n.cjAt k).failed = false ∨ (n.cjAt k).good < 99) : Keeps [.afe] n (n.readCj k x) := by
  have hback : ¬ ((n.cjAt k).failed && decide (99 ≤ (n.cjAt k).good)) = true := by
    rcases hf with hf | hf
    · simp [hf]
    · simp [Nat.not_le_of_lt hf]
  rw [readCj_of_good n hx, if_neg hback]
  exact (setCj_keeps n _ _).trans (noteCj_keeps _)

end Sys2Proof.Machine.Node
end

section
/-! A scanned slot begins (06 R209, 07 R237, R245): the channel's own reset, its conversion, and the report on its excitation. -/

namespace Sys2Proof.Machine.Node

variable (n : Node) (l slot : Nat) (i : InputCfg) (r : VisitReport)

/-- A channel due a reset of its own takes it: its marker enters the lane's FIFO and its sequence starts anew (R245). -/
def takeChReset (n : Node) (l : Nat) (i : InputCfg) : Node :=
  if (n.laneCh i.num).chReset then (n.updLane l fun s => s.pushMarker (syncMarker i.num n.now)).resetChannel i.num else n

/-- The slot that the lane stands at, its chain settling. -/
def atSlot (n : Node) (l slot : Nat) : Node := n.updLane l fun s => { s with slot := slot, settle := 3 }

/-- The visit of a channel that its lane converts, up to the report. -/
def converting (n : Node) (l slot : Nat) (i : InputCfg) : Node := ((n.takeChReset l i).atSlot l slot).convert l i

/-- The visit's conditions of the lane: in service, its chain running, and FIELD not held. -/
theorem visit_of_idle {n : Node} {l : Nat} (h : n.laneRuns l = false ∨ (n.laneSt l).chain = false ∨ n.fieldHeld = true) :
    n.visit l slot r = n := by
  unfold visit
  split
  · rfl
  · rw [if_pos]
    rcases h with h | h | h <;> simp [h]

section
variable {n l slot i} {lc : LaneCfg} (hlc : n.laneCfg l = some lc) (hmode : lc.mode = 2) (hruns : n.laneRuns l = true)
  (hchain : (n.laneSt l).chain = true) (hheld : n.fieldHeld = false) (hslot : slot < lc.slots.length)
  (hsr : n.slotRuns lc slot = true) (hin : n.input (lc.slots.getD slot 0xFF) = some i)
include hlc hmode hruns hchain hheld hslot hsr hin

theorem visit_of_imuHolds (himu : n.imuHolds i.num = true) :
    n.visit l slot r = ((n.setLane l { (n.laneSt l).openPath with slot := slot }).takenOff i.num).setLaneCh i.num
      { n.laneCh i.num with seq := ((n.laneCh i.num).seq + 1) % 65536 } := by
  simp only [visit, hlc, hmode, hruns, hchain, hheld, Nat.not_le_of_lt hslot, hsr, hin, himu]
  rfl

theorem visit_of_free (himu : n.imuHolds i.num = false) :
    n.visit l slot r = (n.converting l slot i).reported l i r := by
  simp only [visit, hlc, hmode, hruns, hchain, hheld, Nat.not_le_of_lt hslot, hsr, hin, himu]
  rfl

end

/-! The channel's reset. -/

theorem takeChReset_keeps : Keeps [.lane] n (n.takeChReset l i) :=
  .ite ((updLane_keeps n _ _).trans (resetChannel_keeps _ _)) (Keeps.refl _ n)

@[simp] theorem takeChReset_afe : (n.takeChReset l i).afe = n.afe := (takeChReset_keeps n l i).part .afe (by simp)

theorem takeChReset_of_not {n : Node} {i : InputCfg} (h : (n.laneCh i.num).chReset = false) : n.takeChReset l i = n := by
  simp [takeChReset, h]

theorem twf_takeChReset {n : Node} (h : twf {} n.lane.lanes = true) : twf {} (n.takeChReset l i).lane.lanes = true := by
  unfold takeChReset
  split
  · rw [resetChannel_lanes]
    exact twf_updLane h _ _
  · exact h

theorem takeChReset_laneSt {n : Node} {l : Nat} {i : InputCfg} (h : twf {} n.lane.lanes = true) (hr : (n.laneCh i.num).chReset = true) :
    (n.takeChReset l i).laneSt l = (n.laneSt l).pushMarker (syncMarker i.num n.now) := by
  rw [takeChReset, if_pos hr, laneSt_of_lanes (resetChannel_lanes _ _), laneSt_updLane h]

theorem takeChReset_laneCh {n : Node} {i : InputCfg} (h : twf {} n.lane.chans = true) (hr : (n.laneCh i.num).chReset = true) :
    (n.takeChReset l i).laneCh i.num = { n.laneCh i.num with seq := 0, resSeq := none, fifoSeq := none, chReset := false } := by
  rw [takeChReset, if_pos hr, laneCh_resetChannel (by exact h), laneCh_of_chans (updLane_chans _ _ _)]

/-! The conversion. -/

@[simp] theorem atSlot_chans : (n.atSlot l slot).lane.chans = n.lane.chans := rfl
@[simp] theorem atSlot_afe : (n.atSlot l slot).afe = n.afe := rfl

theorem twf_atSlot {n : Node} (h : twf {} n.lane.lanes = true) : twf {} (n.atSlot l slot).lane.lanes = true := twf_updLane h _ _

theorem atSlot_laneSt {n : Node} (h : twf {} n.lane.lanes = true) :
    (n.atSlot l slot).laneSt l = { n.laneSt l with slot := slot, settle := 3 } := laneSt_updLane h _ _

/-- The path closes and the excitation is applied, unless a failed switch keeps the path open. -/
theorem convert_laneSt {n : Node} (h : twf {} n.lane.lanes = true) : (n.convert l i).laneSt l = { n.laneSt l with
      conv := some i.num
      routed := if bit n.afe.badSwitch i.num then none else some i.num
      exc := if !bit n.afe.badSwitch i.num && excited i.type then some (n.afeExc i.num).code else none } := by
  rw [convert, laneSt_updLane h]
  cases bit n.afe.badSwitch i.num <;> rfl

/-! The report. -/

/-- What a visit's measurement writes of its input's excitation, and the temperature of its cold junction (R213, Table 6.8). -/
def visitExc (n : Node) (i : InputCfg) (r : VisitReport) : AfeExc :=
  { n.afeExc i.num with
    compliance := currentExcited i.type && !r.compliant
    overload := voltageExcited i.type && r.overload
    visitBad := (excited i.type && r.compliant && r.excOff) || (currentExcited i.type && !r.compliant) ||
      (voltageExcited i.type && r.overload)
    cjTemp := n.cjNow (i.num / 8)
    cjBad := !n.cjValid (i.num / 8) }

theorem sourceAfter_keeps (heavy : Bool) : Keeps [.lane] n (n.sourceAfter l i heavy) := updLane_keeps n l _

/-- On a source that is on wherever its channel is excited, a report turns it off or leaves it. -/
theorem sourceAfter_laneSt {n : Node} {l : Nat} {i : InputCfg} (h : twf {} n.lane.lanes = true) (heavy : Bool)
    (he : excited i.type = true → (n.laneSt l).exc ≠ none) :
    (n.sourceAfter l i heavy).laneSt l = { n.laneSt l with exc := if heavy then none else (n.laneSt l).exc } := by
  have hoff : ¬ ((n.laneSt l).routed = some i.num ∧ excited i.type = true ∧ (n.laneSt l).exc = none) :=
    fun ⟨_, hx, hnone⟩ => he hx hnone
  rw [sourceAfter, laneSt_updLane h, if_neg hoff]

/-- Of LANE the judgement of a visit changes the source alone; the rest of it is AFE's words and records. -/
theorem judgeVisit_lane : (n.judgeVisit l i r).lane =
    ((n.setAfeExc i.num (n.visitExc i r)).sourceAfter l i (voltageExcited i.type && r.overload)).lane := by
  simp only [judgeVisit, apply_ite Node.lane, afeRecord_lane, afeFlag_lane, mAfe_lane, ite_self]
  rfl

/-- The parts that a visit can change. -/
abbrev visitParts : List Part := [.lane, .afe, .jrnl, .tide, .pair]

theorem judgeVisit_keeps : Keeps visitParts n (n.judgeVisit l i r) := by
  have hset {v : AfeExc} {heavy : Bool} : Keeps visitParts n ((n.setAfeExc i.num v).sourceAfter l i heavy) :=
    ((setAfeExc_keeps n _ v).mono (by simp)).trans ((sourceAfter_keeps _ _ _ _).mono (by simp))
  have hafe {m : Node} {f : Afe → Afe} (h : Keeps visitParts n m) : Keeps visitParts n (m.mAfe f) :=
    h.trans ((mAfe_keeps m f).mono (by simp))
  have hrecord {m : Node} {source event : Nat} {d : Bool} {w : Word} (h : Keeps visitParts n m) :
      Keeps visitParts n (m.afeRecord source event d w) := h.trans ((afeRecord_keeps m _ _ _ _).mono (by simp))
  have hchange {m : Node} {a b : Bool} {source event : Nat} {d : Bool} {w : Word} (h : Keeps visitParts n m) :
      Keeps visitParts n (if a == b then m else m.afeRecord source event d w) := .ite h (hrecord h)
  exact hchange (hchange (.ite (hrecord (hafe (hafe hset))) (.ite (hrecord (hafe hset)) hset)))

theorem reported_keeps : Keeps visitParts n (n.reported l i r) := .ite (judgeVisit_keeps n l i r) (Keeps.refl _ n)

theorem reported_chans : (n.reported l i r).lane.chans = n.lane.chans := by
  unfold reported
  split
  · rw [judgeVisit_lane]
    rfl
  · rfl

/-- Of its lane a report changes the source alone, which an overload turns off. -/
theorem reported_laneSt {n : Node} {l : Nat} {i : InputCfg} (h : twf {} n.lane.lanes = true)
    (he : (n.laneSt l).routed = some i.num → excited i.type = true → (n.laneSt l).exc ≠ none) :
    (n.reported l i r).laneSt l = { n.laneSt l with
      exc := if (n.laneSt l).routed = some i.num ∧ (voltageExcited i.type && r.overload) = true then none else (n.laneSt l).exc } := by
  unfold reported
  split
  case isTrue hr =>
    rw [laneSt_of_lanes (congrArg _ (judgeVisit_lane n l i r)), sourceAfter_laneSt (n := n.setAfeExc _ _) h _ (he hr)]
    simp [hr]
  case isFalse hr => simp [hr]

/-! The whole visit of a channel that its lane converts. -/

theorem twf_converting {n : Node} (h : twf {} n.lane.lanes = true) : twf {} (n.converting l slot i).lane.lanes = true :=
  twf_updLane (twf_atSlot l slot (twf_takeChReset l i h)) _ _

theorem converting_chans : (n.converting l slot i).lane.chans = (n.takeChReset l i).lane.chans := rfl

theorem converting_keeps : Keeps [.lane] n (n.converting l slot i) :=
  (takeChReset_keeps n l i).trans ((updLane_keeps _ l _).trans (convert_keeps _ l i))

theorem converting_laneSt {n : Node} {l : Nat} {i : InputCfg} (h : twf {} n.lane.lanes = true) :
    (n.converting l slot i).laneSt l = { (n.takeChReset l i).laneSt l with
      slot := slot
      settle := 3
      conv := some i.num
      routed := if bit n.afe.badSwitch i.num then none else some i.num
      exc := if !bit n.afe.badSwitch i.num && excited i.type then some (n.afeExc i.num).code else none } := by
  have hw := twf_takeChReset l i h
  rw [converting, convert_laneSt _ _ (twf_atSlot _ _ hw), atSlot_laneSt _ _ hw]
  simp [afeExc]

/-- What a visit leaves of its lane: the slot, the conversion with its settling, the path and the excitation. -/
theorem visited_laneSt {n : Node} {l : Nat} {i : InputCfg} (h : twf {} n.lane.lanes = true) :
    ((n.converting l slot i).reported l i r).laneSt l = { (n.takeChReset l i).laneSt l with
      slot := slot
      settle := 3
      conv := some i.num
      routed := if bit n.afe.badSwitch i.num then none else some i.num
      exc := if !bit n.afe.badSwitch i.num && excited i.type && !(voltageExcited i.type && r.overload) then
        some (n.afeExc i.num).code else none } := by
  rw [reported_laneSt _ (twf_converting l slot i h), converting_laneSt slot h]
  · cases bit n.afe.badSwitch i.num <;> cases voltageExcited i.type && r.overload <;> simp
  · rw [converting_laneSt slot h]
    cases bit n.afe.badSwitch i.num <;> simp +contextual

theorem visited_chans : ((n.converting l slot i).reported l i r).lane.chans = (n.takeChReset l i).lane.chans :=
  (reported_chans _ l i r).trans (converting_chans n l slot i)

theorem visited_keeps : Keeps visitParts n ((n.converting l slot i).reported l i r) :=
  ((converting_keeps n l slot i).mono (by simp)).trans (reported_keeps _ l i r)

end Sys2Proof.Machine.Node
end

section
open Sys2Proof Sys2Proof.Machine Sys2Proof.Machine.Node

/-- Settles O24: a visit is idle, or passes an input that the IMU holds, or converts its channel, and then the lane's state is the one of
`visited_laneSt`; a cold-junction reading is valid or not, and the note of what the banks use stands apart. -/
theorem frontEndReadings : Obligations.FrontEndReadings := by
  unfold Obligations.FrontEndReadings
  constructor
  · intro s l slot r lc i n x h
    refine ⟨fun hidle => .of_run (visit · l slot r) rfl (visit_of_idle _ r hidle), ?_⟩
    intro hlanes hchans hlc hmode hruns hchain hheld hslot hsr hin
    constructor
    · intro himu
      exact .of_run (visit · l slot r) rfl (visit_of_imuHolds r hlc hmode hruns hchain hheld hslot hsr hin himu)
    · intro himu
      refine .of_run (visit · l slot r) rfl ?_
      rw [visit_of_free r hlc hmode hruns hchain hheld hslot hsr hin himu]
      intro y
      have hy : y = _ := visited_laneSt slot r hlanes
      have hch := visited_chans n l slot i r
      refine ⟨by rw [hy], by rw [hy], by rw [hy], ?_, ?_, ?_, ?_, ?_, ?_, visited_keeps n l slot i r⟩
      · intro hb
        simp [hy, hb, n]
      · intro hb
        simp [hy, hb, n]
      · intro hv ho
        simp [hy, hv, ho]
      · intro hb he hon
        have hon : (voltageExcited i.type && r.overload) = false := Bool.and_eq_false_iff.mpr hon
        simp [hy, hb, he, hon]
      · intro hr
        rw [hy, hch, takeChReset_of_not l hr]
        exact ⟨rfl, rfl⟩
      · intro hr
        rw [laneCh_of_chans hch, takeChReset_laneCh l hchans hr, hy, takeChReset_laneSt hlanes hr]
        refine ⟨rfl, rfl, fun hroom => ?_⟩
        rw [LaneSt.pushMarker, if_pos hroom]
        rfl
  · intro s k x n c recent hcj
    constructor
    · intro hout
      have hx : cjGood (n.cjAt k) x = false := cjGood_of_out hout
      refine .of_run (readCj · k x) rfl ⟨?_, ?_, ?_, readCj_keeps n k x⟩
      · exact readCj_cjAt_of_bad hcj hx
      · exact readCj_flag hx
      · exact readCj_keeps_of_failed hx
    · intro hlo hhi hnear
      have hx : cjGood (n.cjAt k) x = true := cjGood_eq_true_iff.mpr ⟨hlo, hhi, hnear⟩
      refine .of_run (readCj · k x) rfl ⟨?_, ?_, readCj_keeps n k x⟩
      · exact readCj_cjAt_of_good hcj hx
      · exact readCj_keeps_of_good hx

end

/-! ## O5: the majority of a VIEW (16 R483) -/

namespace Sys2Proof.Machine.Node

/-- The lowest number below `n` with `p` has `q` as well: the first entry of the list of them, or a number with none below it. -/
theorem head?_filter_range_any_iff {n : Nat} {p q : Nat → Bool} :
    ((List.range n).filter p).head?.any q = true ↔
      ∃ k, k < n ∧ p k = true ∧ q k = true ∧ ∀ i, i < k → p i = false := by
  simp only [List.head?_filter, Option.any_eq_true, List.find?_range_eq_some, List.mem_range, Bool.not_eq_true']
  constructor
  · rintro ⟨k, ⟨hp, hk, hlow⟩, hq⟩
    exact ⟨k, hk, hp, hq, hlow⟩
  · rintro ⟨k, hk, hp, hq, hlow⟩
    exact ⟨k, ⟨hp, hk, hlow⟩, hq⟩

/-- The numbers of MEMBERS that the VIEW includes, counted in one pass over the 16 nodes. -/
theorem filter_members_view (members view : BitVec 16) :
    (((List.range 16).filter (bit members ·)).filter (bit view ·)) =
      (List.range 16).filter fun k => bit members k && bit view k := by
  simp only [List.filter_filter, Bool.and_comm]

end Sys2Proof.Machine.Node

section
open Sys2Proof Sys2Proof.Machine Sys2Proof.Machine.Node

/-- Settles O5: the two counts are those of the model, and the head of the list of MEMBERS is the lowest-numbered node of it. -/
theorem majorityOfMembers : Obligations.MajorityOfMembers := by
  unfold Obligations.MajorityOfMembers
  intro members view all here
  have hlow := head?_filter_range_any_iff (n := 16) (p := (bit members ·)) (q := (bit view ·))
  rw [majorityOf, filter_members_view, Bool.or_eq_true, Bool.and_eq_true, decide_eq_true_iff, decide_eq_true_iff, hlow]

end

section
set_option Elab.async false

section
/-! The frame of an operation together with what every operation keeps: the blown fuse and the canonical solver memory. -/

namespace Sys2Proof.Machine

/-- From `n` to `m` only the parts listed changed, the fuse stayed blown, and the solver memory stayed canonical. -/
structure Within (l : List Part) (n m : Node) : Prop where
  keeps : Keeps l n m
  fuse : n.FuseBlown → m.FuseBlown
  mem : n.MemCanonical → m.MemCanonical

/-- All the parts of the node: the frame of an operation that may change each of them. -/
def Part.all : List Part :=
  [.sys, .pwr, .clk, .rtc, .afe, .lane, .loop, .dio, .fab, .call, .solv, .jrnl, .tide, .pair, .ext, .stor, .sec, .img, .free]

/-- All the parts but those listed. -/
def Part.allBut (l : List Part) : List Part := Part.all.filter fun b => decide (b ∉ l)

@[simp] theorem Part.mem_all (b : Part) : b ∈ Part.all := by cases b <;> simp [Part.all]
@[simp] theorem Part.subset_all (l : List Part) : l ⊆ Part.all := fun b _ => b.mem_all

namespace Within

/-- A frame that lies inside another one. -/
theorem sub_of {r t l : List Part} (s : t ⊆ l) (h : r ⊆ t := by decide) : r ⊆ l := List.Subset.trans h s

@[simp] theorem refl (l : List Part) (n : Node) : Within l n n := ⟨Keeps.refl l n, id, id⟩

/-- A part that the frame leaves out stands. -/
theorem part {l : List Part} {n m : Node} (h : Within l n m) (b : Part) (hb : b ∉ l := by decide) : b.Same n m := h.keeps b hb

/-- A further operation, whose own frame lies inside. -/
theorem after {l r : List Part} {a n m : Node} (g : Within r n m) (h : Within l a n) (s : r ⊆ l) : Within l a m :=
  ⟨h.keeps.trans (g.keeps.mono s), g.fuse ∘ h.fuse, g.mem ∘ h.mem⟩

/-- An operation that changes neither SEC nor SOLV keeps the fuse and the solver memory. -/
theorem of_keeps {l : List Part} {n m : Node} (h : Keeps l n m) (hs : .sec ∉ l) (hv : .solv ∉ l) : Within l n m :=
  ⟨h, by rw [Node.FuseBlown, Node.FuseBlown, h.part .sec hs]; exact id,
   by rw [Node.MemCanonical, Node.MemCanonical, h.part .solv hv]; exact id⟩

variable {l : List Part} {a n : Node}

theorem rfl : Within l n n := refl l n

theorem ite {c : Prop} [Decidable c] {x y : Node} (hx : Within l a x) (hy : Within l a y) : Within l a (if c then x else y) := by
  split <;> assumption

theorem iteThen {c : Prop} [Decidable c] {x : Node} (h : Within l a n) (g : Within l n x) : Within l a (if c then x else n) := by
  split
  · exact g.after h (List.Subset.refl l)
  · exact h

theorem iteElse {c : Prop} [Decidable c] {x : Node} (h : Within l a n) (g : Within l n x) : Within l a (if c then n else x) := by
  split
  · exact h
  · exact g.after h (List.Subset.refl l)

theorem foldl {β : Type} {f : Node → β → Node} (r : List β) (h : Within l a n) (hf : ∀ m x, Within l m (f m x)) :
    Within l a (r.foldl f n) := by
  induction r generalizing n with
  | nil => exact h
  | cons x r ih => exact ih ((hf n x).after h (List.Subset.refl l))

/-- A fold whose accumulator carries the node beside something else. -/
theorem foldl_pair {β γ : Type} (node : γ → Node) {f : γ → β → γ} (hf : ∀ p x, Within l (node p) (node (f p x))) (r : List β) (p : γ) :
    Within l (node p) (node (r.foldl f p)) := by
  induction r generalizing p with
  | nil => exact rfl
  | cons x r ih => exact (ih (f p x)).after (hf p x) (List.Subset.refl l)

theorem mSys {f : Sys → Sys} (h : Within l a n) (s : [.sys] ⊆ l := by decide) : Within l a (n.mSys f) :=
  (of_keeps (n.mSys_keeps f) (by simp) (by simp)).after h s
theorem mPwr {f : Pwr → Pwr} (h : Within l a n) (s : [.pwr] ⊆ l := by decide) : Within l a (n.mPwr f) :=
  (of_keeps (n.mPwr_keeps f) (by simp) (by simp)).after h s
theorem mClk {f : Clk → Clk} (h : Within l a n) (s : [.clk] ⊆ l := by decide) : Within l a (n.mClk f) :=
  (of_keeps (n.mClk_keeps f) (by simp) (by simp)).after h s
theorem mRtc {f : Rtc → Rtc} (h : Within l a n) (s : [.rtc] ⊆ l := by decide) : Within l a (n.mRtc f) :=
  (of_keeps (n.mRtc_keeps f) (by simp) (by simp)).after h s
theorem mAfe {f : Afe → Afe} (h : Within l a n) (s : [.afe] ⊆ l := by decide) : Within l a (n.mAfe f) :=
  (of_keeps (n.mAfe_keeps f) (by simp) (by simp)).after h s
theorem mLane {f : Lanes → Lanes} (h : Within l a n) (s : [.lane] ⊆ l := by decide) : Within l a (n.mLane f) :=
  (of_keeps (n.mLane_keeps f) (by simp) (by simp)).after h s
theorem mLoop {f : Loops → Loops} (h : Within l a n) (s : [.loop] ⊆ l := by decide) : Within l a (n.mLoop f) :=
  (of_keeps (n.mLoop_keeps f) (by simp) (by simp)).after h s
theorem mDio {f : Dio → Dio} (h : Within l a n) (s : [.dio] ⊆ l := by decide) : Within l a (n.mDio f) :=
  (of_keeps (n.mDio_keeps f) (by simp) (by simp)).after h s
theorem mFab {f : Fab → Fab} (h : Within l a n) (s : [.fab] ⊆ l := by decide) : Within l a (n.mFab f) :=
  (of_keeps (n.mFab_keeps f) (by simp) (by simp)).after h s
theorem mCall {f : Call → Call} (h : Within l a n) (s : [.call] ⊆ l := by decide) : Within l a (n.mCall f) :=
  (of_keeps (n.mCall_keeps f) (by simp) (by simp)).after h s
theorem mJrnl {f : Jrnl → Jrnl} (h : Within l a n) (s : [.jrnl] ⊆ l := by decide) : Within l a (n.mJrnl f) :=
  (of_keeps (n.mJrnl_keeps f) (by simp) (by simp)).after h s
theorem mTide {f : Tide → Tide} (h : Within l a n) (s : [.tide] ⊆ l := by decide) : Within l a (n.mTide f) :=
  (of_keeps (n.mTide_keeps f) (by simp) (by simp)).after h s
theorem mPair {f : Pair → Pair} (h : Within l a n) (s : [.pair] ⊆ l := by decide) : Within l a (n.mPair f) :=
  (of_keeps (n.mPair_keeps f) (by simp) (by simp)).after h s
theorem mExt {f : Ext → Ext} (h : Within l a n) (s : [.ext] ⊆ l := by decide) : Within l a (n.mExt f) :=
  (of_keeps (n.mExt_keeps f) (by simp) (by simp)).after h s
theorem mStor {f : Stor → Stor} (h : Within l a n) (s : [.stor] ⊆ l := by decide) : Within l a (n.mStor f) :=
  (of_keeps (n.mStor_keeps f) (by simp) (by simp)).after h s

/-- A change of SEC that does not unblow the fuse. -/
theorem mSec {f : Sec → Sec} (h : Within l a n) (s : [.sec] ⊆ l := by decide) (hf : n.sec.enrolled = true → (f n.sec).enrolled = true := by exact id) :
    Within l a (n.mSec f) :=
  Within.after ⟨n.mSec_keeps f, hf, id⟩ h s

/-- A change of SOLV that leaves its memory canonical. -/
theorem mSolv {f : Solv → Solv} (h : Within l a n) (s : [.solv] ⊆ l := by decide)
    (hf : twf 0 n.solv.mem = true → twf 0 (f n.solv).mem = true := by exact id) : Within l a (n.mSolv f) :=
  Within.after ⟨n.mSolv_keeps f, id, hf⟩ h s

theorem setImg {i : Option Image} (h : Within l a n) (s : [.img] ⊆ l := by decide) : Within l a { n with img := i } := by
  have hk : Keeps [.img] n { n with img := i } := fun b hb => by
    cases b with
    | img => simp at hb
    | _ => rfl
  exact (of_keeps hk (by simp) (by simp)).after h s

theorem setFree {k : Nat} (h : Within l a n) (s : [.free] ⊆ l := by decide) : Within l a { n with free := k } := by
  have hk : Keeps [.free] n { n with free := k } := fun b hb => by
    cases b with
    | free => simp at hb
    | _ => rfl
  exact (of_keeps hk (by simp) (by simp)).after h s

/-- A part of the node's work given as a function. -/
theorem apply {f : Node → Node} (h : Within l a n) (hf : ∀ m, Within l m (f m)) : Within l a (f n) := (hf n).after h (List.Subset.refl l)

end Within

end Sys2Proof.Machine
end

section
/-! The frame of every function of the model that changes the node, in the order of the model: the parts it may change, and that it keeps
the fuse and the canonical solver memory. Each follows the function's own text. -/

namespace Sys2Proof.Machine.Within

variable {l : List Part} {a n : Node}
theorem setDom {d : Domain} {v : DomClk} (h : Within l a n) (s : [.clk] ⊆ l := by decide) : Within l a (n.setDom d v) :=
  after (.mClk .rfl) h s

theorem fresh (h : Within l a n) (s : [.free] ⊆ l := by decide) : Within l a (n.fresh.2) :=
  setFree h s

theorem setNow {t : ℕ} (h : Within l a n) (s : [.rtc] ⊆ l := by decide) : Within l a (n.setNow t) :=
  after (.mRtc .rfl) h s

theorem rtcHold (h : Within l a n) (s : [.rtc] ⊆ l := by decide) : Within l a n.rtcHold := by
  refine after ?_ h s
  unfold Node.rtcHold
  dsimp only
  exact .mRtc .rfl

theorem retime {f : Rtc → Rtc} (h : Within l a n) (s : [.rtc] ⊆ l := by decide) : Within l a (n.retime f) :=
  after (.mRtc (.mRtc (.rtcHold .rfl))) h s

theorem pushRam {r : Record} {own : Bool} (h : Within l a n) (s : [.jrnl] ⊆ l := by decide) : Within l a (n.pushRam r own) :=
  after (.mJrnl .rfl) h s

theorem issueNow {b : RecBody} (h : Within l a n) (s : [.jrnl] ⊆ l := by decide) : Within l a (n.issueNow b) := by
  refine after ?_ h s
  unfold Node.issueNow
  dsimp only
  exact .mJrnl (.pushRam .rfl)

theorem sendFrame {dst : BitVec 16} {l' : RingLoad} (h : Within l a n) (s : [.tide] ⊆ l := by decide) : Within l a (n.sendFrame dst l') :=
  after (.mTide .rfl) h s

theorem notify {b : RecBody} (h : Within l a n) (s : [.jrnl, .tide, .pair] ⊆ l := by decide) : Within l a (n.notify b) := by
  refine after ?_ h s
  unfold Node.notify
  dsimp only
  exact .ite .rfl (by split; exacts [.rfl, .ite (.sendFrame .rfl) (.mPair (.ite (.mJrnl .rfl) .rfl))])

theorem later {b : RecBody} (h : Within l a n) (s : [.jrnl, .tide, .pair] ⊆ l := by decide) : Within l a (n.later b) :=
  after (.ite (.mJrnl .rfl) (.notify .rfl)) h s

theorem stepOne {b : RecBody} (h : Within l a n) (s : [.jrnl, .tide, .pair] ⊆ l := by decide) : Within l a (n.stepOne b) :=
  after (.ite (.mJrnl .rfl) (.notify .rfl)) h s

theorem issue {b : RecBody} (h : Within l a n) (s : [.jrnl, .tide, .pair] ⊆ l := by decide) : Within l a (n.issue b) :=
  after (.ite (.issueNow .rfl) (.notify .rfl)) h s

theorem issueGap {g : GapDue} (h : Within l a n) (s : [.jrnl] ⊆ l := by decide) : Within l a (n.issueGap g) :=
  after (.foldl _ .rfl (fun _ _ => .mJrnl (.issueNow .rfl))) h s

theorem laterGap {g : GapDue} (h : Within l a n) (s : [.jrnl] ⊆ l := by decide) : Within l a (n.laterGap g) :=
  after (.mJrnl .rfl) h s

theorem irqEvent {i : ℕ} (h : Within l a n) (s : [.sys] ⊆ l := by decide) : Within l a (n.irqEvent i) :=
  after (.mSys .rfl) h s

theorem flashAdd {op : FlashOp} (h : Within l a n) (s : [.stor] ⊆ l := by decide) : Within l a (n.flashAdd op) :=
  after (.mStor .rfl) h s

theorem ckpt {kind item value : ℕ} (h : Within l a n) (s : [.stor] ⊆ l := by decide) : Within l a (n.ckpt kind item value) :=
  after (.flashAdd .rfl) h s

theorem mCells {f : Cells → Cells} (h : Within l a n) (s : [.fab] ⊆ l := by decide) : Within l a (n.mCells f) :=
  after (.mFab .rfl) h s

theorem setPoint {p : ℕ} {v : PointSt} (h : Within l a n) (s : [.fab] ⊆ l := by decide) : Within l a (n.setPoint p v) :=
  after (.mCells .rfl) h s

theorem setCond {k : ℕ} {v : CondSt} (h : Within l a n) (s : [.fab] ⊆ l := by decide) : Within l a (n.setCond k v) :=
  after (.mCells .rfl) h s

theorem setGrp {g : ℕ} {v : GrpSt} (h : Within l a n) (s : [.fab] ⊆ l := by decide) : Within l a (n.setGrp g v) :=
  after (.mCells .rfl) h s

theorem clockEntry {p : ℕ} {a' b : PointSt} (h : Within l a n) (s : [.stor] ⊆ l := by decide) : Within l a (n.clockEntry p
    a' b) :=
  after (.ite (.ckpt .rfl) .rfl) h s

theorem evalCell {x : CellRef} (h : Within l a n) (s : [.fab, .stor] ⊆ l := by decide) : Within l a (n.evalCell x) := by
  refine after ?_ h s
  unfold Node.evalCell
  dsimp only
  split
  · split
    · exact .setCond .rfl
    · exact .rfl
  · split
    · exact .clockEntry (.setPoint .rfl)
    · exact .rfl
  · exact .setGrp .rfl

theorem evalCells (h : Within l a n) (s : [.fab, .stor] ⊆ l := by decide) : Within l a (n.evalCells) :=
  after (.foldl _ .rfl (fun _ _ => .evalCell (.rfl))) h s

theorem pointRecord {c : PointCfg} (h : Within l a n) (s : [.fab, .jrnl] ⊆ l := by decide) : Within l a (n.pointRecord c) :=
  after (.setPoint (.iteThen (.ite (.issueNow .rfl) .rfl) (.mFab .rfl))) h s

theorem groupRecord {g : ℕ} (h : Within l a n) (s : [.jrnl] ⊆ l := by decide) : Within l a (n.groupRecord g) :=
  after (.ite (.issueNow .rfl) .rfl) h s

theorem recordCell {x : CellRef} (h : Within l a n) (s : [.fab, .jrnl] ⊆ l := by decide) : Within l a (n.recordCell x) := by
  refine after ?_ h s
  unfold Node.recordCell
  split
  · exact .rfl
  · split
    · exact .pointRecord .rfl
    · exact .rfl
  · exact .groupRecord .rfl

theorem autoRearm (h : Within l a n) (s : [.fab] ⊆ l := by decide) : Within l a (n.autoRearm) :=
  after (.foldl _ .rfl (fun _ _ => .ite (.setGrp .rfl) .rfl)) h s

theorem recordCells (h : Within l a n) (s : [.fab, .jrnl] ⊆ l := by decide) : Within l a n.recordCells := by
  refine after ?_ h s
  unfold Node.recordCells
  dsimp only
  exact .mFab (.autoRearm (.foldl _ .rfl (fun _ _ => .recordCell (.rfl))))

theorem takeCmdId (h : Within l a n) (s : [.fab] ⊆ l := by decide) : Within l a (n.takeCmdId.2) := by
  unfold Node.takeCmdId
  dsimp only
  exact mFab h s

theorem pushCmd {c : QCmd} (h : Within l a n) (s : [.fab] ⊆ l := by decide) : Within l a (n.pushCmd c) :=
  after (.mFab .rfl) h s

theorem fabRefused {code : ℕ} (h : Within l a n) (s : [.fab] ⊆ l := by decide) : Within l a (n.fabRefused code) :=
  after (.mFab .rfl) h s

theorem fabAccepted {code id : ℕ} (h : Within l a n) (s : [.fab] ⊆ l := by decide) : Within l a (n.fabAccepted code id) :=
  after (.mFab .rfl) h s

theorem fabHost {op target arg : ℕ} {o : Option ℕ} (h : Within l a n) (s : [.fab, .tide] ⊆ l := by decide) : Within l a
    (n.fabHost op target arg o) := by
  refine after ?_ h s
  unfold Node.fabHost
  dsimp only
  exact .ite (.fabRefused .rfl)
    (by
      split
      · exact .fabRefused .rfl
      · exact .ite (.fabRefused .rfl) (.fabAccepted (.pushCmd (.takeCmdId .rfl)))
      · exact .ite (.fabRefused .rfl) (.fabAccepted (.sendFrame (.takeCmdId .rfl))))

theorem arrive {c : QCmd} {code : ℕ} (h : Within l a n) (s : [.fab] ⊆ l := by decide) : Within l a (n.arrive c code) :=
  after (.pushCmd (.ite (.mFab .rfl) .rfl)) h s

theorem fabNet {o : Option ℕ} {op target arg path : ℕ} (h : Within l a n) (s : [.fab, .tide] ⊆ l := by decide) :
    Within l a (n.fabNet o op target arg path) := by
  refine after ?_ h s
  unfold Node.fabNet
  split
  · exact .rfl
  · exact .arrive (.takeCmdId .rfl)
  · exact .ite .rfl (.sendFrame (.takeCmdId .rfl))

theorem fabCommand {op target arg : ℕ} {o : Sys2Proof.Origin} (h : Within l a n) (s : [.fab, .tide] ⊆ l := by decide) :
    Within l a (n.fabCommand op target arg o) := by
  refine after ?_ h s
  unfold Node.fabCommand
  split
  · exact .fabHost .rfl
  · exact .fabHost .rfl
  · exact .fabNet .rfl
  · exact .fabNet .rfl

theorem ackMembers {ms : List PointCfg} (h : Within l a n) (s : [.fab] ⊆ l := by decide) : Within l a ((n.ackMembers ms).1) := by
  refine after ?_ h s
  unfold Node.ackMembers
  refine foldl_pair (·.1) ?_ ms (n, false)
  rintro ⟨m, any⟩ c
  dsimp only
  split
  · exact .setPoint .rfl
  · exact .rfl

theorem markEntries {p : ℕ} {a' b : PointSt} (h : Within l a n) (s : [.stor] ⊆ l := by decide) : Within l a (n.markEntries p
    a' b) :=
  after (.clockEntry (.ite (.ckpt .rfl) .rfl)) h s

theorem applyFab {c : QCmd} (h : Within l a n) (s : [.fab, .jrnl, .stor] ⊆ l := by decide) : Within l a (n.applyFab c) := by
  refine after ?_ h s
  unfold Node.applyFab
  dsimp only
  exact .ite (.issueNow .rfl)
    (.ite (.ite (.issueNow .rfl) (.issueNow (.ackMembers .rfl)))
      (.ite (.ite (.issueNow (.setGrp .rfl)) (.issueNow .rfl))
        (by split; exacts [.issueNow .rfl, .issueNow (.ite (.ckpt (.setPoint .rfl)) (.markEntries (.setPoint .rfl)))])))

theorem ifEvaluates {f : Node → Node} (h : Within l a n) (hf : ∀ m, Within l m (f m)) : Within l a (n.ifEvaluates f) :=
  ite (h.apply hf) h

theorem delayExpiry {p : ℕ} {rise : Bool} (h : Within l a n) (s : [.fab] ⊆ l := by decide) : Within l a (n.delayExpiry p rise) := by
  refine after ?_ h s
  unfold Node.delayExpiry
  dsimp only
  split
  · exact .rfl
  · exact .ite (.setPoint .rfl) .rfl

theorem holdExpiry {p : ℕ} (h : Within l a n) (s : [.fab] ⊆ l := by decide) : Within l a (n.holdExpiry p) := by
  refine after ?_ h s
  unfold Node.holdExpiry
  dsimp only
  split
  · exact .rfl
  · exact .ite (.setPoint .rfl) .rfl

theorem shelfExpiry {p : ℕ} (h : Within l a n) (s : [.fab, .stor] ⊆ l := by decide) : Within l a (n.shelfExpiry p) :=
  after (.ite (.markEntries (.setPoint .rfl)) .rfl) h s

theorem windowWrite {sel : Word} {v : B64} (h : Within l a n) (s : [.fab] ⊆ l := by decide) : Within l a ((n.windowWrite sel v).2) := by
  refine after ?_ h s
  unfold Node.windowWrite
  dsimp only
  split_ifs
  · exact .rfl
  · exact .rfl
  · exact .rfl
  · exact .rfl
  · dsimp only
    exact .mFab .rfl

theorem windowStart {op : ℕ} (h : Within l a n) (s : [.fab] ⊆ l := by decide) : Within l a (n.windowStart op) :=
  after (.mFab .rfl) h s

theorem windowDone (h : Within l a n) (s : [.fab] ⊆ l := by decide) : Within l a n.windowDone := by
  refine after ?_ h s
  unfold Node.windowDone
  dsimp only
  split
  · exact .rfl
  · exact .ite (.mFab .rfl) (.mFab (.windowWrite .rfl))

theorem applyTune {x : TunePend} (h : Within l a n) (s : [.fab, .jrnl, .tide, .pair, .stor] ⊆ l := by decide) : Within l a (n.applyTune
    x) :=
  after (.ckpt (.stepOne (.mFab (.ite (.setPoint .rfl) .rfl)))) h s

theorem applyTunes (h : Within l a n) (s : [.fab, .jrnl, .tide, .pair, .stor] ⊆ l := by decide) : Within l a (n.applyTunes) :=
  after (.ite .rfl (.mFab (.foldl _ .rfl (fun _ _ => .applyTune (.rfl))))) h s

theorem setLadder {l' : ℕ} {v : LadderSt} (h : Within l a n) (s : [.call] ⊆ l := by decide) : Within l a (n.setLadder l' v) :=
  after (.mCall .rfl) h s

theorem dmMove {new : ℕ} (h : Within l a n) (s : [.call, .jrnl] ⊆ l := by decide) : Within l a (n.dmMove new) :=
  after (.issueNow (.mCall .rfl)) h s

theorem dmLoad {w : WatchCfg} (h : Within l a n) (s : [.call] ⊆ l := by decide) : Within l a (n.dmLoad w) :=
  after (.mCall .rfl) h s

theorem dmTake {w : WatchCfg} {new : ℕ} (h : Within l a n) (s : [.call, .jrnl] ⊆ l := by decide) : Within l a (n.dmTake w new) :=
  after (.dmMove (.ite (.dmLoad .rfl) (.mCall .rfl))) h s

theorem dmEdge {w : WatchCfg} {op : ℕ} (h : Within l a n) (s : [.call, .jrnl] ⊆ l := by decide) : Within l a (n.dmEdge w op) := by
  refine after ?_ h s
  unfold Node.dmEdge
  split
  · exact .dmTake .rfl
  · exact .rfl

theorem dmCount {w : WatchCfg} {d : ℕ} (h : Within l a n) (s : [.call, .jrnl] ⊆ l := by decide) : Within l a (n.dmCount w d) :=
  after (.iteThen (.iteThen (.ite (.mCall .rfl) .rfl) (.dmMove .rfl)) (.dmMove .rfl)) h s

theorem watchStep {edges : List ℕ} {held : ℕ} (h : Within l a n) (s : [.call, .jrnl] ⊆ l := by decide) : Within l a (n.watchStep edges
    held) := by
  refine after ?_ h s
  unfold Node.watchStep
  dsimp only
  split
  · exact .rfl
  · exact .mCall
      (.iteElse (.foldl _ .rfl (fun _ _ => .iteThen (.iteThen (.ite (.dmEdge .rfl) .rfl) (.dmEdge .rfl)) (.dmEdge .rfl))) (.dmCount .rfl))

theorem enterRung {c : LadderCfg} {old fuel k : ℕ} (h : Within l a n) (s : [.call, .jrnl] ⊆ l := by decide) :
    Within l a (Node.enterRung c old fuel k n) := by
  induction fuel generalizing n old k with
  | zero => exact h
  | succ fuel ih =>
    unfold Node.enterRung
    dsimp only
    exact .ite (ih (.issueNow (.setLadder h (sub_of s)) (sub_of s))) (.issueNow (.setLadder h (sub_of s)) (sub_of s))

theorem repeatRung {c : LadderCfg} (h : Within l a n) (s : [.call, .jrnl] ⊆ l := by decide) : Within l a (n.repeatRung c) :=
  after (.issueNow (.setLadder .rfl)) h s

theorem rungExpires {c : LadderCfg} (h : Within l a n) (s : [.call, .jrnl] ⊆ l := by decide) : Within l a (n.rungExpires c) :=
  after (.ite (.enterRung .rfl) (.repeatRung .rfl)) h s

theorem countRung {c : LadderCfg} {fuel d : ℕ} (h : Within l a n) (s : [.call, .jrnl] ⊆ l := by decide) :
    Within l a (Node.countRung c fuel d n) := by
  induction fuel generalizing n d with
  | zero => exact h
  | succ fuel ih =>
    unfold Node.countRung
    dsimp only
    exact .ite (.setLadder h (sub_of s)) (.ite (.rungExpires h (sub_of s)) (ih (.rungExpires h (sub_of s))))

theorem ladderStep {cells : Cells} {entered : List ℕ} {held : ℕ} {c : LadderCfg} (h : Within l a n) (s : [.call, .jrnl] ⊆ l := by
    decide) : Within l a (n.ladderStep cells entered held c) :=
  after (.setLadder (.ite (.ite (.enterRung .rfl) .rfl) (.ite (.issueNow (.setLadder .rfl)) (.countRung .rfl)))) h s

theorem bridgeUpdate (h : Within l a n) (s : [.call] ⊆ l := by decide) : Within l a n.bridgeUpdate := by
  refine after ?_ h s
  unfold Node.bridgeUpdate
  dsimp only
  exact .mCall .rfl

theorem resolveRoster (h : Within l a n) (s : [.call] ⊆ l := by decide) : Within l a (n.resolveRoster) :=
  after (.mCall .rfl) h s

theorem callStep {cells : Cells} {entered edges : List ℕ} {held : ℕ} (h : Within l a n) (s : [.call, .jrnl] ⊆ l := by decide)
    : Within l a (n.callStep cells entered edges held) := by
  refine after ?_ h s
  unfold Node.callStep
  dsimp only
  exact .mCall (.bridgeUpdate (.foldl _ (.watchStep (.resolveRoster .rfl)) (fun _ _ => .ladderStep .rfl)))

theorem callRefused {code : ℕ} (h : Within l a n) (s : [.call] ⊆ l := by decide) : Within l a (n.callRefused code) :=
  after (.mCall .rfl) h s

theorem callAccepted {code id : ℕ} (h : Within l a n) (s : [.call] ⊆ l := by decide) : Within l a (n.callAccepted code id) :=
  after (.mCall .rfl) h s

theorem callHost {op target arg : ℕ} (h : Within l a n) (s : [.fab, .call, .tide] ⊆ l := by decide) : Within l a (n.callHost
    op target arg) := by
  refine after ?_ h s
  unfold Node.callHost
  dsimp only
  exact .ite (.callRefused .rfl)
    (by
      split
      · exact .ite (.callRefused .rfl) (.callAccepted (.pushCmd (.takeCmdId .rfl)))
      · exact .callRefused .rfl
      · exact .ite (.callRefused .rfl) (.callAccepted (.sendFrame (.takeCmdId .rfl))))

theorem callNet {o : Option ℕ} {op target arg path : ℕ} (h : Within l a n) (s : [.fab, .tide] ⊆ l := by decide) :
    Within l a (n.callNet o op target arg path) := by
  refine after ?_ h s
  unfold Node.callNet
  split
  · exact .rfl
  · exact .arrive (.takeCmdId .rfl)
  · exact .ite .rfl (.sendFrame (.takeCmdId .rfl))

theorem callCommand {op target arg : ℕ} {o : Sys2Proof.Origin} (h : Within l a n) (s : [.fab, .call, .tide] ⊆ l := by
    decide) : Within l a (n.callCommand op target arg o) := by
  refine after ?_ h s
  unfold Node.callCommand
  split
  · exact .callHost .rfl
  · exact .callHost .rfl
  · exact .callNet .rfl
  · exact .callNet .rfl

theorem panelEdges {edges : List ℕ} (h : Within l a n) (s : [.fab, .tide] ⊆ l := by decide) : Within l a (n.panelEdges edges) :=
  after
    (.foldl _ .rfl (fun _ _ => .foldl _ (.foldl _ .rfl (fun _ _ => .ite (.callNet .rfl) .rfl)) (fun _ _ => .ite (.callNet .rfl) .rfl))) h s

theorem applyCallAck {c : QCmd} (h : Within l a n) (s : [.call, .jrnl] ⊆ l := by decide) : Within l a (n.applyCallAck c) :=
  after (.ite (.issueNow .rfl) (.bridgeUpdate (.foldl _ .rfl (fun _ _ => .issueNow (.setLadder .rfl))))) h s

theorem rosterEntry (h : Within l a n) (s : [.stor] ⊆ l := by decide) : Within l a (n.rosterEntry) :=
  after (.ckpt .rfl) h s

theorem applyCall {c : QCmd} (h : Within l a n) (s : [.call, .jrnl, .stor] ⊆ l := by decide) : Within l a (n.applyCall c) := by
  refine after ?_ h s
  unfold Node.applyCall
  dsimp only
  exact .ite (.issueNow .rfl)
    (.ite (.applyCallAck .rfl)
      (.ite (.ite (.issueNow .rfl) (.rosterEntry (.issueNow (.mCall (.issueNow .rfl)))))
        (.ite (.ite (.issueNow .rfl) (.rosterEntry (.issueNow (.mCall (.issueNow .rfl)))))
          (by split; exacts [.issueNow .rfl, by split; exacts [.dmTake (.issueNow .rfl), .issueNow .rfl, .issueNow .rfl]]))))

theorem applyCommands (h : Within l a n) (s : [.fab, .call, .jrnl, .stor] ⊆ l := by decide) : Within l a (n.applyCommands) :=
  after (.foldl _ (.mFab .rfl) (fun _ _ => .ite (.applyFab .rfl) (.applyCall .rfl))) h s

theorem storFlag {i : ℕ} (h : Within l a n) (s : [.stor] ⊆ l := by decide) : Within l a (n.storFlag i) :=
  after (.mStor .rfl) h s

theorem updSector {k : ℕ} {f : Sector → Sector} (h : Within l a n) (s : [.stor] ⊆ l := by decide) : Within l a (n.updSector k f) :=
  after (.mStor .rfl) h s

theorem addOnce {op : FlashOp} (h : Within l a n) (s : [.stor] ⊆ l := by decide) : Within l a (n.addOnce op) :=
  after (.ite .rfl (.flashAdd .rfl)) h s

theorem passRetired {k last : ℕ} (h : Within l a n) (s : [.stor] ⊆ l := by decide) : Within l a (n.passRetired k last) := by
  refine after ?_ h s
  unfold Node.passRetired
  dsimp only
  exact .mStor .rfl

theorem eraseAhead {k : ℕ} (h : Within l a n) (s : [.stor] ⊆ l := by decide) : Within l a (n.eraseAhead k) :=
  after (.foldl _ (.passRetired .rfl) (fun _ _ => .ite .rfl (.addOnce .rfl))) h s

theorem openJournal (h : Within l a n) (s : [.stor] ⊆ l := by decide) : Within l a (n.openJournal) :=
  after (.ite .rfl (.ite (.eraseAhead (.updSector .rfl)) (.addOnce .rfl))) h s

theorem compactDue (h : Within l a n) (s : [.stor] ⊆ l := by decide) : Within l a n.compactDue := by
  refine after ?_ h s
  unfold Node.compactDue
  exact .ite .rfl (by split; exacts [.addOnce .rfl, .rfl])

theorem openCk (h : Within l a n) (s : [.stor] ⊆ l := by decide) : Within l a n.openCk := by
  refine after ?_ h s
  unfold Node.openCk
  exact .ite .rfl (by split; exacts [.rfl, .compactDue (.updSector .rfl)])

theorem appendCk {e : CkEntry} (h : Within l a n) (s : [.stor] ⊆ l := by decide) : Within l a (n.appendCk e) := by
  refine after ?_ h s
  unfold Node.appendCk
  dsimp only
  split
  · exact .updSector (.openCk .rfl)
  · exact .openCk .rfl

theorem failStore {cause : ℕ} (h : Within l a n) (s : [.jrnl, .stor, .sec] ⊆ l := by decide) : Within l a (n.failStore cause) := by
  refine after ?_ h s
  unfold Node.failStore
  dsimp only
  exact .mJrnl (.storFlag (.mStor (.mSec .rfl)))

theorem retireSector {k : ℕ} (h : Within l a n) (s : [.jrnl, .stor, .sec] ⊆ l := by decide) : Within l a (n.retireSector k) :=
  after (.iteThen (.flashAdd (.storFlag (.updSector .rfl))) (.failStore .rfl)) h s

theorem appendIdent {e : IdEntry} (h : Within l a n) (s : [.stor] ⊆ l := by decide) : Within l a (n.appendIdent e) :=
  after (.mStor .rfl) h s

theorem retryEra (h : Within l a n) (s : [.stor] ⊆ l := by decide) : Within l a n.retryEra := by
  refine after ?_ h s
  unfold Node.retryEra
  split
  · exact .addOnce .rfl
  · exact .rfl

theorem tearIdent {e : IdEntry} (h : Within l a n) (s : [.stor] ⊆ l := by decide) : Within l a (n.tearIdent e) :=
  after (.mStor .rfl) h s

theorem tearEntry {k : ℕ} (h : Within l a n) (s : [.stor] ⊆ l := by decide) : Within l a (n.tearEntry k) :=
  after (.updSector .rfl) h s

theorem appendBank {b : Bool} {e : BankEntry} (h : Within l a n) (s : [.stor] ⊆ l := by decide) : Within l a (n.appendBank b e) :=
  after (.updSector .rfl) h s

theorem updBank {b : Bool} {f : BankSt → BankSt} (h : Within l a n) (s : [.sec] ⊆ l := by decide) : Within l a (n.updBank b f) :=
  mSec h s (by
    split
    · exact id
    · exact id)

theorem journalWritten {recs : List Record} (h : Within l a n) (s : [.jrnl, .stor] ⊆ l := by decide) : Within l a (n.journalWritten
    recs) := by
  refine after ?_ h s
  unfold Node.journalWritten
  split
  · exact .rfl
  · exact .mJrnl (.updSector .rfl)

theorem flushPages {fuel : ℕ} (h : Within l a n) (s : [.jrnl, .stor] ⊆ l := by decide) : Within l a (Node.flushPages fuel n) := by
  induction fuel generalizing n with
  | zero => exact h
  | succ fuel ih =>
    unfold Node.flushPages
    dsimp only
    exact .ite h (.ite (.openJournal h (sub_of s)) (ih (.journalWritten (.openJournal h (sub_of s)) (sub_of s))))

theorem programmed {op : FlashOp} (h : Within l a n) (s : [.jrnl, .stor, .sec] ⊆ l := by decide) : Within l a (n.programmed op) := by
  refine after ?_ h s
  unfold Node.programmed
  split
  · exact .journalWritten .rfl
  · exact .appendCk .rfl
  · exact .retryEra (.appendIdent .rfl)
  · exact .appendBank .rfl
  · exact .mSec .rfl
  · exact .foldl _ .rfl (fun _ _ => .appendCk (.rfl))
  · exact .rfl

theorem spoil {b : Bool} {fuel addr : ℕ} (h : Within l a n) (s : [.sec, .free] ⊆ l := by decide) : Within l a (Node.spoil b fuel addr n) := by
  induction fuel generalizing n addr with
  | zero => exact h
  | succ fuel ih => exact ih (.updBank (.fresh h (sub_of s)) (sub_of s))

theorem programFailed {op : FlashOp} (h : Within l a n) (s : [.jrnl, .stor, .sec, .free] ⊆ l := by decide) : Within l a (n.programFailed
    op) := by
  refine after ?_ h s
  unfold Node.programFailed
  split
  · split
    · exact .retireSector .rfl
    · exact .rfl
  · split
    · exact .flashAdd (.retireSector .rfl)
    · exact .rfl
  · split
    · exact .flashAdd (.retireSector .rfl)
    · exact .rfl
  · exact .storFlag (.tearIdent .rfl)
  · exact .updBank (.tearEntry .rfl)
  · exact .spoil (.mSec .rfl)
  · exact .rfl

theorem pickNext (h : Within l a n) (s : [.stor] ⊆ l := by decide) : Within l a n.pickNext := by
  refine after ?_ h s
  unfold Node.pickNext
  dsimp only
  exact .ite (.mStor .rfl)
    (.ite (.mStor (.ite .rfl (.openJournal .rfl)))
      (by
        split
        · exact .mStor (.ite .rfl (.openJournal .rfl))
        · split
          · exact .mStor (.ite .rfl (.openJournal .rfl))
          · exact .mStor (.ite .rfl (.openJournal .rfl))))

theorem flushAll (h : Within l a n) (s : [.jrnl, .stor] ⊆ l := by decide) : Within l a (n.flushAll) :=
  after (.iteThen (.flushPages (.mStor .rfl)) (.pickNext .rfl)) h s

theorem writeThrough (h : Within l a n) (s : [.jrnl, .stor] ⊆ l := by decide) : Within l a (n.writeThrough) :=
  after (.ite (.flushAll .rfl) .rfl) h s

theorem storeRuns {f : Node → Node} (h : Within l a n) (hf : ∀ m, Within l m (f m)) : Within l a (n.storeRuns f) :=
  ite h (h.apply hf)

theorem journalStart (h : Within l a n) (s : [.stor] ⊆ l := by decide) : Within l a n.journalStart := by
  refine after ?_ h s
  unfold Node.journalStart
  dsimp only
  exact .ite .rfl (by split; exacts [.pickNext .rfl, .ite (.iteElse (.openJournal .rfl) (.mStor .rfl)) .rfl])

theorem attemptFails {op : FlashOp} (h : Within l a n) (s : [.jrnl, .stor, .sec, .free] ⊆ l := by decide) : Within l a (n.attemptFails
    op) :=
  after (.ite (.mStor (.storFlag .rfl)) (.pickNext (.programFailed (.storFlag .rfl)))) h s

theorem programDone {ok : Bool} (h : Within l a n) (s : [.jrnl, .stor, .sec, .free] ⊆ l := by decide) : Within l a (n.programDone ok) :=
    by
  refine after ?_ h s
  unfold Node.programDone
  dsimp only
  split
  · exact .rfl
  · exact .ite .rfl
      (.ite (by split; exacts [.mStor (.programmed (.mStor .rfl)), .pickNext (.programmed (.mStor .rfl))]) (.attemptFails (.mStor .rfl)))

theorem erasedSector {k : ℕ} (h : Within l a n) (s : [.stor] ⊆ l := by decide) : Within l a (n.erasedSector k) :=
  after (.updSector .rfl) h s

theorem bankEraseStep {b : Bool} {k : ℕ} (h : Within l a n) (s : [.stor, .sec] ⊆ l := by decide) : Within l a (n.bankEraseStep b k) :=
  after
    (.ite (.mStor (.ite (.erasedSector .rfl) (.updBank .rfl))) (.pickNext (.appendBank (.ite (.erasedSector .rfl) (.updBank .rfl))))) h s

theorem eraseEnds {op : FlashOp} {ok : Bool} (h : Within l a n) (s : [.jrnl, .stor, .sec] ⊆ l := by decide) : Within l a (n.eraseEnds op
    ok) := by
  refine after ?_ h s
  unfold Node.eraseEnds
  dsimp only
  split
  · exact .ite (.bankEraseStep .rfl) (.bankEraseStep (.storFlag .rfl))
  · exact .ite (.pickNext (.erasedSector .rfl))
      (.pickNext (.ite (.retireSector .rfl) (by split; exacts [.eraseAhead (.retireSector .rfl), .retireSector .rfl])))
  · exact .ite (.pickNext (.storFlag (.mStor (.erasedSector .rfl)))) (.ite (.pickNext (.retireSector .rfl)) (.pickNext (.storFlag .rfl)))
  · exact .rfl

theorem eraseDone {blank : Bool} (h : Within l a n) (s : [.jrnl, .stor, .sec] ⊆ l := by decide) : Within l a (n.eraseDone blank) := by
  refine after ?_ h s
  unfold Node.eraseDone
  split
  · exact .rfl
  · exact .ite (.eraseEnds (.mStor .rfl)) .rfl

theorem flashTimesOut (h : Within l a n) (s : [.jrnl, .stor, .sec, .free] ⊆ l := by decide) : Within l a n.flashTimesOut := by
  refine after ?_ h s
  unfold Node.flashTimesOut
  dsimp only
  split
  · exact .rfl
  · exact .ite (.failStore (.storFlag (.mStor .rfl)))
      (.ite (.eraseEnds (.storFlag (.mStor .rfl))) (.attemptFails (.storFlag (.mStor .rfl))))

theorem reerase (h : Within l a n) (s : [.stor] ⊆ l := by decide) : Within l a (n.reerase) :=
  after (.ite (.foldl _ .rfl (fun _ _ => .addOnce .rfl)) .rfl) h s

theorem probeStore {answers : Bool} (h : Within l a n) (s : [.jrnl, .stor] ⊆ l := by decide) : Within l a (n.probeStore answers) :=
  after (.ite (.retryEra (.mJrnl (.mStor .rfl))) .rfl) h s

theorem probeCommand {answers : Bool} (h : Within l a n) (s : [.jrnl, .stor] ⊆ l := by decide) : Within l a (n.probeCommand answers) :=
  after (.ite (.probeStore (.mStor .rfl)) (.storFlag (.mStor .rfl))) h s

theorem cutSector {op : Option FlashOp} (h : Within l a n) (s : [.stor] ⊆ l := by decide) : Within l a (n.cutSector op) := by
  refine after ?_ h s
  unfold Node.cutSector
  split
  · exact .rfl
  · split
    · split
      · exact .updSector .rfl
      · exact .rfl
    · exact .ite (.updSector .rfl) .rfl
    · exact .updSector .rfl
    · exact .updSector .rfl
    · split
      · exact .tearEntry .rfl
      · exact .rfl
    · exact .tearEntry .rfl
    · exact .tearIdent .rfl
    · exact .rfl

theorem cutFlash (h : Within l a n) (s : [.stor] ⊆ l := by decide) : Within l a (n.cutFlash) :=
  after (.mStor (.cutSector (.cutSector .rfl))) h s

theorem jrnlFlag {i : ℕ} (h : Within l a n) (s : [.jrnl] ⊆ l := by decide) : Within l a (n.jrnlFlag i) :=
  after (.mJrnl .rfl) h s

theorem cursorStart {op : ℕ} (h : Within l a n) (s : [.jrnl] ⊆ l := by decide) : Within l a (n.cursorStart op) :=
  after (.ite (.jrnlFlag (.mJrnl .rfl)) (.mJrnl .rfl)) h s

theorem cursorBad (h : Within l a n) (s : [.jrnl] ⊆ l := by decide) : Within l a (n.cursorBad) :=
  after (.jrnlFlag (.mJrnl .rfl)) h s

theorem countBad {q : ℕ} (h : Within l a n) (s : [.jrnl] ⊆ l := by decide) : Within l a (n.countBad q) :=
  after (.ite (.jrnlFlag (.mJrnl .rfl)) .rfl) h s

theorem loadRecord {q asked result : ℕ} (h : Within l a n) (s : [.jrnl] ⊆ l := by decide) : Within l a (n.loadRecord q asked
    result) := by
  refine after ?_ h s
  unfold Node.loadRecord
  split
  · exact .rfl
  · exact .mJrnl .rfl

theorem cursorFind {q : ℕ} (h : Within l a n) (s : [.jrnl] ⊆ l := by decide) : Within l a (n.cursorFind q) := by
  refine after ?_ h s
  unfold Node.cursorFind
  dsimp only
  exact .ite (.mJrnl .rfl) (by split; exacts [.mJrnl (.countBad .rfl), .loadRecord (.countBad .rfl)])

theorem cursorDone (h : Within l a n) (s : [.jrnl] ⊆ l := by decide) : Within l a (n.cursorDone) :=
  after (.ite (.ite (.cursorFind (.mJrnl .rfl)) (.ite (.mJrnl (.mJrnl .rfl)) (.loadRecord (.mJrnl .rfl)))) .rfl) h s

theorem latchLo {r : LoReg} (h : Within l a n) (s : [.sys, .rtc, .lane, .jrnl, .pair] ⊆ l := by decide) : Within l a (n.latchLo r) := by
  refine after ?_ h s
  unfold Node.latchLo
  split
  · exact .mSys .rfl
  · exact .mRtc .rfl
  · exact .mLane .rfl
  · exact .mJrnl .rfl
  · exact .mJrnl .rfl
  · exact .mJrnl .rfl
  · exact .mJrnl .rfl
  · exact .mPair .rfl
  · exact .mPair .rfl

theorem ramError {q : ℕ} (h : Within l a n) (s : [.jrnl] ⊆ l := by decide) : Within l a (n.ramError q) := by
  refine after ?_ h s
  unfold Node.ramError
  dsimp only
  split
  · exact .rfl
  · exact .iteElse (.jrnlFlag (.mJrnl .rfl)) (.iteThen (.mJrnl .rfl) (.laterGap .rfl))

theorem issueGaps (h : Within l a n) (s : [.jrnl] ⊆ l := by decide) : Within l a (n.issueGaps) :=
  after (.foldl _ (.mJrnl .rfl) (fun _ _ => .issueGap (.rfl))) h s

theorem issueDue (h : Within l a n) (s : [.jrnl] ⊆ l := by decide) : Within l a (n.issueDue) :=
  after (.foldl _ (.mJrnl .rfl) (fun _ _ => .issueNow (.rfl))) h s

theorem openEra {e : ℕ} (h : Within l a n) (s : [.jrnl, .stor] ⊆ l := by decide) : Within l a (n.openEra e) :=
  after (.iteElse (.jrnlFlag .rfl) (.ite (.storFlag (.mStor .rfl)) (.flashAdd (.mStor .rfl)))) h s

theorem startNumbering {por : Bool} (h : Within l a n) (s : [.jrnl, .stor] ⊆ l := by decide) : Within l a (n.startNumbering por) := by
  refine after ?_ h s
  unfold Node.startNumbering
  dsimp only
  split
  · exact .openEra (.mJrnl .rfl)
  · exact .mJrnl .rfl

theorem issueStart (h : Within l a n) (s : [.jrnl] ⊆ l := by decide) : Within l a (n.issueStart) :=
  after (.ite (.foldl _ (.issueNow (.mJrnl .rfl)) (fun _ _ => .issueGap (.rfl))) .rfl) h s

theorem extFlag {i : ℕ} (h : Within l a n) (s : [.ext] ⊆ l := by decide) : Within l a (n.extFlag i) :=
  after (.mExt .rfl) h s

theorem setPort {p : ℕ} {v : PortSt} (h : Within l a n) (s : [.ext] ⊆ l := by decide) : Within l a (n.setPort p v) :=
  after (.mExt .rfl) h s

theorem updPort {p : ℕ} {f : PortSt → PortSt} (h : Within l a n) (s : [.ext] ⊆ l := by decide) : Within l a (n.updPort p f) :=
  after (.setPort .rfl) h s

theorem rejected {p : ℕ} (h : Within l a n) (s : [.ext] ⊆ l := by decide) : Within l a (n.rejected p) :=
  after (.extFlag (.updPort .rfl)) h s

theorem acceptedOn {p : ℕ} (h : Within l a n) (s : [.ext] ⊆ l := by decide) : Within l a (n.acceptedOn p) :=
  after (.updPort .rfl) h s

theorem clearLines (h : Within l a n) (s : [.ext] ⊆ l := by decide) : Within l a (n.clearLines) :=
  after (.foldl _ .rfl (fun _ _ => .updPort .rfl)) h s

theorem sendOn {p : ℕ} {m : NetMsg} (h : Within l a n) (s : [.ext] ⊆ l := by decide) : Within l a (n.sendOn p m) :=
  after (.updPort .rfl) h s

theorem answerOn {p : ℕ} {m : NetMsg} (h : Within l a n) (s : [.ext] ⊆ l := by decide) : Within l a (n.answerOn p m) :=
  after (.updPort .rfl) h s

theorem startSentence {p : ℕ} (h : Within l a n) (s : [.ext] ⊆ l := by decide) : Within l a (n.startSentence p) := by
  refine after ?_ h s
  unfold Node.startSentence
  dsimp only
  exact .ite .rfl (by split; exacts [.rfl, .setPort .rfl])

theorem flushPort {p : ℕ} (h : Within l a n) (s : [.ext] ⊆ l := by decide) : Within l a (n.flushPort p) :=
  after (.ite (.startSentence .rfl) (.updPort .rfl)) h s

theorem queueState {p : ℕ} {m : QMsg} (h : Within l a n) (s : [.ext] ⊆ l := by decide) : Within l a (n.queueState p m) := by
  refine after ?_ h s
  unfold Node.queueState
  dsimp only
  exact .ite (.setPort .rfl) (by split; exacts [.extFlag (.setPort .rfl), by split; exacts [.setPort .rfl, .extFlag (.setPort .rfl)]])

theorem emit {p : ℕ} {kind : QKind} {alert : ℕ} {m : NetMsg} (h : Within l a n) (s : [.ext] ⊆ l := by decide) : Within l a (n.emit p
    kind alert m) :=
  after
    (.ite (.startSentence (.ite (.queueState .rfl) (.ite (.updPort .rfl) .rfl))) (.foldl _ .rfl (fun _ _ => .ite (.sendOn .rfl) .rfl))) h s

theorem emitAlf {p : ℕ} {kind : QKind} {i : ℕ} {c : AlertCfg} (h : Within l a n) (s : [.ext] ⊆ l := by decide) : Within l a (n.emitAlf p
    kind i c) := by
  refine after ?_ h s
  unfold Node.emitAlf
  dsimp only
  exact .updPort (.emit .rfl)

theorem emitAlr {p : ℕ} {kind : QKind} {i : ℕ} {c : AlertCfg} (h : Within l a n) (s : [.ext] ⊆ l := by decide) : Within l a (n.emitAlr p
    kind i c) := by
  refine after ?_ h s
  unfold Node.emitAlr
  split
  · exact .emit .rfl
  · exact .rfl

theorem emitAlc {p : ℕ} (h : Within l a n) (s : [.ext] ⊆ l := by decide) : Within l a (n.emitAlc p) :=
  after (.foldl _ .rfl (fun _ _ => .emit .rfl)) h s

theorem emitN2k {p i : ℕ} {c : AlertCfg} {text : Bool} (h : Within l a n) (s : [.ext] ⊆ l := by decide) : Within l a (n.emitN2k p
    i c text) :=
  after (.ite .rfl (.iteThen (.sendOn .rfl) (.sendOn .rfl))) h s

theorem emitChange {p i : ℕ} {c : AlertCfg} (h : Within l a n) (s : [.ext] ⊆ l := by decide) : Within l a (n.emitChange p i c) := by
  refine after ?_ h s
  unfold Node.emitChange
  dsimp only
  split
  · exact .rfl
  · exact .ite .rfl (.ite (.emitN2k .rfl) (.ite (.iteThen (.ite (.emitAlf .rfl) .rfl) (.emitAlr .rfl)) .rfl))

theorem refreshPort {p : ℕ} (h : Within l a n) (s : [.ext] ⊆ l := by decide) : Within l a (n.refreshPort p) :=
  after
    (.ite .rfl (.iteThen (.foldl _ (.foldl _ .rfl (fun _ _ => .updPort .rfl)) (fun _ _ => .ite (.emitChange .rfl) .rfl)) (.emitAlc .rfl))) h s

theorem refreshIfRoom {p : ℕ} (h : Within l a n) (s : [.ext] ⊆ l := by decide) : Within l a (n.refreshIfRoom p) :=
  after (.ite (.refreshPort .rfl) .rfl) h s

theorem announce {i : ℕ} {c : AlertCfg} (h : Within l a n) (s : [.ext] ⊆ l := by decide) : Within l a (n.announce i c) :=
  after (.foldl _ .rfl (fun _ _ => .ite (.emitChange .rfl) .rfl)) h s

theorem takeAlert {r : Record} {i : ℕ} {c : AlertCfg} (h : Within l a n) (s : [.ext, .free] ⊆ l := by decide) : Within l a (n.takeAlert r i c) := by
  refine after ?_ h s
  unfold Node.takeAlert
  dsimp only
  split
  · exact .rfl
  · exact .ite (.announce (.mExt (.setFree .rfl))) (.mExt (.setFree .rfl))

theorem idleAlerts (h : Within l a n) (s : [.ext] ⊆ l := by decide) : Within l a n.idleAlerts := by
  refine after ?_ h s
  unfold Node.idleAlerts
  dsimp only
  exact .foldl _ .rfl (fun _ _ => by split; exacts [.rfl, .ite (.announce (.mExt .rfl)) .rfl])

theorem takeFar {r : Record} (h : Within l a n) (s : [.ext] ⊆ l := by decide) : Within l a (n.takeFar r) :=
  after (.ite (.mExt .rfl) .rfl) h s

theorem extTake {l' : List Record} (h : Within l a n) (s : [.ext, .free] ⊆ l := by decide) : Within l a (n.extTake l') :=
  after
    (.foldl _ (.foldl _ .rfl (fun _ _ => .foldl _ (.takeFar .rfl) (fun _ _ => .takeAlert .rfl)))
      (fun _ _ => .ite (.foldl _ .rfl (fun _ _ => .ite (.foldl _ .rfl (fun _ _ => .sendOn .rfl)) .rfl)) .rfl)) h s

theorem portMove {p new : ℕ} (h : Within l a n) (s : [.jrnl, .tide, .pair, .ext] ⊆ l := by decide) : Within l a (n.portMove p new)
    :=
  after (.ite .rfl (.later (.ite (.extFlag (.setPort .rfl)) (.iteThen (.setPort .rfl) (.extFlag .rfl))))) h s

theorem portReturns {p : ℕ} (h : Within l a n) (s : [.jrnl, .tide, .pair, .ext] ⊆ l := by decide) : Within l a (n.portReturns p) :=
  after (.refreshPort (.portMove .rfl)) h s

theorem claimAddr {a' : ℕ} (h : Within l a n) (s : [.ext] ⊆ l := by decide) : Within l a (n.claimAddr a') :=
  after (.answerOn (.mExt .rfl)) h s

theorem claimFirst (h : Within l a n) (s : [.ext] ⊆ l := by decide) : Within l a n.claimFirst := by
  refine after ?_ h s
  unfold Node.claimFirst
  split
  · exact .rfl
  · exact .ite (.claimAddr (.mExt .rfl)) .rfl

theorem startPorts (h : Within l a n) (s : [.jrnl, .tide, .pair, .ext] ⊆ l := by decide) : Within l a n.startPorts := by
  refine after ?_ h s
  unfold Node.startPorts
  dsimp only
  exact .foldl _ .rfl
    (fun _ _ =>
      by
        split
        · exact .portMove .rfl
        · exact .ite (.portMove .rfl) (.iteThen (.updPort (.ite (.portMove .rfl) .rfl)) (.claimFirst (.mExt .rfl))))

theorem remapPorts {old : List AlertCfg} (h : Within l a n) (s : [.jrnl, .tide, .pair, .ext] ⊆ l := by decide) : Within l a
    (n.remapPorts old) :=
  after (.startPorts (.foldl _ (.mExt .rfl) (fun _ _ => .updPort .rfl))) h s

theorem portsFollow (h : Within l a n) (s : [.jrnl, .tide, .pair, .ext] ⊆ l := by decide) : Within l a (n.portsFollow) :=
  after (.foldl _ .rfl (fun _ _ => .ite (.portMove .rfl) .rfl)) h s

theorem portsRefresh (h : Within l a n) (s : [.jrnl, .tide, .pair, .ext] ⊆ l := by decide) : Within l a (n.portsRefresh) :=
  after (.foldl _ (.claimFirst (.portsFollow .rfl)) (fun _ _ => .updPort .rfl)) h s

theorem refreshDue (h : Within l a n) (s : [.ext] ⊆ l := by decide) : Within l a (n.refreshDue) :=
  after (.foldl _ .rfl (fun _ _ => .ite (.ite (.refreshIfRoom .rfl) (.refreshPort .rfl)) .rfl)) h s

theorem portEvent {p : ℕ} {ev : PortEvent} {t : ℕ} (h : Within l a n) (s : [.jrnl, .tide, .pair, .ext] ⊆ l := by decide) : Within l a
    (n.portEvent p ev t) := by
  refine after ?_ h s
  unfold Node.portEvent
  dsimp only
  split
  · exact .rfl
  · split
    · exact .ite .rfl (.ite (.portMove (.updPort .rfl)) (.updPort .rfl))
    · exact .ite .rfl (.ite (.portReturns (.updPort .rfl)) (.updPort .rfl))
    · exact .ite (.portMove (.updPort .rfl)) .rfl

theorem busOffReturn {p : ℕ} (h : Within l a n) (s : [.rtc, .jrnl, .tide, .pair, .ext] ⊆ l := by decide) : Within l a (n.busOffReturn p)
    :=
  after (.ite (.portReturns (.setNow .rfl)) .rfl) h s

theorem extCommand {op port : ℕ} (h : Within l a n) (s : [.jrnl, .tide, .pair, .ext] ⊆ l := by decide) : Within l a (n.extCommand
    op port) :=
  after
    (.ite (.extFlag (.mExt .rfl))
      (.ite (.portMove (.mExt .rfl)) (.ite (.iteThen (.mExt .rfl) (.ite (.portMove .rfl) (.portReturns .rfl))) (.updPort (.mExt .rfl))))) h s

theorem countCmd {p : ℕ} (h : Within l a n) (s : [.ext] ⊆ l := by decide) : Within l a (n.countCmd p) :=
  after (.updPort .rfl) h s

theorem ackItem {c : AlertCfg} (h : Within l a n) (s : [.fab, .tide] ⊆ l := by decide) : Within l a (n.ackItem c) := by
  refine after ?_ h s
  unfold Node.ackItem
  split
  · exact .fabNet .rfl
  · exact .callNet .rfl

theorem takeAck {p num : ℕ} (h : Within l a n) (s : [.fab, .tide, .ext] ⊆ l := by decide) : Within l a (n.takeAck p num) := by
  refine after ?_ h s
  unfold Node.takeAck
  exact .ite (.rejected .rfl) (by split; exacts [.rejected .rfl, .ite (.ackItem (.countCmd (.acceptedOn .rfl))) (.rejected .rfl)])

theorem takeAcn {p ident inst cmd : ℕ} (h : Within l a n) (s : [.fab, .tide, .ext] ⊆ l := by decide) : Within l a
    (n.takeAcn p ident inst cmd) := by
  refine after ?_ h s
  unfold Node.takeAcn
  dsimp only
  exact .ite (.rejected .rfl)
    (by
      split
      · exact .rejected .rfl
      · exact .ite (.iteThen (.acceptedOn .rfl) (.emitAlf .rfl))
          (.ite (.ite (.emit (.acceptedOn .rfl)) (.acceptedOn .rfl))
            (.ite (.iteThen (.ackItem (.countCmd (.acceptedOn .rfl))) (.iteThen .rfl (.emit .rfl))) (.rejected .rfl))))

theorem takeDatagram {p sfi : ℕ} {l' : List RxSentence} (h : Within l a n) (s : [.fab, .tide, .ext] ⊆ l := by decide) : Within l a
    (n.takeDatagram p sfi l') := by
  refine after ?_ h s
  unfold Node.takeDatagram
  dsimp only
  exact .foldl _ .rfl (fun _ _ => .ite (.rejected .rfl) (by split; exacts [.takeAck .rfl, .takeAcn .rfl, .rejected .rfl]))

theorem takeClaim {addr name : ℕ} (h : Within l a n) (s : [.ext] ⊆ l := by decide) : Within l a (n.takeClaim addr name) := by
  refine after ?_ h s
  unfold Node.takeClaim
  split
  · exact .rfl
  · exact .ite .rfl (.ite (.answerOn .rfl) (.ite (.claimAddr (.mExt .rfl)) (.claimAddr .rfl)))

theorem isoAnswer {pgn : ℕ} (h : Within l a n) (s : [.ext] ⊆ l := by decide) : Within l a (n.isoAnswer pgn) :=
  after
    (.ite .rfl (.ite .rfl (.ite (.answerOn .rfl) (.ite .rfl (.ite (.sendOn .rfl) (.ite (.foldl _ .rfl (fun _ _ => .sendOn .rfl)) .rfl)))))) h s

theorem sendEngine {pgn : ℕ} (h : Within l a n) (s : [.ext] ⊆ l := by decide) : Within l a (n.sendEngine pgn) :=
  after (.ite (.sendOn .rfl) .rfl) h s

theorem modAnswer {p unit fn : ℕ} {r : Except ℕ (List ℕ)} (h : Within l a n) (s : [.ext] ⊆ l := by decide) : Within l a
    (n.modAnswer p unit fn r) := by
  refine after ?_ h s
  unfold Node.modAnswer
  dsimp only
  split
  · exact .iteElse (.acceptedOn .rfl) (.sendOn .rfl)
  · exact .iteElse (.rejected .rfl) (.sendOn .rfl)

theorem modReadFn {p unit fn : ℕ} {sp : ModSpace} {start cnt most : ℕ} (h : Within l a n) (s : [.ext] ⊆ l := by
    decide) : Within l a (n.modReadFn p unit fn sp start cnt most) :=
  after (.ite .rfl (.modAnswer .rfl)) h s

theorem coilCommand {p : ℕ} {m : ModbusCfg} (h : Within l a n) (s : [.fab, .tide, .ext] ⊆ l := by decide) : Within l a (n.coilCommand p
    m) := by
  refine after ?_ h s
  unfold Node.coilCommand
  dsimp only
  exact .ite (.rejected .rfl)
    (by split; exacts [.fabNet (.countCmd .rfl), .fabNet (.countCmd .rfl), .callNet (.countCmd .rfl), .countCmd .rfl])

theorem writeCoils {p unit fn start : ℕ} {vs : List Bool} {echo : List ℕ} (h : Within l a n) (s : [.fab, .tide, .ext]
    ⊆ l := by decide) : Within l a (n.writeCoils p unit fn start vs echo) := by
  refine after ?_ h s
  unfold Node.writeCoils
  exact .ite .rfl
    (.ite (.modAnswer .rfl) (by split; exacts [.modAnswer .rfl, .modAnswer (.foldl _ .rfl (fun _ _ => .ite (.coilCommand .rfl) .rfl))]))

theorem writeTunables {ws : List (ℕ × ℕ × B64)} (h : Within l a n) (s : [.fab] ⊆ l := by decide) : Within l a ((Node.writeTunables ws n).2) := by
  induction ws generalizing n with
  | nil => exact h
  | cons x r ih =>
    unfold Node.writeTunables
    dsimp only
    split_ifs
    · exact h
    · exact ih (.mFab h s)

theorem writeRegs {start : ℕ} {vs : List (BitVec 16)} (h : Within l a n) (s : [.fab] ⊆ l := by decide) : Within l a ((n.writeRegs start vs).2) := by
  refine after ?_ h s
  unfold Node.writeRegs
  split_ifs
  · exact .rfl
  · split
    · exact .rfl
    · exact .writeTunables .rfl

theorem writeRegisters {p unit start : ℕ} {vs : List (BitVec 16)} (h : Within l a n) (s : [.fab, .ext] ⊆ l := by decide) :
    Within l a (n.writeRegisters p unit start vs) :=
  after (.ite .rfl (.modAnswer (.writeRegs .rfl))) h s

theorem writeRegister {p unit a' : ℕ} (h : Within l a n) (s : [.ext] ⊆ l := by decide) : Within l a (n.writeRegister p unit
    a') :=
  after (.ite .rfl (.modAnswer .rfl)) h s

theorem readWrite {p unit rstart rn wstart : ℕ} {vs : List (BitVec 16)} (h : Within l a n) (s : [.fab, .ext] ⊆ l
    := by decide) : Within l a (n.readWrite p unit rstart rn wstart vs) :=
  after (.ite .rfl (.modAnswer (.writeRegs .rfl))) h s

theorem tcpOpen {p : ℕ} (h : Within l a n) (s : [.ext] ⊆ l := by decide) : Within l a (n.tcpOpen p) := by
  refine after ?_ h s
  unfold Node.tcpOpen
  exact .ite .rfl (by split; exacts [.answerOn (.updPort .rfl), .answerOn .rfl])

theorem replayAsk {p space first cnt : ℕ} (h : Within l a n) (s : [.ext] ⊆ l := by decide) : Within l a (n.replayAsk p
    space first cnt) :=
  after (.ite .rfl (.ite (.sendOn (.extFlag (.rejected .rfl))) (.mExt (.acceptedOn .rfl)))) h s

theorem replayNext (h : Within l a n) (s : [.ext] ⊆ l := by decide) : Within l a n.replayNext := by
  refine after ?_ h s
  unfold Node.replayNext
  dsimp only
  split
  · exact .rfl
  · exact .ite .rfl (.iteElse (.mExt .rfl) (.sendOn .rfl))

theorem sentenceEnds {p : ℕ} (h : Within l a n) (s : [.ext] ⊆ l := by decide) : Within l a (n.sentenceEnds p) :=
  after (.ite .rfl (.refreshIfRoom (.startSentence (.setPort .rfl)))) h s

theorem repeatAlf {p : ℕ} (h : Within l a n) (s : [.ext] ⊆ l := by decide) : Within l a (n.repeatAlf p) :=
  after (.ite (.foldl _ .rfl (fun _ _ => .ite (.emitAlf .rfl) .rfl)) .rfl) h s

theorem repeatAlr {p : ℕ} (h : Within l a n) (s : [.ext] ⊆ l := by decide) : Within l a (n.repeatAlr p) :=
  after (.ite (.foldl _ .rfl (fun _ _ => .ite (.emitAlr .rfl) .rfl)) .rfl) h s

theorem cycleAlc {p : ℕ} (h : Within l a n) (s : [.ext] ⊆ l := by decide) : Within l a (n.cycleAlc p) :=
  after (.ite (.emitAlc .rfl) .rfl) h s

theorem solvFlag {i : ℕ} (h : Within l a n) (s : [.solv] ⊆ l := by decide) : Within l a (n.solvFlag i) :=
  after (.mSolv .rfl) h s

theorem setTmpl {t : ℕ} {x : TmplSt} (h : Within l a n) (s : [.solv] ⊆ l := by decide) : Within l a (n.setTmpl t x) :=
  after (.mSolv .rfl) h s

theorem setJob {k : ℕ} {j : Option Job} (h : Within l a n) (s : [.solv] ⊆ l := by decide) : Within l a (n.setJob k j) :=
  after (.mSolv .rfl) h s

theorem solvRecord {t event : ℕ} {e0 : Word} (h : Within l a n) (s : [.jrnl, .tide, .pair] ⊆ l := by decide) : Within l a
    (n.solvRecord t event e0) :=
  after (.later .rfl) h s

theorem putMem {k : ℕ} {v : List B64} (h : Within l a n) (s : [.solv] ⊆ l := by decide) : Within l a (n.putMem k v) :=
  mSolv h s fun hm => twf_foldl_tset hm _ _ _

theorem setFault {t : ℕ} (h : Within l a n) (s : [.solv, .jrnl, .tide, .pair] ⊆ l := by decide) : Within l a (n.setFault t) :=
  after (.ite .rfl (.solvRecord (.mSolv (.solvFlag (.setTmpl .rfl))))) h s

theorem publishOk {j : Job} {mats : List (List B64)} (h : Within l a n) (s : [.solv, .jrnl, .tide, .pair] ⊆ l := by decide) : Within l a
    (n.publishOk j mats) :=
  after (.iteThen (.iteThen (.setTmpl .rfl) (.solvRecord (.mSolv .rfl))) (.solvRecord .rfl)) h s

theorem carryOn {j : Job} (h : Within l a n) (s : [.solv, .jrnl, .tide, .pair] ⊆ l := by decide) : Within l a (n.carryOn j) := by
  refine after ?_ h s
  unfold Node.carryOn
  dsimp only
  exact .ite (.setFault (.iteThen (.setTmpl .rfl) (.solvRecord .rfl)))
    (by split; exacts [.setTmpl .rfl, .iteElse (.solvFlag (.setTmpl .rfl)) (.solvRecord .rfl)])

theorem scheduledEnd {j : Job} {status : ℕ} {mats : List (List B64)} (h : Within l a n) (s : [.solv, .jrnl, .tide, .pair] ⊆ l := by
    decide) : Within l a (n.scheduledEnd j status mats) :=
  after (.ite .rfl (.ite (.publishOk .rfl) (.iteElse (.solvRecord .rfl) (.ite (.iteElse .rfl (.carryOn .rfl)) (.setFault .rfl))))) h s

theorem computedSet {b : ℕ} (h : Within l a n) (s : [.free] ⊆ l := by decide) : Within l a ((n.computedSet b).2) :=
  fresh h s

theorem matrixEnds {j : Job} {how : JobHow} {ran : Bool} (h : Within l a n) (s : [.free] ⊆ l := by decide) : Within l a ((n.matrixEnds j how ran).2) := by
  refine after ?_ h s
  unfold Node.matrixEnds
  dsimp only
  split
  · exact .rfl
  · split_ifs
    · exact .computedSet (b := j.b) .rfl
    · exact .rfl
  · split_ifs
    · exact .computedSet (b := j.b) .rfl
    · exact .rfl
  · exact .rfl
  · exact .rfl

theorem writeResults {j : Job} {ends : List MatEnd} (h : Within l a n) (s : [.solv] ⊆ l := by decide) : Within l a (n.writeResults j
    ends) :=
  after (.ite .rfl (.foldl _ .rfl (fun _ _ => .putMem (.putMem .rfl)))) h s

theorem pushCq {q : ℕ} {e : CqEntry} (h : Within l a n) (s : [.solv] ⊆ l := by decide) : Within l a (n.pushCq q e) :=
  mSolv h s (by
    split
    · exact id
    · exact id
    · exact id)

theorem countEnd {t status : ℕ} (h : Within l a n) (s : [.solv] ⊆ l := by decide) : Within l a (n.countEnd t status) :=
  after (.iteThen (.iteThen (.setTmpl .rfl) (.solvFlag .rfl)) (.mSolv (.solvFlag .rfl))) h s

theorem endJob {slot : ℕ} {how : JobHow} {ran : Bool} (h : Within l a n) (s : [.solv, .jrnl, .tide, .pair, .free] ⊆ l := by decide) :
    Within l a (n.endJob slot how ran) := by
  refine after ?_ h s
  unfold Node.endJob
  dsimp only
  split
  · exact .rfl
  · exact .ite (.scheduledEnd (.setJob (.iteThen (.countEnd (.mSolv (.writeResults (.matrixEnds .rfl)))) (.setTmpl .rfl))))
      (.iteThen (.pushCq (.setJob (.iteThen (.countEnd (.mSolv (.writeResults (.matrixEnds .rfl)))) (.setTmpl .rfl)))) (.solvRecord .rfl))

theorem sweepHeads {fuel t : ℕ} (h : Within l a n) (s : [.solv, .jrnl, .tide, .pair, .free] ⊆ l := by decide) : Within l a (Node.sweepHeads fuel t n) := by
  induction fuel generalizing n with
  | zero => exact h
  | succ fuel ih =>
    unfold Node.sweepHeads
    split
    · exact h
    · exact ih (.endJob h s)

theorem startNext {k : ℕ} (h : Within l a n) (s : [.solv, .jrnl, .tide, .pair, .free] ⊆ l := by decide) :
    Within l a (Node.startNext k n) := by
  induction k generalizing n with
  | zero => exact h
  | succ k ih =>
    have hs : Within l a (Node.sweepHeads 16 n.now n) := sweepHeads h s
    unfold Node.startNext
    dsimp only
    split_ifs
    · exact hs
    · split
      · exact hs
      · split_ifs
        · exact ih (.endJob hs s)
        · exact ih (.endJob (.setJob hs (sub_of s)) s)
        · exact .mSolv (.setJob hs (sub_of s)) (sub_of s)

theorem solvDrained (h : Within l a n) (s : [.pwr, .clk] ⊆ l := by decide) : Within l a (n.solvDrained) :=
  after (.ite (.ite (.setDom (.mPwr .rfl)) (.mClk (.mPwr .rfl))) .rfl) h s

theorem engine (h : Within l a n) (s : [.pwr, .clk, .solv, .jrnl, .tide, .pair, .free] ⊆ l := by decide) : Within l a (n.engine) :=
  after (.solvDrained (.startNext .rfl)) h s

theorem stopEngine (h : Within l a n) (s : [.solv] ⊆ l := by decide) : Within l a n.stopEngine := by
  refine after ?_ h s
  unfold Node.stopEngine
  split
  · exact .rfl
  · exact .mSolv .rfl

theorem takeSlot {k : ℕ} {j : Job} (h : Within l a n) (s : [.solv] ⊆ l := by decide) : Within l a (n.takeSlot k j) := by
  refine after ?_ h s
  unfold Node.takeSlot
  dsimp only
  exact .mSolv .rfl

theorem submitNow {q : ℕ} (h : Within l a n) (s : [.pwr, .clk, .solv, .jrnl, .tide, .pair, .free] ⊆ l := by decide) : Within l a
    (n.submitNow q) := by
  refine after ?_ h s
  unfold Node.submitNow
  dsimp only
  split
  · exact .engine (.mSolv (.setTmpl (.takeSlot .rfl)))
  · exact .iteThen (.solvFlag (.mSolv .rfl)) (.solvFlag .rfl)

theorem invokeOne {t : TemplateCfg} {ins : List (Option (B64 × Bool))} (h : Within l a n) (s : [.solv] ⊆ l := by decide) : Within l a
    (n.invokeOne t ins) := by
  refine after ?_ h s
  unfold Node.invokeOne
  split
  · exact .rfl
  · exact .takeSlot .rfl

theorem invokeAll {l' : List (TemplateCfg × List (Option (B64 × Bool)))} (h : Within l a n) (s : [.pwr, .clk, .solv, .jrnl, .tide,
    .pair, .free] ⊆ l := by decide) : Within l a (n.invokeAll l') :=
  after (.engine (.foldl _ .rfl (fun _ _ => .invokeOne .rfl))) h s

theorem abortOne {k : ℕ} (h : Within l a n) (s : [.solv, .jrnl, .tide, .pair, .free] ⊆ l := by decide) : Within l a (n.abortOne k) :=
  after (.endJob .rfl) h s

theorem abortAll (h : Within l a n) (s : [.solv, .jrnl, .tide, .pair, .free] ⊆ l := by decide) : Within l a (n.abortAll) :=
  after (.foldl _ .rfl (fun _ _ => .abortOne (.rfl))) h s

theorem memAdvance (h : Within l a n) (s : [.solv] ⊆ l := by decide) : Within l a (n.memAdvance) :=
  after (.mSolv .rfl) h s

theorem memStore {hi : Word} (h : Within l a n) (s : [.solv] ⊆ l := by decide) : Within l a (n.memStore hi) :=
  after (.memAdvance (.ite (.putMem (.mSolv .rfl)) (.solvFlag (.mSolv .rfl)))) h s

theorem memLatch (h : Within l a n) (s : [.solv] ⊆ l := by decide) : Within l a (n.memLatch) :=
  after (.mSolv .rfl) h s

theorem popCq {q : ℕ} (h : Within l a n) (s : [.solv] ⊆ l := by decide) : Within l a (n.popCq q) := by
  refine after ?_ h s
  unfold Node.popCq
  split
  · exact .solvFlag .rfl
  · refine .setJob (.mSolv .rfl (by decide) ?_)
    split
    · exact id
    · exact id
    · exact id

theorem jobDone (h : Within l a n) (s : [.pwr, .clk, .solv, .jrnl, .tide, .pair, .free] ⊆ l := by decide) : Within l a n.jobDone := by
  refine after ?_ h s
  unfold Node.jobDone
  split
  · exact .rfl
  · exact .engine (.endJob .rfl)

theorem expire (h : Within l a n) (s : [.pwr, .clk, .solv, .jrnl, .tide, .pair, .free] ⊆ l := by decide) : Within l a n.expire := by
  refine after ?_ h s
  unfold Node.expire
  dsimp only
  exact .engine (.sweepHeads (by split; exacts [.rfl, .endJob .rfl]))

theorem hwFault (h : Within l a n) (s : [.pwr, .clk, .solv, .jrnl, .tide, .pair, .free] ⊆ l := by decide) : Within l a n.hwFault := by
  refine after ?_ h s
  unfold Node.hwFault
  split
  · exact .rfl
  · exact .ite (.engine (.endJob .rfl)) (.ite (.engine (.endJob .rfl)) (.mSolv (.setJob .rfl)))

theorem setBank {b : ℕ} {v : DioBank} (h : Within l a n) (s : [.dio] ⊆ l := by decide) : Within l a (n.setBank b v) :=
  after (.mDio .rfl) h s

theorem setField {b : ℕ} {v : DioField} (h : Within l a n) (s : [.dio] ⊆ l := by decide) : Within l a (n.setField b v) :=
  after (.mDio .rfl) h s

theorem dioRecord {b event : ℕ} (h : Within l a n) (s : [.jrnl, .tide, .pair] ⊆ l := by decide) : Within l a (n.dioRecord b event)
    :=
  after (.later .rfl) h s

theorem pinRecord {p event : ℕ} (h : Within l a n) (s : [.jrnl, .tide, .pair] ⊆ l := by decide) : Within l a (n.pinRecord p event)
    :=
  after (.later .rfl) h s

theorem judgeFault {b : ℕ} (h : Within l a n) (s : [.dio, .jrnl, .tide, .pair] ⊆ l := by decide) : Within l a (n.judgeFault b) :=
  after (.ite .rfl (.dioRecord (.iteThen (.setBank .rfl) (.mDio .rfl)))) h s

theorem setLinkLost {b : ℕ} {v : Bool} (h : Within l a n) (s : [.dio, .jrnl, .tide, .pair] ⊆ l := by decide) : Within l a (n.setLinkLost
    b v) :=
  after (.ite .rfl (.dioRecord (.iteThen (.setBank .rfl) (.mDio .rfl)))) h s

theorem sweepDone (h : Within l a n) (s : [.dio, .jrnl, .tide, .pair] ⊆ l := by decide) : Within l a (n.sweepDone) :=
  after (.later (.setField (.mDio .rfl))) h s

theorem sweepAbort {b slot : ℕ} (h : Within l a n) (s : [.dio, .jrnl, .tide, .pair] ⊆ l := by decide) : Within l a (n.sweepAbort b
    slot) :=
  after (.ite (.sweepDone (.mDio .rfl)) .rfl) h s

theorem sweepStart {b : ℕ} (h : Within l a n) (s : [.dio] ⊆ l := by decide) : Within l a (n.sweepStart b) :=
  after (.ite (.mDio .rfl) (.ite (.mDio .rfl) (.ite (.mDio .rfl) (.mDio .rfl)))) h s

theorem sweepBegins {b : ℕ} (h : Within l a n) (s : [.dio, .jrnl, .tide, .pair] ⊆ l := by decide) : Within l a (n.sweepBegins b) :=
  after (.ite (.iteThen (.mDio .rfl) (.sweepDone .rfl)) .rfl) h s

theorem slotEnd (h : Within l a n) (s : [.dio] ⊆ l := by decide) : Within l a n.slotEnd := by
  refine after ?_ h s
  unfold Node.slotEnd
  dsimp only
  exact .ite .rfl (by split; exacts [.setField .rfl, .mDio (.setField .rfl)])

theorem sweepReply {b : ℕ} (h : Within l a n) (s : [.dio, .jrnl, .tide, .pair] ⊆ l := by decide) : Within l a (n.sweepReply b) := by
  refine after ?_ h s
  unfold Node.sweepReply
  dsimp only
  split
  · exact .rfl
  · exact .iteThen (.mDio (.setField .rfl)) (.sweepDone .rfl)

theorem selectMode {m b : ℕ} (h : Within l a n) (s : [.dio, .jrnl, .tide, .pair] ⊆ l := by decide) : Within l a (n.selectMode m b)
    :=
  after (.ite .rfl (.ite (.iteThen (.setBank (.setField .rfl)) (.dioRecord .rfl)) (.sweepAbort (.setBank (.setField .rfl))))) h s

theorem selectModes {m : ℕ} (h : Within l a n) (s : [.dio, .jrnl, .tide, .pair] ⊆ l := by decide) : Within l a (n.selectModes m) :=
  after (.foldl _ .rfl (fun _ _ => .selectMode .rfl)) h s

theorem fieldFrame {b : ℕ} {cmd : BitVec 8} {park : Bool} (h : Within l a n) (s : [.dio] ⊆ l := by decide) : Within l a (n.fieldFrame b
    cmd park) :=
  after (.ite .rfl (.setField .rfl)) h s

theorem frameOut {b : ℕ} {crcOk : Bool} (h : Within l a n) (s : [.dio, .jrnl, .tide, .pair] ⊆ l := by decide) : Within l a (n.frameOut b
    crcOk) :=
  after (.ite .rfl (.iteThen (.setBank (.ite .rfl (.judgeFault (.setLinkLost .rfl)))) (.sweepBegins (.fieldFrame .rfl)))) h s

theorem replyIn {b : ℕ} {levels vf : BitVec 8} (h : Within l a n) (s : [.dio, .jrnl, .tide, .pair] ⊆ l := by decide) :
    Within l a (n.replyIn b levels vf) :=
  after
    (.ite .rfl
      (.ite (.judgeFault (.setLinkLost .rfl))
        (.judgeFault
          (.ite (.iteThen (.mDio (.sweepReply (.mDio (.setBank (.setLinkLost .rfl))))) (.dioRecord .rfl))
            (.iteThen (.sweepReply (.mDio (.setBank (.setLinkLost .rfl)))) (.dioRecord .rfl)))))) h s

theorem onField {p : ℕ} {g : DioField → ℕ → DioField} (h : Within l a n) (s : [.dio] ⊆ l := by decide) : Within l a (n.onField p g) :=
  after (.ite (.setField .rfl) .rfl) h s

theorem dioRefused {code : ℕ} (h : Within l a n) (s : [.dio] ⊆ l := by decide) : Within l a (n.dioRefused code) :=
  after (.mDio .rfl) h s

theorem dioForce {p : ℕ} {v : Bool} (h : Within l a n) (s : [.dio, .jrnl, .tide, .pair] ⊆ l := by decide) : Within l a (n.dioForce p v) :=
  after (.ite (.dioRefused .rfl) (.ite (.dioRefused .rfl) (.pinRecord (.mDio .rfl)))) h s

theorem dioUnforce {p : ℕ} (h : Within l a n) (s : [.dio, .jrnl, .tide, .pair] ⊆ l := by decide) : Within l a (n.dioUnforce p) :=
  after (.ite (.dioRefused .rfl) (.ite (.dioRefused .rfl) (.ite (.dioRefused .rfl) (.pinRecord (.mDio .rfl))))) h s

theorem latchClear {b : ℕ} (h : Within l a n) (s : [.dio] ⊆ l := by decide) : Within l a (n.latchClear b) :=
  after (.ite (.dioRefused .rfl) (.mDio (.setField .rfl))) h s

theorem endDioForces (h : Within l a n) (s : [.dio, .jrnl, .tide, .pair] ⊆ l := by decide) : Within l a (n.endDioForces) :=
  after (.foldl _ .rfl (fun _ _ => .pinRecord (.mDio .rfl))) h s

theorem commandOutputs (h : Within l a n) (s : [.dio] ⊆ l := by decide) : Within l a (n.commandOutputs) :=
  after (.mDio .rfl) h s

theorem setLoopIn {c : ℕ} {v : LoopIn} (h : Within l a n) (s : [.loop] ⊆ l := by decide) : Within l a (n.setLoopIn c v) :=
  after (.mLoop .rfl) h s

theorem setAo {a' : ℕ} {v : AoSt} (h : Within l a n) (s : [.loop] ⊆ l := by decide) : Within l a (n.setAo a' v) :=
  after (.mLoop .rfl) h s

theorem setIsle {a' : ℕ} {v : Island} (h : Within l a n) (s : [.loop] ⊆ l := by decide) : Within l a (n.setIsle a' v) :=
  after (.mLoop .rfl) h s

theorem loopFlag {i : ℕ} (h : Within l a n) (s : [.loop] ⊆ l := by decide) : Within l a (n.loopFlag i) :=
  after (.mLoop .rfl) h s

theorem loopInRecord {c old new : ℕ} (h : Within l a n) (s : [.jrnl, .tide, .pair] ⊆ l := by decide) : Within l a
    (n.loopInRecord c old new) :=
  after (.later .rfl) h s

theorem aoRecord {a' event : ℕ} {detect : Bool} (h : Within l a n) (s : [.jrnl, .tide, .pair] ⊆ l := by decide) : Within l a
    (n.aoRecord a' event detect) :=
  after (.later .rfl) h s

theorem classify {c : ℕ} {cur : ℤ} {overrange : Bool} {ts : ℕ} (h : Within l a n) (s : [.lane, .loop, .jrnl, .tide, .pair] ⊆ l := by
    decide) : Within l a (n.classify c cur overrange ts) := by
  refine after ?_ h s
  unfold Node.classify
  dsimp only
  split
  · exact .rfl
  · exact .iteThen (.iteThen (.iteThen (.iteElse (.setLoopIn .rfl) (.mLane .rfl)) (.loopFlag .rfl)) (.loopFlag .rfl)) (.loopInRecord .rfl)

theorem commandIsland {c : IslandCfg} (h : Within l a n) (s : [.loop, .free] ⊆ l := by decide) : Within l a (n.commandIsland c) := by
  refine after ?_ h s
  unfold Node.commandIsland
  dsimp only
  split
  · exact .setAo .rfl
  · exact .ite (.ite (.setAo (.fresh .rfl)) (.setAo .rfl)) (.setAo .rfl)

theorem commandIslands (h : Within l a n) (s : [.loop, .free] ⊆ l := by decide) : Within l a (n.commandIslands) :=
  after (.foldl _ .rfl (fun _ _ => .commandIsland (.rfl))) h s

theorem islandFrame {a' : ℕ} {crcOk : Bool} (h : Within l a n) (s : [.loop, .jrnl, .tide, .pair] ⊆ l := by decide) : Within l a
    (n.islandFrame a' crcOk) := by
  refine after ?_ h s
  unfold Node.islandFrame
  dsimp only
  split
  · exact .rfl
  · exact .ite .rfl (.iteThen (.ite (.setAo .rfl) (.ite .rfl (.aoRecord (.loopFlag (.setAo .rfl))))) (.setIsle .rfl))

theorem islandReply {a' rdbk : ℕ} {low : Bool} (h : Within l a n) (s : [.loop, .jrnl, .tide, .pair] ⊆ l := by decide) : Within l a
    (n.islandReply a' rdbk low) :=
  after
    (.ite .rfl
      (.ite
        (.setAo
          (.iteElse
            (.ite (.aoRecord (.setAo (.iteThen (.iteThen (.setAo .rfl) (.aoRecord .rfl)) (.loopFlag .rfl))))
              (.iteThen (.iteThen (.iteThen (.setAo .rfl) (.aoRecord .rfl)) (.loopFlag .rfl)) (.aoRecord (.setAo .rfl))))
            (.aoRecord (.setAo .rfl))))
        (.ite
          (.ite
            (.aoRecord
              (.setAo
                (.iteElse
                  (.ite (.aoRecord (.setAo (.iteThen (.iteThen (.setAo .rfl) (.aoRecord .rfl)) (.loopFlag .rfl))))
                    (.iteThen (.iteThen (.iteThen (.setAo .rfl) (.aoRecord .rfl)) (.loopFlag .rfl)) (.aoRecord (.setAo .rfl))))
                  (.aoRecord (.setAo .rfl)))))
            (.setAo
              (.iteElse
                (.ite (.aoRecord (.setAo (.iteThen (.iteThen (.setAo .rfl) (.aoRecord .rfl)) (.loopFlag .rfl))))
                  (.iteThen (.iteThen (.iteThen (.setAo .rfl) (.aoRecord .rfl)) (.loopFlag .rfl)) (.aoRecord (.setAo .rfl))))
                (.aoRecord (.setAo .rfl)))))
          (.ite
            (.aoRecord
              (.loopFlag
                (.setAo
                  (.iteElse
                    (.ite (.aoRecord (.setAo (.iteThen (.iteThen (.setAo .rfl) (.aoRecord .rfl)) (.loopFlag .rfl))))
                      (.iteThen (.iteThen (.iteThen (.setAo .rfl) (.aoRecord .rfl)) (.loopFlag .rfl)) (.aoRecord (.setAo .rfl))))
                    (.aoRecord (.setAo .rfl))))))
            (.setAo
              (.iteElse
                (.ite (.aoRecord (.setAo (.iteThen (.iteThen (.setAo .rfl) (.aoRecord .rfl)) (.loopFlag .rfl))))
                  (.iteThen (.iteThen (.iteThen (.setAo .rfl) (.aoRecord .rfl)) (.loopFlag .rfl)) (.aoRecord (.setAo .rfl))))
                (.aoRecord (.setAo .rfl)))))))) h s

theorem loopRefused {code : ℕ} (h : Within l a n) (s : [.loop] ⊆ l := by decide) : Within l a (n.loopRefused code) :=
  after (.loopFlag (.mLoop .rfl)) h s

theorem loopOk (h : Within l a n) (s : [.loop] ⊆ l := by decide) : Within l a (n.loopOk) :=
  after (.mLoop .rfl) h s

theorem forceIsland {a' cur : ℕ} (h : Within l a n) (s : [.loop, .jrnl, .tide, .pair] ⊆ l := by decide) : Within l a
    (n.forceIsland a' cur) :=
  after (.ite (.loopRefused .rfl) (.ite (.loopRefused .rfl) (.ite (.loopRefused .rfl) (.aoRecord (.loopOk (.setAo .rfl)))))) h s

theorem releaseIsland {a' : ℕ} (h : Within l a n) (s : [.loop, .jrnl, .tide, .pair] ⊆ l := by decide) : Within l a (n.releaseIsland a') :=
  after (.ite (.loopRefused .rfl) (.ite (.loopRefused .rfl) (.ite (.loopRefused .rfl) (.aoRecord (.loopOk (.setAo .rfl)))))) h s

theorem endAoForces (h : Within l a n) (s : [.loop, .jrnl, .tide, .pair] ⊆ l := by decide) : Within l a (n.endAoForces) :=
  after (.foldl _ .rfl (fun _ _ => .ite (.aoRecord (.setAo .rfl)) .rfl)) h s

theorem parkIslands (h : Within l a n) (s : [.loop] ⊆ l := by decide) : Within l a n.parkIslands := by
  refine after ?_ h s
  unfold Node.parkIslands
  dsimp only
  exact .mLoop (.ite (.foldl _ .rfl (fun _ _ => .setIsle (.setAo .rfl))) .rfl)

theorem setLane {l' : ℕ} {v : LaneSt} (h : Within l a n) (s : [.lane] ⊆ l := by decide) : Within l a (n.setLane l' v) :=
  after (.mLane .rfl) h s

theorem updLane {l' : ℕ} {f : LaneSt → LaneSt} (h : Within l a n) (s : [.lane] ⊆ l := by decide) : Within l a (n.updLane l' f) :=
  after (.setLane .rfl) h s

theorem setLaneCh {c : ℕ} {v : LaneCh} (h : Within l a n) (s : [.lane] ⊆ l := by decide) : Within l a (n.setLaneCh c v) :=
  after (.mLane .rfl) h s

theorem laneRecord {l' event t : ℕ} (h : Within l a n) (s : [.jrnl, .tide, .pair] ⊆ l := by decide) : Within l a
    (n.laneRecord l' event t) :=
  after (.later .rfl) h s

theorem laneRecordSync {l' event : ℕ} (h : Within l a n) (s : [.jrnl, .tide, .pair] ⊆ l := by decide) : Within l a
    (n.laneRecordSync l' event) :=
  after (.laneRecord .rfl) h s

theorem syncCause {l' : ℕ} (h : Within l a n) (s : [.lane] ⊆ l := by decide) : Within l a (n.syncCause l') :=
  after (.ite (.updLane .rfl) .rfl) h s

theorem syncCauses (h : Within l a n) (s : [.lane] ⊆ l := by decide) : Within l a (n.syncCauses) :=
  after (.foldl _ .rfl (fun _ _ => .syncCause (.rfl))) h s

theorem syncsReleased (h : Within l a n) (s : [.lane] ⊆ l := by decide) : Within l a (n.syncsReleased) :=
  after (.foldl _ .rfl (fun _ _ => .ite (.syncCause .rfl) .rfl)) h s

theorem relock (h : Within l a n) (s : [.lane] ⊆ l := by decide) : Within l a (n.relock) :=
  after (.ite .rfl (.foldl _ .rfl (fun _ _ => .ite (.syncCause .rfl) .rfl))) h s

theorem convert {l' : ℕ} {i : InputCfg} (h : Within l a n) (s : [.lane] ⊆ l := by decide) : Within l a (n.convert l' i) := by
  refine after ?_ h s
  unfold Node.convert
  dsimp only
  exact .updLane .rfl

theorem stopChain {l' : ℕ} (h : Within l a n) (s : [.lane] ⊆ l := by decide) : Within l a (n.stopChain l') :=
  after (.ite (.updLane .rfl) .rfl) h s

theorem haltChain {l' : ℕ} (h : Within l a n) (s : [.lane] ⊆ l := by decide) : Within l a (n.haltChain l') :=
  after (.updLane .rfl) h s

theorem haltIdle (h : Within l a n) (s : [.lane] ⊆ l := by decide) : Within l a (n.haltIdle) :=
  after (.foldl _ .rfl (fun _ _ => .ite .rfl (.haltChain .rfl))) h s

theorem resetChannel {c : ℕ} (h : Within l a n) (s : [.lane] ⊆ l := by decide) : Within l a (n.resetChannel c) :=
  after (.setLaneCh .rfl) h s

theorem takenOff {c : ℕ} (h : Within l a n) (s : [.afe] ⊆ l := by decide) : Within l a (n.takenOff c) :=
  after (.mAfe .rfl) h s

theorem laneReset {l' t : ℕ} (h : Within l a n) (s : [.afe, .lane] ⊆ l := by decide) : Within l a (n.laneReset l' t) := by
  refine after ?_ h s
  unfold Node.laneReset
  dsimp only
  exact .ite (.updLane .rfl)
    (by
      split
      · exact .foldl _ (.updLane .rfl) (fun _ _ => .resetChannel (.rfl))
      · exact .ite (.takenOff (.foldl _ (.updLane .rfl) (fun _ _ => .resetChannel (.rfl))))
          (.convert (.foldl _ (.updLane .rfl) (fun _ _ => .resetChannel (.rfl)))))

theorem fifoResult {l' c : ℕ} {r : LaneRes} (h : Within l a n) (s : [.lane] ⊆ l := by decide) : Within l a (n.fifoResult l' c r) :=
  after (.ite (.setLaneCh (.mLane (.setLane .rfl))) (.setLaneCh (.setLane .rfl))) h s

theorem visitEnds {l' : ℕ} (h : Within l a n) (s : [.lane] ⊆ l := by decide) : Within l a (n.visitEnds l') :=
  after (.ite (.updLane .rfl) .rfl) h s

theorem registerResult {l' c : ℕ} {r : LaneRes} (h : Within l a n) (s : [.lane] ⊆ l := by decide) : Within l a (n.registerResult
    l' c r) :=
  after (.setLaneCh (.visitEnds (.setLane .rfl))) h s

theorem engineer4 {i : InputCfg} {m : ℤ} {overrange : Bool} {ts : ℕ} (h : Within l a n) (s : [.lane, .loop, .jrnl, .tide, .pair] ⊆ l :=
    by decide) : Within l a (n.engineer4 i m overrange ts) :=
  after (.ite (.classify .rfl) (.setLaneCh .rfl)) h s

theorem publish {l' : ℕ} {lc : LaneCfg} {i : InputCfg} {raw : ℤ} {overrange : Bool} {t : ℕ} (h : Within l a n) (s : [.afe, .lane, .loop,
    .jrnl, .tide, .pair] ⊆ l := by decide) : Within l a (n.publish l' lc i raw overrange t) :=
  after (.iteElse (.engineer4 (.fifoResult (.registerResult (.setLaneCh .rfl)))) (.mAfe .rfl)) h s

theorem parityError {l' t : ℕ} (h : Within l a n) (s : [.lane, .jrnl, .tide, .pair] ⊆ l := by decide) : Within l a (n.parityError
    l' t) :=
  after (.iteElse (.laneRecordSync (.syncCause (.mLane (.setLane .rfl)))) (.laneRecordSync (.updLane (.haltChain .rfl)))) h s

theorem outputLost {l' c : ℕ} (h : Within l a n) (s : [.lane] ⊆ l := by decide) : Within l a (n.outputLost l' c) :=
  after (.visitEnds (.setLaneCh .rfl)) h s

theorem takeCode {l' : ℕ} {i : InputCfg} (h : Within l a n) (s : [.lane] ⊆ l := by decide) : Within l a (n.takeCode l' i) :=
  after (.ite (.syncCause (.updLane .rfl)) .rfl) h s

theorem output {l' : ℕ} {raw : ℤ} {overrange parity : Bool} {t : ℕ} (h : Within l a n) (s : [.rtc, .afe, .lane, .loop, .jrnl,
    .tide, .pair] ⊆ l := by decide) : Within l a (n.output l' raw overrange parity t) := by
  refine after ?_ h s
  unfold Node.output
  dsimp only
  exact .ite (.setNow .rfl)
    (by
      split
      · exact .takeCode
          (.iteThen (.ite (.updLane (.setNow .rfl)) (.ite (.outputLost (.setNow .rfl)) (.publish (.setNow .rfl)))) (.parityError .rfl))
      · exact .setNow .rfl)

theorem laneOk (h : Within l a n) (s : [.lane] ⊆ l := by decide) : Within l a (n.laneOk) :=
  after (.mLane .rfl) h s

theorem laneRefused {code : ℕ} (h : Within l a n) (s : [.lane] ⊆ l := by decide) : Within l a (n.laneRefused code) :=
  after (.mLane .rfl) h s

theorem laneResync {l' : ℕ} (h : Within l a n) (s : [.lane] ⊆ l := by decide) : Within l a (n.laneResync l') :=
  after (.ite (.laneRefused .rfl) (.ite (.laneRefused .rfl) (.laneOk (.syncCause .rfl)))) h s

theorem laneFlush {l' : ℕ} (h : Within l a n) (s : [.lane] ⊆ l := by decide) : Within l a (n.laneFlush l') :=
  after (.ite (.laneRefused .rfl) (.laneOk (.updLane .rfl))) h s

theorem laneSuspend {l' : ℕ} (h : Within l a n) (s : [.lane, .jrnl, .tide, .pair] ⊆ l := by decide) : Within l a (n.laneSuspend l') :=
  after (.ite (.laneRefused .rfl) (.ite (.laneRefused .rfl) (.ite (.laneRefused .rfl) (.laneOk (.laneRecordSync (.updLane .rfl)))))) h s

theorem laneStops {l' : ℕ} (h : Within l a n) (s : [.rtc, .lane] ⊆ l := by decide) : Within l a (n.laneStops l') := by
  refine after ?_ h s
  unfold Node.laneStops
  split
  · exact .rfl
  · exact .updLane (.haltChain (.setNow .rfl))

theorem laneResume {l' : ℕ} (h : Within l a n) (s : [.lane, .jrnl, .tide, .pair] ⊆ l := by decide) : Within l a (n.laneResume l') :=
  after
    (.ite (.laneRefused .rfl)
      (.ite (.laneRefused .rfl) (.ite (.laneRefused .rfl) (.laneOk (.laneRecordSync (.syncCause (.setLane .rfl))))))) h s

theorem syncAt {l' t : ℕ} (h : Within l a n) (s : [.rtc, .afe, .lane] ⊆ l := by decide) : Within l a (n.syncAt l' t) :=
  after (.ite (.laneReset (.setNow .rfl)) (.setNow .rfl)) h s

theorem laneSync {lanes : BitVec 8} {ring : Bool} (h : Within l a n) (s : [.lane, .tide] ⊆ l := by decide) : Within l a (n.laneSync
    lanes ring) :=
  after (.ite (.mLane .rfl) (.ite (.mLane .rfl) (.mLane (.ite (.sendFrame .rfl) .rfl)))) h s

theorem syncsDue {t : ℕ} (h : Within l a n) (s : [.afe, .lane, .jrnl, .tide, .pair] ⊆ l := by decide) : Within l a (n.syncsDue t) :=
  after (.foldl _ (.mLane .rfl) (fun _ _ => .ite (.laneRecord (.ite (.syncCause .rfl) (.laneReset .rfl))) .rfl)) h s

theorem setAfeCh {c : ℕ} {v : AfeCh} (h : Within l a n) (s : [.afe] ⊆ l := by decide) : Within l a (n.setAfeCh c v) :=
  after (.mAfe .rfl) h s

theorem setAfeExc {c : ℕ} {v : AfeExc} (h : Within l a n) (s : [.afe] ⊆ l := by decide) : Within l a (n.setAfeExc c v) :=
  after (.mAfe .rfl) h s

theorem afeFlag {i : ℕ} (h : Within l a n) (s : [.afe] ⊆ l := by decide) : Within l a (n.afeFlag i) :=
  after (.mAfe .rfl) h s

theorem afeRecord {source event : ℕ} {detect : Bool} {status : Word} (h : Within l a n) (s : [.jrnl, .tide, .pair] ⊆ l := by
    decide) : Within l a (n.afeRecord source event detect status) :=
  after (.later .rfl) h s

theorem sourceAfter {l' : ℕ} {i : InputCfg} {heavy : Bool} (h : Within l a n) (s : [.lane] ⊆ l := by decide) : Within l a (n.sourceAfter
    l' i heavy) :=
  after (.updLane .rfl) h s

theorem judgeVisit {l' : ℕ} {i : InputCfg} {r : VisitReport} (h : Within l a n) (s : [.afe, .lane, .jrnl, .tide, .pair] ⊆ l := by
    decide) : Within l a (n.judgeVisit l' i r) :=
  after
    (.iteElse
      (.iteElse
        (.ite (.afeRecord (.afeFlag (.mAfe (.sourceAfter (.setAfeExc .rfl)))))
          (.iteThen (.sourceAfter (.setAfeExc .rfl)) (.afeRecord (.mAfe .rfl))))
        (.afeRecord .rfl))
      (.afeRecord .rfl)) h s

theorem reported {l' : ℕ} {i : InputCfg} {r : VisitReport} (h : Within l a n) (s : [.afe, .lane, .jrnl, .tide, .pair] ⊆ l := by decide)
    : Within l a (n.reported l' i r) :=
  after (.ite (.judgeVisit .rfl) .rfl) h s

theorem visit {l' slot : ℕ} {r : VisitReport} (h : Within l a n) (s : [.afe, .lane, .jrnl, .tide, .pair] ⊆ l := by decide) :
    Within l a (n.visit l' slot r) := by
  refine after ?_ h s
  unfold Node.visit
  dsimp only
  split
  · exact .rfl
  · exact .ite .rfl
      (by
        split
        · exact .rfl
        · exact .ite (.reported .rfl)
            (.ite (.setLaneCh (.takenOff (.setLane .rfl))) (.reported (.convert (.updLane (.ite (.resetChannel (.updLane .rfl)) .rfl))))))

theorem setCj {k : ℕ} {v : CjSt} (h : Within l a n) (s : [.afe] ⊆ l := by decide) : Within l a (n.setCj k v) :=
  after (.mAfe .rfl) h s

theorem noteCj (h : Within l a n) (s : [.afe] ⊆ l := by decide) : Within l a (n.noteCj) :=
  after (.foldl _ .rfl (fun _ _ => .ite .rfl (.setCj .rfl))) h s

theorem readCj {k : ℕ} {x : ℤ} (h : Within l a n) (s : [.afe, .jrnl, .tide, .pair] ⊆ l := by decide) : Within l a (n.readCj k x) :=
  after (.ite (.noteCj (.iteThen (.setCj .rfl) (.afeRecord .rfl))) (.noteCj (.iteElse (.setCj .rfl) (.afeRecord (.afeFlag .rfl))))) h s

theorem tickCheck {i : InputCfg} (h : Within l a n) (s : [.afe] ⊆ l := by decide) : Within l a (n.tickCheck i) :=
  after (.setAfeCh .rfl) h s

theorem startCheck {gap : Bool} (h : Within l a n) (s : [.afe] ⊆ l := by decide) : Within l a (n.startCheck gap) := by
  refine after ?_ h s
  unfold Node.startCheck
  dsimp only
  exact .ite .rfl (by split; exacts [.rfl, .iteThen (.mAfe .rfl) (.afeFlag .rfl)])

theorem rejoin {i : InputCfg} (h : Within l a n) (s : [.afe, .lane] ⊆ l := by decide) : Within l a (n.rejoin i) :=
  after (.ite .rfl (.ite (.syncCause (.setAfeCh .rfl)) (.setLaneCh (.setAfeCh .rfl)))) h s

theorem abandonCheck (h : Within l a n) (s : [.afe, .lane] ⊆ l := by decide) : Within l a n.abandonCheck := by
  refine after ?_ h s
  unfold Node.abandonCheck
  dsimp only
  exact .foldl _ (by split; exacts [.rfl, .mAfe (.setAfeCh .rfl)]) (fun _ _ => .rejoin (.rfl))

theorem endCheck {z : ImpReading} (h : Within l a n) (s : [.afe, .lane] ⊆ l := by decide) : Within l a (n.endCheck z) := by
  refine after ?_ h s
  unfold Node.endCheck
  dsimp only
  split
  · exact .rfl
  · split
    · exact .mAfe .rfl
    · exact .rejoin (.setAfeCh (.mAfe .rfl))

theorem takeOffLane {c : ℕ} (h : Within l a n) (s : [.afe, .lane] ⊆ l := by decide) : Within l a (n.takeOffLane c) := by
  refine after ?_ h s
  unfold Node.takeOffLane
  dsimp only
  split
  · exact .rfl
  · exact .ite (.ite (.stopChain (.setAfeCh .rfl)) (.iteThen (.setAfeCh .rfl) (.outputLost .rfl))) .rfl

theorem impResult {code : ℕ} (h : Within l a n) (s : [.afe] ⊆ l := by decide) : Within l a (n.impResult code) :=
  after (.iteElse (.mAfe .rfl) (.afeFlag .rfl)) h s

theorem checkNow {c : ℕ} (h : Within l a n) (s : [.afe] ⊆ l := by decide) : Within l a (n.checkNow c) :=
  after (.ite (.impResult .rfl) (.ite (.impResult .rfl) (.ite (.impResult .rfl) (.impResult (.setAfeCh .rfl))))) h s

theorem rebase {c : ℕ} (h : Within l a n) (s : [.afe] ⊆ l := by decide) : Within l a (n.rebase c) :=
  after (.ite (.impResult .rfl) (.ite (.impResult .rfl) (.impResult (.setAfeCh .rfl)))) h s

theorem imuTest {pass : Bool} (h : Within l a n) (s : [.afe, .lane, .jrnl, .tide, .pair] ⊆ l := by decide) : Within l a (n.imuTest pass)
    :=
  after (.ite (.ite (.afeRecord (.mAfe .rfl)) .rfl) (.ite .rfl (.afeRecord (.afeFlag (.mAfe (.abandonCheck .rfl)))))) h s

theorem applyCode {i : InputCfg} {e : AfeExc} (h : Within l a n) (s : [.afe] ⊆ l := by decide) : Within l a (n.applyCode i e) :=
  after (.setAfeExc .rfl) h s

theorem pinnedChange {c : ℕ} {old : AfeExc} (h : Within l a n) (s : [.jrnl, .tide, .pair] ⊆ l := by decide) : Within l a (n.pinnedChange
    c old) :=
  after (.ite (.afeRecord .rfl) .rfl) h s

theorem excStep {c : ℕ} (h : Within l a n) (s : [.afe, .jrnl, .tide, .pair] ⊆ l := by decide) : Within l a (n.excStep c) := by
  refine after ?_ h s
  unfold Node.excStep
  dsimp only
  split
  · exact .rfl
  · exact .ite .rfl (.pinnedChange (.applyCode .rfl))

theorem writeExc {c : ℕ} {w : Word} (h : Within l a n) (s : [.afe] ⊆ l := by decide) : Within l a (n.writeExc c w) :=
  after (.ite (.setAfeExc (.mAfe .rfl)) (.afeFlag (.mAfe .rfl))) h s

theorem applyExc {c : ℕ} (h : Within l a n) (s : [.afe, .jrnl, .tide, .pair] ⊆ l := by decide) : Within l a (n.applyExc c) := by
  refine after ?_ h s
  unfold Node.applyExc
  dsimp only
  split
  · exact .pinnedChange (.stepOne (.applyCode .rfl))
  · exact .rfl

theorem closeResults (h : Within l a n) (s : [.afe] ⊆ l := by decide) : Within l a (n.closeResults) :=
  after (.foldl _ .rfl (fun _ _ => .setAfeExc .rfl)) h s

theorem baselineEntries (h : Within l a n) (s : [.afe, .stor] ⊆ l := by decide) : Within l a (n.baselineEntries) :=
  after (.foldl _ .rfl (fun _ _ => .ite (.ckpt (.ckpt (.setAfeCh .rfl))) .rfl)) h s

theorem initExc {i : InputCfg} (h : Within l a n) (s : [.afe, .free] ⊆ l := by decide) : Within l a (n.initExc i) :=
  after (.ite (.setAfeExc (.fresh .rfl)) (.setAfeExc (.fresh .rfl))) h s

theorem closeShunts (h : Within l a n) (s : [.afe] ⊆ l := by decide) : Within l a (n.closeShunts) :=
  after (.mAfe .rfl) h s

theorem testSwitches (h : Within l a n) (s : [.afe, .jrnl, .tide, .pair, .free] ⊆ l := by decide) : Within l a n.testSwitches := by
  refine after ?_ h s
  unfold Node.testSwitches
  dsimp only
  exact .foldl _ (.closeShunts .rfl) (fun _ _ => .ite (.mAfe (.setFree .rfl)) (.afeRecord (.mAfe (.setFree .rfl))))

theorem startCells (h : Within l a n) (s : [.fab] ⊆ l := by decide) : Within l a (n.startCells) :=
  after (.mFab .rfl) h s

theorem startCalls (h : Within l a n) (s : [.call] ⊆ l := by decide) : Within l a n.startCalls := by
  refine after ?_ h s
  unfold Node.startCalls
  exact .mCall .rfl

theorem startFabric (h : Within l a n) (s : [.fab, .call] ⊆ l := by decide) : Within l a (n.startFabric) :=
  after (.startCalls (.startCells .rfl)) h s

theorem startBaselines (h : Within l a n) (s : [.afe] ⊆ l := by decide) : Within l a n.startBaselines := by
  refine after ?_ h s
  unfold Node.startBaselines
  dsimp only
  exact .foldl _ .rfl (fun _ _ => by split; exacts [.ite .rfl (.setAfeCh .rfl), .rfl])

theorem settleTrust (h : Within l a n) (s : [.rtc, .jrnl, .tide, .pair] ⊆ l := by decide) : Within l a (n.settleTrust) :=
  after (.ite .rfl (.later (.mRtc .rfl))) h s

theorem reachTracking (h : Within l a n) (s : [.rtc, .jrnl, .tide, .pair] ⊆ l := by decide) : Within l a (n.reachTracking) :=
  after (.settleTrust (.ite (.mRtc .rfl) .rfl)) h s

theorem retrim (h : Within l a n) (s : [.rtc, .free] ⊆ l := by decide) : Within l a n.retrim := by
  refine after ?_ h s
  unfold Node.retrim
  exact .mRtc (.fresh .rfl)

theorem correct {d : ℤ} (h : Within l a n) (s : [.rtc, .jrnl, .tide, .pair] ⊆ l := by decide) : Within l a (n.correct d) :=
  after
    (.reachTracking (.ite (.retime .rfl) (.ite (.retime .rfl) (.ite (.retime .rfl) (.ite (.retime .rfl) (.mRtc (.retime .rfl))))))) h s

theorem setRtc {t : ℕ} (h : Within l a n) (s : [.rtc] ⊆ l := by decide) : Within l a (n.setRtc t) :=
  after (.mRtc .rfl) h s

theorem loadRtc (h : Within l a n) (s : [.rtc] ⊆ l := by decide) : Within l a (n.loadRtc) :=
  after (.setRtc .rfl) h s

theorem loadNow (h : Within l a n) (s : [.rtc] ⊆ l := by decide) : Within l a (n.loadNow) :=
  after (.retime .rfl) h s

theorem reloadRtc (h : Within l a n) (s : [.rtc] ⊆ l := by decide) : Within l a (n.reloadRtc) :=
  after (.setRtc .rfl) h s

theorem haltSet (h : Within l a n) (s : [.rtc] ⊆ l := by decide) : Within l a (n.haltSet) :=
  after (.mRtc (.rtcHold .rfl)) h s

theorem haltClear (h : Within l a n) (s : [.rtc, .jrnl, .tide, .pair] ⊆ l := by decide) : Within l a (n.haltClear) :=
  after (.ite .rfl (.ite (.reloadRtc (.mRtc .rfl)) (.correct (.mRtc (.mRtc .rfl))))) h s

theorem haltTimeout (h : Within l a n) (s : [.rtc] ⊆ l := by decide) : Within l a (n.haltTimeout) :=
  after (.ite (.reloadRtc (.mRtc .rfl)) .rfl) h s

theorem leapWrite {v : ℕ} (h : Within l a n) (s : [.rtc] ⊆ l := by decide) : Within l a (n.leapWrite v) :=
  after (.ite (.mRtc .rfl) .rfl) h s

theorem leapApply (h : Within l a n) (s : [.rtc, .jrnl, .tide, .pair, .stor] ⊆ l := by decide) : Within l a n.leapApply := by
  refine after ?_ h s
  unfold Node.leapApply
  dsimp only
  split
  · exact .rfl
  · exact .stepOne (.flashAdd (.mRtc .rfl))

theorem stepSyncs (h : Within l a n) (s : [.lane] ⊆ l := by decide) : Within l a (n.stepSyncs) :=
  after (.foldl _ .rfl (fun _ _ => .ite (.updLane .rfl) .rfl)) h s

theorem timeStep (h : Within l a n) (s : [.pwr, .rtc, .lane, .solv, .jrnl, .tide, .pair, .sec] ⊆ l := by decide) : Within l a
    n.timeStep := by
  refine after ?_ h s
  unfold Node.timeStep
  dsimp only
  split
  · exact .rfl
  · exact .correct (.stepSyncs (.stepOne (.mSolv (.mPwr (.mSec (.retime (.setNow .rfl)))))))

theorem slewEnd (h : Within l a n) (s : [.rtc, .lane, .jrnl, .tide, .pair] ⊆ l := by decide) : Within l a (n.slewEnd) :=
  after (.ite .rfl (.ite (.reachTracking (.retime .rfl)) (.relock (.correct (.mRtc .rfl))))) h s

theorem noReference (h : Within l a n) (s : [.rtc, .jrnl, .tide, .pair] ⊆ l := by decide) : Within l a (n.noReference) :=
  after (.settleTrust (.mRtc .rfl)) h s

theorem timeFrom {d : ℤ} {f : TimeFrame} (h : Within l a n) (s : [.rtc, .jrnl, .tide, .pair, .free] ⊆ l := by decide) : Within l a
    (n.timeFrom d f) :=
  after (.ite (.settleTrust (.retime (.mRtc .rfl))) (.iteElse (.mRtc .rfl) (.ite (.retrim (.correct .rfl)) (.correct .rfl)))) h s

theorem pairFlag {i : ℕ} (h : Within l a n) (s : [.pair] ⊆ l := by decide) : Within l a (n.pairFlag i) :=
  after (.mPair .rfl) h s

theorem loadPoints {l' : List Byte} {o : ℕ} (h : Within l a n) (s : [.fab] ⊆ l := by decide) : Within l a (n.loadPoints l' o) :=
  after (.foldl _ .rfl (fun _ _ => .setPoint .rfl)) h s

theorem loadGroups {l' : List Byte} {o : ℕ} (h : Within l a n) (s : [.fab] ⊆ l := by decide) : Within l a (n.loadGroups l' o) :=
  after (.foldl _ .rfl (fun _ _ => .setGrp .rfl)) h s

theorem loadLadders {l' : List Byte} {o : ℕ} (h : Within l a n) (s : [.call] ⊆ l := by decide) : Within l a (n.loadLadders l' o) :=
  after (.foldl _ .rfl (fun _ _ => .setLadder .rfl)) h s

theorem loadTunes {l' : List Byte} {o : ℕ} (h : Within l a n) (s : [.fab] ⊆ l := by decide) : Within l a (n.loadTunes l' o) :=
  after (.foldl _ (.mFab .rfl) (fun _ _ => .mFab .rfl)) h s

theorem loadTmpls {l' : List Byte} {o tick : ℕ} (h : Within l a n) (s : [.solv] ⊆ l := by decide) : Within l a (n.loadTmpls l' o tick) := by
  refine after ?_ h s
  unfold Node.loadTmpls
  refine foldl_pair (l := [.solv]) (·.1) (fun p t => ?_) _ (n, o)
  dsimp only
  exact .mSolv .rfl

theorem loadState {l' : List Byte} (h : Within l a n) (s : [.fab, .call, .solv] ⊆ l := by decide) : Within l a (n.loadState l') := by
  refine after ?_ h s
  unfold Node.loadState
  dsimp only
  exact .mFab (.loadTmpls (.loadTunes (.loadLadders (.loadGroups (.loadPoints (.mFab (.mCall .rfl)))))))

theorem sendCopy {final handover : Bool} (h : Within l a n) (s : [.tide, .pair] ⊆ l := by decide) : Within l a (n.sendCopy
    final handover) := by
  refine after ?_ h s
  unfold Node.sendCopy
  dsimp only
  split
  · exact .rfl
  · exact .mPair (.sendFrame (.foldl _ .rfl (fun _ _ => .sendFrame .rfl)))

theorem copyEnds (h : Within l a n) (s : [.pwr, .tide, .pair] ⊆ l := by decide) : Within l a (n.copyEnds) :=
  after (.ite (.sendCopy (.mPair .rfl)) (.mPwr .rfl)) h s

theorem copyMissed (h : Within l a n) (s : [.pwr, .tide, .pair] ⊆ l := by decide) : Within l a (n.copyMissed) :=
  after (.ite .rfl (.copyEnds (.pairFlag (.mPair (.mTide .rfl))))) h s

theorem boundaryCopy (h : Within l a n) (s : [.pwr, .tide, .pair] ⊆ l := by decide) : Within l a n.boundaryCopy := by
  refine after ?_ h s
  unfold Node.boundaryCopy
  dsimp only
  exact .mPair (.iteThen (.copyMissed .rfl) (.sendCopy .rfl))

theorem copyAck {result tag : ℕ} {confirm : BitVec 32} (h : Within l a n) (s : [.pwr, .tide, .pair, .sec] ⊆ l := by decide) :
    Within l a (n.copyAck result tag confirm) := by
  refine after ?_ h s
  unfold Node.copyAck
  dsimp only
  split
  · split
    · exact .rfl
    · exact .ite (.mSec .rfl) .rfl
  · exact .iteElse (by split; exacts [.rfl, .ite (.mSec .rfl) .rfl]) (.ite (.copyMissed .rfl) (.copyEnds (.mPair .rfl)))

theorem sendAck {result tag : ℕ} (h : Within l a n) (s : [.tide, .sec] ⊆ l := by decide) : Within l a (n.sendAck result tag) := by
  refine after ?_ h s
  unfold Node.sendAck
  dsimp only
  split
  · exact .rfl
  · exact .mSec (.sendFrame .rfl)

theorem takeChunk {tag idx : ℕ} {bytes : List Byte} (h : Within l a n) (s : [.pair] ⊆ l := by decide) : Within l a (n.takeChunk
    tag idx bytes) :=
  after (.ite (.mPair .rfl) .rfl) h s

theorem commitEntries {m : Node} (h : Within l a n) (s : [.stor] ⊆ l := by decide) : Within l a (n.commitEntries m) :=
  after
    (.iteElse (.foldl _ (.foldl _ .rfl (fun _ _ => .iteThen (.ite (.ckpt .rfl) .rfl) (.ckpt .rfl))) (fun _ _ => .ite .rfl (.ckpt .rfl)))
      (.rosterEntry .rfl)) h s

theorem voidOwn {fo : ℕ} (h : Within l a n) (s : [.jrnl, .pair] ⊆ l := by decide) : Within l a (n.voidOwn fo) :=
  after (.ite .rfl (.ite .rfl (.mPair (.mJrnl .rfl)))) h s

theorem takeCommit {final : Bool} {tag count : ℕ} {crc hashTag : BitVec 32} {last fo : ℕ} (h : Within l a n) (s : [.rtc, .fab, .call, .solv, .jrnl, .tide, .pair, .stor, .sec] ⊆ l := by decide) : Within l a (n.takeCommit final tag count crc hashTag last fo) := by
  refine after ?_ h s
  unfold Node.takeCommit
  dsimp only
  exact .ite .rfl (.ite (.sendAck .rfl) (.ite .rfl (.ite (.sendAck (.mPair .rfl))
    (.sendAck (.mRtc (.mPair (.voidOwn (.commitEntries (.loadState (.mPair .rfl)))))))))) 

theorem takeNotice {hash : BitVec 256} {boundary : ℕ} (h : Within l a n) (s : [.tide, .sec] ⊆ l := by decide) : Within l a (n.takeNotice
    hash boundary) := by
  refine after ?_ h s
  unfold Node.takeNotice
  dsimp only
  exact .ite (.sendAck (.mSec .rfl)) (by split; exacts [.iteThen (.mSec .rfl) (.sendAck .rfl), .mSec .rfl])

theorem queryEnd (h : Within l a n) (s : [.pair] ⊆ l := by decide) : Within l a n.queryEnd := by
  refine after ?_ h s
  unfold Node.queryEnd
  split
  · exact .rfl
  · exact .mPair .rfl

theorem queryCheck (h : Within l a n) (s : [.pair] ⊆ l := by decide) : Within l a n.queryCheck := by
  refine after ?_ h s
  unfold Node.queryCheck
  split
  · exact .rfl
  · exact .ite (.queryEnd .rfl) .rfl

theorem queryStart {cause : ℕ} (h : Within l a n) (s : [.tide, .pair] ⊆ l := by decide) : Within l a (n.queryStart cause) :=
  after (.ite .rfl (.queryCheck (.sendFrame (.mPair .rfl)))) h s

theorem queryReply {src space high : ℕ} (h : Within l a n) (s : [.pair] ⊆ l := by decide) : Within l a (n.queryReply src
    space high) := by
  refine after ?_ h s
  unfold Node.queryReply
  split
  · exact .rfl
  · exact .ite (.queryCheck (.mPair .rfl)) .rfl

theorem setRole {r : ℕ} (h : Within l a n) (s : [.fab, .pair] ⊆ l := by decide) : Within l a (n.setRole r) :=
  after (.mFab (.mPair .rfl)) h s

theorem roleMoves (h : Within l a n) (s : [.fab, .tide, .pair] ⊆ l := by decide) : Within l a n.roleMoves := by
  refine after ?_ h s
  unfold Node.roleMoves
  exact .ite .rfl
    (by
      split
      · exact .ite .rfl (.ite (.mPair (.setRole .rfl)) (.ite (.queryStart .rfl) .rfl))
      · exact .ite (.pairFlag (.setRole .rfl)) (.ite (.queryStart .rfl) .rfl)
      · exact .ite (.pairFlag (.setRole .rfl)) (.ite (.queryStart .rfl) .rfl)
      · exact .ite (.setRole .rfl) .rfl
      · exact .ite (.queryStart .rfl) (.ite (.mPair (.setRole .rfl)) .rfl)
      · exact .rfl)

theorem partnerDemoted (h : Within l a n) (s : [.tide, .pair] ⊆ l := by decide) : Within l a (n.partnerDemoted) :=
  after (.ite (.queryStart .rfl) .rfl) h s

theorem issueDemote {cause : ℕ} (h : Within l a n) (s : [.jrnl, .ext, .free] ⊆ l := by decide) : Within l a (n.issueDemote cause) :=
  after (.ite .rfl (.iteElse (.extTake (.issueNow .rfl)) (.mJrnl .rfl))) h s

theorem demoteNow {cause : ℕ} (h : Within l a n) (s : [.fab, .jrnl, .tide, .pair, .ext, .free] ⊆ l := by decide) : Within l a
    (n.demoteNow cause) :=
  after
    (.ite .rfl (.portsFollow (.foldl _ (.mJrnl (.mFab (.mPair (.pairFlag (.setRole (.issueDemote .rfl)))))) (fun _ _ => .notify (.rfl))))) h s

theorem viewMajority (h : Within l a n) (s : [.pair] ⊆ l := by decide) : Within l a (n.viewMajority) :=
  after (.ite .rfl (.mPair .rfl)) h s

theorem countMajority {held : Bool} (h : Within l a n) (s : [.pair] ⊆ l := by decide) : Within l a (n.countMajority held) :=
  after (.ite .rfl (.mPair .rfl)) h s

theorem replayAlarm {r : Record} (h : Within l a n) (s : [.fab] ⊆ l := by decide) : Within l a (n.replayAlarm r) :=
  after (.ite .rfl (.setPoint .rfl)) h s

theorem replayCommand {r : Record} (h : Within l a n) (s : [.fab, .call] ⊆ l := by decide) : Within l a (n.replayCommand r) := by
  refine after ?_ h s
  unfold Node.replayCommand
  dsimp only
  exact .ite .rfl (.ite (by split; exacts [.setPoint .rfl, .rfl]) (.ite (.setGrp .rfl) (.ite (.setLadder .rfl) .rfl)))

theorem replayCall {r : Record} (h : Within l a n) (s : [.call] ⊆ l := by decide) : Within l a (n.replayCall r) := by
  refine after ?_ h s
  unfold Node.replayCall
  dsimp only
  exact .ite (.ite (.mCall .rfl) (.mCall .rfl)) (.ite (.mCall .rfl) (by split; exacts [.rfl, .ite (.setLadder .rfl) (.setLadder .rfl)]))

theorem replayRecord {r : Record} (h : Within l a n) (s : [.fab, .call] ⊆ l := by decide) : Within l a (n.replayRecord r) := by
  refine after ?_ h s
  unfold Node.replayRecord
  dsimp only
  split
  · exact .replayAlarm .rfl
  · exact .replayCommand .rfl
  · exact .setGrp .rfl
  · exact .replayCall .rfl
  · exact .ite (.mFab .rfl) .rfl
  · exact .rfl

theorem advanceItems {recs : List Record} {committed tick : ℕ} (h : Within l a n) (s : [.fab, .call] ⊆ l := by decide) : Within l
    a (n.advanceItems recs committed tick) :=
  after (.iteThen (.foldl _ (.foldl _ .rfl (fun _ _ => .setPoint .rfl)) (fun _ _ => .ite .rfl (.setLadder .rfl))) (.mCall .rfl)) h s

theorem takeDuty {high cause tick : ℕ} (h : Within l a n) (s : [.fab, .call, .jrnl, .pair, .stor, .sec] ⊆ l := by decide) :
    Within l a (n.takeDuty high cause tick) := by
  refine after ?_ h s
  unfold Node.takeDuty
  dsimp only
  exact .ite
    (by
      split
      · exact .openEra
          (.mJrnl
            (.pairFlag
              (.mPair
                (.setRole
                  (by split; exacts [.mCall (.advanceItems (.foldl _ .rfl (fun _ _ => .replayRecord (.rfl)))), .startFabric .rfl])))))
      · exact .mJrnl
          (.pairFlag
            (.mPair
              (.setRole (by split; exacts [.mCall (.advanceItems (.foldl _ .rfl (fun _ _ => .replayRecord (.rfl)))), .startFabric .rfl])))))
    (.foldl _
      (.iteThen
        (.foldl _
          (.mPair
            (.issueNow
              (.mJrnl
                (.pairFlag
                  (.mPair
                    (.setRole
                      (by split; exacts [.mCall (.advanceItems (.foldl _ .rfl (fun _ _ => .replayRecord (.rfl)))), .startFabric .rfl])))))))
          (fun _ _ => .issueGap (.rfl)))
        (.mSec (.issueNow .rfl)))
      (fun _ _ => .ite .rfl (.issueNow .rfl)))

theorem pairRefused {code : ℕ} (h : Within l a n) (s : [.pair] ⊆ l := by decide) : Within l a (n.pairRefused code) :=
  after (.pairFlag (.mPair .rfl)) h s

theorem pairCommand {op : ℕ} (h : Within l a n) (s : [.pair] ⊆ l := by decide) : Within l a (n.pairCommand op) :=
  after
    (.ite (.pairRefused .rfl)
      (.ite (.pairRefused .rfl) (.ite (.pairRefused .rfl) (.ite (.pairRefused .rfl) (.ite (.pairRefused .rfl) (.mPair .rfl)))))) h s

theorem noticeIn {b : RecBody} (h : Within l a n) (s : [.pair] ⊆ l := by decide) : Within l a (n.noticeIn b) :=
  after (.ite (.mPair .rfl) .rfl) h s

theorem sendNotices (h : Within l a n) (s : [.tide, .pair] ⊆ l := by decide) : Within l a n.sendNotices := by
  refine after ?_ h s
  unfold Node.sendNotices
  dsimp only
  exact .ite (by split; exacts [.rfl, .foldl _ (.mPair .rfl) (fun _ _ => .sendFrame .rfl)]) .rfl

theorem tideFlag {i : ℕ} (h : Within l a n) (s : [.tide] ⊆ l := by decide) : Within l a (n.tideFlag i) :=
  after (.mTide .rfl) h s

theorem setPeer {k : ℕ} {p : Peer} (h : Within l a n) (s : [.tide] ⊆ l := by decide) : Within l a (n.setPeer k p) :=
  after (.mTide .rfl) h s

theorem setLink {rp : RingPort} {l' : LinkSt} (h : Within l a n) (s : [.tide] ⊆ l := by decide) : Within l a (n.setLink rp l') :=
  after (.mTide .rfl) h s

theorem setWrap {rp : RingPort} {v : Bool} (h : Within l a n) (s : [.tide] ⊆ l := by decide) : Within l a (n.setWrap rp v) :=
  after (.mTide .rfl) h s

theorem clearLine (h : Within l a n) (s : [.tide] ⊆ l := by decide) : Within l a (n.clearLine) :=
  after (.mTide .rfl) h s

theorem ringRecord {source event : ℕ} {old new : BitVec 16} {other : ℕ} (h : Within l a n) (s : [.jrnl, .tide,
    .pair] ⊆ l := by decide) : Within l a (n.ringRecord source event old new other) :=
  after (.ite (.later .rfl) .rfl) h s

theorem ringEvent {source event other : ℕ} (h : Within l a n) (s : [.jrnl, .tide, .pair] ⊆ l := by decide) : Within l a
    (n.ringEvent source event other) :=
  after (.ringRecord .rfl) h s

theorem ringOut {l' : List RingFrame} (h : Within l a n) (s : [.tide] ⊆ l := by decide) : Within l a (n.ringOut l') :=
  after (.mTide .rfl) h s

theorem putFrame {f : RingFrame} (h : Within l a n) (s : [.tide] ⊆ l := by decide) : Within l a (n.putFrame f) :=
  after (.ringOut (.mTide .rfl)) h s

theorem pumpFrames {fuel : ℕ} (h : Within l a n) (s : [.tide] ⊆ l := by decide) : Within l a (Node.pumpFrames fuel n) := by
  induction fuel generalizing n with
  | zero => exact h
  | succ fuel ih =>
    unfold Node.pumpFrames
    dsimp only
    split_ifs
    · exact h
    · exact ih (.putFrame (.mTide h s) s)
    · split
      · exact h
      · split_ifs
        · exact ih (.putFrame (.mTide h s) s)
        · exact h

theorem pump (h : Within l a n) (s : [.tide] ⊆ l := by decide) : Within l a (n.pump) :=
  after (.ite (.pumpFrames .rfl) .rfl) h s

theorem handRecords {l' : List Record} (h : Within l a n) (s : [.tide] ⊆ l := by decide) : Within l a (n.handRecords l') :=
  after (.ite (.pump (.mTide .rfl)) .rfl) h s

theorem handOver (h : Within l a n) (s : [.jrnl, .tide, .ext, .free] ⊆ l := by decide) : Within l a (n.handOver) :=
  after (.extTake (.handRecords (.mJrnl .rfl))) h s

theorem holdStart {tk : TokenFrame} (h : Within l a n) (s : [.tide] ⊆ l := by decide) : Within l a (n.holdStart tk) :=
  after (.pump (.mTide .rfl)) h s

theorem chooseRef (h : Within l a n) (s : [.rtc, .jrnl, .tide, .pair] ⊆ l := by decide) : Within l a n.chooseRef := by
  refine after ?_ h s
  unfold Node.chooseRef
  dsimp only
  split
  · exact .settleTrust (.mRtc .rfl)
  · exact .settleTrust (.mRtc (.mTide .rfl))

theorem wrapPort {rp : RingPort} (h : Within l a n) (s : [.jrnl, .tide, .pair] ⊆ l := by decide) : Within l a (n.wrapPort rp) :=
  after (.ite .rfl (.ringEvent (.tideFlag (.mTide (.setWrap .rfl))))) h s

theorem unwrapPort {rp : RingPort} (h : Within l a n) (s : [.jrnl, .tide, .pair] ⊆ l := by decide) : Within l a (n.unwrapPort rp) :=
  after (.ite (.ringEvent (.setWrap .rfl)) .rfl) h s

theorem leaveRing {st : RingSt} {event : ℕ} (h : Within l a n) (s : [.rtc, .fab, .jrnl, .tide, .pair, .ext, .free] ⊆ l := by decide) :
    Within l a (n.leaveRing st event) :=
  after (.iteThen (.settleTrust (.mRtc (.mTide .rfl))) (.demoteNow (.mPair (.ringEvent .rfl)))) h s

theorem linkFails {rp : RingPort} (h : Within l a n) (s : [.rtc, .fab, .jrnl, .tide, .pair, .ext, .free] ⊆ l := by decide) : Within l a
    (n.linkFails rp) :=
  after (.iteElse (.setLink .rfl) (.iteThen (.ringEvent (.mTide (.tideFlag .rfl))) (.ite (.leaveRing .rfl) (.wrapPort .rfl)))) h s

theorem linkRises {rp : RingPort} (h : Within l a n) (s : [.jrnl, .tide, .pair] ⊆ l := by decide) : Within l a (n.linkRises rp) :=
  after (.ite (.ringEvent (.setLink .rfl)) .rfl) h s

theorem hearRequest {rp : RingPort} {asks : Bool} (h : Within l a n) (s : [.tide, .free] ⊆ l := by decide) : Within l a (n.hearRequest
    rp asks) := by
  refine after ?_ h s
  unfold Node.hearRequest
  exact .ite (.mTide .rfl) (.ite .rfl (by split; exacts [.mTide .rfl, .iteThen (.fresh .rfl) (.mTide .rfl)]))

theorem hearBeacon {rp : RingPort} {b : Beacon} (h : Within l a n) (s : [.rtc, .fab, .jrnl, .tide, .pair, .ext, .free] ⊆ l := by decide)
    : Within l a (n.hearBeacon rp b) :=
  after (.ite (.linkFails .rfl) (.hearRequest (.setLink .rfl))) h s

theorem badFrame {rp : RingPort} (h : Within l a n) (s : [.rtc, .fab, .jrnl, .tide, .pair, .ext, .free] ⊆ l := by decide) : Within l a
    (n.badFrame rp) :=
  after (.iteThen (.mTide (.setLink .rfl)) (.linkFails .rfl)) h s

theorem sendBeacons (h : Within l a n) (s : [.tide] ⊆ l := by decide) : Within l a (n.sendBeacons) :=
  after (.ite (.mTide .rfl) .rfl) h s

theorem idleEnds (h : Within l a n) (s : [.tide, .ext] ⊆ l := by decide) : Within l a (n.idleEnds) :=
  after (.ite .rfl (.mTide (.foldl _ .rfl (fun _ _ => .flushPort (.rfl))))) h s

theorem purgePeers {old new : BitVec 16} {pass : Node → Nat → Node} (h : Within l a n) (s : [.tide] ⊆ l)
    (hp : ∀ m k, Within l m (pass m k)) : Within l a (n.purgePeers old new pass) :=
  foldl _ h fun m k => ite (setPeer (hp m k) s) rfl

theorem takeView {tk : TokenFrame} {pass : Node → Nat → Node} (h : Within l a n) (hp : ∀ m k, Within l m (pass m k))
    (s : [.rtc, .fab, .jrnl, .tide, .pair] ⊆ l := by decide) : Within l a (n.takeView tk pass) := by
  unfold Node.takeView
  dsimp only
  exact .roleMoves (.chooseRef (.purgePeers (.iteThen (.iteThen (.viewMajority (.mPair (.mTide h (sub_of s)) (sub_of s)) (sub_of s))
    (.tideFlag .rfl (sub_of s))) (.ringRecord .rfl (sub_of s))) (sub_of s) hp) (sub_of s)) (sub_of s)

theorem refuseRing (h : Within l a n) (s : [.jrnl, .tide, .pair] ⊆ l := by decide) : Within l a (n.refuseRing) :=
  after (.ringEvent (.tideFlag (.mTide .rfl))) h s

theorem becomeInserted (h : Within l a n) (s : [.jrnl, .tide, .pair] ⊆ l := by decide) : Within l a (n.becomeInserted) :=
  after (.ringEvent (.iteElse (.iteElse (.mTide .rfl) (.wrapPort .rfl)) (.wrapPort .rfl))) h s

theorem tokenIn {tk : TokenFrame} {pass : Node → Nat → Node} (h : Within l a n) (hp : ∀ m k, Within l m (pass m k))
    (s : [.rtc, .fab, .jrnl, .tide, .pair] ⊆ l := by decide) : Within l a (n.tokenIn tk pass) := by
  have hb {m : Node} : Within l m m.becomeInserted := .becomeInserted .rfl (sub_of s)
  have hv {m : Node} : Within l m (m.takeView tk pass) := .takeView .rfl hp (sub_of s)
  have ht {m : Node} {f : Tide → Tide} (h : Within l a m) : Within l a (m.mTide f) := .mTide h (sub_of s)
  unfold Node.tokenIn
  dsimp only
  exact .ite h (.ite (.ite (ht h) h) (.ite h (.ite (.refuseRing (ht h) (sub_of s)) (.ite (.iteElse (.iteThen (ht h) hb) hv)
    (.ite (.holdStart (.iteElse (.iteThen (ht h) hb) hv) (sub_of s))
      (.ite (ht (.iteElse (.iteThen (ht h) hb) hv)) (ht (.iteElse (.iteThen (ht h) hb) hv))))))))

theorem spliceNow {rp : RingPort} {join : Bool} (h : Within l a n) (s : [.jrnl, .tide, .pair] ⊆ l := by decide) : Within l a
    (n.spliceNow rp join) :=
  after (.ite (.ringEvent (.mTide (.setWrap (.putFrame .rfl)))) (.unwrapPort (.mTide (.setLink (.putFrame .rfl))))) h s

theorem holdEnds (h : Within l a n) (s : [.jrnl, .tide, .pair] ⊆ l := by decide) : Within l a n.holdEnds := by
  refine after ?_ h s
  unfold Node.holdEnds
  dsimp only
  split
  · exact .rfl
  · exact .ringOut (.mTide (by split; exacts [.spliceNow .rfl, .rfl]))

theorem dissolveNow (h : Within l a n) (s : [.rtc, .fab, .jrnl, .tide, .pair, .ext, .free] ⊆ l := by decide) : Within l a
    (n.dissolveNow) :=
  after (.ite (.mTide (.leaveRing (.tideFlag (.wrapPort (.wrapPort .rfl))))) .rfl) h s

theorem countRotation (h : Within l a n) (s : [.tide, .pair] ⊆ l := by decide) : Within l a n.countRotation := by
  refine after ?_ h s
  unfold Node.countRotation
  dsimp only
  exact .mTide (.countMajority .rfl)

theorem release {pass : Node → Nat → Node} (h : Within l a n) (hp : ∀ m k, Within l m (pass m k))
    (s : [.rtc, .fab, .jrnl, .tide, .pair] ⊆ l := by decide) : Within l a (n.release pass) := by
  unfold Node.release
  split
  · exact h
  · exact .ite h (.holdStart (.takeView (.mTide h (sub_of s)) hp (sub_of s)) (sub_of s))

theorem rotation {pass : Node → Nat → Node} (h : Within l a n) (hp : ∀ m k, Within l m (pass m k))
    (s : [.rtc, .fab, .jrnl, .tide, .pair, .ext, .free] ⊆ l := by decide) : Within l a (n.rotation pass) :=
  ite h (release (countRotation (dissolveNow (mTide (setNow h (sub_of s)) (sub_of s)) (sub_of s)) (sub_of s)) hp (sub_of s))

theorem regenerate (h : Within l a n) (s : [.jrnl, .tide, .pair] ⊆ l := by decide) : Within l a (n.regenerate) :=
  after (.ringEvent (.tideFlag (.mTide .rfl))) h s

theorem claimIn {k : ℕ} (h : Within l a n) (s : [.jrnl, .tide, .pair] ⊆ l := by decide) : Within l a (n.claimIn k) :=
  after (.ite .rfl (.ite (.ite (.regenerate .rfl) .rfl) (.ite (.ringOut .rfl) .rfl))) h s

theorem tokenSilence (h : Within l a n) (s : [.tide] ⊆ l := by decide) : Within l a (n.tokenSilence) :=
  after (.ite (.ringOut (.mTide .rfl)) .rfl) h s

theorem formRing (h : Within l a n) (s : [.jrnl, .tide, .pair] ⊆ l := by decide) : Within l a (n.formRing) :=
  after (.ite (.ringEvent (.mTide (.wrapPort (.wrapPort .rfl)))) .rfl) h s

theorem requestInsert (h : Within l a n) (s : [.tide] ⊆ l := by decide) : Within l a (n.requestInsert) :=
  after (.ite (.mTide .rfl) .rfl) h s

theorem noteIssuer {r : Record} (h : Within l a n) (s : [.tide] ⊆ l := by decide) : Within l a (n.noteIssuer r) :=
  after (.ite (.mTide .rfl) .rfl) h s

theorem ownSpaceRecord {r : Record} (h : Within l a n) (s : [.jrnl, .tide, .pair, .sec] ⊆ l := by decide) : Within l a (n.ownSpaceRecord
    r) :=
  after (.iteThen (.iteThen (.iteThen (.mJrnl (.pushRam .rfl)) (.mPair .rfl)) (.mSec .rfl)) (.partnerDemoted .rfl)) h s

theorem hearRecord {r : Record} (h : Within l a n) (s : [.jrnl, .tide, .pair, .sec] ⊆ l := by decide) : Within l a (n.hearRecord r) :=
  after (.iteThen (.mJrnl (.noteIssuer .rfl)) (.ownSpaceRecord .rfl)) h s

theorem hearRecords {l' : List Record} (h : Within l a n) (s : [.jrnl, .tide, .pair, .ext, .stor, .sec, .free] ⊆ l := by decide) :
    Within l a (n.hearRecords l') :=
  after (.writeThrough (.extTake (.foldl _ .rfl (fun _ _ => .hearRecord (.rfl))))) h s

theorem hearCommand {src : ℕ} {c : CommandLoad} (h : Within l a n) (s : [.lane, .fab, .tide, .pair, .sec] ⊆ l := by decide) : Within l a
    (n.hearCommand src c) := by
  refine after ?_ h s
  unfold Node.hearCommand
  dsimp only
  exact .ite .rfl (by split; exacts [.ite (.arrive .rfl) .rfl, .ite (.takeNotice .rfl) .rfl, .mLane .rfl, .ite (.noticeIn .rfl) .rfl])

theorem deliver {src : ℕ} {l' : RingLoad} (h : Within l a n) (s : Part.allBut [.sys, .clk, .afe, .loop, .dio, .img] ⊆ l := by decide) :
    Within l a (n.deliver src l') := by
  refine after ?_ h s
  unfold Node.deliver
  split
  · exact .hearRecords .rfl
  · exact .hearCommand .rfl
  · exact .ite (.takeChunk .rfl) .rfl
  · exact .ite (.takeCommit .rfl) .rfl
  · exact .ite (.copyAck .rfl) .rfl
  · exact .rfl

theorem drain {src : ℕ} (h : Within l a n) (s : Part.allBut [.sys, .clk, .afe, .loop, .dio, .img] ⊆ l := by decide) : Within l a
    (n.drain src) :=
  after (.foldl _ (.setPeer .rfl) (fun _ _ => .deliver .rfl)) h s

theorem passHeld {src : ℕ} (h : Within l a n) (s : Part.allBut [.sys, .clk, .afe, .loop, .dio, .img] ⊆ l := by decide) : Within l a
    (n.passHeld src) :=
  after (.drain (.setPeer .rfl)) h s

/-- The node that hears a frame, where it hears one (15 R461). -/
theorem hearFseq {src fseq : ℕ} {load : Option RingLoad} {m : Node} (hm : n.hearFseq src fseq load = some m)
    (h : Within l a n) (s : Part.allBut [.sys, .clk, .afe, .loop, .dio, .img] ⊆ l := by decide) :
    Within l a m := by
  refine after ?_ h s
  unfold Node.hearFseq at hm
  dsimp only at hm
  split at hm
  · cases hm
  · split at hm
    · cases hm
      exact .drain (.setPeer .rfl)
    · split_ifs at hm
      · cases hm
        exact .drain (.setPeer .rfl)
      · cases hm
        exact .drain (.setPeer .rfl)

theorem hearOrdered {src fseq : ℕ} {load : RingLoad} (h : Within l a n)
    (s : Part.allBut [.sys, .clk, .afe, .loop, .dio, .img] ⊆ l := by decide) : Within l a (n.hearOrdered src fseq load) := by
  unfold Node.hearOrdered
  cases hm : n.hearFseq src fseq (some load) with
  | none => exact h
  | some m => exact hearFseq hm h s

theorem hearNow {src fseq : ℕ} {f : Node → Node} (h : Within l a n) (hf : ∀ m, Within l m (f m))
    (s : Part.allBut [.sys, .clk, .afe, .loop, .dio, .img] ⊆ l := by decide) : Within l a (n.hearNow src fseq f) := by
  unfold Node.hearNow
  split
  case h_1 m hm => exact (hearFseq hm h s).apply hf
  case h_2 => exact h

theorem frameLost {src fseq : ℕ} (h : Within l a n) (s : Part.allBut [.sys, .clk, .afe, .loop, .dio, .img] ⊆ l := by decide) :
    Within l a (n.frameLost src fseq) :=
  after (.ite (.drain (.setPeer .rfl)) .rfl) h s

theorem statusIn {src fseq : ℕ} {f : StatusFrame} (h : Within l a n) (s : Part.allBut [.sys, .clk, .afe, .loop, .dio, .img] ⊆ l :=
    by decide) : Within l a (n.statusIn src fseq f) :=
  after (.ite (.ite (.refuseRing .rfl) .rfl) (.hearNow .rfl (fun _ => .sendNotices (.roleMoves (.chooseRef (.setPeer .rfl)))))) h s

theorem timeIn {src fseq : ℕ} {rp : RingPort} {f : TimeFrame} {rx rxNs : ℕ} (h : Within l a n) (s : Part.allBut [.sys, .clk,
    .afe, .loop, .dio, .img] ⊆ l := by decide) : Within l a (n.timeIn src fseq rp f rx rxNs) :=
  after (.hearNow .rfl (fun _ => .ite .rfl (.iteThen (.timeFrom (.mTide .rfl)) (.mTide .rfl)))) h s

theorem spliceIn {src fseq neighbour joining : ℕ} (h : Within l a n) (s : Part.allBut [.sys, .clk, .afe, .loop, .dio,
    .img] ⊆ l := by decide) : Within l a (n.spliceIn src fseq neighbour joining) :=
  after (.hearNow .rfl (fun _ => .iteElse (.mTide .rfl) (.ite (.unwrapPort .rfl) (.iteThen .rfl (.unwrapPort .rfl))))) h s

theorem loseLoad {l' : RingLoad} (h : Within l a n) (s : [.jrnl] ⊆ l := by decide) : Within l a (n.loseLoad l') := by
  refine after ?_ h s
  unfold Node.loseLoad
  split
  · exact .ite (.foldl _ .rfl (fun _ _ => .laterGap .rfl)) .rfl
  · exact .mJrnl .rfl
  · exact .rfl

theorem frameBack {fseq : ℕ} {copied : BitVec 16} (h : Within l a n) (s : [.jrnl, .tide, .pair] ⊆ l := by decide) : Within l a
    (n.frameBack fseq copied) := by
  refine after ?_ h s
  unfold Node.frameBack
  dsimp only
  split
  · exact .rfl
  · exact .iteElse (.mTide .rfl) (.ite (.pump (.mTide .rfl)) (.pump (.sendFrame (.ringEvent (.loseLoad (.tideFlag (.mTide .rfl)))))))

theorem tideCommand {op : ℕ} (h : Within l a n) (s : [.rtc, .fab, .jrnl, .tide, .pair, .ext, .free] ⊆ l := by decide) : Within l a
    (n.tideCommand op) :=
  after (.ite (.tideFlag (.mTide .rfl)) (.ite (.leaveRing (.mTide .rfl)) (.mTide (.mTide .rfl)))) h s

theorem eachDom {f : Node → Domain → Node} (h : Within l a n) (hf : ∀ m d, Within l m (f m d)) : Within l a (n.eachDom f) :=
  foldl _ h hf

theorem clockRecord {event : ℕ} (h : Within l a n) (s : [.jrnl, .tide, .pair] ⊆ l := by decide) : Within l a (n.clockRecord event) :=
  after (.later .rfl) h s

theorem coastChange {was : Bool} (h : Within l a n) (s : [.sys, .jrnl, .tide, .pair] ⊆ l := by decide) : Within l a (n.coastChange was) :=
  after (.iteThen (.ite .rfl (.irqEvent .rfl)) (.clockRecord .rfl)) h s

theorem ethDown (h : Within l a n) (s : [.jrnl, .tide, .pair, .ext] ⊆ l := by decide) : Within l a (n.ethDown) :=
  after (.portEvent (.portEvent .rfl)) h s

theorem coreClamped (h : Within l a n) (s : [.sys, .rtc, .dio, .fab, .jrnl, .tide, .pair, .ext, .free] ⊆ l := by decide) : Within l a
    (n.coreClamped) :=
  after (.ethDown (.iteThen (.mSys (.selectModes .rfl)) (.leaveRing .rfl))) h s

theorem fieldStops (h : Within l a n) (s : [.afe, .lane] ⊆ l := by decide) : Within l a (n.fieldStops) :=
  after (.abandonCheck (.foldl _ .rfl (fun _ _ => .stopChain (.rfl)))) h s

theorem domClamped {x1 : Domain} (h : Within l a n) (s : Part.allBut [.pwr, .clk, .loop, .call, .stor, .sec, .img] ⊆ l := by decide) :
    Within l a (n.domClamped x1) := by
  refine after ?_ h s
  unfold Node.domClamped
  split
  · exact .coreClamped .rfl
  · exact .fieldStops .rfl
  · exact .stopEngine .rfl

theorem enterSlack {d : Domain} {st : DomSt} (h : Within l a n) (s : Part.allBut [.pwr, .loop, .call, .stor, .sec, .img] ⊆ l := by
    decide) : Within l a (n.enterSlack d st) :=
  after (.domClamped (.setDom .rfl)) h s

theorem latch {cause : ℕ} (h : Within l a n) (s : Part.allBut [.pwr, .loop, .call, .stor, .sec, .img] ⊆ l := by decide) : Within l a
    (n.latch cause) :=
  after (.clockRecord (.eachDom (.mClk .rfl) (fun _ _ => .enterSlack .rfl))) h s

theorem leftSlack {d : Domain} (h : Within l a n) (s : [.pwr, .clk, .lane, .solv, .jrnl, .tide, .pair, .free] ⊆ l := by decide) : Within
    l a (n.leftSlack d) := by
  refine after ?_ h s
  unfold Node.leftSlack
  dsimp only
  split
  · exact .mClk (.setDom .rfl)
  · exact .syncCauses (.setDom .rfl)
  · exact .engine (.setDom .rfl)

theorem pllToCoast (h : Within l a n) (s : [.clk] ⊆ l := by decide) : Within l a (n.pllToCoast) :=
  after (.mClk .rfl) h s

theorem countXtalFail (h : Within l a n) (s : [.clk] ⊆ l := by decide) : Within l a (n.countXtalFail) :=
  after (.mClk .rfl) h s

theorem emergency {d : Domain} (h : Within l a n) (s : Part.allBut [.pwr, .loop, .call, .stor, .sec, .img] ⊆ l := by decide) : Within l
    a (n.emergency d) := by
  refine after ?_ h s
  unfold Node.emergency
  dsimp only
  exact .ite (.enterSlack .rfl)
    (.ite (by split; exacts [.ethDown (.setDom .rfl), .fieldStops (.setDom .rfl), .setDom .rfl]) (.enterSlack .rfl))

theorem domStarts {d : Domain} (h : Within l a n) (s : Part.allBut [.pwr, .loop, .call, .stor, .sec, .img] ⊆ l := by decide) : Within l
    a (n.domStarts d) :=
  after (.ite (.setDom .rfl) (.ite (.enterSlack .rfl) (.ite (.enterSlack .rfl) (.ite (.setDom .rfl) (.setDom .rfl))))) h s

theorem applyDomain {d : Domain} (h : Within l a n) (s : Part.allBut [.loop, .call, .stor, .sec, .img] ⊆ l := by decide) : Within l a
    (n.applyDomain d) := by
  refine after ?_ h s
  unfold Node.applyDomain
  dsimp only
  exact .ite .rfl
    (.ite
      (.ite (by split; exacts [.domStarts .rfl, .syncCauses (.domStarts .rfl), .engine (.domStarts .rfl)]) .rfl)
      (.ite (.ite (.setDom .rfl) .rfl) (.setDom (by split; exacts [.rfl, .fieldStops .rfl, .stopEngine .rfl]))))

theorem applyDomains (h : Within l a n) (s : Part.allBut [.loop, .call, .stor, .sec, .img] ⊆ l := by decide) : Within l a
    (n.applyDomains) :=
  after (.ite (.mClk .rfl) (.coastChange (.eachDom (.mClk .rfl) (fun _ _ => .applyDomain (.rfl))))) h s

theorem deepSources (h : Within l a n) (s : [.clk] ⊆ l := by decide) : Within l a n.deepSources := by
  refine after ?_ h s
  unfold Node.deepSources
  dsimp only
  exact .mClk .rfl

theorem masksNow (h : Within l a n) (s : Part.allBut [.loop, .call, .stor, .sec, .img] ⊆ l := by decide) : Within l a (n.masksNow) :=
  after (.ite (.ite (.deepSources .rfl) (.applyDomains .rfl)) .rfl) h s

theorem tripDomain {d : Domain} (h : Within l a n) (s : Part.allBut [.pwr, .loop, .call, .stor, .sec, .img] ⊆ l := by decide) : Within l
    a (n.tripDomain d) :=
  after (.ite (.emergency .rfl) (.ite .rfl (.setDom .rfl))) h s

theorem tripMoves (h : Within l a n) (s : Part.allBut [.pwr, .loop, .call, .stor, .sec, .img] ⊆ l := by decide) : Within l a
    (n.tripMoves) :=
  after (.ite (.latch (.mClk .rfl)) (.eachDom (.mClk .rfl) (fun _ _ => .tripDomain (.rfl)))) h s

theorem rampMoves (h : Within l a n) (s : Part.allBut [.pwr, .loop, .call, .stor, .sec, .img] ⊆ l := by decide) : Within l a
    (n.rampMoves) :=
  after (.eachDom (.mClk .rfl) (fun _ _ => .ite (.tripDomain .rfl) .rfl)) h s

theorem tripXtal (h : Within l a n) (s : Part.allBut [.loop, .call, .stor, .sec, .img] ⊆ l := by decide) : Within l a (n.tripXtal) :=
  after
    (.ite .rfl
      (.masksNow
        (.coastChange
          (.clockRecord (.ite (.tripMoves (.pllToCoast (.countXtalFail (.mClk .rfl)))) (.rampMoves (.countXtalFail (.mClk .rfl)))))))) h s

theorem lockFails (h : Within l a n) (s : Part.allBut [.loop, .call, .stor, .sec, .img] ⊆ l := by decide) : Within l a (n.lockFails) :=
  after
    (.ite .rfl
      (.ite (.iteThen (.clockRecord (.mClk .rfl)) (.coastChange (.latch .rfl)))
        (.masksNow (.clockRecord (.iteThen (.pllToCoast (.mClk .rfl)) (.countXtalFail .rfl)))))) h s

theorem tripPll (h : Within l a n) (s : Part.allBut [.loop, .call, .stor, .sec, .img] ⊆ l := by decide) : Within l a n.tripPll := by
  refine after ?_ h s
  unfold Node.tripPll
  dsimp only
  split
  · exact .rfl
  · exact .rfl
  · exact .lockFails (.mClk .rfl)
  · exact .masksNow (.coastChange (.clockRecord (.tripMoves (.pllToCoast .rfl))))
  · exact .masksNow (.coastChange (.clockRecord (.tripMoves (.pllToCoast .rfl))))

theorem rcCountFails (h : Within l a n) (s : Part.allBut [.pwr, .loop, .call, .stor, .sec, .img] ⊆ l := by decide) : Within l a
    (n.rcCountFails) :=
  after (.iteThen (.clockRecord (.mClk .rfl)) (.coastChange (.latch .rfl))) h s

theorem rcMoves {d : Domain} (h : Within l a n) (s : Part.allBut [.pwr, .loop, .call, .stor, .sec, .img] ⊆ l := by decide) : Within l a
    (n.rcMoves d) :=
  after (.ite (.emergency .rfl) (.setDom .rfl)) h s

theorem tripRc (h : Within l a n) (s : Part.allBut [.loop, .call, .stor, .sec, .img] ⊆ l := by decide) : Within l a n.tripRc := by
  refine after ?_ h s
  unfold Node.tripRc
  dsimp only
  split
  · exact .rfl
  · exact .rfl
  · exact .rcCountFails .rfl
  · exact .ite (.coastChange (.latch (.clockRecord (.mClk .rfl))))
      (.masksNow (.coastChange (.clockRecord (.iteThen (.eachDom (.mClk .rfl) (fun _ _ => .rcMoves (.rfl))) (.pllToCoast .rfl)))))

theorem rtcElapses (h : Within l a n) (s : [.rtc, .free] ⊆ l := by decide) : Within l a (n.rtcElapses) :=
  after (.ite (.mRtc (.rtcHold (.fresh .rfl))) .rfl) h s

theorem tripLse (h : Within l a n) (s : [.clk, .rtc, .jrnl, .tide, .pair, .free] ⊆ l := by decide) : Within l a (n.tripLse) :=
  after (.ite .rfl (.settleTrust (.clockRecord (.mRtc (.mClk (.ite (.rtcElapses .rfl) (.rtcHold .rfl))))))) h s

theorem returnEnds (h : Within l a n) (s : Part.allBut [.loop, .call, .stor, .sec, .img] ⊆ l := by decide) : Within l a (n.returnEnds) :=
  after (.ite (.masksNow (.clockRecord (.mClk .rfl))) .rfl) h s

theorem returnSwitch (h : Within l a n) (s : Part.allBut [.loop, .call, .stor, .sec, .img] ⊆ l := by decide) : Within l a
    n.returnSwitch := by
  refine after ?_ h s
  unfold Node.returnSwitch
  dsimp only
  exact .returnEnds (.eachDom (.mClk .rfl) (fun _ _ => by split; exacts [.setDom .rfl, .setDom .rfl, .setDom .rfl, .rfl]))

theorem rcCounted (h : Within l a n) (s : [.pwr, .clk, .lane, .solv, .jrnl, .tide, .pair, .free] ⊆ l := by decide) : Within l a
    (n.rcCounted) :=
  after (.eachDom (.mClk .rfl) (fun _ _ => .ite (.leftSlack (.setDom .rfl)) .rfl)) h s

theorem xtalCounted (h : Within l a n) (s : [.clk] ⊆ l := by decide) : Within l a (n.xtalCounted) :=
  after (.ite .rfl (.mClk .rfl)) h s

theorem locked (h : Within l a n) (s : Part.allBut [.loop, .call, .stor, .sec, .img] ⊆ l := by decide) : Within l a (n.locked) :=
  after
    (.ite .rfl
      (.ite (.ite .rfl (.eachDom (.mClk .rfl) (fun _ _ => .ite (.setDom .rfl) .rfl)))
        (.ite .rfl (.iteThen (.mClk .rfl) (.returnSwitch .rfl))))) h s

theorem edgesBack {lse : Bool} (h : Within l a n) (s : [.clk, .rtc] ⊆ l := by decide) : Within l a (n.edgesBack lse) :=
  after (.ite (.ite (.mClk (.rtcHold .rfl)) .rfl) (.ite (.mClk .rfl) .rfl)) h s

theorem returnAdvance (h : Within l a n) (s : Part.allBut [.loop, .call, .stor, .sec, .img] ⊆ l := by decide) : Within l a
    (n.returnAdvance) :=
  after (.iteThen (.ite (.mClk .rfl) .rfl) (.ite (.returnSwitch .rfl) (.mClk .rfl))) h s

theorem returnStart (h : Within l a n) (s : Part.allBut [.loop, .call, .stor, .sec, .img] ⊆ l := by decide) : Within l a (n.returnStart)
    :=
  after (.ite (.returnAdvance (.eachDom (.mClk .rfl) (fun _ _ => .ite (.iteThen (.setDom .rfl) (.fieldStops .rfl)) .rfl))) .rfl) h s

theorem switched {d : Domain} (h : Within l a n) (s : Part.allBut [.loop, .call, .stor, .sec, .img] ⊆ l := by decide) : Within l a
    (n.switched d) := by
  refine after ?_ h s
  unfold Node.switched
  dsimp only
  split
  · exact .rfl
  · exact .returnAdvance (.setDom .rfl)
  · exact .setDom .rfl
  · exact .ite (.leftSlack (.setDom .rfl)) (.setDom .rfl)

theorem forced {d : Domain} (h : Within l a n) (s : Part.allBut [.loop, .call, .stor, .sec, .img] ⊆ l := by decide) : Within l a
    (n.forced d) := by
  refine after ?_ h s
  unfold Node.forced
  dsimp only
  split
  · exact .rfl
  · split
    · exact .ite (.masksNow (.clockRecord (.switched (.mClk (.clockRecord (.irqEvent (.mClk .rfl)))))))
        (.tripPll (.switched (.mClk (.clockRecord (.irqEvent (.mClk .rfl))))))
    · exact .tripRc (.switched (.clockRecord (.irqEvent (.mClk .rfl))))

theorem rampNext {d : Domain} (h : Within l a n) (s : Part.allBut [.loop, .call, .stor, .sec, .img] ⊆ l := by decide) : Within l a
    (n.rampNext d) := by
  refine after ?_ h s
  unfold Node.rampNext
  dsimp only
  split
  · exact .rfl
  · exact .ite (.setDom .rfl) (.returnAdvance (.setDom .rfl))
  · exact .ite (.setDom .rfl) (.returnEnds (by split; exacts [.idleEnds (.setDom .rfl), .syncCauses (.setDom .rfl), .setDom .rfl]))

theorem trimWindow {code : BitVec 10} {xtalCnt rcCnt : ℕ} (h : Within l a n) (s : Part.allBut [.loop, .call, .stor, .sec, .img] ⊆
    l := by decide) : Within l a (n.trimWindow code xtalCnt rcCnt) :=
  after (.iteThen (.iteThen (.mClk .rfl) (.tripRc .rfl)) (.tripXtal .rfl)) h s

theorem clkoutSet {w : Word} (h : Within l a n) (s : [.clk] ⊆ l := by decide) : Within l a (n.clkoutSet w) := by
  refine after ?_ h s
  unfold Node.clkoutSet
  dsimp only
  exact .mClk .rfl

theorem secFlag {i : ℕ} (h : Within l a n) (s : [.sec] ⊆ l := by decide) : Within l a (n.secFlag i) :=
  after (.mSec .rfl) h s

theorem secTouch (h : Within l a n) (s : [.sec] ⊆ l := by decide) : Within l a (n.secTouch) :=
  after (.mSec .rfl) h s

theorem bankMove {b : Bool} {state : ℕ} {hash : BitVec 256} (h : Within l a n) (s : [.stor, .sec] ⊆ l := by decide) : Within l a
    (n.bankMove b state hash) :=
  after (.flashAdd (.updBank .rfl)) h s

theorem enterMaint (h : Within l a n) (s : [.jrnl, .tide, .pair, .sec] ⊆ l := by decide) : Within l a (n.enterMaint) :=
  after (.later (.mSec .rfl)) h s

theorem leaveMaint {cause : ℕ} (h : Within l a n) (s : [.loop, .dio, .jrnl, .tide, .pair, .sec] ⊆ l := by decide) : Within l a
    (n.leaveMaint cause) :=
  after (.ite .rfl (.endDioForces (.endAoForces (.later (.mSec .rfl))))) h s

theorem unlockRestart (h : Within l a n) (s : [.sec] ⊆ l := by decide) : Within l a (n.unlockRestart) :=
  mSec (secFlag h s) s (by
    split
    · exact id
    · exact id)

theorem unlockWrite {v : Word} {t : ℕ} (h : Within l a n) (s : [.rtc, .jrnl, .tide, .pair, .sec] ⊆ l := by decide) : Within l a
    (n.unlockWrite v t) :=
  after
    (.iteElse (.secTouch (.setNow .rfl))
      (.ite (.secFlag .rfl)
        (.ite (.unlockRestart .rfl) (.ite (.ite (.enterMaint .rfl) (.unlockRestart .rfl)) (.ite (.mSec .rfl) (.unlockRestart .rfl)))))) h s

theorem keyLoop {ohms : ℕ} (h : Within l a n) (s : [.sec] ⊆ l := by decide) : Within l a (n.keyLoop ohms) :=
  after (.iteThen (.mSec .rfl) (.unlockRestart .rfl)) h s

theorem keySettled (h : Within l a n) (s : [.loop, .dio, .jrnl, .tide, .pair, .sec] ⊆ l := by decide) : Within l a (n.keySettled) :=
  after (.iteElse (.mSec .rfl) (.leaveMaint .rfl)) h s

theorem imgResult {code : ℕ} (h : Within l a n) (s : [.sec] ⊆ l := by decide) : Within l a (n.imgResult code) :=
  after (.iteElse (.mSec .rfl) (.secFlag .rfl)) h s

theorem imgCommand {code : Nat} {f : Node → Node} (h : Within l a n) (hf : ∀ m, Within l m (f m)) (s : [.sec] ⊆ l := by decide) :
    Within l a (n.imgCommand code f) :=
  ite ((imgResult (secTouch h s) s).apply hf) (imgResult (secTouch h s) s)

theorem imgErase (h : Within l a n) (s : [.stor, .sec] ⊆ l := by decide) : Within l a (n.imgErase) :=
  after (.imgCommand .rfl (fun _ => .flashAdd (.mSec .rfl))) h s

theorem imgErased (h : Within l a n) (s : [.sys, .stor, .sec] ⊆ l := by decide) : Within l a (n.imgErased) :=
  after
    (.ite .rfl (.irqEvent (.mSec (.updBank (.iteThen (.iteThen (.mStor .rfl) (.appendBank (.erasedSector .rfl))) (.pickNext .rfl)))))) h s

theorem imgOpen (h : Within l a n) (s : [.stor, .sec] ⊆ l := by decide) : Within l a (n.imgOpen) :=
  after (.imgCommand .rfl (fun _ => .bankMove (.updBank .rfl))) h s

theorem imgClose (h : Within l a n) (s : [.stor, .sec] ⊆ l := by decide) : Within l a (n.imgClose) :=
  after (.imgCommand .rfl (fun _ => .bankMove .rfl)) h s

theorem imgCheck (h : Within l a n) (s : [.sec] ⊆ l := by decide) : Within l a (n.imgCheck) :=
  after (.imgCommand .rfl (fun _ => .mSec .rfl)) h s

theorem imgChecked (h : Within l a n) (s : [.sys, .stor, .sec] ⊆ l := by decide) : Within l a n.imgChecked := by
  refine after ?_ h s
  unfold Node.imgChecked
  dsimp only
  exact .ite .rfl
    (by split; exacts [.bankMove (.mSec (.irqEvent (.secFlag (.mSec .rfl)))), .bankMove (.mSec (.irqEvent (.secFlag (.mSec .rfl))))])

theorem imgActivate (h : Within l a n) (s : [.tide, .sec] ⊆ l := by decide) : Within l a n.imgActivate := by
  refine after ?_ h s
  unfold Node.imgActivate
  dsimp only
  exact .imgCommand .rfl (fun _ => by split; exacts [.mSec .rfl, .sendFrame (.mSec .rfl)])

theorem imgExit (h : Within l a n) (s : [.loop, .dio, .jrnl, .tide, .pair, .sec] ⊆ l := by decide) : Within l a (n.imgExit) :=
  after (.imgCommand .rfl (fun _ => .leaveMaint .rfl)) h s

theorem imgEnrol (h : Within l a n) (s : [.stor, .sec] ⊆ l := by decide) : Within l a n.imgEnrol := by
  refine after ?_ h s
  unfold Node.imgEnrol
  refine .imgCommand .rfl fun m => ?_
  split
  · exact .rfl
  · exact .flashAdd (.mSec .rfl (by decide) fun _ => Eq.refl true)

theorem imgBadCode (h : Within l a n) (s : [.sec] ⊆ l := by decide) : Within l a (n.imgBadCode) :=
  after (.imgResult (.secTouch .rfl)) h s

theorem bufferBytes {b : Bool} {a' : ℕ} {l' : List Byte} (h : Within l a n) (s : [.stor] ⊆ l := by decide) : Within l a (n.bufferBytes b
    a' l') := by
  refine after ?_ h s
  unfold Node.bufferBytes
  split
  · exact .ite (.mStor .rfl) (.flashAdd .rfl)
  · exact .flashAdd .rfl

theorem imgData {w : Word} (h : Within l a n) (s : [.stor, .sec] ⊆ l := by decide) : Within l a (n.imgData w) :=
  after (.ite (.secFlag (.secTouch .rfl)) (.bufferBytes (.updBank (.mSec (.secTouch .rfl))))) h s

theorem sampleVolt (h : Within l a n) (s : [.pwr, .free] ⊆ l := by decide) : Within l a n.sampleVolt := by
  refine after ?_ h s
  unfold Node.sampleVolt
  exact .mPwr (.fresh .rfl)

/-- An operation that may change every part but the free choice's count, and keeps the fuse and the solver memory canonical. -/
theorem of_free {m : Node} (hf : n.FuseBlown → m.FuseBlown) (hm : n.MemCanonical → m.MemCanonical) (hr : m.free = n.free) :
    Within (Part.allBut [.free]) n m := by
  refine ⟨fun b hb => ?_, hf, hm⟩
  cases b with
  | free => exact hr
  | _ => exact absurd (by decide) hb

/-- A restart of CORE takes the fuse over and empties the solver memory. -/
theorem coreReset (h : Within l a n) (s : Part.allBut [.free] ⊆ l := by decide) : Within l a n.coreReset := by
  have hc : Within (Part.allBut [.free]) n n.rtcHold.cutFlash := .cutFlash (.rtcHold .rfl)
  refine after ?_ h s
  unfold Node.coreReset
  dsimp only
  have hf : n.rtcHold.cutFlash.free = n.free := hc.part .free
  exact .ite (of_free hc.fuse (fun _ => twf_nil) hf) (.mJrnl (of_free hc.fuse (fun _ => twf_nil) hf))

theorem restart {cause : ℕ} {ph : Phase} (h : Within l a n) (s : Part.allBut [.free] ⊆ l := by decide) : Within l a (n.restart cause ph)
    :=
  after (.mPwr (.coreReset .rfl)) h s

theorem dropPending (h : Within l a n) (s : [.pwr] ⊆ l := by decide) : Within l a (n.dropPending) :=
  after (.ite (.mPwr .rfl) .rfl) h s

theorem enterHoldup {t : ℕ} {trip : Bool} (h : Within l a n) (s : [.sys, .pwr, .rtc, .jrnl, .tide, .pair, .stor, .sec, .free] ⊆ l := by
    decide) : Within l a (n.enterHoldup t trip) := by
  refine after ?_ h s
  unfold Node.enterHoldup
  dsimp only
  split
  · exact .mPwr (.setNow .rfl)
  · exact .mPwr (.mPwr (.setNow .rfl))
  · exact .mPwr (.mPwr (.setNow .rfl))
  · exact .ite (.mPwr (.mPwr (.setNow .rfl)))
      (.ite (.mPwr (.mPwr (.setNow .rfl)))
        (.later (.journalStart (.sampleVolt (.mSec (.mSys (.irqEvent (.flashAdd (.mPwr (.dropPending (.mPwr (.setNow .rfl))))))))))))

theorem leaveHoldup (h : Within l a n) (s : Part.allBut [.loop, .call, .stor, .sec, .img] ⊆ l := by decide) : Within l a (n.leaveHoldup)
    :=
  after (.later (.sampleVolt (.solvDrained (.applyDomains (.mPair (.mJrnl (.mPwr .rfl))))))) h s

theorem supplyBack (h : Within l a n) (s : Part.allBut [.loop, .call, .stor, .sec, .img] ⊆ l := by decide) : Within l a (n.supplyBack)
    := by
  refine after ?_ h s
  unfold Node.supplyBack
  dsimp only
  split
  · exact .ite (.mPwr (.mPwr .rfl)) (.leaveHoldup (.mPwr .rfl))
  · exact .ite (.mPwr (.mPwr .rfl)) (.ite (.mPwr (.rtcElapses (.mPwr .rfl))) (.mPwr (.mPwr .rfl)))
  · exact .mPwr .rfl

theorem supplyValid (h : Within l a n) (s : Part.allBut [.loop, .call, .stor, .sec, .img] ⊆ l := by decide) : Within l a (n.supplyValid)
    :=
  after (.ite .rfl (.supplyBack .rfl)) h s

theorem overTrip {t : ℕ} (h : Within l a n) (s : [.sys, .pwr, .rtc, .jrnl, .tide, .pair, .stor, .sec, .free] ⊆ l := by decide) : Within
    l a (n.overTrip t) :=
  after (.ite .rfl (.enterHoldup (.flashAdd (.mPwr .rfl)))) h s

theorem overRelease (h : Within l a n) (s : Part.allBut [.loop, .call, .stor, .sec, .img] ⊆ l := by decide) : Within l a (n.overRelease)
    :=
  after (.ite (.supplyBack (.mPwr .rfl)) .rfl) h s

theorem solverOff (h : Within l a n) (s : Part.allBut [.loop, .call, .stor, .sec, .img] ⊆ l := by decide) : Within l a (n.solverOff) :=
  after (.ite (.applyDomains (.mPwr (.abortAll .rfl))) .rfl) h s

theorem flushDone (h : Within l a n) (s : [.pwr, .jrnl, .tide, .pair, .stor] ⊆ l := by decide) : Within l a (n.flushDone) :=
  after (.ite (.mPwr (.iteThen (.mJrnl (.mPwr (.flushAll .rfl))) (.ite (.mPair .rfl) (.sendCopy .rfl)))) .rfl) h s

theorem parkOutputs (h : Within l a n) (s : [.dio, .jrnl, .tide, .pair] ⊆ l := by decide) : Within l a (n.parkOutputs) :=
  after (.ite (.selectModes (.foldl _ .rfl (fun _ _ => .fieldFrame .rfl))) .rfl) h s

theorem park (h : Within l a n) (s : [.pwr, .loop, .dio, .jrnl, .tide, .pair, .ext, .stor, .free] ⊆ l := by decide) : Within l a
    (n.park) :=
  after
    (.ite
      (.iteElse (.sampleVolt (.mPwr (.parkIslands (.parkOutputs .rfl)))) (.ite (.handOver (.flushAll (.issueNow .rfl))) (.notify .rfl)))
      .rfl) h s

theorem storeExhausted (h : Within l a n) (s : Part.allBut [.free] ⊆ l := by decide) : Within l a (n.storeExhausted) :=
  after (.ite (.mPwr (.coreReset .rfl)) .rfl) h s

theorem latchRestarts (h : Within l a n) (s : Part.allBut [.free] ⊆ l := by decide) : Within l a (n.latchRestarts) :=
  after (.ite (.mClk (.mPwr (.restart (.setNow .rfl)))) .rfl) h s

theorem holdupRestarts (h : Within Part.all a n) : Within Part.all a (n.holdupRestarts) :=
  after
    (.ite (.latchRestarts .rfl)
      (.ite .rfl (.ite (.mPwr (.restart (.setNow .rfl))) (.ite (.mPwr (.restart (.loadNow (.rtcElapses .rfl)))) .rfl)))) h (List.Subset.refl _)

theorem brownOut (h : Within l a n) (s : Part.allBut [.free] ⊆ l := by decide) : Within l a (n.brownOut) :=
  after (.ite (.mPwr (.restart (.selectModes .rfl))) .rfl) h s

theorem aonEmpties (h : Within l a n) (s : Part.allBut [.free] ⊆ l := by decide) : Within l a n.aonEmpties := by
  refine after ?_ h s
  unfold Node.aonEmpties
  dsimp only
  have hc : Within (Part.allBut [.free]) n (n.selectModes modeOff).coreReset := .coreReset (.selectModes .rfl)
  generalize (n.selectModes modeOff).coreReset = c at hc ⊢
  exact .ite (.of_free hc.fuse hc.mem (hc.part .free)) .rfl

theorem modeRequest {code : ℕ} (h : Within l a n) (s : [.pwr] ⊆ l := by decide) : Within l a (n.modeRequest code) := by
  refine after ?_ h s
  unfold Node.modeRequest
  dsimp only
  split
  · exact .rfl
  · exact .rfl
  · exact .mPwr .rfl

theorem toRun (h : Within l a n) (s : Part.allBut [.loop, .call, .stor, .sec, .img] ⊆ l := by decide) : Within l a (n.toRun) :=
  after (.syncCauses (.applyDomains (.mPwr .rfl))) h s

theorem toSleep (h : Within l a n) (s : Part.allBut [.loop, .call, .stor, .sec, .img] ⊆ l := by decide) : Within l a (n.toSleep) :=
  after (.haltIdle (.applyDomains (.mPwr .rfl))) h s

theorem toDeep (h : Within Part.all a n) : Within Part.all a n.toDeep := by
  refine after ?_ h (List.Subset.refl _)
  unfold Node.toDeep
  dsimp only
  have hr : Within Part.all n ((n.flushAll.selectModes modeSafe).coreReset) := .coreReset (.selectModes (.flushAll .rfl))
  exact .ite (.deepSources (.setImg (.mPwr hr))) (.returnAdvance (.mClk (.setImg (.mPwr hr))))

theorem holdMasks (h : Within l a n) (s : [.clk] ⊆ l := by decide) : Within l a (n.holdMasks) :=
  after (.ite .rfl (.mClk .rfl)) h s

theorem deepApplies {body : RecBody} (h : Within Part.all a n) : Within Part.all a (n.deepApplies body) := by
  refine after ?_ h (List.Subset.refl _)
  unfold Node.deepApplies
  dsimp only
  exact .toDeep (.handOver (.foldl _ (.mJrnl (.mRtc (.leapApply (.ite (.timeStep .rfl) .rfl)))) (fun _ _ => .issue (.rfl))))

theorem modeApplies (h : Within Part.all a n) : Within Part.all a n.modeApplies := by
  refine after ?_ h (List.Subset.refl _)
  unfold Node.modeApplies
  dsimp only
  split
  · exact .rfl
  · exact .ite .rfl
      (by
        split
        · exact .deepApplies (.irqEvent (.mPwr (.setNow .rfl)))
        · exact .toSleep (.holdMasks (.stepOne (.irqEvent (.mPwr (.setNow .rfl)))))
        · exact .toRun (.holdMasks (.stepOne (.irqEvent (.mPwr (.setNow .rfl))))))

theorem wakeNow (h : Within l a n) (s : Part.allBut [.loop, .call, .stor, .sec, .img] ⊆ l := by decide) : Within l a (n.wakeNow) :=
  after (.toRun (.holdMasks (.irqEvent (.mPwr .rfl)))) h s

theorem phaseB (h : Within l a n) (s : [.clk] ⊆ l := by decide) : Within l a n.phaseB := by
  refine after ?_ h s
  unfold Node.phaseB
  split
  · exact .mClk .rfl
  · exact .ite (.mClk .rfl) .rfl
  · exact .ite (.pllToCoast .rfl) .rfl
  · exact .mClk .rfl
  · exact .rfl

theorem rtcReaches {t : ℕ} (h : Within l a n) (s : [.rtc] ⊆ l := by decide) : Within l a (n.rtcReaches t) :=
  after (.ite (.mRtc (.rtcHold .rfl)) .rfl) h s

theorem wake {src : ℕ} (h : Within Part.all a n) : Within Part.all a (n.wake src) :=
  after (.ite (.phaseB (.mPwr (.restart (.loadNow (.ite (.rtcReaches .rfl) (.rtcElapses .rfl)))))) .rfl) h (List.Subset.refl _)

theorem phaseC (h : Within l a n) (s : Part.allBut [.loop, .call, .img] ⊆ l := by decide) : Within l a n.phaseC := by
  refine after ?_ h s
  unfold Node.phaseC
  dsimp only
  exact .setDom
    (.applyDomains
      (.mPwr
        (by
          split
          · exact .mSec
              (.mSec
                (.mJrnl
                  (.ite (.failStore (.iteThen (.loadNow (.mSys .rfl)) (.mPwr (.mRtc .rfl))))
                    (.mStor (.iteThen (.loadNow (.mSys .rfl)) (.mPwr (.mRtc .rfl)))))))
          · exact .mSec
              (.mJrnl
                (.ite (.failStore (.iteThen (.loadNow (.mSys .rfl)) (.mPwr (.mRtc .rfl))))
                  (.mStor (.iteThen (.loadNow (.mSys .rfl)) (.mPwr (.mRtc .rfl)))))))))

theorem unconfigured (h : Within l a n) (s : [.sys, .dio, .jrnl, .tide, .pair] ⊆ l := by decide) : Within l a (n.unconfigured) :=
  after (.foldl _ (.mSys .rfl) (fun _ _ => .ite .rfl (.selectMode .rfl))) h s

theorem checkAtStart {b : Bool} (h : Within l a n) (s : [.sec] ⊆ l := by decide) : Within l a ((n.checkAtStart b).2) := by
  refine after ?_ h s
  unfold Node.checkAtStart
  split
  · dsimp only
    exact .mSec .rfl
  · dsimp only
    exact .mSec .rfl

theorem fallBack {failed prev : Option Bool} (h : Within l a n) (s : [.sys, .pwr, .dio, .jrnl, .tide, .pair, .stor,
    .sec] ⊆ l := by decide) : Within l a (n.fallBack failed prev) := by
  refine after ?_ h s
  unfold Node.fallBack
  dsimp only
  split
  · exact .unconfigured .rfl
  · exact .ite
      (.mPwr (.mSec (.bankMove (by split; exacts [.bankMove (.checkAtStart .rfl), .checkAtStart .rfl]))))
      (.unconfigured (.checkAtStart .rfl))

theorem phaseD (h : Within l a n) (s : [.sys, .pwr, .dio, .jrnl, .tide, .pair, .stor, .sec] ⊆ l := by decide) : Within l a (n.phaseD) :=
    by
  refine after ?_ h s
  unfold Node.phaseD
  exact .ite .rfl
    (.ite (.unconfigured (.mSec .rfl))
      (.ite (.unconfigured .rfl)
        (by split; exacts [.fallBack .rfl, .ite (.mPwr (.mSec (.checkAtStart .rfl))) (.fallBack (.checkAtStart .rfl))])))

theorem dueNotices (h : Within l a n) (s : [.jrnl, .tide, .pair] ⊆ l := by decide) : Within l a (n.dueNotices) :=
  after (.foldl _ (.mJrnl .rfl) (fun _ _ => .notify (.rfl))) h s

theorem phaseE (h : Within l a n) (s : Part.allBut [.loop, .sec] ⊆ l := by decide) : Within l a n.phaseE := by
  refine after ?_ h s
  unfold Node.phaseE
  dsimp only
  have hi : Within (Part.allBut [.loop, .sec]) n { n with img := some (Node.imageOf (n.bankOf n.sec.runB)) } := .setImg .rfl
  exact .mPwr (.startPorts (.ite
    (.dueNotices (.setRole (.compactDue (.startBaselines (.startFabric (.syncCauses (.applyDomains (.mPwr (.foldl _ (.testSwitches hi)
      (fun _ _ => .initExc .rfl))))))))))
    (.startNumbering (.setRole (.compactDue (.startBaselines (.startFabric (.syncCauses (.applyDomains (.mPwr (.foldl _ (.testSwitches hi)
      (fun _ _ => .initExc .rfl)))))))))))) 

theorem powerUp (h : Within l a n) (s : Part.allBut [.loop] ⊆ l := by decide) : Within l a n.powerUp := by
  refine after ?_ h s
  unfold Node.powerUp
  dsimp only
  exact .ite .rfl
    (by
      split
      · split
        · exact .mClk (.rtcHold (.eachDom .rfl (fun _ _ => .setDom .rfl)))
        · exact .phaseB (.mPwr .rfl)
        · exact .rfl
      · exact .ite (.phaseC .rfl) (.phaseB .rfl)
      · exact .phaseC .rfl
      · exact .rfl
      · exact .ite .rfl (.phaseE .rfl)
      · exact .rfl
      · exact .rfl)

theorem startEnds (h : Within l a n) (s : [.sys, .pwr, .clk, .loop, .dio, .jrnl, .tide, .pair] ⊆ l := by decide) : Within l a
    (n.startEnds) :=
  after (.ite (.mTide (.irqEvent (.mPwr (.setDom (.mLoop (.selectModes .rfl)))))) .rfl) h s

theorem keepCells {o : Node} (h : Within l a n) (s : [.fab] ⊆ l := by decide) : Within l a (n.keepCells o) :=
  after (.foldl _ (.mFab .rfl) (fun _ _ => .ite (.mFab .rfl) .rfl)) h s

theorem keepCalls {o : Node} (h : Within l a n) (s : [.call] ⊆ l := by decide) : Within l a (n.keepCalls o) := by
  refine after ?_ h s
  unfold Node.keepCalls
  dsimp only
  exact .mCall .rfl

theorem keepRoster {o : Node} (h : Within l a n) (s : [.call, .jrnl, .tide, .pair] ⊆ l := by decide) : Within l a (n.keepRoster o) :=
  after (.ite .rfl (.mCall (.iteElse (.ite .rfl (.later .rfl)) (.later .rfl)))) h s

theorem keepTmpls {o : Node} (h : Within l a n) (s : [.solv] ⊆ l := by decide) : Within l a (n.keepTmpls o) :=
  after (.mSolv .rfl) h s

theorem keepLanes {o : Node} (h : Within l a n) (s : [.lane] ⊆ l := by decide) : Within l a (n.keepLanes o) :=
  after (.foldl _ .rfl (fun _ _ => .ite (.ite (.syncCause .rfl) (.haltChain .rfl)) .rfl)) h s

theorem keepChans {o : Node} (h : Within l a n) (s : [.lane] ⊆ l := by decide) : Within l a (n.keepChans o) :=
  after (.foldl _ .rfl (fun _ _ => .ite .rfl (.setLaneCh .rfl))) h s

theorem keepInputs {o : Node} (h : Within l a n) (s : [.afe, .lane, .jrnl, .tide, .pair, .free] ⊆ l := by decide) : Within l a
    (n.keepInputs o) := by
  refine after ?_ h s
  unfold Node.keepInputs
  dsimp only
  exact .foldl _ (.closeShunts (.ite (.abandonCheck .rfl) .rfl))
    (fun _ _ => .pinnedChange (by split; exacts [.setAfeExc (.setAfeCh .rfl), .setAfeExc (.iteElse (.setAfeCh .rfl) (.initExc .rfl))]))

theorem keepLoops {o : Node} (h : Within l a n) (s : [.lane, .loop] ⊆ l := by decide) : Within l a (n.keepLoops o) := by
  refine after ?_ h s
  unfold Node.keepLoops
  dsimp only
  exact .foldl _ (.mLoop .rfl) (fun _ _ => by split; exacts [.rfl, .ite .rfl (.setLaneCh .rfl)])

theorem keepPins {o : Node} (h : Within l a n) (s : [.dio] ⊆ l := by decide) : Within l a (n.keepPins o) := by
  refine after ?_ h s
  unfold Node.keepPins
  dsimp only
  exact .mDio .rfl

theorem keptEntries (h : Within l a n) (s : [.stor] ⊆ l := by decide) : Within l a n.keptEntries := by
  refine after ?_ h s
  unfold Node.keptEntries
  dsimp only
  exact .rosterEntry
    (.foldl _
      (.foldl _ .rfl (fun _ _ => by split; exacts [.ckpt .rfl, .rfl]))
      (fun _ _ => .iteElse (.ite (.ckpt .rfl) .rfl) (.ckpt .rfl)))

theorem keepRole {o : Node} (h : Within l a n) (s : [.fab, .pair] ⊆ l := by decide) : Within l a (n.keepRole o) :=
  after (.ite .rfl (.ite (.setRole .rfl) (.setRole .rfl))) h s

theorem applyImage {img : Image} (h : Within l a n) (s : Part.allBut [.sec] ⊆ l := by decide) : Within l a (n.applyImage img) := by
  refine after ?_ h s
  unfold Node.applyImage
  dsimp only
  exact .applyDomains (.keptEntries (.keepRole (.ite
    (.keepPins (.keepLoops (.keepLanes (.keepChans (.keepInputs (.keepTmpls (.keepRoster (.keepCalls (.keepCells
      (.setImg (.sweepAbort (.endDioForces (.endAoForces .rfl)))))))))))))
    (.remapPorts (.keepPins (.keepLoops (.keepLanes (.keepChans (.keepInputs (.keepTmpls (.keepRoster (.keepCalls (.keepCells
      (.setImg (.sweepAbort (.endDioForces (.endAoForces .rfl)))))))))))))))))

theorem firstOf {l' : List RecBody} (h : Within l a n) (s : [.jrnl, .tide, .pair] ⊆ l := by decide) : Within l a (n.firstOf l') :=
  after (.ite (.mJrnl .rfl) (.foldl _ .rfl (fun _ _ => .notify (.rfl)))) h s

theorem activationEnds (h : Within l a n) (s : [.sys, .sec] ⊆ l := by decide) : Within l a (n.activationEnds) :=
  after (.irqEvent (.secFlag (.mSec .rfl))) h s

theorem activationRefused {code : ℕ} (h : Within l a n) (s : [.sys, .jrnl, .tide, .pair, .sec] ⊆ l := by decide) : Within l a
    (n.activationRefused code) :=
  after (.stepOne (.imgResult (.activationEnds .rfl))) h s

theorem discardTunes (h : Within l a n) (s : [.fab] ⊆ l := by decide) : Within l a (n.discardTunes) :=
  after (.ite .rfl (.mFab .rfl)) h s

theorem retagAll {old new : ℕ} (h : Within l a n) (s : [.jrnl, .pair] ⊆ l := by decide) : Within l a (n.retagAll old new) := by
  refine after ?_ h s
  unfold Node.retagAll
  dsimp only
  exact .mPair (.mJrnl .rfl)

theorem takeImage {b : Bool} (h : Within l a n) (s : Part.allBut [.sec] ⊆ l := by decide) : Within l a (n.takeImage b) :=
  after (.ite (.applyImage .rfl) (.phaseE (.mSys .rfl))) h s

theorem demoteBank {b : Bool} (h : Within l a n) (s : [.stor, .sec] ⊆ l := by decide) : Within l a (n.demoteBank b) :=
  after (.ite .rfl (.iteThen (.updBank .rfl) (.appendBank .rfl))) h s

theorem activated {b : Bool} (h : Within Part.all a n) : Within Part.all a (n.activated b) :=
  after
    (.firstOf (.takeImage (.retagAll (.mSec (.activationEnds (.discardTunes (.demoteBank (.appendBank (.updBank .rfl))))))))) h (List.Subset.refl _)

theorem activateNow {b ok : Bool} (h : Within Part.all a n) : Within Part.all a (n.activateNow b ok) :=
  after (.ite (.activated .rfl) (.activationRefused (.updBank .rfl))) h (List.Subset.refl _)

theorem activationDue {t : ℕ} {ok : Bool} (h : Within Part.all a n) : Within Part.all a (n.activationDue t ok) := by
  refine after ?_ h (List.Subset.refl _)
  unfold Node.activationDue
  dsimp only
  split
  · exact .ite (.mSec .rfl) .rfl
  · exact .ite (.activationRefused (.ite (.mSec .rfl) .rfl)) (.iteThen (.ite (.mSec .rfl) .rfl) (.activateNow .rfl))

theorem slackTimers (h : Within l a n) (s : [.fab, .jrnl, .tide, .pair] ⊆ l := by decide) : Within l a (n.slackTimers) :=
  after (.later (.foldl _ .rfl (fun _ _ => .setPoint .rfl))) h s

theorem slackOver (h : Within l a n) (s : [.clk] ⊆ l := by decide) : Within l a (n.slackOver) :=
  after (.mClk .rfl) h s

theorem takeoverAt {t : ℕ} (h : Within l a n) (s : [.fab, .call, .jrnl, .tide, .pair, .ext, .stor, .sec] ⊆ l := by decide) : Within l a
    (n.takeoverAt t) := by
  refine after ?_ h s
  unfold Node.takeoverAt
  split
  · exact .ite (.portsRefresh (.resolveRoster (.takeDuty .rfl))) .rfl
  · exact .rfl

theorem issueFirst (h : Within l a n) (s : [.jrnl] ⊆ l := by decide) : Within l a (n.issueFirst) :=
  after (.foldl _ (.mJrnl .rfl) (fun _ _ => .issueNow (.rfl))) h s

theorem stepFirst {t : ℕ} (h : Within Part.all a n) : Within Part.all a (n.stepFirst t) :=
  after (.issueFirst (.iteThen (.issueStart .rfl) (.applyTunes (.activationDue .rfl)))) h (List.Subset.refl _)

theorem snapshot (h : Within l a n) (s : [.call] ⊆ l := by decide) : Within l a (n.snapshot) :=
  after (.mCall .rfl) h s

theorem showFar (h : Within l a n) (s : [.ext] ⊆ l := by decide) : Within l a (n.showFar) :=
  after (.mExt .rfl) h s

theorem showSources (h : Within l a n) (s : [.fab, .ext] ⊆ l := by decide) : Within l a (n.showSources) :=
  after (.showFar (.mFab .rfl)) h s

theorem issueReceived (h : Within l a n) (s : [.jrnl, .pair] ⊆ l := by decide) : Within l a (n.issueReceived) :=
  after (.foldl _ (.mPair .rfl) (fun _ _ => .issueNow (.rfl))) h s

theorem issueLate (h : Within l a n) (s : [.jrnl, .pair] ⊆ l := by decide) : Within l a (n.issueLate) :=
  after (.issueReceived (.issueDue (.issueGaps .rfl))) h s

theorem commandAll (h : Within l a n) (s : [.loop, .dio, .free] ⊆ l := by decide) : Within l a (n.commandAll) :=
  after (.commandIslands (.commandOutputs .rfl)) h s

theorem shelfEntries (h : Within l a n) (s : [.stor] ⊆ l := by decide) : Within l a (n.shelfEntries) :=
  after (.foldl _ .rfl (fun _ _ => .ite (.ckpt .rfl) .rfl)) h s

theorem releaseDom {d : Domain} (h : Within l a n) (s : [.clk, .lane, .dio, .jrnl, .tide, .pair, .ext] ⊆ l := by decide) : Within l a
    (n.releaseDom d) := by
  refine after ?_ h s
  unfold Node.releaseDom
  dsimp only
  exact .ite (by split; exacts [.idleEnds (.selectModes (.setDom .rfl)), .syncsReleased (.setDom .rfl), .setDom .rfl]) .rfl

theorem tickEnds (h : Within l a n) (s : [.sys, .pwr, .clk, .afe, .lane, .loop, .dio, .jrnl, .tide, .pair, .ext] ⊆ l := by decide) :
    Within l a (n.tickEnds) :=
  after
    (.startEnds
      (.eachDom (.mDio (.foldl _ (.foldl _ (.refreshDue .rfl) (fun _ _ => .updPort .rfl)) (fun _ _ => .tickCheck (.rfl))))
        (fun _ _ => .releaseDom (.rfl)))) h s

theorem dutyTick {t : ℕ} (h : Within Part.all a n) : Within Part.all a (n.dutyTick t) := by
  refine after ?_ h (List.Subset.refl _)
  unfold Node.dutyTick
  dsimp only
  exact .iteThen
    (.tickEnds
      (.iteThen
        (.idleAlerts
          (.handOver
            (.invokeAll
              (.commandAll
                (.issueLate
                  (.iteThen
                    (.callStep
                      (.showSources
                        (.recordCells
                          (.evalCells
                            (.applyCommands (.mCall (.panelEdges (.snapshot (.stepFirst (.ite (.slackOver (.slackTimers .rfl)) .rfl))))))))))
                    (.later .rfl)))))))
        (.boundaryCopy (.shelfEntries .rfl))))
    (.wakeNow .rfl)

theorem startNotice (h : Within l a n) (s : [.jrnl, .tide, .pair] ⊆ l := by decide) : Within l a (n.startNotice) :=
  after (.ite (.notify .rfl) .rfl) h s

theorem standbyTick {t : ℕ} (h : Within Part.all a n) : Within Part.all a (n.standbyTick t) :=
  after
    (.tickEnds (.commandAll (.showFar (.mCall (.iteThen (.startNotice (.slackOver .rfl)) (.activationDue .rfl)))))) h (List.Subset.refl _)

theorem demotionTick {cause : ℕ} (h : Within l a n) (s : Part.allBut [.rtc, .call, .solv, .stor, .sec, .img] ⊆ l := by decide) : Within
    l a (n.demotionTick cause) :=
  after (.tickEnds (.commandAll (.handOver (.demoteNow .rfl)))) h s

theorem tickWork {t : ℕ} (h : Within Part.all a n) : Within Part.all a (n.tickWork t) := by
  refine after ?_ h (List.Subset.refl _)
  unfold Node.tickWork
  dsimp only
  exact .ite (.mClk .rfl)
    (.ite .rfl
      (.ite (.demotionTick (.mPwr .rfl)) (.ite (.dutyTick (.takeoverAt (.mPwr .rfl))) (.standbyTick (.takeoverAt (.mPwr .rfl))))))

theorem firstImage {t : ℕ} (h : Within Part.all a n) : Within Part.all a (n.firstImage t) :=
  after (.ite (.activationDue .rfl) .rfl) h (List.Subset.refl _)

theorem tick (h : Within Part.all a n) : Within Part.all a (n.tick) :=
  after (.ite (.writeThrough (.tickWork (.firstImage (.mRtc (.setNow .rfl))))) .rfl) h (List.Subset.refl _)

theorem epoch (h : Within l a n) (s : [.pwr, .clk, .rtc, .afe, .lane, .solv, .jrnl, .tide, .pair, .stor] ⊆ l := by decide) : Within l a
    (n.epoch) :=
  after
    (.ite (.mPwr (.mClk (.mSolv (.mSolv (.syncsDue (.baselineEntries (.closeResults (.iteElse (.setNow .rfl) (.loadRtc .rfl))))))))) .rfl) h s

theorem fabError {uncorrectable : Bool} (h : Within l a n) (s : Part.allBut [.pwr, .loop, .call, .stor, .sec, .img] ⊆ l := by decide) :
    Within l a (n.fabError uncorrectable) :=
  after (.ite (.eachDom .rfl (fun _ _ => .enterSlack .rfl)) (.mFab .rfl)) h s

theorem laneRead {l' o : ℕ} (h : Within l a n) (s : [.lane] ⊆ l := by decide) : Within l a (n.laneRead l' o) := by
  refine after ?_ h s
  unfold Node.laneRead
  split
  · exact .updLane .rfl
  · exact .updLane .rfl
  · exact .updLane .rfl
  · exact .rfl

theorem readEffect {a' : ℕ} (h : Within l a n) (s : [.sys, .rtc, .lane, .solv, .jrnl, .pair] ⊆ l := by decide) : Within l a
    (n.readEffect a') := by
  refine after ?_ h s
  unfold Node.readEffect
  dsimp only
  split
  · exact .latchLo .rfl
  · exact .ite (.laneRead .rfl) (by split; exacts [.setLaneCh .rfl, .ite (.memLatch .rfl) (.ite (.memAdvance .rfl) .rfl)])

theorem readReg {a' : ℕ} (h : Within l a n) (s : [.sys, .pwr, .rtc, .lane, .solv, .jrnl, .pair, .free] ⊆ l := by decide) : Within l a ((n.readReg a').2) := by
  refine after ?_ h s
  unfold Node.readReg
  exact .readEffect (.iteThen .rfl (.sampleVolt .rfl))

theorem askReset {key : ℕ} (h : Within l a n) (s : [.sys] ⊆ l := by decide) : Within l a (n.askReset key) := by
  refine after ?_ h s
  unfold Node.askReset
  dsimp only
  exact .mSys .rfl

theorem clearErrors (h : Within l a n) (s : [.sys] ⊆ l := by decide) : Within l a (n.clearErrors) :=
  after (.mSys .rfl) h s

theorem writeSys {a' : ℕ} {w : Word} (h : Within l a n) (s : [.sys] ⊆ l := by decide) : Within l a (n.writeSys a' w) := by
  refine after ?_ h s
  unfold Node.writeSys
  split
  · exact .mSys .rfl
  · exact .mSys .rfl
  · split
    · exact .askReset .rfl
    · exact .clearErrors .rfl
    · exact .mSys .rfl
  · exact .mSys .rfl
  · exact .rfl

theorem writePwr {a' : ℕ} {w : Word} (h : Within l a n) (s : [.pwr] ⊆ l := by decide) : Within l a (n.writePwr a' w) := by
  refine after ?_ h s
  unfold Node.writePwr
  split
  · exact .mPwr .rfl
  · exact .modeRequest .rfl
  · exact .mPwr .rfl
  · exact .mPwr .rfl
  · exact .rfl

theorem writeClk {a' : ℕ} {w : Word} (h : Within l a n) (s : [.clk] ⊆ l := by decide) : Within l a (n.writeClk a' w) := by
  refine after ?_ h s
  unfold Node.writeClk
  split
  · exact .mClk .rfl
  · exact .clkoutSet .rfl
  · exact .mClk .rfl
  · exact .rfl

theorem writeRtc {a' : ℕ} {w : Word} (h : Within l a n) (s : [.rtc, .jrnl, .tide, .pair] ⊆ l := by decide) : Within l a (n.writeRtc a'
    w) := by
  refine after ?_ h s
  unfold Node.writeRtc
  split
  · exact .ite (.haltSet .rfl) (.haltClear .rfl)
  · exact .mRtc .rfl
  · exact .ite (.mRtc .rfl) .rfl
  · exact .leapWrite .rfl
  · exact .rfl

theorem writeAfe {a' : ℕ} {w : Word} (h : Within l a n) (s : [.afe] ⊆ l := by decide) : Within l a (n.writeAfe a' w) := by
  refine after ?_ h s
  unfold Node.writeAfe
  split
  · exact .mAfe .rfl
  · split
    · exact .checkNow .rfl
    · exact .rebase .rfl
    · exact .rfl
  · split
    · exact .writeExc .rfl
    · exact .rfl

theorem laneCommand {l' op : ℕ} (h : Within l a n) (s : [.lane, .jrnl, .tide, .pair] ⊆ l := by decide) : Within l a (n.laneCommand
    l' op) := by
  refine after ?_ h s
  unfold Node.laneCommand
  split
  · exact .laneResync .rfl
  · exact .laneFlush .rfl
  · exact .laneSuspend .rfl
  · exact .laneResume .rfl
  · exact .laneRefused .rfl

theorem writeLane {a' : ℕ} {w : Word} (h : Within l a n) (s : [.lane, .jrnl, .tide, .pair] ⊆ l := by decide) : Within l a (n.writeLane
    a' w) := by
  refine after ?_ h s
  unfold Node.writeLane
  dsimp only
  split
  · exact .mLane .rfl
  · exact .laneSync .rfl
  · exact .laneCommand .rfl
  · exact .ite (by split; exacts [.updLane .rfl, .updLane .rfl, .rfl]) .rfl

theorem writeLoop {a' : ℕ} {w : Word} (h : Within l a n) (s : [.loop, .jrnl, .tide, .pair] ⊆ l := by decide) : Within l a (n.writeLoop
    a' w) := by
  refine after ?_ h s
  unfold Node.writeLoop
  split
  · exact .mLoop .rfl
  · split
    · exact .forceIsland .rfl
    · exact .releaseIsland .rfl
    · exact .loopRefused .rfl
  · exact .rfl

theorem writeDio {a' : ℕ} {w : Word} (h : Within l a n) (s : [.dio, .jrnl, .tide, .pair] ⊆ l := by decide) : Within l a (n.writeDio a'
    w) := by
  refine after ?_ h s
  unfold Node.writeDio
  split
  · exact .mDio .rfl
  · exact .ite (.sweepStart .rfl) (.mDio .rfl)
  · split
    · exact .dioForce .rfl
    · exact .dioForce .rfl
    · exact .dioUnforce .rfl
    · exact .latchClear .rfl
    · exact .dioRefused .rfl
  · exact .rfl

theorem writeFab {a' : ℕ} {w : Word} (h : Within l a n) (s : [.fab, .tide] ⊆ l := by decide) : Within l a (n.writeFab a' w) := by
  refine after ?_ h s
  unfold Node.writeFab
  dsimp only
  split
  · exact .mFab .rfl
  · exact .fabHost .rfl
  · exact .mFab .rfl
  · exact .mFab .rfl
  · exact .windowStart .rfl
  · exact .mFab .rfl
  · exact .mFab .rfl
  · split
    · exact .mFab .rfl
    · exact .rfl

theorem writeCall {a' : ℕ} {w : Word} (h : Within l a n) (s : [.fab, .call, .tide] ⊆ l := by decide) : Within l a (n.writeCall a' w) := by
  refine after ?_ h s
  unfold Node.writeCall
  dsimp only
  split
  · exact .mCall .rfl
  · split
    · exact .callHost .rfl
    · exact .callHost .rfl
    · exact .callHost .rfl
    · exact .callHost .rfl
  · exact .rfl

theorem writeSolv {a' : ℕ} {w : Word} (h : Within l a n) (s : [.pwr, .clk, .solv, .jrnl, .tide, .pair, .free] ⊆ l := by decide) : Within
    l a (n.writeSolv a' w) := by
  refine after ?_ h s
  unfold Node.writeSolv
  split
  · exact .mSolv .rfl
  · exact .mSolv .rfl
  · exact .mSolv .rfl
  · exact .mSolv .rfl
  · exact .mSolv .rfl
  · exact .submitNow .rfl
  · exact .mSolv .rfl
  · exact .mSolv .rfl
  · exact .memStore .rfl
  · exact .mSolv .rfl
  · exact .popCq .rfl
  · exact .mSolv .rfl
  · exact .rfl

theorem writeJrnl {a' : ℕ} {w : Word} (h : Within l a n) (s : [.jrnl] ⊆ l := by decide) : Within l a (n.writeJrnl a' w) := by
  refine after ?_ h s
  unfold Node.writeJrnl
  dsimp only
  split
  · exact .mJrnl .rfl
  · exact .ite (.cursorStart .rfl) (.cursorBad .rfl)
  · exact .mJrnl .rfl
  · exact .mJrnl .rfl
  · exact .mJrnl .rfl
  · exact .rfl

theorem writeTide {a' : ℕ} {w : Word} (h : Within l a n) (s : [.rtc, .fab, .jrnl, .tide, .pair, .ext, .free] ⊆ l := by decide) : Within
    l a (n.writeTide a' w) := by
  refine after ?_ h s
  unfold Node.writeTide
  split
  · exact .mTide .rfl
  · exact .tideCommand .rfl
  · exact .rfl

theorem writePair {a' : ℕ} {w : Word} (h : Within l a n) (s : [.pair] ⊆ l := by decide) : Within l a (n.writePair a' w) := by
  refine after ?_ h s
  unfold Node.writePair
  split
  · exact .mPair .rfl
  · exact .pairCommand .rfl
  · exact .rfl

theorem writeExt {a' : ℕ} {w : Word} (h : Within l a n) (s : [.jrnl, .tide, .pair, .ext] ⊆ l := by decide) : Within l a (n.writeExt a'
    w) := by
  refine after ?_ h s
  unfold Node.writeExt
  split
  · exact .mExt .rfl
  · exact .extCommand (.clearLines .rfl)
  · exact .rfl

theorem writeStor {a' : ℕ} {w : Word} (h : Within l a n) (s : [.jrnl, .stor, .free] ⊆ l := by decide) : Within l a (n.writeStor a' w) :=
    by
  refine after ?_ h s
  unfold Node.writeStor
  split
  · exact .mStor .rfl
  · exact .ite (.probeCommand (.fresh .rfl)) (.storFlag (.mStor .rfl))
  · exact .mStor .rfl
  · exact .rfl

theorem writeImg {code : ℕ} (h : Within l a n) (s : [.loop, .dio, .jrnl, .tide, .pair, .stor, .sec] ⊆ l := by decide) : Within l a
    (n.writeImg code) := by
  refine after ?_ h s
  unfold Node.writeImg
  split
  · exact .imgErase .rfl
  · exact .imgOpen .rfl
  · exact .imgClose .rfl
  · exact .imgCheck .rfl
  · exact .imgActivate .rfl
  · exact .imgExit .rfl
  · exact .imgEnrol .rfl
  · exact .imgBadCode .rfl

theorem writeSec {a' : ℕ} {w : Word} (h : Within l a n) (s : [.rtc, .loop, .dio, .jrnl, .tide, .pair, .stor, .sec] ⊆ l := by decide) :
    Within l a (n.writeSec a' w) := by
  refine after ?_ h s
  unfold Node.writeSec
  dsimp only
  split
  · exact .mSec (.secTouch .rfl)
  · exact .unlockWrite (.secTouch .rfl)
  · exact .writeImg (.secTouch .rfl)
  · exact .mSec (.secTouch .rfl)
  · exact .imgData (.secTouch .rfl)
  · exact .mSec (.secTouch .rfl)
  · exact .secTouch .rfl

theorem writeReg {a' : ℕ} {w : Word} (h : Within l a n) (s : Part.allBut [.img] ⊆ l := by decide) : Within l a (n.writeReg a' w) :=
  after
    (.ite (.writeSys .rfl)
      (.ite (.writePwr .rfl)
        (.ite (.writeClk .rfl)
          (.ite (.writeRtc .rfl)
            (.ite (.writeAfe .rfl)
              (.ite (.writeLane .rfl)
                (.ite (.writeLoop .rfl)
                  (.ite (.writeDio .rfl)
                    (.ite (.writeFab .rfl)
                      (.ite (.writeCall .rfl)
                        (.ite (.writeSolv .rfl)
                          (.ite (.writeJrnl .rfl)
                            (.ite (.writeTide .rfl)
                              (.ite (.writePair .rfl) (.ite (.writeExt .rfl) (.ite (.writeStor .rfl) (.writeSec .rfl))))))))))))))))) h s

theorem sendResp {r : Resp} (h : Within l a n) (s : [.sys] ⊆ l := by decide) : Within l a (n.sendResp r) :=
  after (.iteThen (.mSys .rfl) (.irqEvent .rfl)) h s

theorem frameRuns {f : HostFrame} (h : Within l a n) (s : Part.allBut [.img] ⊆ l := by decide) : Within l a ((n.frameRuns f).2) := by
  refine after ?_ h s
  unfold Node.frameRuns
  split
  · exact .rfl
  · exact .readReg .rfl
  · exact .writeReg .rfl

theorem frameDone {f : HostFrame} {k code : ℕ} (h : Within l a n) (s : Part.allBut [.img] ⊆ l := by decide) : Within l a (n.frameDone f k code) := by
  refine after ?_ h s
  unfold Node.frameDone
  by_cases hc : code = 0
  · simp only [hc, if_true]
    exact .mSys (.frameRuns .rfl)
  · simp only [hc, if_false]
    exact .mSys .rfl

theorem answer {f : HostFrame} {code : ℕ} (h : Within l a n) (s : Part.allBut [.img] ⊆ l := by decide) : Within l a (n.answer f code) :=
  after (.ite (.mSys (.mSys (.sendResp .rfl))) (.frameDone (.mSys (.sendResp .rfl)))) h s

theorem earlyFrame (h : Within l a n) (s : [.sys] ⊆ l := by decide) : Within l a n.earlyFrame := by
  refine after ?_ h s
  unfold Node.earlyFrame
  split
  · exact .sendResp .rfl
  · exact .sendResp .rfl
  · exact .rfl

theorem hostFrame {f : HostFrame} {g : FrameForm} (h : Within l a n) (s : Part.allBut [.img] ⊆ l := by decide) : Within l a (n.hostFrame
    f g) :=
  after (.ite .rfl (.ite (.earlyFrame .rfl) (.answer .rfl))) h s

theorem lateFrame (h : Within l a n) (s : Part.allBut [.img] ⊆ l := by decide) : Within l a (n.lateFrame) :=
  after (.ite .rfl (.ite (.earlyFrame .rfl) (.answer .rfl))) h s

theorem frameResumes (h : Within l a n) (s : Part.allBut [.img] ⊆ l := by decide) : Within l a n.frameResumes := by
  refine after ?_ h s
  unfold Node.frameResumes
  split
  · exact .ite .rfl (.frameDone .rfl)
  · exact .rfl

theorem portGone (h : Within l a n) (s : [.sys] ⊆ l := by decide) : Within l a (n.portGone) :=
  after (.mSys .rfl) h s

theorem resetNow (h : Within Part.all a n) : Within Part.all a (n.resetNow) :=
  after (.ite (.restart (.selectModes (.flushAll (.iteThen (.mRtc (.setNow .rfl)) (.leaveRing .rfl))))) .rfl) h (List.Subset.refl _)

theorem endAoForce {a' : ℕ} (h : Within l a n) (s : [.loop, .jrnl, .tide, .pair] ⊆ l := by decide) : Within l a (n.endAoForce a') :=
  after (.ite (.aoRecord (.setAo .rfl)) .rfl) h s

theorem endDioForce {e : ℕ × Option Bool} (h : Within l a n) (s : [.dio, .jrnl, .tide, .pair] ⊆ l := by decide) : Within l a
    (n.endDioForce e) :=
  after (.pinRecord (.mDio .rfl)) h s

theorem maintEnded {cause : ℕ} (h : Within l a n) (s : [.jrnl, .tide, .pair, .sec] ⊆ l := by decide) : Within l a (n.maintEnded cause) :=
  after (.later (.mSec .rfl)) h s

theorem noteCjBank {k : ℕ} (h : Within l a n) (s : [.afe] ⊆ l := by decide) : Within l a (n.noteCjBank k) :=
  after (.ite .rfl (.setCj .rfl)) h s

theorem cjRecord {k : ℕ} {detect : Bool} (h : Within l a n) (s : [.jrnl, .tide, .pair] ⊆ l := by decide) : Within l a (n.cjRecord k
    detect) :=
  after (.afeRecord .rfl) h s

theorem takeChReset {l' : ℕ} {i : InputCfg} (h : Within l a n) (s : [.lane] ⊆ l := by decide) : Within l a (n.takeChReset l' i) :=
  after (.ite (.resetChannel (.updLane .rfl)) .rfl) h s

theorem atSlot {l' slot : ℕ} (h : Within l a n) (s : [.lane] ⊆ l := by decide) : Within l a (n.atSlot l' slot) :=
  after (.updLane .rfl) h s

theorem converting {l' slot : ℕ} {i : InputCfg} (h : Within l a n) (s : [.lane] ⊆ l := by decide) : Within l a (n.converting l'
    slot i) :=
  after (.convert (.atSlot (.takeChReset .rfl))) h s

end Sys2Proof.Machine.Within
end

section
/-! What every command and every step keeps. -/

namespace Sys2Proof.Machine
/-- Each command answers a next state with the queue as it was, the fuse not unblown and the solver memory canonical. -/
theorem exec_answers (c : Instr) (s : State) : ∃ m, Answers c s m ∧ Within Part.all s.node m := by
  cases c with
  | tickBoundary => exact ⟨_, rfl, .tick .rfl⟩
  | epochBoundary => exact ⟨_, rfl, .epoch .rfl⟩
  | onDelayExpiry _ => exact ⟨_, rfl, .ifEvaluates .rfl (fun _ => .delayExpiry .rfl)⟩
  | offDelayExpiry _ => exact ⟨_, rfl, .ifEvaluates .rfl (fun _ => .delayExpiry .rfl)⟩
  | suppHoldExpiry _ => exact ⟨_, rfl, .ifEvaluates .rfl (fun _ => .holdExpiry .rfl)⟩
  | shelveExpiry _ => exact ⟨_, rfl, .ifEvaluates .rfl (fun _ => .shelfExpiry .rfl)⟩
  | ack _ _ => exact ⟨_, rfl, .fabCommand .rfl⟩
  | ackGroup _ _ => exact ⟨_, rfl, .fabCommand .rfl⟩
  | shelve _ _ => exact ⟨_, rfl, .fabCommand .rfl⟩
  | unshelve _ _ => exact ⟨_, rfl, .fabCommand .rfl⟩
  | resetPoint _ _ => exact ⟨_, rfl, .fabCommand .rfl⟩
  | outOfService _ _ => exact ⟨_, rfl, .fabCommand .rfl⟩
  | inService _ _ => exact ⟨_, rfl, .fabCommand .rfl⟩
  | foReset _ _ => exact ⟨_, rfl, .fabCommand .rfl⟩
  | winRead => exact ⟨_, rfl, .windowStart .rfl⟩
  | winWrite => exact ⟨_, rfl, .windowStart .rfl⟩
  | winOpDone => exact ⟨_, rfl, .windowDone .rfl⟩
  | tunableApply => exact ⟨_, rfl, .ite .rfl (.applyTunes .rfl)⟩
  | fabEccError _ => exact ⟨_, rfl, .fabError .rfl⟩
  | callAck _ _ => exact ⟨_, rfl, .callCommand .rfl⟩
  | setDuty _ => exact ⟨_, rfl, .callHost .rfl⟩
  | setPresent _ => exact ⟨_, rfl, .callHost .rfl⟩
  | dmStart => exact ⟨_, rfl, .callHost .rfl⟩
  | dmStop => exact ⟨_, rfl, .callHost .rfl⟩
  | dmReset => exact ⟨_, rfl, .callHost .rfl⟩
  | dmPrewarn =>
    refine ⟨_, rfl, ?_⟩
    dsimp only
    split
    · exact .rfl
    · exact .ite (.writeThrough (.handOver (.dmMove (.mCall .rfl)))) .rfl
  | dmExpiry => exact ⟨_, rfl, .ite (.writeThrough (.handOver (.dmMove (.mCall .rfl)))) .rfl⟩
  | rungTimerExpiry _ =>
    refine ⟨_, rfl, ?_⟩
    dsimp only
    split
    · exact .rfl
    · exact .ite (.writeThrough (.handOver (.bridgeUpdate (.rungExpires .rfl)))) .rfl
  | secUnlock _ _ => exact ⟨_, rfl, .unlockWrite .rfl⟩
  | unlockLockoutExpiry => exact ⟨_, rfl, .mSec .rfl⟩
  | keySwitchChange _ => exact ⟨_, rfl, .keyLoop .rfl⟩
  | keySwitchSettled => exact ⟨_, rfl, .keySettled .rfl⟩
  | maintTimeout => exact ⟨_, rfl, .leaveMaint .rfl⟩
  | erase => exact ⟨_, rfl, .imgErase .rfl⟩
  | eraseDone => exact ⟨_, rfl, .imgErased .rfl⟩
  | openBank => exact ⟨_, rfl, .imgOpen .rfl⟩
  | closeBank => exact ⟨_, rfl, .imgClose .rfl⟩
  | checkBank => exact ⟨_, rfl, .imgCheck .rfl⟩
  | checkDone => exact ⟨_, rfl, .imgChecked .rfl⟩
  | activate => exact ⟨_, rfl, .imgActivate .rfl⟩
  | exitMaint => exact ⟨_, rfl, .imgExit .rfl⟩
  | enrol => exact ⟨_, rfl, .imgEnrol .rfl⟩
  | secImgData _ => exact ⟨_, rfl, .imgData .rfl⟩
  | activationConfirmTimeout => exact ⟨_, rfl, .ite (.activationRefused (.setNow .rfl)) .rfl⟩
  | activationApply _ =>
    refine ⟨_, rfl, ?_⟩
    dsimp only
    split
    · exact .rfl
    · exact .ite (.activateNow (.setNow .rfl)) .rfl
  | vinLow _ => exact ⟨_, rfl, .enterHoldup .rfl⟩
  | supplyValid => exact ⟨_, rfl, .supplyValid .rfl⟩
  | ovWarning => exact ⟨_, rfl, .mPwr .rfl⟩
  | ovpTrip _ => exact ⟨_, rfl, .overTrip .rfl⟩
  | ovpRelease => exact ⟨_, rfl, .overRelease .rfl⟩
  | holdupEntry _ => exact ⟨_, rfl, .ite .rfl (.enterHoldup .rfl)⟩
  | holdupSolverAbort => exact ⟨_, rfl, .solverOff .rfl⟩
  | journalFlushDone => exact ⟨_, rfl, .flushDone .rfl⟩
  | holdupPark => exact ⟨_, rfl, .park .rfl⟩
  | holdupStoreExhausted => exact ⟨_, rfl, .storeExhausted .rfl⟩
  | holdupRestart => exact ⟨_, rfl, .holdupRestarts .rfl⟩
  | storeCharged => exact ⟨_, rfl, .ite (.mRtc (.mPwr .rfl)) .rfl⟩
  | bor => exact ⟨_, rfl, .brownOut .rfl⟩
  | modeRun => exact ⟨_, rfl, .modeRequest .rfl⟩
  | modeSleep => exact ⟨_, rfl, .modeRequest .rfl⟩
  | modeDeepSleep => exact ⟨_, rfl, .modeRequest .rfl⟩
  | modeChangeApply => exact ⟨_, rfl, .modeApplies .rfl⟩
  | deepWake _ => exact ⟨_, rfl, .wake .rfl⟩
  | powerUpSequence => exact ⟨_, rfl, .powerUp .rfl⟩
  | startupBankCheck => exact ⟨_, rfl, .phaseD .rfl⟩
  | rcCountComplete _ => exact ⟨_, rfl, .ite (.ite (.rcCounted .rfl) (.rcCountFails .rfl)) .rfl⟩
  | xtalCountComplete => exact ⟨_, rfl, .xtalCounted .rfl⟩
  | pllLockComplete => exact ⟨_, rfl, .locked .rfl⟩
  | pllLockFail => exact ⟨_, rfl, .lockFails .rfl⟩
  | xtalPllTrip _ => exact ⟨_, rfl, .ite (.tripPll .rfl) (.tripXtal .rfl)⟩
  | rcTrip => exact ⟨_, rfl, .tripRc .rfl⟩
  | lseTrip => exact ⟨_, rfl, .tripLse .rfl⟩
  | rcTrimWindow _ _ _ => exact ⟨_, rfl, .trimWindow .rfl⟩
  | clockSwitchDone _ => exact ⟨_, rfl, .switched .rfl⟩
  | forcedSwitch _ => exact ⟨_, rfl, .forced .rfl⟩
  | rampStep _ => exact ⟨_, rfl, .frameResumes (.rampNext .rfl)⟩
  | returnPoint => exact ⟨_, rfl, .returnStart .rfl⟩
  | latchRestart => exact ⟨_, rfl, .latchRestarts .rfl⟩
  | clkoutWrite _ => exact ⟨_, rfl, .clkoutSet .rfl⟩
  | rtcHaltSet => exact ⟨_, rfl, .haltSet .rfl⟩
  | rtcHaltClear => exact ⟨_, rfl, .haltClear .rfl⟩
  | haltTimeout => exact ⟨_, rfl, .haltTimeout .rfl⟩
  | leapCntWrite _ => exact ⟨_, rfl, .leapWrite .rfl⟩
  | leapCntApply => exact ⟨_, rfl, .leapApply .rfl⟩
  | timeStep => exact ⟨_, rfl, .timeStep .rfl⟩
  | slewEnd => exact ⟨_, rfl, .slewEnd .rfl⟩
  | lowBattery => exact ⟨_, rfl, .mRtc .rfl⟩
  | timeRefLoss => exact ⟨_, rfl, .ite (.noReference .rfl) .rfl⟩
  | laneVisit _ _ _ => exact ⟨_, rfl, .visit .rfl⟩
  | resultPublish _ _ _ _ _ => exact ⟨_, rfl, .output .rfl⟩
  | laneUnlock _ => exact ⟨_, rfl, .ite (.updLane .rfl) .rfl⟩
  | syncReset _ _ => exact ⟨_, rfl, .syncAt .rfl⟩
  | laneSyncCmd _ _ => exact ⟨_, rfl, .laneSync .rfl⟩
  | resync _ => exact ⟨_, rfl, .laneResync .rfl⟩
  | flush _ => exact ⟨_, rfl, .laneFlush .rfl⟩
  | suspend _ => exact ⟨_, rfl, .laneSuspend .rfl⟩
  | laneStop _ => exact ⟨_, rfl, .laneStops .rfl⟩
  | resume _ => exact ⟨_, rfl, .laneResume .rfl⟩
  | resultLoRead _ => exact ⟨_, rfl, .updLane .rfl⟩
  | resultHiRead _ => exact ⟨_, rfl, .updLane .rfl⟩
  | fifoRead _ => exact ⟨_, rfl, .updLane .rfl⟩
  | engLoRead _ => exact ⟨_, rfl, .setLaneCh .rfl⟩
  | engHiRead _ => exact ⟨_, rfl, .rfl⟩
  | cjRead _ _ => exact ⟨_, rfl, .readCj .rfl⟩
  | checkDue _ =>
    refine ⟨_, rfl, ?_⟩
    dsimp only
    split
    · exact .rfl
    · exact .ite (.setAfeCh .rfl) .rfl
  | impedanceCheckStart _ => exact ⟨_, rfl, .startCheck .rfl⟩
  | checkGapTimeout _ => exact ⟨_, rfl, .takeOffLane .rfl⟩
  | impedanceCheckEnd _ => exact ⟨_, rfl, .endCheck .rfl⟩
  | checkNow _ => exact ⟨_, rfl, .checkNow .rfl⟩
  | rebase _ => exact ⟨_, rfl, .rebase .rfl⟩
  | imuSelfTest _ => exact ⟨_, rfl, .imuTest .rfl⟩
  | excitationStep _ => exact ⟨_, rfl, .excStep .rfl⟩
  | excWrite _ _ => exact ⟨_, rfl, .writeExc .rfl⟩
  | excApply _ => exact ⟨_, rfl, .applyExc .rfl⟩
  | islandFrame _ _ => exact ⟨_, rfl, .islandFrame .rfl⟩
  | islandReply _ _ _ => exact ⟨_, rfl, .islandReply .rfl⟩
  | islandHeartbeatExpiry _ => exact ⟨_, rfl, .ite (.setIsle .rfl) .rfl⟩
  | islandPowerUp _ => exact ⟨_, rfl, .ite (.setIsle .rfl) .rfl⟩
  | islandPowerLoss _ => exact ⟨_, rfl, .setIsle .rfl⟩
  | loopForce _ _ => exact ⟨_, rfl, .forceIsland .rfl⟩
  | loopRelease _ => exact ⟨_, rfl, .releaseIsland .rfl⟩
  | dioFrame _ _ => exact ⟨_, rfl, .frameOut .rfl⟩
  | dioReply _ _ _ => exact ⟨_, rfl, .replyIn .rfl⟩
  | inputFilterChange _ _ => exact ⟨_, rfl, .onField .rfl⟩
  | wireBreak _ _ => exact ⟨_, rfl, .onField .rfl⟩
  | outputLatchOff _ _ => exact ⟨_, rfl, .onField .rfl⟩
  | backfeed _ _ => exact ⟨_, rfl, .onField .rfl⟩
  | watchdogExpiry _ => exact ⟨_, rfl, .ite (.sweepAbort (.setField .rfl)) .rfl⟩
  | fieldSupplyLoss _ => exact ⟨_, rfl, .iteThen (.sweepAbort (.setField .rfl)) (.judgeFault (.setLinkLost .rfl))⟩
  | dioSweep _ => exact ⟨_, rfl, .sweepStart .rfl⟩
  | sweepSlotEnd => exact ⟨_, rfl, .slotEnd .rfl⟩
  | dioForceOn _ => exact ⟨_, rfl, .dioForce .rfl⟩
  | dioForceOff _ => exact ⟨_, rfl, .dioForce .rfl⟩
  | dioRelease _ => exact ⟨_, rfl, .dioUnforce .rfl⟩
  | clearLatch _ => exact ⟨_, rfl, .latchClear .rfl⟩
  | submit _ _ => exact ⟨_, rfl, .submitNow (.setNow .rfl)⟩
  | jobEnd _ => exact ⟨_, rfl, .jobDone (.setNow .rfl)⟩
  | deadlineExpiry _ => exact ⟨_, rfl, .expire (.setNow .rfl)⟩
  | solverFaultDetected => exact ⟨_, rfl, .ite (.hwFault .rfl) (.ite .rfl (.mSolv .rfl))⟩
  | cqPop _ => exact ⟨_, rfl, .popCq .rfl⟩
  | memWrite _ => exact ⟨_, rfl, .memStore .rfl⟩
  | memRead => exact ⟨_, rfl, .memLatch .rfl⟩
  | journalFlashWrite => exact ⟨_, rfl, .storeRuns .rfl (fun _ => .journalStart (.rfl))⟩
  | ramEccError _ => exact ⟨_, rfl, .ramError .rfl⟩
  | seek => exact ⟨_, rfl, .cursorStart .rfl⟩
  | next => exact ⟨_, rfl, .cursorStart .rfl⟩
  | newest => exact ⟨_, rfl, .cursorStart .rfl⟩
  | oldest => exact ⟨_, rfl, .cursorStart .rfl⟩
  | cursorLoadDone => exact ⟨_, rfl, .cursorDone .rfl⟩
  | loLatchRead _ => exact ⟨_, rfl, .latchLo .rfl⟩
  | beaconSend => exact ⟨_, rfl, .sendBeacons .rfl⟩
  | beaconRx _ _ => exact ⟨_, rfl, .ite (by split; exacts [.hearBeacon .rfl, .badFrame .rfl]) .rfl⟩
  | linkDown _ => exact ⟨_, rfl, .linkFails (.clearLine .rfl)⟩
  | linkUp _ => exact ⟨_, rfl, .linkRises .rfl⟩
  | linkRestored _ => exact ⟨_, rfl, .ite (.mTide .rfl) .rfl⟩
  | rotationBoundary => exact ⟨_, rfl, .rotation (.clearLine .rfl) (fun _ _ => .passHeld (.rfl))⟩
  | token _ => exact ⟨_, rfl, .tokenIn (.clearLine .rfl) (fun _ _ => .passHeld (.rfl))⟩
  | holdEnd => exact ⟨_, rfl, .holdEnds (.clearLine .rfl)⟩
  | claim _ => exact ⟨_, rfl, .claimIn (.clearLine .rfl)⟩
  | tokenSilence => exact ⟨_, rfl, .tokenSilence (.clearLine .rfl)⟩
  | status _ _ _ => exact ⟨_, rfl, .statusIn .rfl⟩
  | time _ _ _ _ _ _ => exact ⟨_, rfl, .timeIn .rfl⟩
  | drop _ _ _ => exact ⟨_, rfl, .hearNow .rfl (fun _ => .frameLost .rfl)⟩
  | splice _ _ _ _ => exact ⟨_, rfl, .spliceIn .rfl⟩
  | records _ _ _ => exact ⟨_, rfl, .hearOrdered .rfl⟩
  | command _ _ _ => exact ⟨_, rfl, .hearOrdered .rfl⟩
  | frameReturn _ _ => exact ⟨_, rfl, .frameBack (.clearLine .rfl)⟩
  | fseqMissingTimeout _ _ => exact ⟨_, rfl, .ite .rfl (.frameLost .rfl)⟩
  | insertRequest => exact ⟨_, rfl, .requestInsert .rfl⟩
  | listenTimeout => exact ⟨_, rfl, .formRing .rfl⟩
  | leave => exact ⟨_, rfl, .tideCommand .rfl⟩
  | join => exact ⟨_, rfl, .tideCommand .rfl⟩
  | epochData _ _ _ _ _ _ _ _ => exact ⟨_, rfl, .hearOrdered .rfl⟩
  | epochCommit _ _ _ _ _ _ _ _ _ _ => exact ⟨_, rfl, .hearOrdered .rfl⟩
  | epochAck _ _ _ _ _ => exact ⟨_, rfl, .hearOrdered .rfl⟩
  | highQuery _ _ _ => exact ⟨_, rfl, .hearNow .rfl (fun _ => .ite (.sendFrame .rfl) .rfl)⟩
  | highReply _ _ _ _ => exact ⟨_, rfl, .hearNow .rfl (fun _ => .queryReply .rfl)⟩
  | copyMissed => exact ⟨_, rfl, .copyMissed .rfl⟩
  | queryWaitEnd => exact ⟨_, rfl, .queryEnd .rfl⟩
  | takeDuty => exact ⟨_, rfl, .ite (.tick .rfl) .rfl⟩
  | demote => exact ⟨_, rfl, .ite .rfl (.ite (.demoteNow .rfl) (.tick .rfl))⟩
  | switchover => exact ⟨_, rfl, .pairCommand .rfl⟩
  | ackSentence _ _ => exact ⟨_, rfl, .takeAck (.clearLines .rfl)⟩
  | acnSentence _ _ _ _ => exact ⟨_, rfl, .takeAcn (.clearLines .rfl)⟩
  | alfRepeat _ => exact ⟨_, rfl, .repeatAlf (.clearLines .rfl)⟩
  | alcCycle _ => exact ⟨_, rfl, .cycleAlc (.clearLines .rfl)⟩
  | alrRepeat _ => exact ⟨_, rfl, .repeatAlr (.clearLines .rfl)⟩
  | sentenceSent _ => exact ⟨_, rfl, .sentenceEnds (.clearLines .rfl)⟩
  | addressClaim _ _ => exact ⟨_, rfl, .takeClaim (.clearLines .rfl)⟩
  | isoRequest _ => exact ⟨_, rfl, .isoAnswer (.clearLines .rfl)⟩
  | heartbeat => exact ⟨_, rfl, .iteThen (.clearLines .rfl) (.sendOn .rfl)⟩
  | alertRepeat => exact ⟨_, rfl, .iteThen (.clearLines .rfl) (.foldl _ .rfl (fun _ _ => .ite (.emitN2k .rfl) .rfl))⟩
  | alertResponse _ _ _ =>
    exact ⟨_, rfl, .ite (.clearLines .rfl)
      (by
        split
        · exact .rejected (.clearLines .rfl)
        · exact .ite (.ackItem (.countCmd (.acceptedOn (.clearLines .rfl)))) (.rejected (.clearLines .rfl)))⟩
  | engineRapidUpdate => exact ⟨_, rfl, .sendEngine (.clearLines .rfl)⟩
  | engineDynamic => exact ⟨_, rfl, .sendEngine (.clearLines .rfl)⟩
  | arpIcmp _ _ => exact ⟨_, rfl, .iteThen (.clearLines .rfl) (.answerOn .rfl)⟩
  | udpbcDatagram _ _ _ => exact ⟨_, rfl, .takeDatagram (.clearLines .rfl)⟩
  | readCoils _ _ _ _ => exact ⟨_, rfl, .modReadFn (.clearLines .rfl)⟩
  | readDiscreteInputs _ _ _ _ => exact ⟨_, rfl, .modReadFn (.clearLines .rfl)⟩
  | readHoldingRegisters _ _ _ _ => exact ⟨_, rfl, .modReadFn (.clearLines .rfl)⟩
  | readInputRegisters _ _ _ _ => exact ⟨_, rfl, .modReadFn (.clearLines .rfl)⟩
  | writeSingleCoil _ _ _ _ => exact ⟨_, rfl, .writeCoils (.clearLines .rfl)⟩
  | writeSingleRegister _ _ _ _ => exact ⟨_, rfl, .writeRegister (.clearLines .rfl)⟩
  | writeMultipleCoils _ _ _ _ => exact ⟨_, rfl, .writeCoils (.clearLines .rfl)⟩
  | writeMultipleRegisters _ _ _ _ => exact ⟨_, rfl, .writeRegisters (.clearLines .rfl)⟩
  | readWriteRegisters _ _ _ _ _ _ => exact ⟨_, rfl, .readWrite (.clearLines .rfl)⟩
  | tcpConnect _ => exact ⟨_, rfl, .tcpOpen (.clearLines .rfl)⟩
  | tcpIdleClose _ _ => exact ⟨_, rfl, .iteThen (.clearLines .rfl) (.answerOn (.updPort .rfl))⟩
  | replayRequest _ _ _ _ => exact ⟨_, rfl, .replayAsk (.clearLines .rfl)⟩
  | replaySend => exact ⟨_, rfl, .replayNext (.clearLines .rfl)⟩
  | portStateChange _ _ _ => exact ⟨_, rfl, .portEvent (.setNow (.clearLines .rfl))⟩
  | busOffRestart => exact ⟨_, rfl, .busOffReturn (.clearLines .rfl)⟩
  | disable _ => exact ⟨_, rfl, .extCommand (.clearLines .rfl)⟩
  | enable _ => exact ⟨_, rfl, .extCommand (.clearLines .rfl)⟩
  | clearCounts _ => exact ⟨_, rfl, .extCommand (.clearLines .rfl)⟩
  | nop _ => exact ⟨_, rfl, .hostFrame .rfl⟩
  | read _ _ => exact ⟨_, rfl, .hostFrame .rfl⟩
  | write _ _ _ => exact ⟨_, rfl, .hostFrame .rfl⟩
  | hostFrameTimeout => exact ⟨_, rfl, .lateFrame .rfl⟩
  | hostReset _ => exact ⟨_, rfl, .askReset .rfl⟩
  | hostResetExecute => exact ⟨_, rfl, .resetNow .rfl⟩
  | hpClear => exact ⟨_, rfl, .clearErrors .rfl⟩
  | hvioLoss => exact ⟨_, rfl, .portGone (.mSys .rfl)⟩
  | registerWrite _ _ => exact ⟨_, rfl, .ite (.writeReg .rfl) .rfl⟩
  | flashProgramDone _ => exact ⟨_, rfl, .storeRuns .rfl (fun _ => .programDone .rfl)⟩
  | flashEraseDone _ => exact ⟨_, rfl, .storeRuns .rfl (fun _ => .eraseDone .rfl)⟩
  | flashTimeout => exact ⟨_, rfl, .storeRuns .rfl (fun _ => .flashTimesOut (.rfl))⟩
  | backgroundReerase => exact ⟨_, rfl, .storeRuns .rfl (fun _ => .reerase (.rfl))⟩
  | storeFailed _ => exact ⟨_, rfl, .failStore .rfl⟩
  | probe _ => exact ⟨_, rfl, .probeCommand .rfl⟩
  | epochProbe _ => exact ⟨_, rfl, .probeStore .rfl⟩
  | fieldSupplyReturn _ _ => exact ⟨_, rfl, .ite .rfl (.setField .rfl)⟩
  | hvioRestored => exact ⟨_, rfl, .mSys .rfl⟩
  | ovActiveEnd => exact ⟨_, rfl, .ite .rfl (.mPwr .rfl)⟩
  | aonStoreExhausted => exact ⟨_, rfl, .aonEmpties .rfl⟩
  | edgesResume _ => exact ⟨_, rfl, .edgesBack .rfl⟩
  | memHiRead => exact ⟨_, rfl, .memAdvance .rfl⟩

/-- What a command's next state keeps of the state before. -/
theorem exec_next {c : Instr} {s t : State} (h : exec c s = .next t) : Within Part.all s.node t.node := by
  obtain ⟨m, hm, hw⟩ := exec_answers c s
  rw [Answers, h] at hm
  cases hm
  exact hw

/-- What a step keeps, the idle step included. -/
theorem step_within {s t : State} (h : step s = .next t) : Within Part.all s.node t.node := by
  unfold step at h
  split at h
  · cases h
    exact .rfl
  next c rest _ => exact exec_next (s := ⟨s.node, rest⟩) h

end Sys2Proof.Machine
end

section
open Sys2Proof Sys2Proof.Machine Sys2Proof.Machine.Node

/-- Settles O3: a command changes the memory only by writes to the table, which keep its form, or empties it at a restart. -/
theorem solverMemoryStaysCanonical : Obligations.SolverMemoryStaysCanonical :=
  fun _ _ hs h => (step_within h).mem hs

/-- Settles O4: only ENROL writes the fuse, and a restart takes it over. -/
theorem fuseStaysBlown : Obligations.FuseStaysBlown :=
  fun _ _ hs h => (step_within h).fuse hs

/-- Settles O1: the front command is what a step runs, and every command answers. -/
theorem stepRunsFrontCommand : Obligations.StepRunsFrontCommand := by
  refine ⟨fun s c rest h => ?_, fun s h => ?_, fun s c => ?_⟩
  · simp [step, h]
  · simp [step, h]
  · obtain ⟨m, hm, -⟩ := exec_answers c s
    exact ⟨_, hm, rfl⟩

/-- Settles O2: the list of addresses is closed, and each view of the reset state computes. -/
theorem resetValues : Obligations.ResetValues := by
  unfold Obligations.ResetValues
  refine ⟨?_, rfl, rfl, rfl, rfl⟩
  decide +kernel

end

section
/-! What running a command gives, and the lengths and ends of the RAM ring. -/

namespace Sys2Proof.Machine

namespace Node

variable (n : Node)

theorem detail_length (l : List Byte) : (detail l).length = 10 := by simp [detail]

theorem pushRam_getLast (r : Record) (own : Bool) : (n.pushRam r own).jrnl.ram.getLast? = some ⟨r, false⟩ := by simp [pushRam]

/-- The RAM ring holds at most 4,096 records: a full one gives up its oldest. -/
theorem pushRam_length (r : Record) (own : Bool) (h : n.jrnl.ram.length ≤ 4096) : (n.pushRam r own).jrnl.ram.length ≤ 4096 := by
  rw [pushRam, mJrnl_jrnl]
  dsimp only
  split
  · simp; omega
  · simp; omega

/-- A notice to a partner with DUTY on the ring is a COMMAND frame to it. -/
theorem notify_sent {b : RecBody} {p : Nat} (hb : noticed b.type = true) (hp : n.partner = some p) (hd : n.partnerDuty = true)
    (ht : n.tide.st = .inserted) : n.notify b = n.sendFrame (1#16 <<< p) (.command (.notice b)) := by
  simp [notify, hb, hp, hd, ht]

/-- Otherwise it is held, and the oldest of 64 held ones gives way. -/
theorem notify_held {b : RecBody} {p : Nat} (hb : noticed b.type = true) (hp : n.partner = some p)
    (h : n.partnerDuty = false ∨ n.tide.st ≠ .inserted) :
    n.notify b = (if 64 ≤ n.pair.notices.length then n.mJrnl fun j => { j with lost := satInc 0xFF j.lost } else n).mPair fun q =>
      { q with notices := (if 64 ≤ n.pair.notices.length then q.notices.tail else q.notices) ++ [b] } := by
  have hd : (n.partnerDuty && n.tide.st == .inserted) = false := by
    rcases h with h | h
    · simp [h]
    · simp [h]
  simp [notify, hb, hp, hd]

end Node

end Sys2Proof.Machine
end

section
open Sys2Proof Sys2Proof.Machine Sys2Proof.Machine.Node

/-- Settles O8: the record of `issueNow` is the one `pushRam` puts last; a record of no step waits, is sent or is held. -/
theorem recordsNumberedAndHeld : Obligations.RecordsNumberedAndHeld := by
  unfold Obligations.RecordsNumberedAndHeld
  constructor
  · intro n b m r
    refine ⟨rfl, rfl, rfl, ?_, fun h => ?_, detail_length _, issueNow_keeps n b⟩
    · exact pushRam_getLast n r true
    · exact pushRam_length n r true h
  · intro n b
    refine ⟨fun h => later_own n b h, fun h hb => ?_, fun p h hb hp => ⟨fun hd ht => ?_, fun hd hl => ?_, fun hd hl => ?_⟩⟩
    · simp [later, notify, h, hb]
    · simp [later, h, notify_sent n hb hp hd ht, sendFrame, mTide]
    · simp [later, h, notify_held n hb hp hd, Nat.not_le_of_lt hl, mPair]
    · simp [later, h, notify_held n hb hp hd, hl, mPair, mJrnl]

end

section
/-! Writes of SEC_UNLOCK and the ends of maintenance mode (02 R62 to R66). -/

namespace Sys2Proof.Machine.Node

variable {n : Node} (v : Word) (t : Nat)

/-- What every write of SEC_UNLOCK does first: node time reaches it, and the 60 minutes start again. -/
def unlockTouched (n : Node) (t : Nat) : Node := (n.setNow t).secTouch

theorem unlockWrite_of_maint (hm : n.sec.maint = true) : n.unlockWrite v t = n.unlockTouched t := by
  simp [unlockWrite, unlockTouched, secTouch, setNow, hm]

theorem unlockWrite_of_lockout (hm : n.sec.maint = false) (hl : n.sec.lockout = true) :
    n.unlockWrite v t = (n.unlockTouched t).secFlag 0 := by
  simp [unlockWrite, unlockTouched, secTouch, setNow, hm, hl]

theorem unlockWrite_first (hm : n.sec.maint = false) (hl : n.sec.lockout = false) (hk : n.sec.keySw = true)
    (hu : n.sec.unlockStep = false) (hv : v = unlockFirst) :
    n.unlockWrite v t = (n.unlockTouched t).mSec fun s => { s with unlockStep := true, unlockAt := (n.unlockTouched t).now } := by
  simp [unlockWrite, unlockTouched, secTouch, setNow, hm, hl, hk, hu, hv]

theorem unlockWrite_second (hm : n.sec.maint = false) (hl : n.sec.lockout = false) (hk : n.sec.keySw = true)
    (hu : n.sec.unlockStep = true) (hv : v = unlockSecond) (ht : max n.rtc.now t ≤ n.sec.unlockAt + 10000) :
    n.unlockWrite v t = (n.unlockTouched t).enterMaint := by
  simp [unlockWrite, unlockTouched, secTouch, setNow, now, hm, hl, hk, hu, hv] at ht ⊢
  omega

theorem unlockWrite_restart (hm : n.sec.maint = false) (hl : n.sec.lockout = false)
    (h : n.sec.keySw = false ∨ (n.sec.unlockStep = false ∧ v ≠ unlockFirst) ∨
      (n.sec.unlockStep = true ∧ (v ≠ unlockSecond ∨ n.sec.unlockAt + 10000 < max n.rtc.now t))) :
    n.unlockWrite v t = (n.unlockTouched t).unlockRestart := by
  by_cases hk : n.sec.keySw = false
  · simp [unlockWrite, unlockTouched, secTouch, setNow, hm, hl, hk]
  · have hk : n.sec.keySw = true := by simpa using hk
    rcases h with h | ⟨hu, hv⟩ | ⟨hu, hv⟩
    · simp [h] at hk
    · simp [unlockWrite, unlockTouched, secTouch, setNow, hm, hl, hk, hu, hv]
    · have hv : ¬ (v = unlockSecond ∧ max n.rtc.now t ≤ n.sec.unlockAt + 10000) := by
        rintro ⟨rfl, hle⟩
        exact hv.elim (fun h => h rfl) (Nat.not_lt_of_le hle)
      simp only [unlockWrite, unlockTouched, secTouch, setNow, now, mSec_sec, mSec_rtc, mRtc_sec, mRtc_rtc, hm, hl, hk, hu, if_neg hv]
      rfl

/-- A restarted sequence; the third restart locks out. -/
theorem unlockRestart_eq : n.unlockRestart = n.mSec fun s => { s with
    flags := setBit s.flags 0
    unlockStep := false
    restarts := if 2 ≤ s.restarts then 0 else s.restarts + 1
    lockout := if 2 ≤ s.restarts then true else s.lockout } := by
  by_cases h : 2 ≤ n.sec.restarts
  · simp [unlockRestart, secFlag, mSec, h]
  · simp [unlockRestart, secFlag, mSec, h]

theorem keyLoop_closed {ohms : Nat} (h : ohms ≤ 100) : n.keyLoop ohms = n.mSec fun s => { s with keyClosed := true } := by
  simp [keyLoop, h, mSec]

theorem keyLoop_open {ohms : Nat} (h : 10000 ≤ ohms) :
    n.keyLoop ohms = if n.sec.unlockStep then (n.mSec fun s => { s with keyClosed := false, keySw := false }).unlockRestart
      else n.mSec fun s => { s with keyClosed := false, keySw := false } := by
  have h100 : ¬ ohms ≤ 100 := by omega
  simp [keyLoop, h, h100]

/-- Leaving maintenance mode from a node whose SEC block is `sec`, with the record of its cause and the end of the forces. -/
theorem leaveMaint_mSec {f : Sec → Sec} (cause : Nat) (hm : (f n.sec).maint = true) :
    (n.mSec f).leaveMaint cause = (Node.later { n with sec := { f n.sec with maint := false } }
      ⟨0x10, 0, 4, cause, leBytes 4 n.hashTag⟩).endAoForces.endDioForces := by
  rw [leaveMaint_eq cause (n := n.mSec f) hm]
  simp [maintEnded, mSec, configBody, hashTag]

end Sys2Proof.Machine.Node
end

section
open Sys2Proof Sys2Proof.Machine Sys2Proof.Machine.Node

/-- Settles O9: each write of SEC_UNLOCK by its case, the key switch loop, and the three ways out of maintenance mode. -/
theorem maintenanceUnlocked : Obligations.MaintenanceUnlocked := by
  unfold Obligations.MaintenanceUnlocked
  constructor
  · rintro ⟨n, q⟩ v t
    dsimp only
    refine ⟨fun hm => ?_, fun hm hl => ?_, fun hm hl hk hu hv => ?_, fun hm hl hk hu hv ht => ?_, fun hm hl h => ?_⟩
    · exact .of_run (unlockWrite · v t) rfl (unlockWrite_of_maint v t hm)
    · exact .of_run (unlockWrite · v t) rfl (unlockWrite_of_lockout v t hm hl)
    · exact .of_run (unlockWrite · v t) rfl (unlockWrite_first v t hm hl hk hu hv)
    · refine .of_run (unlockWrite · v t) rfl ?_
      rw [unlockWrite_second v t hm hl hk hu hv ht, enterMaint, configBody, List.append_nil]
      rfl
    · refine .of_run (unlockWrite · v t) rfl ?_
      rw [unlockWrite_restart v t hm hl h, unlockRestart_eq]
      simp [unlockTouched, secTouch, setNow, mSec, mRtc, Node.now, hl]
  · rintro ⟨n, q⟩ ohms
    dsimp only
    refine ⟨rfl, fun h => ?_, fun h hu => ?_, fun h hu => ?_, fun hc => ?_, fun hc hm => ?_, fun hc hm => ?_, fun hm => ?_, fun hm => ?_,
      fun hm => ?_⟩
    · exact .of_run (keyLoop · ohms) rfl (keyLoop_closed h)
    · exact .of_run (keyLoop · ohms) rfl (by simp [keyLoop_open h, hu, mSec])
    · refine .of_run (keyLoop · ohms) rfl ?_
      rw [keyLoop_open h, if_pos hu, unlockRestart_eq]
      exact ⟨rfl, rfl, rfl, rfl, (mSec_keeps _ _).trans (mSec_keeps _ _)⟩
    · exact .of_run keySettled rfl (by simp [keySettled, hc, mSec])
    · exact .of_run keySettled rfl (by simp [keySettled, leaveMaint, hc, hm, mSec])
    · exact .of_run keySettled rfl ((keySettled_eq_of_open hc).trans (leaveMaint_mSec 1 hm))
    · exact .of_run imgExit rfl ((imgExit_eq hm).trans (leaveMaint_mSec 2 hm))
    · exact .of_run imgExit rfl (by simp [imgExit, hm, imgCommand_of_refused, mSec, Node.now])
    · exact .of_run (leaveMaint · 3) rfl (leaveMaint_mSec (f := id) 3 hm)

end

section
/-! The loader's commands (02 Table 2.3, 18 R571): refused with a code, or accepted. -/

namespace Sys2Proof.Machine.Node

variable {n : Node}

theorem imgCode_of_busy (h : n.sec.busy ≠ 0) (code : Nat) : n.imgCode code = 0x87 := if_pos h
theorem imgCode_of_idle (h : n.sec.busy = 0) (code : Nat) : n.imgCode code = code := if_neg (not_not_intro h)

/-- What an accepted command leaves before its own effect. -/
def accepted (n : Node) : Node := n.mSec fun s => { s with lastWrite := n.now, result := 0 }

theorem imgCommand_accepted (f : Node → Node) : n.imgCommand 0 f = f n.accepted := rfl

/-- A command whose code is not 0 answers the refusal: RESULT, CMD_REFUSED, and nothing else. -/
theorem answers_refused {c : Instr} {q : List Instr} {code k : Nat} {f : Node → Node}
    (h : exec c ⟨n, q⟩ = .next ⟨n.imgCommand k f, q⟩) (hk : k = code) (hc : code ≠ 0) :
    Answers c ⟨n, q⟩ { n with sec := { n.sec with
      lastWrite := n.rtc.now
      result := code
      flags := setBit n.sec.flags 1 } } := by
  rw [Answers, h, hk, imgCommand_of_refused _ hc]
  rfl

/-- A command whose code is 0 answers its own effect. -/
theorem answers_accepted {c : Instr} {q : List Instr} {k : Nat} {f : Node → Node} {m : Node}
    (h : exec c ⟨n, q⟩ = .next ⟨n.imgCommand k f, q⟩) (hk : k = 0) (hm : f n.accepted = m) : Answers c ⟨n, q⟩ m := by
  rw [Answers, h, hk, imgCommand_accepted, hm]

theorem updBank_eq (b : Bool) (f : BankSt → BankSt) : n.updBank b f = n.mSec fun s => { s with
    a := if b then s.a else f s.a
    b := if b then f s.b else s.b } := by
  cases b <;> rfl

/-- The codes of the commands on an idle loader, each with the reason for it (Table 2.3). -/
theorem eraseCode_ok (hm : n.sec.maint = true) (ha : n.sec.act = none) : n.eraseCode = 0 := by simp [eraseCode, hm, ha]
theorem openCode_ok (hm : n.sec.maint = true) (h : n.inactiveBank.state = 0) : n.openCode = 0 := by simp [openCode, hm, h]
theorem closeCode_ok (h : n.inactiveBank.state = 1) (hs : n.inactiveBank.stuck = false) : n.closeCode = 0 := by simp [closeCode, h, hs]
theorem checkCode_ok (ha : n.sec.act = none) (h : n.inactiveBank.state ∈ [2, 3, 4]) : n.checkCode = 0 := by
  simp only [List.mem_cons, List.not_mem_nil, or_false] at h
  rcases h with h | h | h
  · simp [checkCode, ha, h]
  · simp [checkCode, ha, h]
  · simp [checkCode, ha, h]

theorem closeCode_refused (h : n.inactiveBank.state ≠ 1 ∨ n.inactiveBank.stuck = true) : n.closeCode = 0x83 := by
  rcases h with h | h
  · simp [closeCode, h]
  · simp [closeCode, h]

theorem checkCode_refused (h2 : n.inactiveBank.state ≠ 2) (h3 : n.inactiveBank.state ≠ 3) (h4 : n.inactiveBank.state ≠ 4) :
    n.checkCode = 0x83 := by simp [checkCode, h2, h3, h4]

theorem activateCode_ok (hm : n.sec.maint = true) (hd : n.ownDuty = true) (hc : n.inactiveBank.state = 3) (ha : n.sec.act = none)
    (hi : n.img.any (·.hash == n.inactiveBank.hash) = false) (hf : n.bankSlotFree n.inactive = true) : n.activateCode = 0 := by
  simp [activateCode, hm, hd, hc, ha, hf, hi]

/-- ENROL is refused with 0x11 without a certificate that verifies. -/
theorem enrolCode_eq (hm : n.sec.maint = true) (he : n.sec.enrolled = false) :
    n.enrolCode = if n.certificate.isNone then 0x11 else 0 := by simp [enrolCode, hm, he]

/-- An accepted ACTIVATE begins the activation and, in a pair, sends its notice to the partner (R74, R77). -/
def activationBegun (n : Node) : Node :=
  let m := n.accepted.mSec fun s => { s with act := some ⟨n.inactive, epochAfter n.now 2, !n.paired⟩ }
  match n.partner with
  | none => m
  | some p => m.sendFrame (1#16 <<< p) (.command (.activation n.inactiveBank.hash (epochAfter n.now 2)))

theorem activationBegun_sec : n.activationBegun.sec = { n.sec with
    lastWrite := n.now
    result := 0
    act := some ⟨n.inactive, epochAfter n.now 2, !n.paired⟩ } := by
  unfold activationBegun
  split
  · rfl
  · rfl

theorem activationBegun_keeps : Keeps [.sec, .tide] n n.activationBegun := by
  unfold activationBegun
  split
  · exact (mSec_keeps n _).trans (mSec_keeps _ _) |>.mono (by simp)
  · exact ((mSec_keeps n _).trans (mSec_keeps _ _) |>.mono (by simp)).trans ((sendFrame_keeps _ _ _).mono (by simp))

theorem activationBegun_tide (h : n.partner = none) : n.activationBegun.tide = n.tide := by
  simp [activationBegun, h, accepted]

theorem activationBegun_tx {p : Nat} (h : n.partner = some p) : n.activationBegun.tide.tx =
    n.tide.tx ++ [⟨0, 0, 1#16 <<< p, .command (.activation n.inactiveBank.hash (epochAfter n.now 2))⟩] := by
  simp [activationBegun, h, accepted, sendFrame]

/-- OPEN and CLOSE move the bank `b` alone, and enter it in the bank record. -/
theorem bankOpened (b : Bool) :
    (n.accepted.updBank b fun s => { s with written := 0, stuck := false, bad := false }).bankMove b 1 0 =
      Node.flashAdd { n with sec := { n.sec with
        lastWrite := n.rtc.now
        result := 0
        a := if b then n.sec.a else { (if b then n.sec.b else n.sec.a) with
          state := 1
          hash := 0
          written := 0
          stuck := false
          bad := false }
        b := if b then { (if b then n.sec.b else n.sec.a) with
          state := 1
          hash := 0
          written := 0
          stuck := false
          bad := false } else n.sec.b } } (.bank b ⟨1, (if b then n.sec.b else n.sec.a).gen, 0⟩) := by
  cases b <;> rfl

theorem bankClosed (b : Bool) :
    n.accepted.bankMove b 2 0 =
      Node.flashAdd { n with sec := { n.sec with
        lastWrite := n.rtc.now
        result := 0
        a := if b then n.sec.a else { (if b then n.sec.b else n.sec.a) with
          state := 2
          hash := 0 }
        b := if b then { (if b then n.sec.b else n.sec.a) with
          state := 2
          hash := 0 } else n.sec.b } } (.bank b ⟨2, (if b then n.sec.b else n.sec.a).gen, 0⟩) := by
  cases b <;> rfl

end Sys2Proof.Machine.Node
end

section
open Sys2Proof Sys2Proof.Machine Sys2Proof.Machine.Node

/-- Settles O11: a command of the loader answers its refusal's code, or its effect on the inactive bank, which stands at its own place
of SEC. -/
theorem loaderCommands : Obligations.LoaderCommands := by
  unfold Obligations.LoaderCommands
  constructor
  · rintro ⟨n, q⟩
    dsimp only
    constructor
    · intro hb c hc
      have busy := imgCode_of_busy hb
      simp only [List.mem_cons, List.not_mem_nil, or_false] at hc
      rcases hc with rfl | rfl | rfl | rfl | rfl | rfl
      · exact answers_refused rfl (busy _) (by decide)
      · exact answers_refused rfl (busy _) (by decide)
      · exact answers_refused rfl (busy _) (by decide)
      · exact answers_refused rfl (busy _) (by decide)
      · exact answers_refused rfl (busy _) (by decide)
      · exact answers_refused rfl (busy _) (by decide)
    · intro hb
      have idle := imgCode_of_idle hb
      refine ⟨fun hm c hc => ?_, fun ha => ⟨fun hm => ?_, ?_⟩, fun hm hs => ?_, fun hs => ?_, fun h2 h3 h4 => ?_, fun hm he => ?_,
        fun hm hd => ?_, fun hm hd hs => ?_⟩
      · simp only [List.mem_cons, List.not_mem_nil, or_false] at hc
        rcases hc with rfl | rfl | rfl | rfl
        · exact answers_refused rfl (by simp [idle, eraseCode, hm]) (by decide)
        · exact answers_refused rfl (by simp [idle, openCode, hm]) (by decide)
        · exact answers_refused rfl (by simp [idle, activateCode, hm]) (by decide)
        · exact answers_refused rfl (by simp [idle, enrolCode, hm]) (by decide)
      · exact answers_refused rfl (by simp [idle, eraseCode, hm, ha]) (by decide)
      · exact answers_refused rfl (by simp [idle, checkCode, ha]) (by decide)
      · exact answers_refused rfl (by simp [idle, openCode, hm, hs]) (by decide)
      · exact answers_refused rfl (by simp [idle, closeCode_refused hs]) (by decide)
      · exact answers_refused rfl (by simp [idle, checkCode_refused h2 h3 h4]) (by decide)
      · exact answers_refused rfl (by simp [idle, enrolCode, hm, he]) (by decide)
      · exact answers_refused rfl (by simp [idle, activateCode, hm, hd]) (by decide)
      · exact answers_refused rfl (by simp [idle, activateCode, hm, hd, hs]) (by decide)
  · rintro ⟨n, q⟩
    dsimp only
    intro hb
    have idle := imgCode_of_idle hb
    refine ⟨fun hm ha => ?_, fun hm hs => ?_, fun hs hk => ?_, fun ha hs => ?_, fun hm hd hs ha hi hf => ?_, fun hm he => ?_⟩
    · exact answers_accepted rfl (by simp [idle, eraseCode_ok hm ha]) rfl
    · exact answers_accepted rfl (by rw [idle, openCode_ok hm hs]) (bankOpened n.inactive)
    · exact answers_accepted rfl (by rw [idle, closeCode_ok hs hk]) (bankClosed n.inactive)
    · exact answers_accepted rfl (by rw [idle, checkCode_ok ha hs]) rfl
    · have hk : n.imgCode n.activateCode = 0 := by rw [idle, activateCode_ok hm hd hs ha hi hf]
      refine .of_run (fun _ => n.activationBegun) (answers_accepted rfl hk rfl) ⟨?_, ?_, fun hp => ?_, fun p hp => ?_⟩
      · exact activationBegun_sec
      · exact activationBegun_keeps
      · exact activationBegun_tide (by simpa [paired] using hp)
      · exact activationBegun_tx hp
    · have hc := enrolCode_eq hm he
      cases hcert : n.certificate with
      | none =>
        rw [hcert] at hc
        exact answers_refused rfl ((idle _).trans hc) (by decide)
      | some x =>
        rw [hcert] at hc
        refine answers_accepted rfl ((idle _).trans hc) ?_
        have hcert' : n.accepted.certificate = some x := hcert
        dsimp only
        rw [hcert']
        rfl

end

section
/-! What the checks of an image rest on (02 R70): the image looked at, the node's number, its key and its hardware issue. -/

namespace Sys2Proof.Machine.Node

variable {n m : Node}

section
variable (h : m.img = n.img)
include h

theorem input_of_img : m.input = n.input := by funext c; simp [input, inputs, route, h]
theorem inputs_of_img : m.inputs = n.inputs := by simp [inputs, route, h]
theorem laneCfg_of_img : m.laneCfg = n.laneCfg := by funext l; simp [laneCfg, laneCfgs, route, h]
theorem island_of_img : m.island = n.island := by funext a; simp [island, islands, loopItems, h]
theorem pin_of_img : m.pin = n.pin := by funext p; simp [pin, pins, dioItems, h]
theorem points_of_img : m.points = n.points := by simp [points, fabItems, h]
theorem point_of_img : m.point = n.point := by funext p; simp [point, points, fabItems, h]
theorem cond_of_img : m.cond = n.cond := by funext c; simp [cond, conds, fabItems, h]
theorem groups_of_img : m.groups = n.groups := by simp [groups, fabItems, h]
theorem group_of_img : m.group = n.group := by funext g; simp [group, groups, fabItems, h]
theorem members_of_img : m.members = n.members := by funext g; simp [members, points, fabItems, h]
theorem evalOrder_of_img : m.evalOrder = n.evalOrder := by simp [evalOrder, fabItems, h]
theorem tunes_of_img : m.tunes = n.tunes := by simp [tunes, h]
theorem tune_of_img : m.tune = n.tune := by funext c i; simp [tune, tunes, h]
theorem engineer_of_img : m.engineer = n.engineer := by funext e; simp [engineer, engineers, callItems, h]
theorem rooms_of_img : m.rooms = n.rooms := by simp [rooms, callItems, h]
theorem ladders_of_img : m.ladders = n.ladders := by simp [ladders, callItems, h]
theorem ladder_of_img : m.ladder = n.ladder := by funext l; simp [ladder, ladders, callItems, h]
theorem watch_of_img : m.watch = n.watch := by simp [watch, callItems, h]
theorem templates_of_img : m.templates = n.templates := by simp [templates, solvItems, h]
theorem template_of_img : m.template = n.template := by funext t; simp [template, templates, solvItems, h]

theorem sourceExists_of_img : m.sourceExists = n.sourceExists := by
  funext x
  induction x with
  | staleOf x ih => simp [sourceExists, ih]
  | _ => simp [sourceExists, input_of_img h, template_of_img h, island_of_img h, pin_of_img h, watch_of_img h, cond_of_img h,
      point_of_img h, group_of_img h]

theorem publishPeriod_of_img : m.publishPeriod = n.publishPeriod := by
  funext x
  cases x <;> simp [publishPeriod, input_of_img h, laneCfg_of_img h, template_of_img h]

theorem rangeFails_of_img (mask : BitVec 16) (s : Sections) : rangeFails m mask s = rangeFails n mask s := by
  have hp : pointBad m = pointBad n := by
    funext c
    simp only [pointBad, publishPeriod_of_img h]
  have ht : tuneRange m = tuneRange n := by
    funext c
    simp only [tuneRange, point_of_img h]
  have hc : callBad m = callBad n := by
    funext x
    cases x <;> simp only [callBad, engineer_of_img h]
  have hs : stateSize m = stateSize n := by
    simp only [stateSize, points_of_img h, groups_of_img h, ladders_of_img h, tunes_of_img h, templates_of_img h]
  have hr : ringBad m = ringBad n := by
    funext x l c
    simp only [ringBad, hs]
  simp only [rangeFails, hp, ht, hc, hr]

theorem pinFails_of_img (s : Sections) : pinFails m s = pinFails n s := by
  have hc : callPinBad m = callPinBad n := by
    funext l i x
    simp only [callPinBad, pin_of_img h]
  simp only [pinFails, hc]

theorem orderFails_of_img (s : Sections) : orderFails m s = orderFails n s := by
  have hp : placeOf m = placeOf n := by
    funext c
    simp only [placeOf, evalOrder_of_img h]
  have hb : notBefore m = notBefore n := by
    funext k x
    simp only [notBefore, hp]
  have hd : cellDefined m = cellDefined n := by
    funext c
    cases c <;> simp only [cellDefined, cond_of_img h, point_of_img h, group_of_img h]
  have ho : orderItemBad m = orderItemBad n := by
    funext l i x
    cases x <;> simp only [orderItemBad, hp, hb, hd, members_of_img h]
  simp only [orderFails, ho]

theorem laneFails_of_img (s : Sections) : laneFails m s = laneFails n s := by
  have hl : laneBad m = laneBad n := by
    funext c
    simp only [laneBad, inputs_of_img h]
  simp only [laneFails, hl, laneCfg_of_img h]

theorem templateFails_of_img (s : Sections) : templateFails m s = templateFails n s := by
  have ha : alarmBad m = alarmBad n := by
    funext c
    simp only [alarmBad, point_of_img h]
  simp only [templateFails, ha, templates_of_img h]

theorem refFails_of_img (hn : m.sys.node = n.sys.node) (s : Sections) : refFails m s = refFails n s := by
  have ho : optMissing m = optMissing n := by
    funext x
    simp only [optMissing, sourceExists_of_img h]
  have hi : invokedEarlier m = invokedEarlier n := by
    funext c t k
    simp only [invokedEarlier, template_of_img h]
  have ht : templateRef m = templateRef n := by
    funext c
    simp only [templateRef, hi, sourceExists_of_img h, point_of_img h]
  have hw : ownItem m = ownItem n := by
    funext k
    simp only [ownItem, partner, ringCfg, h, hn]
  have hm : mapRef m = mapRef n := by
    funext x
    cases x with
    | modbus c => simp only [mapRef, hw, sourceExists_of_img h, point_of_img h, group_of_img h, ladder_of_img h, tune_of_img h]
    | _ => simp only [mapRef, ho, hw, point_of_img h, ladder_of_img h]
  have hc : callRef m = callRef n := by
    funext x
    simp only [callRef, pin_of_img h, point_of_img h, group_of_img h, sourceExists_of_img h, rooms_of_img h]
  simp only [refFails, ho, ht, hm, hc, input_of_img h, sourceExists_of_img h, group_of_img h, point_of_img h]

theorem contentChecks_of_img (hn : m.sys.node = n.sys.node) (mask : BitVec 16) (s : Sections) :
    contentChecks m mask s = contentChecks n mask s := by
  simp only [contentChecks, rangeFails_of_img h, pinFails_of_img h, refFails_of_img h hn, orderFails_of_img h, laneFails_of_img h,
    templateFails_of_img h]

end

/-- The node that had the image `i`. -/
def withImg (n : Node) (i : Image) : Node := { n with img := some i }

theorem checkImage_eq (b : BankSt) : n.checkImage b = match n.headChecks b.bytes b.written with
    | some c => some ⟨c, 0, 0⟩
    | none =>
      if b.bad then some ⟨0x12, 0, 0⟩
      else match layoutChecks b.bytes with
        | some f => some f
        | none => contentChecks (n.withImg (imageOf b)) (imageOf b).nodeMask (imageOf b).sec := rfl

theorem headChecks_of (he : m.sec.enrolled = n.sec.enrolled) (hk : m.sec.keyId = n.sec.keyId) (hs : m.stor = n.stor)
    (hn : m.sys.node = n.sys.node) : m.headChecks = n.headChecks := by
  funext b k
  have ha : m.acceptedKey = n.acceptedKey := by simp only [acceptedKey, he, hs]
  unfold headChecks
  rw [ha, he, hk, hs, hn]

/-- The checks of a bank rest on the node's key, its hardware issue and its number. -/
theorem checkImage_of (he : m.sec.enrolled = n.sec.enrolled) (hk : m.sec.keyId = n.sec.keyId) (hs : m.stor = n.stor)
    (hn : m.sys.node = n.sys.node) (b : BankSt) : m.checkImage b = n.checkImage b := by
  have hc (i : Image) := contentChecks_of_img (n := n.withImg i) (m := m.withImg i) rfl hn
  rw [checkImage_eq, checkImage_eq, headChecks_of he hk hs hn, hc]

end Sys2Proof.Machine.Node
end

section
/-! A run of writes to a sparse table, and the bytes that a word is made of. -/

namespace Sys2Proof.Machine

variable {α : Type} [DecidableEq α] {d : α}

theorem tget_foldl_zipIdx {m : Tab α} (h : twf d m = true) (l : List α) (k o a : Nat) :
    tget d ((l.zipIdx k).foldl (fun m (x : α × Nat) => tset d m (o + x.2) x.1) m) a =
      if o + k ≤ a ∧ a < o + k + l.length then l.getD (a - (o + k)) d else tget d m a := by
  induction l generalizing m k with
  | nil => simp
  | cons x l ih =>
    rw [List.zipIdx_cons, List.foldl_cons, ih (twf_tset h _ _)]
    by_cases ha : a = o + k
    · subst ha
      have h1 : ¬ (o + (k + 1) ≤ o + k ∧ o + k < o + (k + 1) + l.length) := by omega
      have h2 : o + k ≤ o + k ∧ o + k < o + k + (x :: l).length := by simp
      rw [if_neg h1, if_pos h2, tget_tset_same h]
      simp
    · rw [tget_tset_other h ha]
      by_cases hr : o + (k + 1) ≤ a ∧ a < o + (k + 1) + l.length
      · have h2 : o + k ≤ a ∧ a < o + k + (x :: l).length := by simp; omega
        have e : a - (o + k) = (a - (o + (k + 1))) + 1 := by omega
        rw [if_pos hr, if_pos h2, e, List.getD_cons_succ]
      · have h2 : ¬ (o + k ≤ a ∧ a < o + k + (x :: l).length) := by simp; omega
        rw [if_neg hr, if_neg h2]

theorem leBytes_length (k x : Nat) : (leBytes k x).length = k := by
  induction k generalizing x with
  | zero => rfl
  | succ k ih => simp [leBytes, ih]

/-- The byte at a place of a number's bytes, lowest first. -/
theorem leBytes_getD {k i : Nat} (x : Nat) (h : i < k) (d : Byte) : (leBytes k x).getD i d = BitVec.ofNat 8 (x / 256 ^ i % 256) := by
  induction k generalizing x i with
  | zero => omega
  | succ k ih =>
    cases i with
    | zero => simp [leBytes]
    | succ i => rw [leBytes, List.getD_cons_succ, ih _ (by omega), Nat.div_div_eq_div_mul, Nat.pow_succ']

theorem extractLsb'_byte (w : Word) (i : Nat) : w.extractLsb' (8 * i) 8 = BitVec.ofNat 8 (w.toNat / 256 ^ i % 256) := by
  apply BitVec.eq_of_toNat_eq
  rw [BitVec.extractLsb'_toNat, BitVec.toNat_ofNat, Nat.shiftRight_eq_div_pow, pow_mul]
  norm_num

end Sys2Proof.Machine
end

section
/-! Writes of SEC_IMG_DATA, and the ends of an erase and of a check (18 R570, 02 R69, R70). -/

namespace Sys2Proof.Machine.Node

variable {n : Node} (w : Word)

/-- The conditions of a write of SEC_IMG_DATA (18 R570). -/
def takesData (n : Node) : Prop :=
  n.sec.maint = true ∧ (n.bankOf n.inactive).state = 1 ∧ n.sec.offset + 4 ≤ imageMax ∧ n.sec.bufUsed + 4 ≤ 256

theorem imgData_refused (h : ¬ n.takesData) : n.imgData w = n.secTouch.secFlag 2 := by
  refine if_pos ?_
  by_contra hc
  refine h ?_
  simp only [Bool.or_eq_true, Bool.not_eq_true', bne_iff_ne, decide_eq_true_eq, not_or, ne_eq, not_not, not_lt, Bool.not_eq_false] at hc
  obtain ⟨⟨⟨hm, hs⟩, ho⟩, hb⟩ := hc
  exact ⟨hm, hs, ho, hb⟩

/-- The bank that the next bytes make of one. -/
def bankWritten (o : Nat) (l : List Byte) (s : BankSt) : BankSt := { s with
  written := max s.written (o + 4)
  bytes := l.zipIdx.foldl (fun m (x : Byte × Nat) => tset 0xFF m (o + x.2) x.1) s.bytes }

theorem imgData_taken (h : n.takesData) (hs : n.stor.state ≠ 2) : n.imgData w =
    ((n.secTouch.mSec fun s => { s with offset := n.sec.offset + 4, bufUsed := s.bufUsed + 4 }).updBank n.inactive
      (bankWritten n.sec.offset (leBytes 4 w.toNat))).bufferBytes n.inactive n.sec.offset (leBytes 4 w.toNat) := by
  obtain ⟨hm, hb, ho, hu⟩ := h
  have hc : (!n.secTouch.sec.maint || (n.secTouch.bankOf n.secTouch.inactive).state != 1 ||
      decide (imageMax < n.secTouch.sec.offset + 4) || decide (256 < n.secTouch.sec.bufUsed + 4)) = false := by
    simp only [Bool.or_eq_false_iff, Bool.not_eq_false', bne_eq_false_iff_eq, decide_eq_false_iff_not, Nat.not_lt]
    exact ⟨⟨⟨hm, hb⟩, ho⟩, hu⟩
  have hs' : n.secTouch.stor.state ≠ 2 := hs
  unfold imgData
  dsimp only
  rw [hc, if_neg (by simp)]
  simp only [mSec_stor, hs', if_false]
  rfl

theorem bankOf_of_sec {n m : Node} (h : m.sec = n.sec) (b : Bool) : m.bankOf b = n.bankOf b := by simp [bankOf, h]

theorem bankOf_updBank_same (b : Bool) (f : BankSt → BankSt) : (n.updBank b f).bankOf b = f (n.bankOf b) := by cases b <;> rfl
theorem bankOf_updBank_other (b : Bool) (f : BankSt → BankSt) : (n.updBank b f).bankOf (!b) = n.bankOf (!b) := by cases b <;> rfl

/-- What an erase does before it empties the bank concerns the flash store alone. -/
theorem imgErased_eq (hb : n.sec.busy = 1) (hs : n.stor.state ≠ 2) : ∃ m, Within [.stor] n m ∧
    n.imgErased = ((m.updBank n.inactive fun s => { gen := s.gen }).mSec fun s => { s with busy := 0 }).irqEvent 5 := by
  unfold imgErased
  rw [if_neg (by simp [hb, hs])]
  refine ⟨_, ?_, rfl⟩
  exact .ite (.pickNext (.ite (.appendBank (.erasedSector (.mStor .rfl))) (.mStor .rfl)))
    (.ite (.appendBank (.erasedSector (.mStor .rfl))) (.mStor .rfl))

/-- The node at the end of a check, before its verdict. -/
def checkEnded (n : Node) : Node := ((n.mSec fun s => { s with busy := 0 }).secFlag 3).irqEvent 5

theorem checkEnded_checkImage : n.checkEnded.checkImage = n.checkImage :=
  funext (checkImage_of (n := n) (m := n.checkEnded) rfl rfl rfl rfl)

theorem checkEnded_bankOf (b : Bool) : n.checkEnded.bankOf b = n.bankOf b := by cases b <;> rfl

theorem imgChecked_of_pass (hb : n.sec.busy = 2) (hc : n.checkImage (n.bankOf n.inactive) = none) :
    n.imgChecked = (n.checkEnded.mSec fun s => { s with code := 0, detSection := 0, detItem := 0 }).bankMove n.inactive 3
      (bodyHash (n.checkEnded.bankOf n.inactive).bytes) := by
  have hx : n.checkEnded.checkImage (n.checkEnded.bankOf n.inactive) = none := by
    rw [checkEnded_checkImage, checkEnded_bankOf, hc]
  unfold checkEnded at hx ⊢
  unfold imgChecked
  rw [if_neg (by simp [hb])]
  simp only [hx]

theorem imgChecked_of_fail (hb : n.sec.busy = 2) {f : LoadFail} (hc : n.checkImage (n.bankOf n.inactive) = some f) :
    n.imgChecked = (n.checkEnded.mSec fun s => { s with code := f.code, detSection := f.secNo, detItem := f.item }).bankMove
      n.inactive 4 0 := by
  have hx : n.checkEnded.checkImage (n.checkEnded.bankOf n.inactive) = some f := by
    rw [checkEnded_checkImage, checkEnded_bankOf, hc]
  unfold checkEnded at hx ⊢
  unfold imgChecked
  rw [if_neg (by simp [hb])]
  simp only [hx]

theorem bankMove_sec_keeps (b : Bool) (k : Nat) (x : BitVec 256) : Keeps [.sec, .stor] n (n.bankMove b k x) :=
  (Within.bankMove .rfl : Within [.sec, .stor] n (n.bankMove b k x)).keeps

theorem bankOf_bankMove_same (b : Bool) (k : Nat) (x : BitVec 256) :
    (n.bankMove b k x).bankOf b = { n.bankOf b with state := k, hash := x } := by cases b <;> rfl

theorem bankOf_bankMove_other (b : Bool) (k : Nat) (x : BitVec 256) : (n.bankMove b k x).bankOf (!b) = n.bankOf (!b) := by
  cases b <;> rfl

/-- Of SEC a move of a bank changes the bank alone. -/
theorem bankMove_sec (b : Bool) (k : Nat) (x : BitVec 256) : (n.bankMove b k x).sec = { n.sec with
    a := if b then n.sec.a else { n.sec.a with state := k, hash := x }
    b := if b then { n.sec.b with state := k, hash := x } else n.sec.b } := by
  cases b <;> rfl

end Sys2Proof.Machine.Node
end

section
open Sys2Proof Sys2Proof.Machine Sys2Proof.Machine.Node

/-- Settles O13: the four bytes are one run of writes to the bank's table; an erase and a check end with a change of the inactive
bank. -/
theorem imageWriteEraseAndCheck : Obligations.ImageWriteEraseAndCheck := by
  unfold Obligations.ImageWriteEraseAndCheck
  constructor
  · rintro ⟨n, q⟩ w
    dsimp only
    refine ⟨fun h => .of_run (imgData · w) rfl (imgData_refused w h), fun h hs hw => .of_run (imgData · w) rfl ?_⟩
    rw [imgData_taken w h hs]
    set u := (n.secTouch.mSec fun s => { s with offset := n.sec.offset + 4, bufUsed := s.bufUsed + 4 }).updBank n.inactive
      (bankWritten n.sec.offset (leBytes 4 w.toNat)) with hu
    have hsec : (u.bufferBytes n.inactive n.sec.offset (leBytes 4 w.toNat)).sec = u.sec :=
      (Within.bufferBytes .rfl : Within [.stor] u _).part .sec
    have hown : u.bankOf n.inactive = bankWritten n.sec.offset (leBytes 4 w.toNat) (n.bankOf n.inactive) := bankOf_updBank_same _ _
    have hother : u.bankOf (!n.inactive) = n.bankOf (!n.inactive) := bankOf_updBank_other _ _
    have husec : u.sec.offset = n.sec.offset + 4 ∧ u.sec.bufUsed = n.sec.bufUsed + 4 ∧ u.sec.flags = n.sec.flags := by
      rw [hu, updBank_eq]
      exact ⟨rfl, rfl, rfl⟩
    have hget (a : Nat) := tget_foldl_zipIdx hw (leBytes 4 w.toNat) 0 n.sec.offset a
    simp only [leBytes_length, Nat.add_zero] at hget
    rw [hsec, bankOf_of_sec hsec, bankOf_of_sec hsec, hown, hother]
    refine ⟨husec.1, husec.2.1, husec.2.2, fun i hi => ?_, fun a ha => ?_, rfl, rfl, ?_⟩
    · rw [bankWritten, hget, if_pos (by omega), Nat.add_sub_cancel_left, leBytes_getD _ hi, extractLsb'_byte]
    · rw [bankWritten, hget, if_neg (by omega)]
    · exact (Within.bufferBytes (.updBank (.mSec (.secTouch .rfl))) : Within [.sec, .stor] n _).keeps
  · rintro ⟨n, q⟩
    dsimp only
    refine ⟨fun hb hs => .of_run imgErased rfl ?_, fun hb => .of_run imgChecked rfl ?_⟩
    · obtain ⟨m, hm, he⟩ := imgErased_eq hb hs
      have hsec := hm.part .sec
      refine ⟨?_, ?_, ?_, ?_, (Within.imgErased .rfl : Within [.sys, .stor, .sec] n _).keeps.mono (by simp)⟩
      · rw [he]
        show (m.updBank n.inactive _).bankOf n.inactive = _
        rw [bankOf_updBank_same, bankOf_of_sec hsec]
      · rw [he]
        show (m.updBank n.inactive _).bankOf (!n.inactive) = _
        rw [bankOf_updBank_other, bankOf_of_sec hsec]
      · rw [he]
        rfl
      · rw [he]
        show setBit m.sys.irq 5 = _
        rw [hm.part .sys]
    · have hkeeps {m : Node} (h : Within [.sys, .sec] n.checkEnded m) {b : Bool} {k : Nat} {x : BitVec 256} :
          Keeps [.sec, .stor, .sys] n (m.bankMove b k x) := by
        refine Keeps.mono (l := [.sys, .stor, .sec]) ?_ (by simp)
        have he : Within [.sys, .stor, .sec] n n.checkEnded := .irqEvent (.secFlag (.mSec .rfl))
        exact (Within.bankMove (h.after he (by simp))).keeps
      cases hc : n.checkImage (n.bankOf n.inactive) with
      | none =>
        rw [imgChecked_of_pass hb hc, checkEnded_bankOf]
        refine ⟨?_, ?_, rfl, ?_, hkeeps (.mSec .rfl), ?_, ?_, ?_⟩
        · rw [bankMove_sec]
          rfl
        · rw [bankMove_sec]
          rfl
        · exact bankOf_bankMove_other _ _ _
        · rw [bankOf_bankMove_same]
        · rw [bankOf_bankMove_same]
        · rw [bankMove_sec]
          rfl
      | some f =>
        rw [imgChecked_of_fail hb hc]
        refine ⟨?_, ?_, rfl, ?_, hkeeps (.mSec .rfl), ?_, ?_, ?_, ?_⟩
        · rw [bankMove_sec]
          rfl
        · rw [bankMove_sec]
          rfl
        · exact bankOf_bankMove_other _ _ _
        · rw [bankOf_bankMove_same]
        · rw [bankMove_sec]
          rfl
        · rw [bankMove_sec]
          rfl
        · rw [bankMove_sec]
          rfl

end

section
/-! The boundary of an activation (02 R75, R77, R92). -/

namespace Sys2Proof.Machine.Node

variable {n : Node}

/-- What a refused activation leaves of a node whose flags are `f`. -/
theorem activationRefused_eq {code : Nat} (h : code ≠ 0) : n.activationRefused code = Node.stepOne { n with
    sys := { n.sys with irq := setBit n.sys.irq 5 }
    sec := { n.sec with
      act := none
      notice := none
      confirmDue := false
      result := code
      flags := setBit (setBit n.sec.flags 4) 1 } } ⟨0x10, 0, 2, code, leBytes 4 n.hashTag⟩ := by
  unfold activationRefused imgResult configBody
  rw [if_neg h, List.append_nil]
  rfl

/-- The bank taken over, before its image applies: its state and generation, the other bank PREVIOUS, and the activation at its end. -/
def bankTaken (n : Node) (b : Bool) : Node :=
  let m := n.updBank b fun s => { s with state := 5, gen := n.nextGen }
  ((m.appendBank b ⟨5, n.nextGen, (m.bankOf b).hash⟩).demoteBank (!b)).discardTunes.activationEnds.mSec fun s =>
    { s with runB := b, fallback := false }

theorem activated_eq (b : Bool) : ∃ old l, n.activated b =
    (((n.bankTaken b).retagAll old ((n.bankOf b).hash.toNat % 2 ^ 32)).takeImage b).firstOf l := ⟨_, _, rfl⟩

/-- The image that phase E begins with is the one of the bank to run. -/
theorem phaseE_img : n.phaseE.img = some (imageOf (n.bankOf n.sec.runB)) := by
  have h : Within (Part.allBut [.img]) { n with img := some (imageOf (n.bankOf n.sec.runB)) } n.phaseE := by
    unfold phaseE
    dsimp only
    exact .mPwr (.startPorts (.ite
      (.dueNotices (.setRole (.compactDue (.startBaselines (.startFabric (.syncCauses (.applyDomains (.mPwr (.foldl _ (.testSwitches .rfl)
        (fun _ _ => .initExc .rfl))))))))))
      (.startNumbering (.setRole (.compactDue (.startBaselines (.startFabric (.syncCauses (.applyDomains (.mPwr (.foldl _ (.testSwitches .rfl)
        (fun _ _ => .initExc .rfl))))))))))))
  exact h.part .img

theorem applyImage_img (i : Image) : (n.applyImage i).img = some i := by
  have h : Within (Part.allBut [.img]) { n.endAoForces.endDioForces.sweepAbort n.dio.sweepBank 7 with img := some i } (n.applyImage i) := by
    unfold applyImage
    dsimp only
    generalize n.endAoForces.endDioForces.sweepAbort n.dio.sweepBank 7 = o
    exact .applyDomains (.keptEntries (.keepRole (.iteElse
      (.keepPins (.keepLoops (.keepLanes (.keepChans (.keepInputs (.keepTmpls (.keepRoster (.keepCalls (.keepCells .rfl)))))))))
      (.remapPorts .rfl))))
  exact h.part .img

/-- The image that runs after `takeImage` is the one of the bank. -/
theorem takeImage_img : (n.takeImage n.sec.runB).img = some (imageOf (n.bankOf n.sec.runB)) := by
  unfold takeImage
  split
  · exact applyImage_img _
  · exact phaseE_img

theorem takeImage_sec (b : Bool) : (n.takeImage b).sec = n.sec :=
  (Within.takeImage .rfl : Within (Part.allBut [.sec]) n _).part .sec

theorem demoteBank_of_active {b : Bool} (h : (n.bankOf b).state = 5) :
    (n.demoteBank b).sec = (n.updBank b fun s => { s with state := 6 }).sec := by
  unfold demoteBank
  rw [if_neg (not_not.2 h)]
  exact (Within.iteThen .rfl (.appendBank .rfl) : Within [.stor] (n.updBank b fun s => { s with state := 6 }) _).part .sec

theorem demoteBank_of_not_active {b : Bool} (h : (n.bankOf b).state ≠ 5) : n.demoteBank b = n := by
  unfold demoteBank
  rw [if_pos h]

theorem demoteBank_bankOf_other (b : Bool) : (n.demoteBank (!b)).bankOf b = n.bankOf b := by
  by_cases h : (n.bankOf (!b)).state = 5
  · rw [bankOf_of_sec (demoteBank_of_active h)]
    cases b <;> rfl
  · rw [demoteBank_of_not_active h]

theorem demoteBank_bankOf_state (b : Bool) :
    ((n.demoteBank b).bankOf b).state = if (n.bankOf b).state = 5 then 6 else (n.bankOf b).state := by
  by_cases h : (n.bankOf b).state = 5
  · rw [bankOf_of_sec (demoteBank_of_active h), if_pos h, bankOf_updBank_same]
  · rw [demoteBank_of_not_active h, if_neg h]

/-- The bank taken over, the other one demoted. -/
def bankTop (n : Node) (b : Bool) : Node :=
  let m := n.updBank b fun s => { s with state := 5, gen := n.nextGen }
  (m.appendBank b ⟨5, n.nextGen, (m.bankOf b).hash⟩).demoteBank (!b)

theorem bankTop_bankOf_same (b : Bool) : (n.bankTop b).bankOf b = { n.bankOf b with state := 5, gen := n.nextGen } := by
  unfold bankTop
  rw [demoteBank_bankOf_other, bankOf_of_sec ((Within.appendBank .rfl : Within [.stor] _ _).part .sec), bankOf_updBank_same]

theorem bankTop_state_other (b : Bool) : ((n.bankTop b).bankOf (!b)).state =
    if (n.bankOf (!b)).state = 5 then 6 else (n.bankOf (!b)).state := by
  unfold bankTop
  rw [demoteBank_bankOf_state, bankOf_of_sec ((Within.appendBank .rfl : Within [.stor] _ _).part .sec), bankOf_updBank_other]

theorem bankTaken_sec (b : Bool) : ∃ f, (n.bankTaken b).sec =
    { (n.bankTop b).sec with act := none, notice := none, confirmDue := false, flags := f, runB := b, fallback := false } := by
  have h : (n.bankTop b).discardTunes.sec = (n.bankTop b).sec := (Within.discardTunes .rfl : Within [.fab] _ _).part .sec
  refine ⟨setBit (n.bankTop b).discardTunes.sec.flags 4, ?_⟩
  rw [← h]
  rfl

/-- What an activation that takes effect leaves of SEC, with the image that runs. -/
theorem activated_sec (b : Bool) : ∃ f, (n.activated b).sec =
      { (n.bankTop b).sec with act := none, notice := none, confirmDue := false, flags := f, runB := b, fallback := false } ∧
    (n.activated b).img = some (imageOf ((n.bankTop b).bankOf b)) := by
  obtain ⟨f, hf⟩ := n.bankTaken_sec b
  obtain ⟨old, l, h⟩ := n.activated_eq b
  refine ⟨f, ?_⟩
  rw [h]
  have hr : ((n.bankTaken b).retagAll old ((n.bankOf b).hash.toNat % 2 ^ 32)).sec = (n.bankTaken b).sec :=
    (Within.retagAll .rfl : Within [.jrnl, .pair] _ _).part .sec
  generalize (n.bankTaken b).retagAll old ((n.bankOf b).hash.toNat % 2 ^ 32) = m at hr
  have hl : Within [.jrnl, .tide, .pair] (m.takeImage b) ((m.takeImage b).firstOf l) := .firstOf .rfl
  have hb : m.sec.runB = b := by rw [hr, hf]
  refine ⟨?_, ?_⟩
  · rw [hl.part .sec, takeImage_sec, hr, hf]
  · rw [hl.part .img, ← hb, takeImage_img, hb]
    refine congrArg (fun x => some (imageOf x)) ?_
    rw [bankOf, bankOf, hr, hf]

end Sys2Proof.Machine.Node

open Sys2Proof Sys2Proof.Machine Sys2Proof.Machine.Node

/-- Settles O14: a refused activation ends alike by either cause, and one that takes effect changes the banks before its image applies. -/
theorem activationBoundary : Obligations.ActivationBoundary := by
  unfold Obligations.ActivationBoundary
  rintro ⟨n, q⟩ ok a
  dsimp only
  intro ha hp
  have hrun (hc : a.confirmed = true) (ht : a.boundary ≤ n.nextMultiple 1000000) : exec (.activationApply ok) ⟨n, q⟩ =
      State.run ⟨n, q⟩ fun _ => (n.setNow (n.nextMultiple 1000000)).activateNow a.bank ok := by
    rw [exec, execActivationApply, State.run, State.run]
    dsimp only
    simp only [hp]
    rw [if_pos (by simp [ha, hc, ht])]
  refine ⟨fun hc => ?_, fun hc ht hf => .of_run _ (hrun hc ht) ?_, fun hc ht hok hs => .of_run _ (hrun hc ht) ?_⟩
  · refine .of_run (fun n => if n.activates && n.sec.act.any (! ·.confirmed) then
      (n.setNow (n.nextMultiple 1000000)).activationRefused 0x80 else n) rfl ?_
    rw [if_pos (by simp [ha, hp, hc]), activationRefused_eq (by decide)]
    rfl
  · have hx : (ok && n.stor.state == 1) = false := by
      rcases hf with hf | hf <;> simp [hf]
    rw [activateNow, if_neg (by rw [show (n.setNow _).stor = n.stor from rfl, hx]; decide), activationRefused_eq (by decide)]
    cases a.bank <;> rfl
  · rw [activateNow, if_pos (by rw [show (n.setNow _).stor = n.stor from rfl, hs, hok]; rfl)]
    obtain ⟨f, hsec, himg⟩ := (n.setNow (n.nextMultiple 1000000)).activated_sec a.bank
    have hb (b : Bool) : ((n.setNow (n.nextMultiple 1000000)).activated a.bank).bankOf b =
        ((n.setNow (n.nextMultiple 1000000)).bankTop a.bank).bankOf b := by rw [bankOf, bankOf, hsec]
    rw [hb, hb, himg, hsec, bankTop_bankOf_same, bankTop_state_other]
    exact ⟨rfl, rfl, rfl, rfl, rfl, rfl⟩

end

section
/-! Events of the supply, and the entry to Hold-up (03 Table 3.1, R105). -/

namespace Sys2Proof.Machine.Node

variable {n : Node} {t : Nat} {trip : Bool}

/-- PWR as Hold-up begins it. -/
def heldUp (p : Pwr) (now : Nat) (trip : Bool) : Pwr := { p with
  vinOk := false
  rdy := false
  pend := none
  result := if p.pend.isSome then 4 else p.result
  mode := .holdup
  left := p.mode
  step := 1
  flags := if !p.rdy then setBit (setBit p.flags 2) 3 else setBit p.flags 2
  holdups := satInc 0xFFFF p.holdups
  tripped := trip
  t0 := now
  parked := false
  flushed := false
  solvOut := false
  back := false }

/-- The state at the entry to Hold-up, before the store's voltages are sampled. -/
def heldTop (n : Node) (t : Nat) (trip : Bool) : Node :=
  let m := (n.mRtc fun r => { r with now := max r.now t }).mPwr fun p => heldUp p (max n.rtc.now t) trip
  (((m.flashAdd (.ident .holdup)).irqEvent 6).mSys fun s => { s with resetPend := false }).mSec fun s =>
    { s with act := none, notice := none, confirmDue := false }

theorem dropPending_eq : n.dropPending = n.mPwr fun p => { p with
    pend := none
    result := if p.pend.isSome then 4 else p.result } := by
  unfold dropPending
  cases h : n.pwr.pend with
  | none =>
    simp only [h, Option.isSome_none, Bool.false_eq_true, if_false, mPwr]
    exact congrArg (fun x => { n with pwr := { n.pwr with pend := x } }) h
  | some m => simp only [h, Option.isSome_some, if_true, mPwr]

theorem enterHoldup_eq (hl : n.clk.latched = false) (hm : n.pwr.mode ∈ [PwrMode.run, .sleep]) (hp : n.pwr.phase ∉ [Phase.a, .b]) :
    ∃ b, n.enterHoldup t trip = (n.heldTop t trip).sampleVolt.journalStart.later b := by
  have hl' : ¬ n.clk.latched = true := by simp [hl]
  have hph : ¬ (n.pwr.phase = .a ∨ n.pwr.phase = .b) := by simpa [not_or] using hp
  refine ⟨(n.heldTop t trip).sampleVolt.journalStart.powerBody 1, ?_⟩
  unfold enterHoldup
  simp only [setNow, mRtc, mPwr]
  split
  · simp_all
  · simp_all
  · simp_all
  · refine (if_neg hl').trans ((if_neg hph).trans ?_)
    rw [dropPending_eq]
    rfl

/-- What the entry to Hold-up leaves of PWR and of the activation. -/
structure HeldUp (n : Node) (t : Nat) (trip : Bool) (m : Node) : Prop where
  pwr : ∃ v w, m.pwr = { heldUp n.pwr (max n.rtc.now t) trip with vin := v, store := w }
  now : m.rtc.now = max n.rtc.now t
  act : m.sec.act = none
  notice : m.sec.notice = none
  irq : m.sys.irq = setBit n.sys.irq 6
  keeps : Keeps [.pwr, .rtc, .stor, .sys, .sec, .jrnl, .tide, .pair, .free] n m

theorem enterHoldup_heldUp (hl : n.clk.latched = false) (hm : n.pwr.mode ∈ [PwrMode.run, .sleep]) (hp : n.pwr.phase ∉ [Phase.a, .b]) :
    HeldUp n t trip (n.enterHoldup t trip) := by
  obtain ⟨b, h⟩ := enterHoldup_eq (t := t) (trip := trip) hl hm hp
  rw [h]
  have hw : Within [.stor, .jrnl, .tide, .pair] (n.heldTop t trip).sampleVolt ((n.heldTop t trip).sampleVolt.journalStart.later b) :=
    .later (.journalStart .rfl)
  have hs : Within [.pwr, .free] (n.heldTop t trip) (n.heldTop t trip).sampleVolt := .sampleVolt .rfl
  have ht : Within [.pwr, .rtc, .stor, .sys, .sec] n (n.heldTop t trip) := by
    unfold heldTop
    exact .mSec (.mSys (.irqEvent (.flashAdd (.mPwr (.mRtc .rfl)))))
  refine ⟨⟨_, _, (hw.part .pwr).trans rfl⟩, ?_, ?_, ?_, ?_, ?_⟩
  · rw [hw.part .rtc]; rfl
  · rw [hw.part .sec]; rfl
  · rw [hw.part .sec]; rfl
  · rw [hw.part .sys]; rfl
  · exact (hw.after (hs.after (ht.after .rfl (by decide)) (by decide)) (by decide) : Within _ n _).keeps

theorem bit_setBit_other {w : Nat} (v : BitVec w) {i j : Nat} (h : i ≠ j) : bit (setBit v i) j = bit v j := by
  rw [bit, bit, setBit, BitVec.getLsbD_or, BitVec.getLsbD_shiftLeft]
  by_cases hj : j < i
  · simp [hj]
  · have : j - i ≠ 0 := by omega
    simp [this]

theorem heldUp_flag_holdup (p : Pwr) (now : Nat) : bit (heldUp p now trip).flags 2 = true := by
  unfold heldUp
  dsimp only
  split
  · rw [bit_setBit_other _ (by decide), bit_setBit_same _ (by decide)]
  · exact bit_setBit_same _ (by decide)

theorem heldUp_flag_short (p : Pwr) (now : Nat) (h : p.rdy = false) : bit (heldUp p now trip).flags 3 = true := by
  unfold heldUp
  rw [h]
  exact bit_setBit_same _ (by decide)

theorem heldUp_result (p : Pwr) (now : Nat) (h : p.pend.isSome = true) : (heldUp p now trip).result = 4 := if_pos h

/-- What 03 R105 says of the entry to Hold-up, field by field. -/
def Entered (n : Node) (t : Nat) (trip : Bool) (m : Node) : Prop :=
  m.pwr.mode = .holdup ∧ m.pwr.left = n.pwr.mode ∧ m.pwr.step = 1 ∧ m.pwr.rdy = false ∧ m.pwr.vinOk = false ∧
    m.pwr.t0 = max n.rtc.now t ∧ m.rtc.now = max n.rtc.now t ∧ m.pwr.holdups = satInc 0xFFFF n.pwr.holdups ∧
    m.pwr.parked = false ∧ m.pwr.flushed = false ∧ m.pwr.tripped = trip ∧ m.pwr.pend = none ∧
    (n.pwr.pend.isSome = true → m.pwr.result = 4) ∧ bit m.pwr.flags 2 = true ∧
    (n.pwr.rdy = false → bit m.pwr.flags 3 = true) ∧ m.sec.act = none ∧ m.sec.notice = none ∧
    m.sys.irq = setBit n.sys.irq 6 ∧ Keeps [.pwr, .rtc, .stor, .sys, .sec, .jrnl, .tide, .pair, .free] n m

/-- What is true of the node that a trip is marked in is true of the node before. -/
theorem HeldUp.entered {k m : Node} (h : HeldUp k t trip m) (hk : Keeps [.pwr, .stor] n k) (hm : k.pwr.mode = n.pwr.mode)
    (hh : k.pwr.holdups = n.pwr.holdups) (hp : k.pwr.pend = n.pwr.pend) (hr : k.pwr.rdy = n.pwr.rdy) : Entered n t trip m := by
  have hnow : k.rtc = n.rtc := hk.part .rtc (by decide)
  have hsys : k.sys = n.sys := hk.part .sys (by decide)
  have hkeeps := (hk.mono (by decide)).trans h.keeps
  have hirq := h.irq
  have ht := h.now
  obtain ⟨v, w, hpwr⟩ := h.pwr
  rw [hnow] at ht hpwr
  rw [hsys] at hirq
  rw [Entered, hpwr, ← hm, ← hh, ← hp, ← hr]
  exact ⟨rfl, rfl, rfl, rfl, rfl, rfl, ht, rfl, rfl, rfl, rfl, rfl, heldUp_result (trip := trip) _ (max n.rtc.now t),
    heldUp_flag_holdup (trip := trip) _ (max n.rtc.now t), heldUp_flag_short (trip := trip) _ (max n.rtc.now t), h.act, h.notice, hirq, hkeeps⟩

theorem rtcElapses_pwr : n.rtcElapses.pwr = n.pwr := (Within.rtcElapses .rfl : Within [.rtc, .free] n _).part .pwr

theorem supplyValid_of_closed (h : n.pwr.switchOpen = false) : n.supplyValid = n.supplyBack := if_neg (by simp [h])

/-- The supply back within the working modes is noted only. -/
theorem supplyBack_of_on (hm : n.pwr.mode ∈ [PwrMode.run, .sleep, .deep]) :
    n.supplyBack = n.mPwr fun p => { p with vinOk := true } := by
  have h : n.pwr.mode = .run ∨ n.pwr.mode = .sleep ∨ n.pwr.mode = .deep := by simpa using hm
  rcases h with h | h | h
  · simp only [supplyBack, mPwr, h]
  · simp only [supplyBack, mPwr, h]
  · simp only [supplyBack, mPwr, h]

theorem supplyBack_of_first (hm : n.pwr.mode = .off) (hl : n.clk.latched = false) (hp : n.pwr.phase = .a) :
    n.supplyBack = (n.mPwr fun p => { p with vinOk := true }).rtcElapses.mPwr fun p => { p with mode := .run } := by
  simp only [supplyBack, mPwr, hm, hl, hp, Bool.false_eq_true, if_false, if_true]

theorem supplyBack_of_off (hm : n.pwr.mode = .off) (hl : n.clk.latched = false) (hp : n.pwr.phase ≠ .a) :
    n.supplyBack = n.mPwr fun p => { p with vinOk := true, back := true } := by
  simp only [supplyBack, mPwr, hm, hl, hp, Bool.false_eq_true, if_false]

theorem supplyBack_of_parked (hm : n.pwr.mode = .holdup) (hp : n.pwr.parked = true) :
    n.supplyBack = n.mPwr fun p => { p with vinOk := true, back := true } := by
  simp only [supplyBack, mPwr, hm, hp, if_true]

theorem supplyBack_of_holdup (hm : n.pwr.mode = .holdup) (hp : n.pwr.parked = false) :
    n.supplyBack = (n.mPwr fun p => { p with vinOk := true }).leaveHoldup := by
  simp only [supplyBack, mPwr, hm, hp, Bool.false_eq_true, if_false]

/-- In Deep sleep the loss of the supply is noted only. -/
theorem enterHoldup_of_deep (hm : n.pwr.mode = .deep) :
    n.enterHoldup t trip = (n.setNow t).mPwr fun p => { p with vinOk := false, rdy := false } := by
  simp only [enterHoldup, setNow, mRtc, mPwr, hm]

theorem overRelease_of_open (h : n.pwr.switchOpen = true) :
    n.overRelease = (n.mPwr fun p => { p with switchOpen := false, ovActive := false }).supplyBack := if_pos h

/-- The node with its input switch open. -/
def tripMarked (n : Node) : Node :=
  (n.mPwr fun p => { p with
    switchOpen := true
    ovActive := true
    flags := setBit (setBit p.flags 0) 1
    trips := satInc 0xFFFF p.trips }).flashAdd (.ident .trip)

theorem tripMarked_keeps : Keeps [.pwr, .stor] n n.tripMarked := by
  unfold tripMarked
  exact (Within.flashAdd (.mPwr .rfl) : Within [.pwr, .stor] n _).keeps

theorem overTrip_of_closed (h : n.pwr.switchOpen = false) : n.overTrip t = n.tripMarked.enterHoldup t true := if_neg (by simp [h])

end Sys2Proof.Machine.Node

open Sys2Proof Sys2Proof.Machine Sys2Proof.Machine.Node

/-- Settles O15: each event of the supply by its mode, and the three entries to Hold-up by the one that they share. -/
theorem supplyAndHoldupBegin : Obligations.SupplyAndHoldupBegin := by
  unfold Obligations.SupplyAndHoldupBegin
  refine ⟨?_, ?_⟩
  · rintro ⟨n, q⟩ t
    dsimp only
    have hopen (h : n.pwr.switchOpen = false) : ¬ n.pwr.switchOpen = true := by simp [h]
    refine ⟨rfl, fun h => ?_, fun h => ⟨?_, ?_, ?_⟩, fun h hm => ?_, fun h hm hp hl => ?_, fun h hm hl => ?_, fun h hm hl hp => ?_, fun h => ?_⟩
    · refine .of_run (fun n => if n.pwr.switchOpen then n else n.mPwr fun p => { p with ovActive := false }) rfl ?_
      exact if_neg (hopen h)
    · refine .of_run (fun n => if n.pwr.switchOpen then n else n.mPwr fun p => { p with ovActive := false }) rfl ?_
      exact if_pos h
    · refine .of_run Node.supplyValid rfl ?_
      exact if_pos h
    · refine .of_run (fun n => n.overTrip t) rfl ?_
      exact if_pos h
    · refine .of_run Node.supplyValid rfl ?_
      rw [supplyValid_of_closed h, supplyBack_of_on hm]
      rfl
    · refine .of_run Node.supplyValid rfl ?_
      rw [supplyValid_of_closed h, supplyBack_of_first hm hl hp]
      refine ⟨?_, (Within.mPwr (.rtcElapses (.mPwr .rfl)) : Within [.pwr, .rtc, .free] n _).keeps⟩
      rw [mPwr, rtcElapses_pwr]
      rfl
    · refine .of_run (fun n => n.overTrip t) rfl ?_
      rw [overTrip_of_closed h]
      refine (enterHoldup_of_deep ?_).trans ?_
      · exact hm
      · rfl
    · refine .of_run Node.overRelease rfl ?_
      rw [overRelease_of_open h]
      refine (supplyBack_of_off ?_ ?_ ?_).trans ?_
      · exact hm
      · exact hl
      · exact hp
      · rfl
    · refine .of_run (fun n => if n.pwr.vinOk then
        (n.mPwr fun p => { p with rdy := true }).mRtc fun r => { r with storeLow := false } else n) rfl ?_
      exact if_pos h
  · rintro ⟨n, q⟩ t
    dsimp only
    intro hl hm hp
    have hown : Entered n t false (n.enterHoldup t false) := (enterHoldup_heldUp hl hm hp).entered (Keeps.refl _ _) rfl rfl rfl rfl
    have hon : ¬ n.pwr.mode = .holdup := by
      intro h
      rw [h] at hm
      simp at hm
    refine ⟨.of_run (fun n => n.enterHoldup t false) rfl hown,
      .of_run (fun n => if n.pwr.mode = .holdup then n else n.enterHoldup t false) rfl ?_,
      fun h => .of_run (fun n => n.overTrip t) rfl ?_⟩
    · rw [if_neg hon]
      exact hown
    · rw [overTrip_of_closed h]
      have ht : HeldUp n.tripMarked t true _ := enterHoldup_heldUp hl hm hp
      obtain ⟨v, w, hpwr⟩ := ht.pwr
      refine ⟨ht.entered tripMarked_keeps rfl rfl rfl rfl, ?_, ?_⟩
      · rw [hpwr]
        rfl
      · rw [hpwr]
        rfl

end

section
open Sys2Proof Sys2Proof.Machine Sys2Proof.Machine.Node

/-- Hold-up with a slot in the queue of the solver that holds no job. -/
def orphanQueued : Node := { pwr := { mode := .holdup }, solv := { order := [0] } }

/-- Refutes O16: the abort ends jobs, so a queued slot that holds none stays in the queue. -/
theorem not_holdupSteps : ¬ Obligations.HoldupSteps := by
  unfold Obligations.HoldupSteps
  intro h
  obtain ⟨t, ht, -, -, -, ho, -⟩ := (h ⟨orphanQueued, []⟩ rfl).1 rfl
  have hs : t = ⟨orphanQueued.solverOff, []⟩ := by
    cases ht
    rfl
  have hq : orphanQueued.solverOff.solv.order = [0] := by decide +kernel
  rw [hs, hq] at ho
  cases ho

end

section
/-! What a restart of CORE keeps (00 R14). -/

namespace Sys2Proof.Machine.Node

variable {n : Node}

/-- The parts of a node after a restart of CORE, with the RTC and the flash store as the restart finds them. -/
def coreKept (n : Node) (r : Rtc) (s : Stor) (due : List RecBody) : Node :=
  { sys := { straps := n.sys.straps, hvio := n.sys.hvio }
    pwr := keptPwr n.pwr
    clk := keptClk n.clk
    rtc := keptRtc r
    afe := { shunts := n.afe.shunts, badSwitch := n.afe.badSwitch }
    loop := { islands := n.loop.islands }
    dio := { banks := keptModes n.dio, field := n.dio.field }
    jrnl := { last := n.jrnl.last, heard := n.jrnl.heard, due := due }
    stor := { sectors := s.sectors, ident := s.ident, tornLeap := s.tornLeap, tornEra := s.tornEra, tornRetired := s.tornRetired }
    sec := { keyClosed := n.sec.keyClosed, enrolled := n.sec.enrolled, a := n.sec.a, b := n.sec.b }
    free := n.free }

theorem tearIdent_ident (e : IdEntry) : (n.tearIdent e).stor.ident = n.stor.ident := by
  unfold tearIdent mStor
  dsimp only
  split
  · split <;> rfl
  · split <;> rfl
  · split <;> rfl
  · rfl

theorem cutSector_ident (op : Option FlashOp) : (n.cutSector op).stor.ident = n.stor.ident := by
  unfold cutSector
  split
  · rfl
  · split
    · split <;> rfl
    · split <;> rfl
    · rfl
    · rfl
    · split <;> rfl
    · rfl
    · exact tearIdent_ident _
    · rfl

theorem cutFlash_ident : n.cutFlash.stor.ident = n.stor.ident :=
  (cutSector_ident _).trans (cutSector_ident _)

theorem coreReset_eq : ∃ r s due, s.ident = n.stor.ident ∧ n.coreReset = n.coreKept r s due := by
  have hc : Within [.rtc, .stor] n n.rtcHold.cutFlash := .cutFlash (.rtcHold .rfl)
  have hi : n.rtcHold.cutFlash.stor.ident = n.stor.ident := cutFlash_ident
  have hk (r s due) : n.rtcHold.cutFlash.coreKept r s due = n.coreKept r s due := by
    unfold coreKept
    rw [hc.part .sys, hc.part .pwr, hc.part .clk, hc.part .afe, hc.part .loop, hc.part .dio, hc.part .jrnl, hc.part .sec, hc.part .free]
  unfold coreReset
  dsimp only
  split
  · exact ⟨_, _, _, hi, hk _ _ _⟩
  · exact ⟨_, _, _, hi, hk _ _ _⟩

/-- A record that waits changes of the journal its waiting records, and the count of notices lost. -/
def RecordWaits (n m : Node) : Prop := ∃ d l, m.jrnl = { n.jrnl with due := d, lost := l }

theorem RecordWaits.of_jrnl {m : Node} (h : m.jrnl = n.jrnl) : RecordWaits n m := ⟨_, _, h⟩

theorem RecordWaits.trans {m k : Node} (h : RecordWaits n m) (g : RecordWaits m k) : RecordWaits n k := by
  obtain ⟨_, _, h⟩ := h
  obtain ⟨d, l, g⟩ := g
  exact ⟨d, l, by rw [g, h]⟩

theorem RecordWaits.ite {c : Prop} [Decidable c] {a b : Node} (ha : RecordWaits n a) (hb : RecordWaits n b) :
    RecordWaits n (if c then a else b) := by
  split
  · exact ha
  · exact hb

theorem RecordWaits.foldl {β : Type} {f : Node → β → Node} (h : ∀ n x, RecordWaits n (f n x)) (r : List β) :
    RecordWaits n (r.foldl f n) := by
  induction r generalizing n with
  | nil => exact .of_jrnl rfl
  | cons x r ih => exact (h n x).trans ih

theorem notify_waits (b : RecBody) : RecordWaits n (n.notify b) := by
  unfold notify
  refine .ite (.of_jrnl rfl) ?_
  split
  · exact .of_jrnl rfl
  · refine .ite (.of_jrnl ((Within.sendFrame .rfl : Within [.tide] n _).part .jrnl)) ?_
    dsimp only
    split
    · exact ⟨_, _, rfl⟩
    · exact .of_jrnl rfl

theorem later_waits (b : RecBody) : RecordWaits n (n.later b) := .ite ⟨_, _, rfl⟩ (notify_waits b)

theorem sweepDone_waits : RecordWaits n n.sweepDone := by
  unfold sweepDone
  dsimp only
  exact .trans (.of_jrnl rfl) (later_waits _)

theorem sweepAbort_waits (b slot : Nat) : RecordWaits n (n.sweepAbort b slot) :=
  .ite (.trans (.of_jrnl rfl) sweepDone_waits) (.of_jrnl rfl)

theorem selectMode_waits (m b : Nat) : RecordWaits n (n.selectMode m b) := by
  unfold selectMode
  dsimp only
  split
  · exact .of_jrnl rfl
  · generalize hk : (n.setField b _).setBank b _ = k
    have hj : RecordWaits n k := .of_jrnl (by rw [← hk]; rfl)
    split
    · exact hj.trans (.ite (later_waits _) (.of_jrnl rfl))
    · exact hj.trans (sweepAbort_waits _ _)

theorem selectModes_waits (m : Nat) : RecordWaits n (n.selectModes m) := .foldl (fun _ _ => selectMode_waits _ _) _

theorem selectModes_last (m : Nat) : (n.selectModes m).jrnl.last = n.jrnl.last := by
  obtain ⟨d, l, h⟩ := n.selectModes_waits m
  rw [h]

/-- The cause that a brown-out leaves (03 R119). -/
def brownCause (p : Pwr) : Nat := if p.mode == .holdup && p.parked then (if p.tripped then 3 else 2) else 4

theorem brownOut_eq (hv : n.pwr.vinOk = true) (hl : n.clk.latched = false) (hp : n.pwr.phase ∉ [Phase.a, .b])
    (hm : n.pwr.mode ∈ [PwrMode.run, .sleep, .holdup]) : n.brownOut =
      ((n.selectModes modeSafe).restart (brownCause n.pwr) .c).mPwr fun p =>
        { p with flags := if n.pwr.mode == .holdup && n.pwr.parked then setBit p.flags 4 else p.flags } := by
  obtain ⟨ha, hb⟩ : (n.pwr.phase != .a) = true ∧ (n.pwr.phase != .b) = true := by simpa [not_or] using hp
  have h : n.pwr.mode = .run ∨ n.pwr.mode = .sleep ∨ n.pwr.mode = .holdup := by simpa using hm
  rcases h with h | h | h
  · simp only [brownOut, brownCause, hv, hl, ha, hb, h, Bool.not_false, Bool.and_true, if_true]
  · simp only [brownOut, brownCause, hv, hl, ha, hb, h, Bool.not_false, Bool.and_true, if_true]
  · simp only [brownOut, brownCause, hv, hl, ha, hb, h, Bool.not_false, Bool.and_true, if_true]

end Sys2Proof.Machine.Node

open Sys2Proof Sys2Proof.Machine Sys2Proof.Machine.Node

/-- Settles O17: a restart of CORE builds its node from the parts that stand; what comes before it leaves those alone. -/
theorem restartsOfCore : Obligations.RestartsOfCore := by
  unfold Obligations.RestartsOfCore
  rintro ⟨n, q⟩
  dsimp only
  refine ⟨fun hv hl hp hm => ?_, fun hl hm hp hv => ?_, fun hl => ?_, fun hv hm => ?_⟩
  · refine .of_run Node.brownOut rfl ?_
    have hs : Within [.dio, .jrnl, .tide, .pair] n (n.selectModes modeSafe) := .selectModes .rfl
    have hlast := n.selectModes_last modeSafe
    rw [brownOut_eq hv hl hp hm]
    generalize n.selectModes modeSafe = k at hs hlast
    have hsec : k.sec = n.sec := hs.part .sec
    have hstor : k.stor = n.stor := hs.part .stor
    have hloop : k.loop = n.loop := hs.part .loop
    have hsys : k.sys = n.sys := hs.part .sys
    obtain ⟨r, s, due, hi, hr⟩ := k.coreReset_eq
    unfold restart
    rw [hr]
    refine ⟨?_, rfl, rfl, rfl, rfl, rfl, rfl, rfl, rfl, rfl, ?_, ?_, ?_, rfl, ?_, hlast, ?_, ?_⟩
    · simp [mPwr, brownCause]
    · exact (congrArg Sec.enrolled hsec :)
    · exact (congrArg Sec.a hsec :)
    · exact (congrArg Sec.b hsec :)
    · exact hi.trans (congrArg Stor.ident hstor :)
    · exact (congrArg Loops.islands hloop :)
    · exact (congrArg Sys.straps hsys :)
  · refine .of_run Node.latchRestarts rfl ?_
    have hpk : ((n.pwr.mode == .holdup && n.pwr.parked) || (n.pwr.mode == .off && n.pwr.phase == .c)) = false := by simp [hm, hp]
    unfold latchRestarts
    dsimp only
    rw [if_pos ⟨hl, .inl hm⟩]
    obtain ⟨r, s, due, hi, hr⟩ := (n.setNow (n.pwr.t0 + 1500000)).coreReset_eq
    unfold restart
    rw [hr, hpk]
    have hv' : (n.setNow (n.pwr.t0 + 1500000)).pwr.vinOk = true := hv
    refine ⟨⟨rfl, rfl, ?_, rfl, rfl, rfl, rfl, rfl, rfl, rfl, rfl, rfl, rfl, rfl, hi, rfl, rfl, rfl⟩, rfl, rfl, rfl⟩
    exact if_pos hv
  · refine .of_run Node.latchRestarts rfl ?_
    exact if_neg (by simp [hl])
  · refine .of_run Node.aonEmpties rfl ?_
    have hm' : n.pwr.mode = .off ∨ n.pwr.mode = .deep := by simpa using hm
    have hs : Within [.dio, .jrnl, .tide, .pair] n (n.selectModes modeOff) := .selectModes .rfl
    unfold aonEmpties
    dsimp only
    rw [if_pos ⟨by simp [hv], hm'⟩]
    generalize n.selectModes modeOff = k at hs
    obtain ⟨r, s, due, hi, hr⟩ := k.coreReset_eq
    rw [hr]
    have hsec : k.sec = n.sec := hs.part .sec
    have hstor : k.stor = n.stor := hs.part .stor
    exact ⟨rfl, rfl, rfl, rfl, rfl, rfl, rfl, (congrArg Sec.enrolled hsec :), (congrArg Sec.a hsec :), (congrArg Sec.b hsec :),
      hi.trans (congrArg Stor.ident hstor :)⟩

end

section
/-! What gating the clock domains leaves of PWR and of the other domains (01 Table 1.7, 03 R103). -/

namespace Sys2Proof.Machine.Node

variable {n : Node} {d : Domain}

theorem bit_clrBit_same {w : Nat} (v : BitVec w) (i : Nat) : bit (clrBit v i) i = false := by
  simp only [bit, clrBit, BitVec.getLsbD_and, BitVec.getLsbD_not, BitVec.getLsbD_shiftLeft, BitVec.getLsbD_one, Nat.sub_self]
  by_cases h : i < w
  · simp [h, show 0 < w by omega]
  · simp [h]

/-- A relation that every step of gating the domains keeps to (01 Table 1.7). -/
structure Gates (R : Node → Node → Prop) : Prop where
  refl : ∀ n, R n n
  trans : ∀ {n m k}, R n m → R m k → R n k
  setDom : ∀ n d v, R n (n.setDom d v)
  mask : ∀ n (f : Clk → Clk), (∀ c, ∃ b h, f c = { c with maskDue := b, heldMode := h }) → R n (n.mClk f)
  coreClamped : ∀ n, R n n.coreClamped
  fieldStops : ∀ n, R n n.fieldStops
  stopEngine : ∀ n, R n n.stopEngine
  syncCauses : ∀ n, R n n.syncCauses
  engine : ∀ n, R n n.engine
  coastChange : ∀ n was, R n (n.coastChange was)

namespace Gates

variable {R : Node → Node → Prop} (g : Gates R)
include g

theorem domClamped (n : Node) (d : Domain) : R n (n.domClamped d) := by
  cases d
  · exact g.coreClamped n
  · exact g.fieldStops n
  · exact g.stopEngine n

theorem enterSlack (n : Node) (d : Domain) (st : DomSt) : R n (n.enterSlack d st) := g.trans (g.setDom _ _ _) (g.domClamped _ _)

theorem domStarts (n : Node) (d : Domain) : R n (n.domStarts d) := by
  unfold Node.domStarts
  dsimp only
  split
  · exact g.setDom _ _ _
  · split
    · exact g.enterSlack _ _ _
    · split
      · exact g.enterSlack _ _ _
      · split
        · exact g.setDom _ _ _
        · exact g.setDom _ _ _

theorem applyDomain (n : Node) (d : Domain) : R n (n.applyDomain d) := by
  unfold Node.applyDomain
  split
  · exact g.refl n
  · split
    · split
      · refine g.trans (g.domStarts n d) ?_
        cases d
        · exact g.refl _
        · exact g.syncCauses _
        · exact g.engine _
      · exact g.refl n
    · split
      · split
        · exact g.setDom _ _ _
        · exact g.refl n
      · cases d
        · exact g.setDom _ _ _
        · exact g.trans (g.fieldStops n) (g.setDom _ _ _)
        · exact g.trans (g.stopEngine n) (g.setDom _ _ _)

theorem eachDom (n : Node) : R n (n.eachDom Node.applyDomain) :=
  g.trans (g.applyDomain n .core) (g.trans (g.applyDomain _ .field) (g.applyDomain _ .solv))

theorem applyDomains (n : Node) : R n n.applyDomains := by
  unfold Node.applyDomains
  split
  · exact g.mask n _ fun c => ⟨true, c.heldMode, rfl⟩
  · exact g.trans (g.trans (g.mask n _ fun _ => ⟨false, none, rfl⟩) (g.eachDom _)) (g.coastChange _ _)

end Gates

/-- What turning SOLV off when it has drained leaves of PWR. -/
def Drained (n m : Node) : Prop :=
  m.pwr = n.pwr ∨ n.solvDrains = true ∧ m.pwr = { n.pwr with domOn := clrBit n.pwr.domOn 3 }

theorem solvDrains_of_pwr {m : Node} (h : m.pwr = n.pwr) : m.solvDrains = n.solvDrains := by
  rw [solvDrains, solvDrains, h]

theorem Drained.of_pwr {m : Node} (h : m.pwr = n.pwr) : Drained n m := .inl h

theorem Drained.trans {m k : Node} (h : Drained n m) (g : Drained m k) : Drained n k := by
  rcases h with h | ⟨hd, h⟩
  · rcases g with g | ⟨gd, g⟩
    · exact .inl (g.trans h)
    · exact .inr ⟨(solvDrains_of_pwr h).symm.trans gd, by rw [g, h]⟩
  · rcases g with g | ⟨gd, -⟩
    · exact .inr ⟨hd, g.trans h⟩
    · rw [solvDrains, h, bit_clrBit_same, Bool.and_false] at gd
      cases gd

theorem Drained.pwr_eq {m : Node} (h : Drained n m) (hd : n.solvDrains = false) : m.pwr = n.pwr := by
  rcases h with h | ⟨h, -⟩
  · exact h
  · rw [hd] at h
    cases h

theorem solvDrained_drained : Drained n n.solvDrained := by
  unfold solvDrained
  split
  next h =>
    simp only [Bool.and_eq_true] at h
    obtain ⟨⟨h, -⟩, -⟩ := h
    dsimp only
    refine .inr ⟨h, ?_⟩
    split <;> rfl
  next => exact .of_pwr rfl

theorem engine_drained : Drained n n.engine :=
  .trans (.of_pwr ((Within.startNext .rfl : Within [.solv, .jrnl, .tide, .pair, .free] n _).part .pwr)) solvDrained_drained

theorem domStarts_pwr (d : Domain) : (n.domStarts d).pwr = n.pwr :=
  (Within.domStarts .rfl : Within (Part.allBut [.pwr]) n _).part .pwr

/-- A function that leaves PWR alone. -/
theorem Drained.frame {m : Node} (h : Within (Part.allBut [.pwr]) n m) : Drained n m := .of_pwr (h.part .pwr)

theorem drained_gates : Gates Drained where
  refl _ := .of_pwr rfl
  trans := .trans
  setDom _ _ _ := .of_pwr rfl
  mask _ _ _ := .of_pwr rfl
  coreClamped _ := .frame (.coreClamped .rfl)
  fieldStops _ := .frame (.fieldStops .rfl)
  stopEngine _ := .frame (.stopEngine .rfl)
  syncCauses _ := .frame (.syncCauses .rfl)
  engine _ := engine_drained
  coastChange _ _ := .frame (.coastChange .rfl)

theorem applyDomains_drained : Drained n n.applyDomains := drained_gates.applyDomains n

/-- Gating the domains leaves PWR as it stands where SOLV does not wait to be turned off. -/
theorem applyDomains_pwr (h : n.solvDrains = false) : n.applyDomains.pwr = n.pwr := applyDomains_drained.pwr_eq h

/-! Where SOLV is on already, no job of it starts. -/

theorem setDom_solv (h : d ≠ .solv) (v : DomClk) : (n.setDom d v).clk.solv = n.clk.solv := by
  cases d with
  | solv => exact absurd rfl h
  | core => rfl
  | field => rfl

theorem domStarts_solv (h : d ≠ .solv) : (n.domStarts d).clk.solv = n.clk.solv := by
  have hset (v : DomClk) : (n.setDom d v).clk.solv = n.clk.solv := setDom_solv h v
  have hslack (st : DomSt) : (n.enterSlack d st).clk.solv = n.clk.solv := by
    refine Eq.trans (congrArg Clk.solv ?_) (hset { n.dom d with st := st, ramp := none, sw := none, clamp := true, releasing := false })
    exact (Within.domClamped .rfl : Within (Part.allBut [.clk]) _ _).part .clk
  unfold domStarts
  dsimp only
  split
  · exact hset _
  · split
    · exact hslack _
    · split
      · exact hslack _
      · split
        · exact hset _
        · exact hset _

theorem applyDomain_solv (h : d ≠ .solv) : (n.applyDomain d).clk.solv = n.clk.solv := by
  have hset {m : Node} (v : DomClk) : (m.setDom d v).clk.solv = m.clk.solv := setDom_solv h v
  unfold applyDomain
  split
  · rfl
  · split
    · split
      · refine Eq.trans ?_ (domStarts_solv h)
        cases d
        · rfl
        · exact congrArg Clk.solv ((Within.syncCauses .rfl : Within (Part.allBut [.clk]) _ _).part .clk)
        · exact absurd rfl h
      · rfl
    · split
      · split
        · exact hset _
        · rfl
      · dsimp only
        rw [hset]
        cases d
        · rfl
        · exact congrArg Clk.solv ((Within.fieldStops .rfl : Within (Part.allBut [.clk]) n _).part .clk)
        · exact absurd rfl h

theorem applyDomain_pwr_of_on (h : d = .solv → n.clk.solv.st ≠ .off) : (n.applyDomain d).pwr = n.pwr := by
  unfold applyDomain
  split
  · rfl
  · split
    · split
      next hs =>
        refine Eq.trans ?_ (n.domStarts_pwr d)
        cases d
        · rfl
        · exact (Within.syncCauses .rfl : Within (Part.allBut [.pwr]) _ _).part .pwr
        · exact absurd hs (h rfl)
      next => rfl
    · split
      · split <;> rfl
      · cases d
        · rfl
        · exact (Within.setDom (.fieldStops .rfl) : Within (Part.allBut [.pwr]) n _).part .pwr
        · exact (Within.setDom (.stopEngine .rfl) : Within (Part.allBut [.pwr]) n _).part .pwr

theorem applyDomains_pwr_of_on (h : n.clk.solv.st ≠ .off) : n.applyDomains.pwr = n.pwr := by
  have hd {m : Node} (hm : m.clk.solv.st ≠ .off) : (m.eachDom applyDomain).pwr = m.pwr := by
    have hc : (m.applyDomain .core).clk.solv = m.clk.solv := applyDomain_solv (by simp)
    have hf : ((m.applyDomain .core).applyDomain .field).clk.solv = (m.applyDomain .core).clk.solv := applyDomain_solv (by simp)
    refine (applyDomain_pwr_of_on fun _ => ?_).trans ((applyDomain_pwr_of_on (by simp)).trans (applyDomain_pwr_of_on (by simp)))
    rw [hf, hc]
    exact hm
  unfold applyDomains
  split
  · rfl
  · dsimp only
    rw [(Within.coastChange .rfl : Within [.sys, .jrnl, .tide, .pair] _ (coastChange _ n.clkCoast)).part .pwr]
    exact hd h

/-! What gating leaves of the RTC. -/

/-- The end of the node's part in the ring loses the reference; of the RTC it changes that alone. -/
def RefLost (n m : Node) : Prop := ∃ r t u, m.rtc = { n.rtc with reference := r, tracked := t, trust := u }

theorem RefLost.of_rtc {m : Node} (h : m.rtc = n.rtc) : RefLost n m := ⟨_, _, _, h⟩

theorem RefLost.trans {m k : Node} (h : RefLost n m) (g : RefLost m k) : RefLost n k := by
  obtain ⟨_, _, _, h⟩ := h
  obtain ⟨r, t, u, g⟩ := g
  exact ⟨r, t, u, by rw [g, h]⟩

/-- A function that leaves the RTC alone, after the loss. -/
theorem RefLost.after {m k : Node} (h : RefLost n m) (g : Within (Part.allBut [.rtc]) m k) : RefLost n k :=
  h.trans (.of_rtc (g.part .rtc))

theorem RefLost.ite {c : Prop} [Decidable c] {a b : Node} (ha : RefLost n a) (hb : RefLost n b) : RefLost n (if c then a else b) := by
  split
  · exact ha
  · exact hb

theorem RefLost.now {m : Node} (h : RefLost n m) : m.rtc.now = n.rtc.now := by
  obtain ⟨_, _, _, h⟩ := h
  rw [h]

theorem RefLost.lastTick {m : Node} (h : RefLost n m) : m.rtc.lastTick = n.rtc.lastTick := by
  obtain ⟨_, _, _, h⟩ := h
  rw [h]

theorem RefLost.rfl : RefLost n n := .of_rtc (Eq.refl _)

theorem settleTrust_refLost : RefLost n n.settleTrust := by
  unfold settleTrust
  refine .ite .rfl (.after (m := Node.mRtc n _) ?_ (.later .rfl))
  exact ⟨_, _, n.trustOf, Eq.refl _⟩

theorem leaveRing_refLost (st : RingSt) (event : Nat) : RefLost n (n.leaveRing st event) := by
  unfold leaveRing
  dsimp only
  generalize hk : Node.mRtc _ _ = k
  have h : RefLost n k.settleTrust := by
    refine .trans (m := k) ?_ settleTrust_refLost
    rw [← hk]
    exact ⟨false, false, _, Eq.refl _⟩
  exact .ite (.after h (.demoteNow (.mPair (.ringEvent .rfl)))) h

theorem coreClamped_refLost : RefLost n n.coreClamped := by
  unfold coreClamped
  dsimp only
  refine .after ?_ (.ethDown .rfl)
  generalize hk : Node.mSys _ _ = k
  have h : RefLost n k := by
    rw [← hk]
    exact .after .rfl (.mSys (.selectModes .rfl))
  exact .ite (h.trans (leaveRing_refLost _ _)) h

theorem RefLost.frame {m : Node} (h : Within (Part.allBut [.rtc]) n m) : RefLost n m := .after .rfl h

theorem refLost_gates : Gates RefLost where
  refl _ := .rfl
  trans := .trans
  setDom _ _ _ := .of_rtc (Eq.refl _)
  mask _ _ _ := .of_rtc (Eq.refl _)
  coreClamped _ := coreClamped_refLost
  fieldStops _ := .frame (.fieldStops .rfl)
  stopEngine _ := .frame (.stopEngine .rfl)
  syncCauses _ := .frame (.syncCauses .rfl)
  engine _ := .frame (.engine .rfl)
  coastChange _ _ := .frame (.coastChange .rfl)

theorem applyDomains_refLost : RefLost n n.applyDomains := refLost_gates.applyDomains n

/-! What gating leaves of SYS. -/

/-- Of SYS a clamp drops the host frames, and an event is set; the rest stands. -/
def HostDropped (n m : Node) : Prop := ∃ i r c w, m.sys = { n.sys with irq := i, resp := r, fcnt := c, wait := w }

theorem HostDropped.of_sys {m : Node} (h : m.sys = n.sys) : HostDropped n m := ⟨_, _, _, _, h⟩

theorem HostDropped.trans {m k : Node} (h : HostDropped n m) (g : HostDropped m k) : HostDropped n k := by
  obtain ⟨_, _, _, _, h⟩ := h
  obtain ⟨i, r, c, w, g⟩ := g
  exact ⟨i, r, c, w, by rw [g, h]⟩

theorem HostDropped.frame {m : Node} (h : Within (Part.allBut [.sys]) n m) : HostDropped n m := .of_sys (h.part .sys)

theorem coreClamped_hostDropped : HostDropped n n.coreClamped := by
  unfold coreClamped
  dsimp only
  generalize hk : Node.mSys _ _ = k
  have h : HostDropped n k := by
    rw [← hk]
    exact .trans (.frame (.selectModes .rfl)) ⟨_, none, 0, none, rfl⟩
  exact .trans h (.frame (.ethDown (.iteThen .rfl (.leaveRing .rfl))))

theorem coastChange_hostDropped (was : Bool) : HostDropped n (n.coastChange was) := by
  unfold coastChange
  dsimp only
  generalize hk : ite (n.clkCoast == was) n _ = k
  have h : HostDropped n k := by
    rw [← hk]
    split
    · exact .of_sys rfl
    · exact ⟨_, _, _, _, rfl⟩
  exact .trans h (.frame (.iteThen .rfl (.clockRecord .rfl)))

theorem hostDropped_gates : Gates HostDropped where
  refl _ := .of_sys rfl
  trans := .trans
  setDom _ _ _ := .of_sys rfl
  mask _ _ _ := .of_sys rfl
  coreClamped _ := coreClamped_hostDropped
  fieldStops _ := .frame (.fieldStops .rfl)
  stopEngine _ := .frame (.stopEngine .rfl)
  syncCauses _ := .frame (.syncCauses .rfl)
  engine _ := .frame (.engine .rfl)
  coastChange _ _ := coastChange_hostDropped _

theorem applyDomains_hostDropped : HostDropped n n.applyDomains := hostDropped_gates.applyDomains n

end Sys2Proof.Machine.Node
end

section
/-! Requests for a mode, changes of the mode at the epoch boundary, and the wake (03 Tables 3.3 and 3.4). -/

namespace Sys2Proof.Machine.Node

variable {n : Node}

theorem toRun_pwr : n.toRun.pwr = { n.pwr with mode := .run, domOn := setBit n.pwr.domOn 3 } := by
  unfold toRun
  rw [(Within.syncCauses .rfl : Within [.lane] _ _).part .pwr, applyDomains_pwr rfl]
  rfl

theorem toRun_now : n.toRun.rtc.now = n.rtc.now := by
  unfold toRun
  rw [(Within.syncCauses .rfl : Within [.lane] _ _).part .rtc]
  exact applyDomains_refLost.now

theorem solv_on_of_solvHeld (h : n.solvHeld = false) : n.clk.solv.st ≠ .off := by
  intro hs
  rw [solvHeld, hs] at h
  cases h

theorem toSleep_pwr : n.toSleep.pwr =
    { n.pwr with mode := .sleep, domOn := if n.solvHeld = true ∨ n.solv.order = [] then clrBit n.pwr.domOn 3 else n.pwr.domOn } := by
  have hempty : n.solv.order.isEmpty = decide (n.solv.order = []) := by cases n.solv.order <;> rfl
  have hoff : (n.solvHeld || n.solv.order.isEmpty) = decide (n.solvHeld = true ∨ n.solv.order = []) := by
    rw [Bool.decide_or, Bool.decide_eq_true, hempty]
  unfold toSleep
  dsimp only
  rw [(Within.haltIdle .rfl : Within [.lane] _ _).part .pwr, hoff]
  by_cases h : n.solvHeld = true ∨ n.solv.order = []
  · rw [applyDomains_pwr (by simp [solvDrains, mPwr, h, bit_clrBit_same])]
    simp [mPwr, h]
  · have hh : n.solvHeld = false := by simpa using fun hx => h (.inl hx)
    refine (applyDomains_pwr_of_on ?_).trans ?_
    · exact (solv_on_of_solvHeld hh :)
    · simp [mPwr, h]

/-- The mode that a code of PWR_MODE_CMD asks for. -/
def asked (code : Nat) : Option PwrMode := if code = 1 then some .run else if code = 2 then some .sleep else if code = 3 then some .deep else none

theorem modeRequest_eq {code r : Nat} {m : PwrMode} (ha : asked code = some m) (hr : n.modeRefusal (some m) = r)
    (hm : n.pwr.mode ∈ [PwrMode.run, .sleep, .holdup]) :
    n.modeRequest code = n.mPwr fun p => { p with lastCmd := code, result := r, pend := if r = 0 then some m else p.pend } := by
  unfold modeRequest
  split
  next h => simp [h] at hm
  next h => simp [h] at hm
  next =>
    change (n.mPwr fun p => { p with
      lastCmd := code
      result := n.modeRefusal (asked code)
      pend := if n.modeRefusal (asked code) = 0 then asked code else p.pend }) = _
    simp only [ha, hr]

/-- The refusals in the order of Table 3.4. -/
theorem modeRefusal_some (m : PwrMode) : n.modeRefusal (some m) =
    if (m = .sleep ∧ n.powerCfg.any (·.sleepAllowed) = false) ∨ (m = .deep ∧ n.powerCfg.any (·.deepAllowed) = false) then 1
    else if m = .deep ∧ n.sec.maint = false then 2
    else if m = .deep ∧ n.pair.role = 4 then 3
    else if n.pwr.mode = .holdup then 4
    else if n.pwr.pend.isSome then 5
    else if m = n.pwr.mode then 6
    else 0 := by
  simp only [modeRefusal, Bool.not_eq_eq_eq_not, Bool.not_true]

/-- The node at a change of its mode, the change recorded. -/
def modeChanged (n : Node) (m : PwrMode) : Node :=
  ((((n.setNow (n.nextMultiple 1000000)).mPwr fun p => { p with pend := none, result := 0 }).irqEvent 6).stepOne
    ((n.setNow (n.nextMultiple 1000000)).modeBody m)).holdMasks

theorem modeChanged_within (m : PwrMode) : Within [.sys, .pwr, .clk, .rtc, .jrnl, .tide, .pair] n (n.modeChanged m) := by
  unfold modeChanged
  exact .holdMasks (.stepOne (.irqEvent (.mPwr (.setNow .rfl))))

theorem modeChanged_pwr (m : PwrMode) : (n.modeChanged m).pwr = { n.pwr with pend := none, result := 0 } := by
  unfold modeChanged
  rw [(Within.holdMasks (.stepOne .rfl) : Within [.clk, .jrnl, .tide, .pair] _ _).part .pwr]
  rfl

theorem modeChanged_now (m : PwrMode) : (n.modeChanged m).rtc.now = max n.rtc.now (n.nextMultiple 1000000) := by
  unfold modeChanged
  rw [(Within.holdMasks (.stepOne .rfl) : Within [.clk, .jrnl, .tide, .pair] _ _).part .rtc]
  rfl

theorem modeChanged_solv (m : PwrMode) : (n.modeChanged m).clk.solv = n.clk.solv := by
  have hold (k : Node) : k.holdMasks.clk.solv = k.clk.solv := by
    unfold holdMasks
    split <;> rfl
  unfold modeChanged
  rw [hold]
  exact congrArg Clk.solv ((Within.stepOne .rfl : Within [.jrnl, .tide, .pair] _ _).part .clk)

theorem modeChanged_solvHeld (m : PwrMode) : (n.modeChanged m).solvHeld = n.solvHeld := by
  rw [solvHeld, solvHeld, modeChanged_solv, modeChanged_pwr]

theorem modeApplies_of_run (hp : n.pwr.pend = some .run) (hr : n.coreRuns = true) : n.modeApplies = (n.modeChanged .run).toRun := by
  unfold modeApplies
  simp only [hp, hr, Bool.not_true, Bool.false_eq_true, if_false]
  rfl

theorem modeApplies_of_sleep (hp : n.pwr.pend = some .sleep) (hr : n.coreRuns = true) : n.modeApplies = (n.modeChanged .sleep).toSleep := by
  unfold modeApplies
  simp only [hp, hr, Bool.not_true, Bool.false_eq_true, if_false]
  rfl

theorem modeApplies_of_deep (hp : n.pwr.pend = some .deep) (hr : n.coreRuns = true) : n.modeApplies =
    (((n.setNow (n.nextMultiple 1000000)).mPwr fun p => { p with pend := none, result := 0 }).irqEvent 6).deepApplies
      ((n.setNow (n.nextMultiple 1000000)).modeBody .deep) := by
  unfold modeApplies
  simp only [hp, hr, Bool.not_true, Bool.false_eq_true, if_false]

/-- Deep sleep, of a node whose return to the crystal is not under way. -/
theorem toDeep_of_no_return (h : n.clk.ret = 0) : n.toDeep.pwr.mode = .deep ∧ n.toDeep.pwr.domOn = 1 ∧ n.toDeep.clk.pll = .off ∧
    n.toDeep.fab = {} ∧ n.toDeep.tide = {} ∧ n.toDeep.img = n.img := by
  have hw : Within [.dio, .jrnl, .tide, .pair, .stor] n (n.flushAll.selectModes modeSafe) := .selectModes (.flushAll .rfl)
  have hret : (n.flushAll.selectModes modeSafe).clk = n.clk := hw.part .clk
  have himg : (n.flushAll.selectModes modeSafe).img = n.img := hw.part .img
  unfold toDeep
  generalize n.flushAll.selectModes modeSafe = k at hret himg
  dsimp only
  rw [hret, himg, if_pos h]
  obtain ⟨r, s, due, -, hc⟩ := k.coreReset_eq
  rw [hc]
  exact ⟨rfl, rfl, rfl, rfl, rfl, rfl⟩

theorem deepApplies_of_no_return {b : RecBody} (h : n.clk.ret = 0) : let m := n.deepApplies b
    m.pwr.mode = .deep ∧ m.pwr.domOn = 1 ∧ m.clk.pll = .off ∧ m.fab = {} ∧ m.tide = {} ∧ m.img = n.img := by
  unfold deepApplies
  dsimp only
  generalize hk : handOver _ = k
  have hw : Within (Part.allBut [.clk, .img]) n k := by
    rw [← hk]
    exact .handOver (.foldl _ (.mJrnl (.mRtc (.leapApply (.iteThen .rfl (.timeStep .rfl))))) fun _ _ => .issue .rfl)
  have hd := toDeep_of_no_return (n := k) (by rw [hw.part .clk, h])
  rw [hw.part .img] at hd
  exact hd

/-- The node that a wake restarts, at the time of the RTC. -/
def wokenAt (n : Node) (src : Nat) : Node := (if src = 3 then n.rtcReaches n.pwr.wakeTime else n.rtcElapses).loadNow

theorem wake_of_wakes {src : Nat} (hm : n.pwr.mode = .deep) (hv : n.pwr.vinOk = true) (h : n.wakes src = true) :
    n.wake src = (((n.wokenAt src).restart 6 .b).mPwr fun p => { p with wakeSrc := setBit 0 src }).phaseB :=
  if_pos (by simp [hm, hv, h])

theorem wakes_eq_false {src : Nat} (h : n.powerCfg.any (fun c => bit c.wakeEn src) = false) : n.wakes src = false := by
  rw [wakes, h, Bool.false_and]

theorem wakes_eq_true {src : Nat} (h : n.powerCfg.any (fun c => bit c.wakeEn src) = true)
    (hp : src = 0 → ∃ c ∈ n.pins, c.out = false ∧ c.wake = true)
    (ht : src = 3 → n.pwr.wakeTime ≠ 0 ∧ n.rtcCounts = true ∧ n.rtcCycles / 32768 ≤ n.pwr.wakeTime) : n.wakes src = true := by
  rw [wakes, h, Bool.true_and]
  split
  next h0 =>
    obtain ⟨c, hc, ho, hw⟩ := hp h0
    exact List.any_eq_true.2 ⟨c, hc, by simp [ho, hw]⟩
  next =>
    split
    next h3 =>
      obtain ⟨ha, hb, hc⟩ := ht h3
      simp [ha, hb, hc]
    next => rfl

end Sys2Proof.Machine.Node

open Sys2Proof Sys2Proof.Machine Sys2Proof.Machine.Node

/-- Settles O18: a request by the first refusal that applies, a change by what gating the domains leaves of PWR, a wake by its restart. -/
theorem modeCommandsAndChanges : Obligations.ModeCommandsAndChanges := by
  unfold Obligations.ModeCommandsAndChanges
  refine ⟨?_, ?_⟩
  · rintro ⟨n, q⟩
    dsimp only
    intro hm
    refine ⟨.of_run (fun n => n.modeRequest 1) rfl ?_, .of_run (fun n => n.modeRequest 2) rfl ?_,
      .of_run (fun n => n.modeRequest 3) rfl ?_⟩
    · exact modeRequest_eq rfl (modeRefusal_some _) hm
    · exact modeRequest_eq rfl (modeRefusal_some _) hm
    · exact modeRequest_eq rfl (modeRefusal_some _) hm
  · rintro ⟨n, q⟩ src
    dsimp only
    refine ⟨fun hp hr => ?_, fun hp hr => ?_, fun hp hr ht => ?_, fun h => ?_, fun hm hv hw hpin hrtc => ?_, fun hm hw => ?_⟩
    · refine .of_run Node.modeApplies rfl ?_
      rw [modeApplies_of_run hp hr, toRun_now, modeChanged_now, toRun_pwr, modeChanged_pwr]
      exact ⟨rfl, rfl, rfl, rfl, rfl⟩
    · refine .of_run Node.modeApplies rfl ?_
      rw [modeApplies_of_sleep hp hr, toSleep_pwr, modeChanged_solvHeld, modeChanged_pwr, (modeChanged_within _).part .solv]
      exact ⟨rfl, rfl, rfl, rfl⟩
    · refine .of_run Node.modeApplies rfl ?_
      rw [modeApplies_of_deep hp hr]
      exact deepApplies_of_no_return ht
    · refine .of_run Node.modeApplies rfl ?_
      rw [modeApplies]
      rcases h with h | h
      · simp only [h]
      · split
        · rfl
        · exact if_pos (by simp [h])
    · refine .of_run (fun n => n.wake src.val) rfl ?_
      have hwake := wake_of_wakes hm hv (wakes_eq_true hw hpin hrtc)
      have hk : Within [.rtc, .free] n (n.wokenAt src.val) := by
        unfold wokenAt
        exact .loadNow (.ite (.rtcReaches .rfl) (.rtcElapses .rfl))
      have hsec : (n.wokenAt src.val).sec = n.sec := hk.part .sec
      rw [hwake]
      have hb {m : Node} : Within [.clk] m m.phaseB := .phaseB .rfl
      rw [hb.part .pwr, hb.part .img, hb.part .sec, ← hsec]
      obtain ⟨r, s, due, -, hc⟩ := (n.wokenAt src.val).coreReset_eq
      unfold restart
      rw [hc]
      exact ⟨rfl, rfl, rfl, rfl, rfl, rfl⟩
    · refine .of_run (fun n => n.wake src.val) rfl ?_
      exact if_neg (by simp [wakes_eq_false hw])

end

section
/-! The phases of a start, and the bank check of phase D (03 Table 3.7, R121). -/

namespace Sys2Proof.Machine.Node

variable {n : Node}

/-- Phase C ends with CORE clamped, whatever it read before. -/
theorem phaseC_ends {b k : Node} (h : Within (Part.allBut [.sys]) b k) :
    let m := (k.mPwr fun p => { p with phase := .d, domOn := 0b0011 }).applyDomains
    let e := m.setDom .core { m.dom .core with clamp := true, releasing := true }
    e.pwr.phase = .d ∧ e.pwr.domOn = 0b0011 ∧ e.clk.core.clamp = true ∧ HostDropped b e := by
  have hp : (k.mPwr fun p => { p with phase := .d, domOn := 0b0011 }).applyDomains.pwr = { k.pwr with phase := .d, domOn := 0b0011 } :=
    applyDomains_pwr (by simp [solvDrains, mPwr, bit])
  have hk : HostDropped b (k.mPwr fun p => { p with phase := .d, domOn := 0b0011 }) := .frame (.mPwr h)
  exact ⟨(congrArg Pwr.phase hp :), (congrArg Pwr.domOn hp :), rfl,
    (hk.trans applyDomains_hostDropped).trans (hostDropped_gates.setDom _ _ _)⟩

/-- What phase C reads of the identity sector and the straps. -/
theorem phaseC_reads : n.phaseC.pwr.phase = .d ∧ n.phaseC.pwr.domOn = 0b0011 ∧ n.phaseC.clk.core.clamp = true ∧
    HostDropped (n.mSys fun s => { s with
      issue := n.stor.ident.issue
      serial := n.stor.ident.serial
      cause := n.pwr.cause
      node := s.straps.toNat % 16
      strapBad := strapOnes s.straps % 2 == 0 }) n.phaseC := by
  unfold phaseC
  dsimp only
  refine phaseC_ends ?_
  split
  · exact .mSec (.mSec (.mJrnl (.ite (.failStore (.iteThen (.loadNow .rfl) (.mPwr (.mRtc .rfl))))
      (.mStor (.iteThen (.loadNow .rfl) (.mPwr (.mRtc .rfl)))))))
  · exact .mSec (.mJrnl (.ite (.failStore (.iteThen (.loadNow .rfl) (.mPwr (.mRtc .rfl))))
      (.mStor (.iteThen (.loadNow .rfl) (.mPwr (.mRtc .rfl))))))

/-- Phase E of a node in Run turns all domains on. -/
theorem phaseE_ends (hm : n.pwr.mode = .run) : n.phaseE.pwr.phase = .f ∧ n.phaseE.pwr.domOn = 0xF := by
  unfold phaseE
  dsimp only
  generalize hk : List.foldl initExc _ _ = k
  have hkp : k.pwr = n.pwr := by
    rw [← hk]
    exact (Within.foldl _ (.testSwitches (.setImg .rfl)) fun _ _ => .initExc .rfl : Within (Part.allBut [.pwr]) n _).part .pwr
  generalize hj : applyDomains _ = j
  have hjp : j.pwr = { n.pwr with domOn := 0xF } := by
    rw [← hj, applyDomains_pwr (by simp [solvDrains, mPwr, hkp, hm])]
    simp [mPwr, hkp, hm]
  generalize he : startPorts _ = e
  have hep : e.pwr = j.pwr := by
    rw [← he]
    exact (Within.startPorts (.ite (.dueNotices (.setRole (.compactDue (.startBaselines (.startFabric (.syncCauses .rfl))))))
      (.startNumbering (.setRole (.compactDue (.startBaselines (.startFabric (.syncCauses .rfl))))))) :
        Within (Part.allBut [.pwr]) j _).part .pwr
  exact ⟨rfl, by rw [mPwr, hep, hjp]⟩

theorem unconfigured_sys : n.unconfigured.sys = { n.sys with unconfigured := true } :=
  (Within.foldl _ .rfl fun _ _ => .iteElse .rfl (.selectMode .rfl) :
    Within [.dio, .jrnl, .tide, .pair] (n.mSys fun s => { s with unconfigured := true }) n.unconfigured).part .sys

theorem unconfigured_pwr : n.unconfigured.pwr = n.pwr :=
  (Within.unconfigured .rfl : Within [.sys, .dio, .jrnl, .tide, .pair] n _).part .pwr

section
variable (hm : n.pwr.mode = .run) (hv : n.pwr.vinOk = true) (hl : n.clk.latched = false)
include hm hv hl

theorem powerUp_of_first (hp : n.pwr.phase = .a) (hr : n.clk.rc = .off) : n.powerUp =
    (n.eachDom fun n d => n.setDom d { n.dom d with clamp := true }).rtcHold.mClk fun c =>
      { c with rc := .counting, lse := if c.lse = .off then .ready else c.lse } := by
  simp only [powerUp, hm, hv, hl, hp, hr, Bool.not_true, Bool.or_self, Bool.false_eq_true, if_false]

theorem powerUp_of_counted (hp : n.pwr.phase = .a) (hr : n.clk.rc = .ready) :
    n.powerUp = (n.mPwr fun p => { p with phase := .b }).phaseB := by
  simp only [powerUp, hm, hv, hl, hp, hr, Bool.not_true, Bool.or_self, Bool.false_eq_true, if_false]

theorem powerUp_of_b (hp : n.pwr.phase = .b) (hx : n.clk.pll = .nominal ∨ n.clk.pll = .coast) : n.powerUp = n.phaseC := by
  simp only [powerUp, hm, hv, hl, hp, hx, Bool.not_true, Bool.or_self, Bool.false_eq_true, if_false, if_true]

theorem powerUp_of_e (hp : n.pwr.phase = .e) (hc : n.coreHeld = false) : n.powerUp = n.phaseE := by
  simp only [powerUp, hm, hv, hl, hp, hc, Bool.not_true, Bool.or_self, Bool.false_eq_true, if_false]

end

theorem phaseB_of_off (hr : n.clk.rc = .ready) (hx : n.clk.xtal = .off) : n.phaseB = n.mClk fun c => { c with xtal := .counting } := by
  simp only [phaseB, hr, hx]

section
variable (hp : n.pwr.phase = .d) (hu : n.sys.unconfigured = false) (hc : n.coreHeld = false)
include hp hu hc

theorem phaseD_of_strapBad (hs : n.sys.strapBad = true) : n.phaseD = (n.mSec fun s => { s with code := 5 }).unconfigured := by
  simp [phaseD, hp, hu, hc, hs]

theorem phaseD_of_no_store (hs : n.sys.strapBad = false) (ht : n.stor.state ≠ 1) : n.phaseD = n.unconfigured := by
  simp [phaseD, hp, hu, hc, hs, ht]

theorem phaseD_of_no_bank (hs : n.sys.strapBad = false) (ht : n.stor.state = 1) (h5 : n.bankIn 5 = none) (h6 : n.bankIn 6 = none) :
    n.phaseD = n.unconfigured := by
  have hb : n.startBanks = (none, none) := by
    have ha : n.sec.a.state ≠ 5 := by
      intro h
      simp [bankIn, bankOf, h] at h5
    rw [startBanks, if_neg (fun h => ha h.1), h5, h6]
  simp only [phaseD, hp, hu, hc, hs, ht, hb]
  rfl

theorem phaseD_of_pass {b : Bool} (hs : n.sys.strapBad = false) (ht : n.stor.state = 1) (hb : n.startBanks.1 = some b)
    (hk : n.checkImage (n.bankOf b) = none) : n.phaseD =
      ((n.mSec fun s => { s with code := 0, detSection := 0, detItem := 0 }).mSec fun s => { s with runB := b }).mPwr fun p =>
        { p with phase := .e } := by
  have hx : n.startBanks = (some b, n.startBanks.2) := by rw [← hb]
  simp only [phaseD, hp, hu, hc, hs, ht]
  rw [hx]
  simp only [checkAtStart, hk]
  rfl

theorem phaseD_of_fail {b : Bool} {f : LoadFail} (hs : n.sys.strapBad = false) (ht : n.stor.state = 1) (hb : n.startBanks = (some b, none))
    (hk : n.checkImage (n.bankOf b) = some f) : n.phaseD =
      (n.mSec fun s => { s with code := f.code, detSection := f.secNo, detItem := f.item }).unconfigured := by
  simp only [phaseD, hp, hu, hc, hs, ht, hb, checkAtStart, hk]
  rfl

end

end Sys2Proof.Machine.Node

open Sys2Proof Sys2Proof.Machine Sys2Proof.Machine.Node

/-- Settles O19: each phase of a start by what it ends with, and the bank check by its branches. -/
theorem powerUpPhases : Obligations.PowerUpPhases := by
  unfold Obligations.PowerUpPhases
  refine ⟨?_, ?_⟩
  · rintro ⟨n, q⟩
    dsimp only
    intro hm hv hl
    refine ⟨fun hp hr => .of_run Node.powerUp rfl ?_, fun hp hr hx => .of_run Node.powerUp rfl ?_,
      fun hp hx => .of_run Node.powerUp rfl ?_, fun hp hc => .of_run Node.powerUp rfl ?_⟩
    · rw [powerUp_of_first hm hv hl hp hr]
      refine ⟨rfl, rfl, rfl, rfl, rfl, ?_⟩
      exact (Within.mClk (.rtcHold (.eachDom .rfl fun _ _ => .setDom .rfl)) : Within [.clk, .rtc] n _).keeps
    · rw [powerUp_of_counted hm hv hl hp hr, phaseB_of_off]
      · rfl
      · exact hr
      · exact hx
    · rw [powerUp_of_b hm hv hl hp (by simpa using hx)]
      obtain ⟨hphase, hon, hclamp, i, r, c, w, hsys⟩ := n.phaseC_reads
      rw [hsys]
      exact ⟨hphase, rfl, rfl, rfl, rfl, hon, hclamp⟩
    · rw [powerUp_of_e hm hv hl hp hc]
      exact ⟨(phaseE_ends hm).1, (phaseE_ends hm).2, phaseE_img⟩
  · rintro ⟨n, q⟩ b
    dsimp only
    intro hp hu hc
    refine ⟨fun hs => .of_run Node.phaseD rfl ?_, fun hs ht => .of_run Node.phaseD rfl ?_, fun hs ht h5 h6 => .of_run Node.phaseD rfl ?_,
      fun hs ht hb => ?_⟩
    · rw [phaseD_of_strapBad hp hu hc hs, unconfigured_sys, unconfigured_pwr]
      refine ⟨rfl, ?_, hp, ?_⟩
      · rw [(Within.unconfigured .rfl : Within [.sys, .dio, .jrnl, .tide, .pair] (n.mSec fun s => { s with code := 5 }) _).part .sec]
        rfl
      · exact (Within.unconfigured (.mSec .rfl) : Within [.sys, .sec, .dio, .jrnl, .tide, .pair] n _).keeps
    · rw [phaseD_of_no_store hp hu hc hs ht, unconfigured_sys, unconfigured_pwr]
      exact ⟨rfl, hp, (Within.unconfigured .rfl : Within [.sys, .dio, .jrnl, .tide, .pair] n _).keeps⟩
    · rw [phaseD_of_no_bank hp hu hc hs ht h5 h6, unconfigured_sys, unconfigured_pwr]
      exact ⟨rfl, hp, (Within.unconfigured .rfl : Within [.sys, .dio, .jrnl, .tide, .pair] n _).keeps⟩
    · cases hk : n.checkImage (n.bankOf b) with
      | none =>
        refine .of_run Node.phaseD rfl ?_
        rw [phaseD_of_pass hp hu hc hs ht hb hk]
        rfl
      | some f =>
        intro hn
        refine .of_run Node.phaseD rfl ?_
        rw [phaseD_of_fail hp hu hc hs ht (Prod.ext hb hn) hk, unconfigured_sys, unconfigured_pwr]
        exact ⟨rfl, hp⟩

end

section
/-! One domain at a time: what a change of a domain leaves of the others and of the clock unit (04 R142). -/

namespace Sys2Proof.Machine.Node

variable {n : Node} {d e : Domain}

@[simp] theorem dom_setDom_same (v : DomClk) : (n.setDom d v).dom d = v := by cases d <;> rfl

theorem dom_setDom_other (v : DomClk) (h : e ≠ d) : (n.setDom d v).dom e = n.dom e := by
  cases d
  · cases e
    · exact absurd rfl h
    · rfl
    · rfl
  · cases e
    · rfl
    · exact absurd rfl h
    · rfl
  · cases e
    · rfl
    · rfl
    · exact absurd rfl h

theorem dom_of_clk {m : Node} (h : m.clk = n.clk) (d : Domain) : m.dom d = n.dom d := by
  cases d
  · exact congrArg Clk.core h
  · exact congrArg Clk.field h
  · exact congrArg Clk.solv h

theorem setDom_self (d : Domain) : n.setDom d (n.dom d) = n := by cases d <;> rfl

/-- A pass over the domains of a step that changes each domain by itself, from what the domain was. -/
theorem eachDom_dom {f : Node → Domain → Node} {P : Node → Prop} {Q : Domain → DomClk → DomClk → Prop} (hn : P n)
    (hp : ∀ m d, P m → P (f m d)) (ho : ∀ m d e, P m → e ≠ d → (f m d).dom e = m.dom e)
    (hq : ∀ m d, P m → Q d (m.dom d) ((f m d).dom d)) (d : Domain) : Q d (n.dom d) ((n.eachDom f).dom d) := by
  have h1 : P (f n .core) := hp _ _ hn
  have h2 : P (f (f n .core) .field) := hp _ _ h1
  change Q d (n.dom d) ((f (f (f n .core) .field) .solv).dom d)
  cases d
  · rw [ho _ _ _ h2 (by simp), ho _ _ _ h1 (by simp)]
    exact hq _ _ hn
  · rw [ho _ _ _ h2 (by simp), ← ho n .core .field hn (by simp)]
    exact hq _ _ h1
  · rw [← ho n .core .solv hn (by simp), ← ho (f n .core) .field .solv h1 (by simp)]
    exact hq _ _ h2

/-- A pass over the domains keeps to a relation that each step keeps to. -/
theorem eachDom_rel {f : Node → Domain → Node} {R : Node → Node → Prop} (ht : ∀ {n m k}, R n m → R m k → R n k)
    (hf : ∀ m d, R m (f m d)) : R n (n.eachDom f) := ht (hf n .core) (ht (hf _ .field) (hf _ .solv))

theorem eachDom_inv {f : Node → Domain → Node} {P : Node → Prop} (hn : P n) (hp : ∀ m d, P m → P (f m d)) : P (n.eachDom f) :=
  hp _ .solv (hp _ .field (hp _ .core hn))

theorem anyDom_eq_false (f : DomClk → Bool) : n.anyDom f = false ↔ ∀ d, f (n.dom d) = false := by
  constructor
  · intro h d
    have h' : (f (n.dom .core) || (f (n.dom .field) || (f (n.dom .solv) || false))) = false := h
    simp only [Bool.or_false, Bool.or_eq_false_iff] at h'
    obtain ⟨hc, hf, hs⟩ := h'
    cases d
    · exact hc
    · exact hf
    · exact hs
  · intro h
    simp [anyDom, allDomains, h]

theorem anyDom_eq_true {f : DomClk → Bool} (d : Domain) (h : f (n.dom d) = true) : n.anyDom f = true := by
  cases hf : n.anyDom f with
  | true => rfl
  | false =>
    rw [(anyDom_eq_false f).1 hf d] at h
    cases h

theorem anyDom_of_dom {m : Node} (h : ∀ d, m.dom d = n.dom d) (f : DomClk → Bool) : m.anyDom f = n.anyDom f := by
  simp [anyDom, h]

/-- Of the clock unit only the domains change. -/
def DomsMove (n m : Node) : Prop := ∃ a b c, m.clk = { n.clk with core := a, field := b, solv := c }

theorem DomsMove.of_clk {m : Node} (h : m.clk = n.clk) : DomsMove n m := ⟨_, _, _, h⟩

theorem DomsMove.trans {m k : Node} (h : DomsMove n m) (g : DomsMove m k) : DomsMove n k := by
  obtain ⟨_, _, _, h⟩ := h
  obtain ⟨a, b, c, g⟩ := g
  exact ⟨a, b, c, by rw [g, h]⟩

theorem DomsMove.frame {m : Node} (h : Within (Part.allBut [.clk]) n m) : DomsMove n m := .of_clk (h.part .clk)

theorem setDom_domsMove (v : DomClk) : DomsMove n (n.setDom d v) := by cases d <;> exact ⟨_, _, _, rfl⟩

theorem enterSlack_domsMove (st : DomSt) : DomsMove n (n.enterSlack d st) := (setDom_domsMove _).trans (.frame (.domClamped .rfl))

/-- Of the clock unit only the domains change, with the masks that wait and the end of CORE's Slack. -/
def ClkGated (n m : Node) : Prop :=
  ∃ a b c u v w, m.clk = { n.clk with core := a, field := b, solv := c, maskDue := u, heldMode := v, slackEnd := w }

theorem DomsMove.gated {m : Node} (h : DomsMove n m) : ClkGated n m := by
  obtain ⟨a, b, c, h⟩ := h
  exact ⟨a, b, c, _, _, _, h⟩

theorem ClkGated.trans {m k : Node} (h : ClkGated n m) (g : ClkGated m k) : ClkGated n k := by
  obtain ⟨_, _, _, _, _, _, h⟩ := h
  obtain ⟨a, b, c, u, v, w, g⟩ := g
  exact ⟨a, b, c, u, v, w, by rw [g, h]⟩

theorem ClkGated.frame {m : Node} (h : Within (Part.allBut [.clk]) n m) : ClkGated n m := (DomsMove.frame h).gated

theorem solvDrained_clkGated : ClkGated n n.solvDrained := by
  unfold solvDrained
  dsimp only
  split
  · split
    · exact ⟨_, _, {}, _, _, _, rfl⟩
    · exact ⟨_, _, _, true, _, _, rfl⟩
  · exact ⟨_, _, _, _, _, _, rfl⟩

theorem engine_clkGated : ClkGated n n.engine := .trans (.frame (.startNext .rfl)) solvDrained_clkGated

theorem clkGated_gates : Gates ClkGated where
  refl _ := ⟨_, _, _, _, _, _, rfl⟩
  trans := .trans
  setDom _ _ _ := (setDom_domsMove _).gated
  mask n f h := by
    obtain ⟨u, v, h⟩ := h n.clk
    exact ⟨_, _, _, u, v, _, h⟩
  coreClamped _ := .frame (.coreClamped .rfl)
  fieldStops _ := .frame (.fieldStops .rfl)
  stopEngine _ := .frame (.stopEngine .rfl)
  syncCauses _ := .frame (.syncCauses .rfl)
  engine _ := engine_clkGated
  coastChange _ _ := .frame (.coastChange .rfl)

theorem applyDomains_clkGated : ClkGated n n.applyDomains := clkGated_gates.applyDomains n

theorem leftSlack_clkGated : ClkGated n (n.leftSlack d) := by
  refine (setDom_domsMove (d := d) { n.dom d with releasing := true }).gated.trans ?_
  cases d
  · exact ⟨_, _, _, _, _, true, rfl⟩
  · exact .frame (.syncCauses .rfl)
  · exact engine_clkGated

/-- A domain that enters Slack: its clamp closes and its switch and ramp end. -/
theorem enterSlack_dom_same (st : DomSt) : (n.enterSlack d st).dom d =
    { n.dom d with st := st, ramp := none, sw := none, clamp := true, releasing := false } := by
  refine (dom_of_clk ((Within.domClamped .rfl : Within (Part.allBut [.clk]) _ _).part .clk) d).trans ?_
  exact dom_setDom_same _

theorem enterSlack_dom_other (st : DomSt) (h : e ≠ d) : (n.enterSlack d st).dom e = n.dom e := by
  refine (dom_of_clk ((Within.domClamped .rfl : Within (Part.allBut [.clk]) _ _).part .clk) e).trans ?_
  exact dom_setDom_other _ h

/-- A latch stops every domain with its clamp closed (04 R164). -/
theorem latch_dom (cause : Nat) (d : Domain) : ((n.latch cause).dom d).st = .latched ∧ ((n.latch cause).dom d).clamp = true := by
  unfold latch
  dsimp only
  rw [dom_of_clk ((Within.clockRecord .rfl : Within [.jrnl, .tide, .pair] _ _).part .clk)]
  refine eachDom_dom (P := fun _ => True) (Q := fun _ _ c => c.st = .latched ∧ c.clamp = true) trivial (fun _ _ _ => trivial)
    (fun m d e _ h => enterSlack_dom_other _ h) (fun m d _ => ?_) d
  rw [enterSlack_dom_same]
  exact ⟨rfl, rfl⟩

theorem latch_clk (cause : Nat) : DomsMove (n.mClk fun c =>
    { c with latched := true, latchCause := setBit c.latchCause cause, ret := 0, due := false }) (n.latch cause) := by
  unfold latch
  exact .trans (eachDom_rel .trans fun _ _ => enterSlack_domsMove _) (.frame (.clockRecord .rfl))

/-- What an emergency does to its own domain (04 R142). -/
theorem emergency_dom_other (h : e ≠ d) : (n.emergency d).dom e = n.dom e := by
  unfold emergency
  split
  · exact enterSlack_dom_other _ h
  · split
    · cases d
      · exact (dom_of_clk ((Within.ethDown .rfl : Within [.jrnl, .tide, .pair, .ext] _ _).part .clk) e).trans (dom_setDom_other _ h)
      · exact (dom_of_clk ((Within.fieldStops .rfl : Within [.afe, .lane] _ _).part .clk) e).trans (dom_setDom_other _ h)
      · exact dom_setDom_other _ h
    · exact enterSlack_dom_other _ h

theorem emergency_dom_of_breakwater (h : n.breakwater d = true) : ((n.emergency d).dom d) =
    { n.dom d with st := .slack, ramp := none, sw := none, clamp := true, releasing := false } := by
  unfold emergency
  rw [if_pos h]
  exact enterSlack_dom_same _

theorem emergency_dom_of_rc (h : n.breakwater d = false) (hr : n.clk.rc = .ready) :
    ((n.emergency d).dom d) = { n.dom d with ratio := 4, ramp := none, sw := some .rc } := by
  unfold emergency
  rw [if_neg (by simp [h]), if_pos hr]
  cases d
  · exact (dom_of_clk ((Within.ethDown .rfl : Within [.jrnl, .tide, .pair, .ext] _ _).part .clk) .core).trans (dom_setDom_same _)
  · exact (dom_of_clk ((Within.fieldStops .rfl : Within [.afe, .lane] _ _).part .clk) .field).trans (dom_setDom_same _)
  · exact dom_setDom_same _

theorem emergency_domsMove : DomsMove n (n.emergency d) := by
  unfold emergency
  split
  · exact enterSlack_domsMove _
  · split
    · cases d
      · exact (setDom_domsMove _).trans (.frame (.ethDown .rfl))
      · exact (setDom_domsMove _).trans (.frame (.fieldStops .rfl))
      · exact setDom_domsMove _
    · exact enterSlack_domsMove _

theorem tripDomain_domsMove : DomsMove n (n.tripDomain d) := by
  unfold tripDomain
  dsimp only
  split
  · exact emergency_domsMove
  · split
    · exact .of_clk rfl
    · exact setDom_domsMove _

theorem rcMoves_domsMove : DomsMove n (n.rcMoves d) := by
  unfold rcMoves
  dsimp only
  split
  · exact emergency_domsMove
  · exact setDom_domsMove _

/-- The engine leaves the clock unit alone where SOLV does not wait to be turned off. -/
theorem engine_clk (h : n.solvDrains = false) : n.engine.clk = n.clk := by
  have hw : Within [.solv, .jrnl, .tide, .pair, .free] n (startNext 17 n) := .startNext .rfl
  have hd : (startNext 17 n).solvDrains = false := (solvDrains_of_pwr (hw.part .pwr)).trans h
  unfold engine solvDrained
  rw [hd]
  exact hw.part .clk

theorem leftSlack_pwr (h : n.solvDrains = false) : (n.leftSlack d).pwr = n.pwr := by
  cases d
  · rfl
  · exact (Within.syncCauses .rfl : Within [.lane] _ _).part .pwr
  · exact engine_drained.pwr_eq h

theorem leftSlack_dom_same (h : n.solvDrains = false) : (n.leftSlack d).dom d = { n.dom d with releasing := true } := by
  cases d
  · rfl
  · exact dom_of_clk ((Within.syncCauses .rfl : Within [.lane] _ _).part .clk) .field
  · exact dom_of_clk (engine_clk (n := n.setDom .solv { n.dom .solv with releasing := true }) h) .solv

theorem leftSlack_dom_other (h : n.solvDrains = false) (he : e ≠ d) : (n.leftSlack d).dom e = n.dom e := by
  cases d
  · exact dom_setDom_other _ he
  · exact (dom_of_clk ((Within.syncCauses .rfl : Within [.lane] _ _).part .clk) e).trans (dom_setDom_other _ he)
  · exact (dom_of_clk (engine_clk (n := n.setDom .solv { n.dom .solv with releasing := true }) h) e).trans (dom_setDom_other _ he)

end Sys2Proof.Machine.Node
end

section
/-! Counts and locks that complete, the trim window, CLKOUT, and the begin of a return (04 Sources, R149, R152). -/

namespace Sys2Proof.Machine.Node

variable {n : Node}

theorem rcCounted_of_none (h : ∀ d, (n.dom d).st ≠ .slackCoast) : n.rcCounted = n.mClk fun c => { c with rc := .ready, rcRestarted := false } := by
  have hid (m : Node) (d : Domain) (hm : m = n.mClk fun c => { c with rc := .ready, rcRestarted := false }) :
      (if (m.dom d).st = .slackCoast then
        (m.setDom d { m.dom d with st := .bridge, ratio := 4, sw := if m.clk.pll = .coast then some .coast else none }).leftSlack d
      else m) = n.mClk fun c => { c with rc := .ready, rcRestarted := false } := by
    subst hm
    have hd : (n.mClk fun c => { c with rc := .ready, rcRestarted := false }).dom d = n.dom d := by cases d <;> rfl
    exact if_neg (by rw [hd]; exact h d)
  unfold rcCounted
  exact eachDom_inv (P := fun m => m = n.mClk fun c => { c with rc := .ready, rcRestarted := false }) rfl hid

theorem rcCounted_dom (hs : n.solvDrains = false) (d : Domain) (h : (n.dom d).st = .slackCoast) :
    (n.rcCounted.dom d).st = .bridge ∧ (n.rcCounted.dom d).ratio = 4 ∧ (n.rcCounted.dom d).releasing = true := by
  have hk : (n.mClk fun c => { c with rc := .ready, rcRestarted := false }).dom d = n.dom d := by cases d <;> rfl
  have hstep (m : Node) (d : Domain) (v : DomClk) (hm : m.solvDrains = false) : (m.setDom d v).solvDrains = false :=
    (solvDrains_of_pwr rfl).trans hm
  unfold rcCounted
  generalize hm : (n.mClk fun c => { c with rc := .ready, rcRestarted := false }) = k at hk
  have hs : k.solvDrains = false := by
    rw [← hm]
    exact hs
  refine eachDom_dom (P := fun m => m.solvDrains = false)
    (Q := fun _ c c' => c.st = .slackCoast → c'.st = .bridge ∧ c'.ratio = 4 ∧ c'.releasing = true) hs (fun m d hm => ?_)
    (fun m d e hm he => ?_) (fun m d hm hst => ?_) d (by rw [hk]; exact h)
  · split
    · exact (solvDrains_of_pwr (leftSlack_pwr (hstep m d _ hm))).trans hm
    · exact hm
  · split
    · rw [leftSlack_dom_other (hstep m d _ hm) he, dom_setDom_other _ he]
    · rfl
  · rw [if_pos hst, leftSlack_dom_same (hstep m d _ hm), dom_setDom_same]
    exact ⟨rfl, rfl, rfl⟩

theorem rcCounted_rc : n.rcCounted.clk.rc = .ready := by
  have h : ClkGated (n.mClk fun c => { c with rc := .ready, rcRestarted := false }) n.rcCounted := by
    unfold rcCounted
    refine eachDom_rel .trans fun m d => ?_
    split
    · exact (setDom_domsMove _).gated.trans leftSlack_clkGated
    · exact clkGated_gates.refl m
  obtain ⟨_, _, _, _, _, _, h⟩ := h
  rw [h]
  rfl

theorem rcCountFails_clk : n.rcCountFails.clk.rc = .failed ∧ n.rcCountFails.clk.noFallback = true ∧
    ((∃ d, (n.dom d).st = .slackCoast) → n.rcCountFails.clk.latched = true ∧ n.rcCountFails.clk.latchCause = setBit n.clk.latchCause 0) := by
  unfold rcCountFails
  dsimp only
  generalize hk : clockRecord _ 1 = k
  have hc : k.clk = (n.mClk fun c => { c with rc := .failed, noFallback := true, rcRestarted := false }).clk := by
    rw [← hk]
    exact (Within.clockRecord .rfl : Within [.jrnl, .tide, .pair] _ _).part .clk
  split
  · obtain ⟨a, b, c, h⟩ := k.latch_clk 0
    rw [(Within.coastChange .rfl : Within [.sys, .jrnl, .tide, .pair] _ _).part .clk, h, mClk, hc]
    exact ⟨rfl, rfl, fun _ => ⟨rfl, rfl⟩⟩
  next hf =>
    rw [hc]
    refine ⟨rfl, rfl, fun ⟨d, hd⟩ => absurd (anyDom_eq_true d ?_) hf⟩
    have hdom : k.dom d = n.dom d := (dom_of_clk hc d).trans (by cases d <;> rfl)
    simp [hdom, hd]

theorem edgesBack_of_lse (h : n.clk.lse = .failed) : n.edgesBack true = n.rtcHold.mClk fun c => { c with lse := .ready } := if_pos h

theorem locked_of_nominal (h : n.clk.pll = .locking) (hl : n.clk.lockCoast = false) (hx : n.clk.xtal = .ready) (hr : n.clk.ret ≠ 3) :
    n.locked = n.mClk fun c => { c with pll := .nominal } := by
  have hr' : (n.clk.ret == 3) = false := by simpa using hr
  simp [locked, h, hl, hx, hr']

theorem DomsMove.rc {m : Node} (h : DomsMove n m) : m.clk.rc = n.clk.rc := by
  obtain ⟨_, _, _, h⟩ := h
  rw [h]

theorem DomsMove.xtal {m : Node} (h : DomsMove n m) : m.clk.xtal = n.clk.xtal := by
  obtain ⟨_, _, _, h⟩ := h
  rw [h]

/-- The masks that wait take a source as it is, or turn it off for Deep sleep. -/
theorem masksNow_sources : (n.masksNow.clk.rc = n.clk.rc ∨ n.masksNow.clk.rc = .off) ∧
    (n.masksNow.clk.xtal = n.clk.xtal ∨ n.masksNow.clk.xtal = .off) := by
  unfold masksNow
  split
  · split
    · unfold deepSources mClk
      dsimp only
      constructor
      · split
        · exact .inl rfl
        · exact .inr rfl
      · split
        · exact .inl rfl
        · exact .inr rfl
    · obtain ⟨_, _, _, _, _, _, h⟩ := n.applyDomains_clkGated
      rw [h]
      exact ⟨.inl rfl, .inl rfl⟩
  · exact ⟨.inl rfl, .inl rfl⟩

theorem masksNow_rc (h : n.clk.rc ≠ .ready) : n.masksNow.clk.rc ≠ .ready := by
  rcases n.masksNow_sources.1 with hr | hr
  · rw [hr]
    exact h
  · rw [hr]
    decide

theorem masksNow_xtal (h : n.clk.xtal ≠ .ready) : n.masksNow.clk.xtal ≠ .ready := by
  rcases n.masksNow_sources.2 with hr | hr
  · rw [hr]
    exact h
  · rw [hr]
    decide

theorem pllToCoast_rc : n.pllToCoast.clk.rc = n.clk.rc := by
  unfold pllToCoast mClk
  dsimp only
  split <;> rfl

theorem pllToCoast_xtal : n.pllToCoast.clk.xtal = n.clk.xtal := by
  unfold pllToCoast mClk
  dsimp only
  split <;> rfl

/-- A domain pass of a trip, and the records after it, move domains alone. -/
theorem tripped_domsMove {was : Bool} : DomsMove n ((n.clockRecord 1).coastChange was) := .frame (.coastChange (.clockRecord .rfl))

theorem tripMoves_xtal : n.tripMoves.clk.xtal = n.clk.xtal := by
  unfold tripMoves
  dsimp only
  split
  · rw [(latch_clk 3).xtal]
    rfl
  · exact (eachDom_rel .trans fun _ _ => tripDomain_domsMove : DomsMove _ _).xtal

theorem rampMoves_xtal : n.rampMoves.clk.xtal = n.clk.xtal := by
  have h (m : Node) (d : Domain) : DomsMove m (if (m.dom d).ramp.isSome then m.tripDomain d else m) := by
    split
    · exact tripDomain_domsMove
    · exact .of_clk rfl
  unfold rampMoves
  exact (eachDom_rel .trans h : DomsMove _ _).xtal

theorem tripXtal_xtal (h : n.clk.xtal = .ready) : n.tripXtal.clk.xtal ≠ .ready := by
  unfold tripXtal
  rw [if_neg (by simp [h])]
  refine masksNow_xtal ?_
  rw [tripped_domsMove.xtal]
  split
  · rw [tripMoves_xtal, pllToCoast_xtal]
    exact SrcSt.noConfusion
  · rw [rampMoves_xtal]
    exact SrcSt.noConfusion

theorem tripRc_rc (h : n.clk.rc = .ready) : n.tripRc.clk.rc ≠ .ready := by
  unfold tripRc
  rw [h]
  dsimp only
  split
  · have hl : DomsMove _ _ := latch_clk (n := (n.mClk fun c => { c with rc := .failed }).clockRecord 1) 1
    have hr : ((n.mClk fun c => { c with rc := .failed }).clockRecord 1).clk.rc = .failed :=
      congrArg Clk.rc ((Within.clockRecord .rfl : Within [.jrnl, .tide, .pair] _ _).part .clk)
    rw [(Within.coastChange .rfl : Within [.sys, .jrnl, .tide, .pair] _ _).part .clk, hl.rc]
    intro hx
    exact SrcSt.noConfusion (hr.symm.trans hx)
  · refine masksNow_rc ?_
    rw [tripped_domsMove.rc]
    have hr {k : Node} (hk : k.clk.rc = .counting) : (k.eachDom rcMoves).clk.rc = .counting :=
      (eachDom_rel .trans fun _ _ => rcMoves_domsMove : DomsMove k _).rc.trans hk
    split
    · rw [pllToCoast_rc, hr rfl]
      exact SrcSt.noConfusion
    · rw [hr rfl]
      exact SrcSt.noConfusion

/-- What the trim window writes down before it judges (04 R126). -/
def trimmed (n : Node) (code : BitVec 10) (x r : Nat) : Node :=
  n.mClk fun c => { c with
    trim := if c.lse = .ready ∨ c.xtal = .ready then code else c.trim
    xtalCnt := if c.rc = .ready then x % 65536 else c.xtalCnt
    rcCnt := if c.lse = .ready then min r 0xFFFF else c.rcCnt }

/-- The judgements of a trim window: of RC, and then of the crystal. -/
def rcJudged (n : Node) (r : Nat) : Node :=
  if (n.clk.rc == .ready && (n.clk.lse == .ready || n.clk.xtal == .ready)) && !rcPasses r then n.tripRc else n
def xtalJudged (n : Node) (x : Nat) : Node :=
  if (n.clk.rc == .ready && (n.clk.xtal == .ready || (n.clk.xtal == .counting && x != 0))) && !xtalPasses x then n.tripXtal else n

theorem trimWindow_eq (code : BitVec 10) (x r : Nat) : n.trimWindow code x r = ((n.trimmed code x r).rcJudged r).xtalJudged x := rfl

theorem rcJudged_of_pass {r : Nat} (h1 : 46875 ≤ r) (h2 : r ≤ 50781) : n.rcJudged r = n := if_neg (by simp [rcPasses, h1, h2])

theorem trimWindow_of_pass {code : BitVec 10} {x r : Nat} (hr : n.clk.rc = .ready) (hl : n.clk.lse = .ready) (h1 : 46875 ≤ r) (h2 : r ≤ 50781)
    (hx : (3892 ≤ x ∧ x ≤ 4300) ∨ n.clk.xtal ∈ [SrcSt.off, .failed]) :
    n.trimWindow code x r = n.mClk fun c => { c with trim := code, xtalCnt := x % 65536, rcCnt := r } := by
  have hk : n.trimmed code x r = n.mClk fun c => { c with trim := code, xtalCnt := x % 65536, rcCnt := r } := by
    simp [trimmed, mClk, hr, hl, show min r 65535 = r by omega]
  rw [trimWindow_eq, rcJudged_of_pass h1 h2, xtalJudged, if_neg, hk]
  rcases hx with ⟨ha, hb⟩ | hx
  · simp [xtalPasses, ha, hb]
  · have hx' : n.clk.xtal = .off ∨ n.clk.xtal = .failed := by simpa using hx
    rcases hx' with hx' | hx'
    · simp [trimmed, mClk, hx']
    · simp [trimmed, mClk, hx']

theorem trimWindow_of_rc {code : BitVec 10} {x r : Nat} (hr : n.clk.rc = .ready) (hl : n.clk.lse = .ready ∨ n.clk.xtal = .ready)
    (h : r < 46875 ∨ 50781 < r) : (n.trimWindow code x r).clk.rc ≠ .ready := by
  have hp : rcPasses r = false := by
    simp only [rcPasses, Bool.and_eq_false_iff, decide_eq_false_iff_not]
    omega
  have ht : (n.trimmed code x r).tripRc.clk.rc ≠ .ready := tripRc_rc hr
  rw [trimWindow_eq, rcJudged, if_pos (by simp [trimmed, mClk, hr, hl, hp]), xtalJudged, if_neg (by simp [ht])]
  exact ht

theorem trimWindow_of_xtal {code : BitVec 10} {x r : Nat} (hr : n.clk.rc = .ready) (hx : n.clk.xtal = .ready) (h1 : 46875 ≤ r) (h2 : r ≤ 50781)
    (h : x < 3892 ∨ 4300 < x) : (n.trimWindow code x r).clk.xtal ≠ .ready := by
  have hp : xtalPasses x = false := by
    simp only [xtalPasses, Bool.and_eq_false_iff, decide_eq_false_iff_not]
    omega
  rw [trimWindow_eq, rcJudged_of_pass h1 h2, xtalJudged, if_pos (by simp [trimmed, mClk, hr, hx, hp])]
  exact tripXtal_xtal hx

/-- The pass that sends the domains in BRIDGE to Coast. -/
def coastPass (n : Node) (d : Domain) : Node :=
  if (n.dom d).st = .bridge ∧ (n.dom d).sw = none ∧ (n.dom d).ramp = none then n.setDom d { n.dom d with sw := some .coast } else n

theorem coastPass_domsMove (d : Domain) : DomsMove n (n.coastPass d) := by
  unfold coastPass
  split
  · exact setDom_domsMove _
  · exact .of_clk rfl

theorem coastPass_pass (d : Domain) (hb : (n.dom d).st = .bridge) (hs : (n.dom d).sw = none) (hr : (n.dom d).ramp = none) :
    (n.eachDom coastPass).dom d = { n.dom d with sw := some .coast } := by
  refine eachDom_dom (P := fun _ => True) (Q := fun _ c c' => c.st = .bridge → c.sw = none → c.ramp = none → c' = { c with sw := some .coast })
    trivial (fun _ _ _ => trivial) (fun m d e _ he => ?_) (fun m d _ hb hs hr => ?_) d hb hs hr
  · unfold coastPass
    split
    · exact dom_setDom_other _ he
    · rfl
  · rw [coastPass, if_pos ⟨hb, hs, hr⟩, dom_setDom_same]

/-- The lock on RC takes the domains that wait in BRIDGE to Coast (04 R159). -/
theorem locked_of_coast (h : n.clk.pll = .locking) (hl : n.clk.lockCoast = true) (hr : n.clk.rc = .ready) :
    n.locked = (n.mClk fun c => { c with pll := .coast }).eachDom coastPass := by
  unfold locked
  rw [if_neg (by simp [h]), if_pos hl, if_neg (by simp [hr])]
  rfl

/-- The first step of a return: a domain in Coast ramps down (04 R152). -/
def ebbPass (n : Node) (d : Domain) : Node :=
  if (n.dom d).st = .coast then
    let m := n.setDom d { n.dom d with ratio := 1, ramp := some false }
    if d = .field then m.fieldStops else m
  else n

theorem ebbPass_dom_other {d e : Domain} (he : e ≠ d) : (n.ebbPass d).dom e = n.dom e := by
  unfold ebbPass
  split
  · dsimp only
    split
    · exact (dom_of_clk ((Within.fieldStops .rfl : Within [.afe, .lane] _ _).part .clk) e).trans (dom_setDom_other _ he)
    · exact dom_setDom_other _ he
  · rfl

theorem ebbPass_dom_same (d : Domain) : (n.ebbPass d).dom d =
    if (n.dom d).st = .coast then { n.dom d with ratio := 1, ramp := some false } else n.dom d := by
  unfold ebbPass
  split
  · dsimp only
    split
    · exact (dom_of_clk ((Within.fieldStops .rfl : Within [.afe, .lane] _ _).part .clk) d).trans (dom_setDom_same _)
    · exact dom_setDom_same _
  · rfl

theorem ebbPass_pass (d : Domain) : (n.eachDom ebbPass).dom d =
    if (n.dom d).st = .coast then { n.dom d with ratio := 1, ramp := some false } else n.dom d :=
  eachDom_dom (P := fun _ => True) (Q := fun _ c c' => c' = if c.st = .coast then { c with ratio := 1, ramp := some false } else c)
    trivial (fun _ _ _ => trivial) (fun _ _ _ _ he => ebbPass_dom_other he) (fun _ d _ => ebbPass_dom_same d) d

theorem ebbPass_domsMove (d : Domain) : DomsMove n (n.ebbPass d) := by
  unfold ebbPass
  split
  · dsimp only
    split
    · exact (setDom_domsMove _).trans (.frame (.fieldStops .rfl))
    · exact setDom_domsMove _
  · exact .of_clk rfl

theorem ebbPass_within (d : Domain) : Within [.clk, .lane, .afe] n (n.ebbPass d) := by
  unfold ebbPass
  dsimp only
  exact .ite (.ite (.fieldStops (.setDom .rfl)) (.setDom .rfl)) .rfl

/-- Only the ramp of FIELD stops the chains. -/
theorem ebbPass_within_clk {d : Domain} (h : d = .field → (n.dom d).st ≠ .coast) : Within [.clk] n (n.ebbPass d) := by
  unfold ebbPass
  split
  next hst =>
    dsimp only
    rw [if_neg fun he => h he hst]
    exact .setDom .rfl
  next => exact .rfl

theorem ebbPasses_within : Within [.clk, .lane, .afe] n (n.eachDom ebbPass) := .eachDom .rfl fun _ d => ebbPass_within d

theorem ebbPasses_within_clk (h : (n.dom .field).st ≠ .coast) : Within [.clk] n (n.eachDom ebbPass) := by
  have hc : Within [.clk] n (n.ebbPass .core) := ebbPass_within_clk (by simp)
  have hf : Within [.clk] (n.ebbPass .core) ((n.ebbPass .core).ebbPass .field) := ebbPass_within_clk fun _ => by
    rw [ebbPass_dom_other (by simp)]
    exact h
  exact (ebbPass_within_clk (by simp)).after (hf.after hc (by decide)) (by decide)

/-- The conditions of a return (04 R149). -/
def returns (n : Node) : Bool :=
  n.clk.due && !n.clk.latched && !n.clk.retLimit && n.clk.xtal == .ready && n.clk.ret == 0 && n.anyDom strays &&
      (n.rtc.lastTick.any fun t => t % 1000000 == 0) && !n.anyDom (fun c => c.ramp.isSome || c.sw.isSome)

theorem returnStart_eq : n.returnStart =
    if n.returns then ((n.mClk fun c => { c with ret := 1, due := false }).eachDom ebbPass).returnAdvance else n := rfl

theorem returnAdvance_of_ramp {d : Domain} (hr : n.clk.ret = 1) (hd : (n.dom d).ramp.isSome = true) : n.returnAdvance = n := by
  have ha : n.anyDom (·.ramp.isSome) = true := anyDom_eq_true d hd
  simp [returnAdvance, hr, ha]

end Sys2Proof.Machine.Node

open Sys2Proof Sys2Proof.Machine Sys2Proof.Machine.Node

/-- Settles O20: each completion by its own branch, and the return by the pass over the domains. -/
theorem clockSourcesAndReturn : Obligations.ClockSourcesAndReturn := by
  unfold Obligations.ClockSourcesAndReturn
  refine ⟨?_, ?_⟩
  · rintro ⟨n, q⟩ code x r w
    dsimp only
    refine ⟨fun h hd => ?_, fun h hs => ?_, fun h => ?_, fun h hp hl => ?_, fun h hp => ?_, fun h hl hx hr => ?_, fun h hl hr => ?_,
      fun h => ?_, fun h => ?_, fun hr hl h1 h2 hx => ?_, fun hr hl h => ?_, fun hr hx h1 h2 h => ?_, fun h1 h2 => ?_, fun h => ?_⟩
    · refine .of_run (fun n => if n.clk.rc = .counting then (if true then n.rcCounted else n.rcCountFails) else n) rfl ?_
      rw [if_pos h, if_pos rfl, rcCounted_of_none hd]
      rfl
    · refine .of_run (fun n => if n.clk.rc = .counting then (if true then n.rcCounted else n.rcCountFails) else n) rfl ?_
      rw [if_pos h, if_pos rfl]
      exact ⟨rcCounted_rc, rcCounted_dom hs⟩
    · refine .of_run (fun n => if n.clk.rc = .counting then (if false then n.rcCounted else n.rcCountFails) else n) rfl ?_
      rw [if_pos h, if_neg (by decide)]
      exact rcCountFails_clk
    · refine .of_run Node.xtalCounted rfl ?_
      simp [xtalCounted, h, hp, hl, mClk]
    · refine .of_run Node.xtalCounted rfl ?_
      have hn : ¬ (n.pwr.phase = .b ∧ n.clk.pll = .off) := by
        rintro ⟨ha, hb⟩
        rcases hp with hp | hp
        · exact hp ha
        · exact hp hb
      simp [xtalCounted, h, hn, mClk]
    · refine .of_run Node.locked rfl ?_
      rw [locked_of_nominal h hl hx hr]
      rfl
    · refine .of_run Node.locked rfl ?_
      rw [locked_of_coast h hl hr]
      have hm : DomsMove (n.mClk fun c => { c with pll := .coast }) _ := eachDom_rel .trans fun _ d => coastPass_domsMove d
      have hk : Within [.clk] n ((n.mClk fun c => { c with pll := .coast }).eachDom coastPass) :=
        .eachDom (.mClk .rfl) fun _ _ => .iteThen .rfl (.setDom .rfl)
      refine ⟨?_, hk.keeps, fun d => ?_⟩
      · obtain ⟨_, _, _, hm⟩ := hm
        rw [hm]
        rfl
      · have hd : (n.mClk fun c => { c with pll := .coast }).dom d = n.dom d := by cases d <;> rfl
        rw [← hd]
        exact coastPass_pass d
    · refine .of_run (fun n => n.edgesBack false) rfl ?_
      simp [edgesBack, h, mClk]
    · refine .of_run (fun n => n.edgesBack true) rfl ?_
      rw [edgesBack_of_lse h]
      exact ⟨rfl, (Within.mClk (.rtcHold .rfl) : Within [.clk, .rtc] n _).keeps⟩
    · refine .of_run (fun n => n.trimWindow code x r) rfl ?_
      rw [trimWindow_of_pass hr hl h1 h2 hx]
      rfl
    · exact .of_run (fun n => n.trimWindow code x r) rfl (trimWindow_of_rc hr hl h)
    · exact .of_run (fun n => n.trimWindow code x r) rfl (trimWindow_of_xtal hr hx h1 h2 h)
    · refine .of_run (fun n => n.clkoutSet w) rfl ?_
      simp only [clkoutSet, mClk, h1, h2, and_self, if_true]
    · refine .of_run (fun n => n.clkoutSet w) rfl ?_
      have hn : ¬ (w.toNat % 16 ≤ 10 ∧ clkoutNominal.getD (w.toNat % 16) 0 ≤ 50000000 * (w.toNat / 65536 + 1)) := by omega
      simp only [clkoutSet, mClk, hn, if_false]
  · rintro ⟨n, q⟩
    dsimp only
    refine ⟨fun h => .of_run Node.returnStart rfl ?_, fun hd hl hr hx h0 ht hn hc => .of_run Node.returnStart rfl ?_⟩
    · rw [returnStart_eq, if_neg]
      have hd : (∀ d, (n.dom d).st = .nominal ∨ (n.dom d).st = .off) → n.anyDom strays = false := fun h =>
        (anyDom_eq_false _).2 fun d => by rcases h d with h | h <;> simp [strays, h]
      rcases h with h | h | h | h | h | h
      · simp [returns, h]
      · simp [returns, h]
      · simp [returns, h]
      · simp [returns, h]
      · simp [returns, h]
      · simp [returns, hd h]
    · obtain ⟨d, hc⟩ := hc
      obtain ⟨t, ht, htm⟩ := ht
      have hs : n.anyDom strays = true := anyDom_eq_true d (by simp [strays, hc])
      have hq : n.anyDom (fun c => c.ramp.isSome || c.sw.isSome) = false := (anyDom_eq_false _).2 fun d => by simp [hn d]
      have hkd (e : Domain) : (n.mClk fun c => { c with ret := 1, due := false }).dom e = n.dom e := by cases e <;> rfl
      have hm : DomsMove (n.mClk fun c => { c with ret := 1, due := false }) _ := eachDom_rel .trans fun _ d => ebbPass_domsMove d
      have hdom (e : Domain) : ((n.mClk fun c => { c with ret := 1, due := false }).eachDom ebbPass).dom e =
          if (n.dom e).st = .coast then { n.dom e with ratio := 1, ramp := some false } else n.dom e := by
        rw [ebbPass_pass, hkd]
      obtain ⟨a, b, c, hm⟩ := hm
      rw [returnStart_eq, if_pos (by simp [returns, hd, hl, hr, hx, h0, hs, hq, ht, htm]),
        returnAdvance_of_ramp (d := d) (by rw [hm]; rfl) (by simp [hdom, hc])]
      refine ⟨by rw [hm]; rfl, by rw [hm]; rfl, fun hf => ?_, ?_, fun e => ?_⟩
      · have hw := ebbPasses_within_clk (n := n.mClk fun c => { c with ret := 1, due := false }) (by rw [hkd]; exact hf)
        exact (hw.after (.mClk .rfl) (by decide) : Within [.clk] n _).keeps
      · exact (ebbPasses_within.after (.mClk .rfl) (by decide) : Within [.clk, .lane, .afe, .jrnl, .tide, .pair] n _).keeps
      · rw [hdom]
        split
        · rfl
        · rfl

end

section
/-! Trips of the sources and a lock that fails (04 Table 4.6, R142, R164, R172). -/

namespace Sys2Proof.Machine.Node

variable {n : Node}

theorem masksNow_of_none (h : n.clk.maskDue = false) : n.masksNow = n := if_neg (by simp [h])

theorem DomsMove.maskDue {m : Node} (h : DomsMove n m) : m.clk.maskDue = n.clk.maskDue := by
  obtain ⟨_, _, _, h⟩ := h
  rw [h]

theorem coastChange_of_none {was : Bool} (h : n.clkCoast = was) : n.coastChange was = n := by
  subst h
  simp [coastChange]

theorem tripDomain_dom_other {d e : Domain} (he : e ≠ d) : (n.tripDomain d).dom e = n.dom e := by
  unfold tripDomain
  dsimp only
  split
  · exact emergency_dom_other he
  · split
    · rfl
    · exact dom_setDom_other _ he

theorem tripDomain_of_onPll {d : Domain} (h : onPll (n.dom d) = true) : n.tripDomain d = n.emergency d := if_pos h

/-- What a trip makes of a domain that runs on the PLL, by its policy (04 R142). -/
def trippedTo (stops : Bool) (c : DomClk) : DomClk :=
  if stops then { c with st := .slack, ramp := none, sw := none, clamp := true, releasing := false }
  else { c with ratio := 4, ramp := none, sw := some .rc }

theorem breakwater_of_img {m : Node} (h : m.img = n.img) (d : Domain) : m.breakwater d = n.breakwater d := by
  have hc : m.clockCfg = n.clockCfg := congrArg (Option.map _) h
  unfold breakwater
  rw [hc]

theorem tripDomain_dom_same {d : Domain} (hr : n.clk.rc = .ready) (h : onPll (n.dom d) = true) :
    (n.tripDomain d).dom d = trippedTo (n.breakwater d) (n.dom d) := by
  rw [tripDomain_of_onPll h]
  cases hb : n.breakwater d with
  | true => exact emergency_dom_of_breakwater hb
  | false => exact emergency_dom_of_rc hb hr

theorem tripDomain_pass {k : Node} (hr : n.clk.rc = .ready) (hi : n.img = k.img) (d : Domain) (hp : onPll (n.dom d) = true) :
    (n.eachDom tripDomain).dom d = trippedTo (k.breakwater d) (n.dom d) := by
  refine eachDom_dom (f := tripDomain) (P := fun m => m.clk.rc = .ready ∧ m.img = k.img)
    (Q := fun d c c' => onPll c = true → c' = trippedTo (k.breakwater d) c) ⟨hr, hi⟩ (fun m d h => ?_)
    (fun m d e _ he => tripDomain_dom_other he) (fun m d h ho => ?_) d hp
  · obtain ⟨hrc, himg⟩ := h
    exact ⟨tripDomain_domsMove.rc.trans hrc,
      Eq.trans ((Within.tripDomain .rfl : Within (Part.allBut [.img]) m (m.tripDomain d)).part .img :) himg⟩
  · obtain ⟨hrc, himg⟩ := h
    rw [tripDomain_dom_same hrc ho, breakwater_of_img himg]

theorem tripMoves_dom (hr : n.clk.rc = .ready) (hp : ∀ d, onPll (n.dom d) = true) (d : Domain) :
    n.tripMoves.dom d = trippedTo (n.breakwater d) (n.dom d) := by
  have hkd (e : Domain) : (n.mClk fun c => { c with ret := 0, due := false, clean := false }).dom e = n.dom e := by cases e <;> rfl
  unfold tripMoves
  dsimp only
  rw [if_neg (by simp [mClk, hr])]
  generalize hk : (n.mClk fun c => { c with ret := 0, due := false, clean := false }) = k at hkd
  have hrc : k.clk.rc = .ready := by
    rw [← hk]
    exact hr
  have hi : k.img = n.img := by
    rw [← hk]
    rfl
  rw [tripDomain_pass hrc hi d (by rw [hkd]; exact hp d), hkd]

theorem tripMoves_clk (hr : n.clk.rc = .ready) : DomsMove (n.mClk fun c => { c with ret := 0, due := false, clean := false }) n.tripMoves := by
  unfold tripMoves
  dsimp only
  rw [if_neg (by simp [mClk, hr])]
  exact eachDom_rel .trans fun _ _ => tripDomain_domsMove

theorem pllToCoast_of_rc (h : n.clk.rc = .ready) : n.pllToCoast = n.mClk fun c => { c with pll := .locking, lockCoast := true } := by
  simp [pllToCoast, mClk, h]

/-- What a trip of the PLL leaves of the domains and of the clock unit, from the node that the trip finds. -/
theorem pllTripped (hr : n.clk.rc = .ready) (hm : n.clk.maskDue = false) (hp : ∀ d, onPll (n.dom d) = true) (was : Bool) :
    let m := ((n.pllToCoast.tripMoves.clockRecord 1).coastChange was).masksNow
    (∃ a b c, m.clk = { n.clk with
      pll := .locking, lockCoast := true, ret := 0, due := false, clean := false, core := a, field := b, solv := c }) ∧
      ∀ d, m.dom d = trippedTo (n.breakwater d) (n.dom d) := by
  dsimp only
  rw [pllToCoast_of_rc hr]
  generalize hk : (n.mClk fun c => { c with pll := .locking, lockCoast := true }) = k
  have hkd (e : Domain) : k.dom e = n.dom e := by
    rw [← hk]
    cases e <;> rfl
  have hkr : k.clk.rc = .ready := by
    rw [← hk]
    exact hr
  have hki : k.img = n.img := by
    rw [← hk]
    rfl
  have hw : Within [.sys, .jrnl, .tide, .pair] k.tripMoves ((k.tripMoves.clockRecord 1).coastChange was) := .coastChange (.clockRecord .rfl)
  have hclk : ((k.tripMoves.clockRecord 1).coastChange was).clk = k.tripMoves.clk := hw.part .clk
  obtain ⟨a, b, c, ht⟩ := tripMoves_clk hkr
  have htm : k.tripMoves.clk.maskDue = false := by
    rw [ht, ← hk]
    exact hm
  rw [masksNow_of_none (by rw [hclk, htm])]
  refine ⟨⟨a, b, c, ?_⟩, fun d => ?_⟩
  · rw [hclk, ht, ← hk]
    rfl
  · rw [dom_of_clk hclk, tripMoves_dom hkr (fun e => by rw [hkd]; exact hp e), hkd, breakwater_of_img hki]

theorem tripPll_of_nominal (h : n.clk.pll = .nominal) :
    n.tripPll = ((n.pllToCoast.tripMoves.clockRecord 1).coastChange n.clkCoast).masksNow := by
  simp only [tripPll, h]

/-- The crystal's failure, counted. -/
def xtalFailed (n : Node) : Node := (n.mClk fun c => { c with xtal := .failed }).countXtalFail

theorem tripXtal_of_nominal (hx : n.clk.xtal = .ready) (h : n.clk.pll = .nominal) :
    n.tripXtal = ((n.xtalFailed.pllToCoast.tripMoves.clockRecord 1).coastChange n.clkCoast).masksNow := by
  unfold tripXtal
  rw [if_neg (by simp [hx]), h]
  rfl

theorem trippedTo_of_nominal {c : DomClk} {stops : Bool} (hr : c.ramp = none) : if stops then
    (trippedTo stops c).st = .slack ∧ (trippedTo stops c).clamp = true else trippedTo stops c = { c with ratio := 4, sw := some .rc } := by
  cases stops
  · rw [if_neg (by decide), trippedTo, if_neg (by decide), ← hr]
  · exact ⟨rfl, rfl⟩

theorem xtalPllTrip_nominal (pll : Bool) (hx : n.clk.xtal = .ready) (hp : n.clk.pll = .nominal) (hr : n.clk.rc = .ready)
    (hm : n.clk.maskDue = false) (hd : ∀ d, onPll (n.dom d) = true) :
    let m := if pll then n.tripPll else n.tripXtal
    (m.clk.xtal = (if pll then .ready else .failed) ∧
      m.clk.xtalFails = (if pll then n.clk.xtalFails else satInc 0xFF n.clk.xtalFails) ∧
      m.clk.pll = .locking ∧ m.clk.lockCoast = true ∧ m.clk.latched = n.clk.latched) ∧
      ∀ d, m.dom d = trippedTo (n.breakwater d) (n.dom d) := by
  cases pll
  · dsimp only
    rw [if_neg (by decide), tripXtal_of_nominal hx hp]
    have hx (d : Domain) : n.xtalFailed.dom d = n.dom d := by cases d <;> rfl
    obtain ⟨⟨a, b, c, hc⟩, hdom⟩ := n.xtalFailed.pllTripped hr hm (fun d => by rw [hx]; exact hd d) n.clkCoast
    rw [hc]
    exact ⟨⟨rfl, rfl, rfl, rfl, rfl⟩, fun d => (hdom d).trans (by rw [hx]; rfl)⟩
  · dsimp only
    rw [if_pos rfl, tripPll_of_nominal hp]
    obtain ⟨⟨a, b, c, hc⟩, hdom⟩ := n.pllTripped hr hm hd n.clkCoast
    rw [hc]
    exact ⟨⟨hx, rfl, rfl, rfl, rfl⟩, hdom⟩

theorem rcMoves_of_idle {d : Domain} (hs : (n.dom d).sw = none) (hr : (n.dom d).ramp = none) : n.rcMoves d = n := by
  have hself : { n.dom d with sw := none } = n.dom d := by rw [← hs]
  unfold rcMoves
  rw [if_neg (by simp [hs, hr])]
  exact (congrArg (n.setDom d) hself).trans (n.setDom_self d)

/-- A trip of RC that no domain needs restarts its count and nothing else. -/
theorem tripRc_of_unused (hr : n.clk.rc = .ready) (hp : n.clk.pll ≠ .coast) (hm : n.clk.maskDue = false)
    (hd : ∀ d, (n.dom d).st ∉ [DomSt.bridge, .coast, .slackCoast] ∧ (n.dom d).sw = none ∧ (n.dom d).ramp = none) :
    n.tripRc = (n.mClk fun c => { c with rc := .counting, rcRestarted := true, ret := 0, due := false }).clockRecord 1 := by
  have hst (d : Domain) : (n.dom d).st ≠ .bridge ∧ (n.dom d).st ≠ .coast ∧ (n.dom d).st ≠ .slackCoast := by
    simpa [not_or] using (hd d).1
  have hrc : n.anyDom (fun c => c.onRc (n.clk.pll == .nominal)) = false := (anyDom_eq_false _).2 fun d => by
    obtain ⟨hb, hc, -⟩ := hst d
    unfold DomClk.onRc
    split <;> simp_all
  have hcoast : n.clkCoast = false := by
    have h (d : Domain) : (n.dom d).coasts = false := by
      obtain ⟨hb, hc, hs⟩ := hst d
      obtain ⟨-, hw, -⟩ := hd d
      unfold DomClk.coasts
      split <;> simp_all
    unfold clkCoast
    rw [show n.clk.core.coasts = false from h .core, show n.clk.field.coasts = false from h .field, show n.clk.solv.coasts = false from h .solv]
    rfl
  have hk : (n.mClk fun c => { c with
      rc := .counting
      rcRestarted := true
      ret := 0
      due := false
      lockCoast := c.lockCoast || c.pll == .coast
      pll := if c.pll = .coast then .locking else c.pll }) =
      n.mClk fun c => { c with rc := .counting, rcRestarted := true, ret := 0, due := false } := by
    have hp' : (n.clk.pll == .coast) = false := by simpa using hp
    simp [mClk, hp, hp']
  unfold tripRc
  rw [hr]
  dsimp only
  rw [if_neg (by simp [hrc]), hk]
  generalize hk : (n.mClk fun c => { c with rc := .counting, rcRestarted := true, ret := 0, due := false }) = k
  have hkd (d : Domain) : k.dom d = n.dom d := by
    rw [← hk]
    cases d <;> rfl
  have hkm : k.clk.maskDue = false := by
    rw [← hk]
    exact hm
  have hkc : k.clkCoast = false := by
    rw [← hk]
    exact hcoast
  have hmoves : k.eachDom rcMoves = k := by
    refine eachDom_inv (P := fun m => m = k) rfl fun m d he => ?_
    subst he
    obtain ⟨-, hw, hramp⟩ := hd d
    exact rcMoves_of_idle (by rw [hkd, hw]) (by rw [hkd, hramp])
  have hslack : k.anyDom (fun c => c.st == .slackCoast) = false := (anyDom_eq_false _).2 fun d => by simp [hkd, hst d]
  have hrec : (k.clockRecord 1).clk = k.clk := (Within.clockRecord .rfl : Within [.jrnl, .tide, .pair] k _).part .clk
  rw [hmoves, if_neg (by simp [hslack]), coastChange_of_none, masksNow_of_none (by rw [hrec, hkm])]
  rw [hcoast, ← hkc]
  unfold clkCoast
  rw [hrec]

theorem clockFailed_latched (cause : Nat) (was : Bool) : let m := (n.latch cause).coastChange was
    m.clk.rc = n.clk.rc ∧ m.clk.pll = n.clk.pll ∧ m.clk.latched = true ∧ m.clk.latchCause = setBit n.clk.latchCause cause ∧
      ∀ d, (m.dom d).st = .latched ∧ (m.dom d).clamp = true := by
  have hw : Within [.sys, .jrnl, .tide, .pair] (n.latch cause) ((n.latch cause).coastChange was) := .coastChange .rfl
  have hc : ((n.latch cause).coastChange was).clk = (n.latch cause).clk := hw.part .clk
  obtain ⟨a, b, c, hl⟩ := n.latch_clk cause
  dsimp only
  refine ⟨?_, ?_, ?_, ?_, fun d => ?_⟩
  · rw [hc, hl]
    rfl
  · rw [hc, hl]
    rfl
  · rw [hc, hl]
    rfl
  · rw [hc, hl]
    rfl
  · rw [dom_of_clk hc]
    exact latch_dom cause d

theorem tripRc_of_used {d : Domain} (hr : n.clk.rc = .ready) (hd : (n.dom d).onRc (n.clk.pll == .nominal) = true) :
    n.tripRc = ((((n.mClk fun c => { c with rc := .failed }).clockRecord 1).latch 1)).coastChange n.clkCoast := by
  unfold tripRc
  rw [hr]
  dsimp only
  rw [if_pos (anyDom_eq_true d hd)]

theorem lockFails_of_unused (hp : n.clk.pll = .locking) (hl : n.clk.lockCoast = true)
    (hd : ∀ d, (n.dom d).st ≠ .bridge ∧ (n.dom d).sw ≠ some .rc) :
    n.lockFails = (n.mClk fun c => { c with pll := .failed }).clockRecord 1 := by
  have hw : ((n.mClk fun c => { c with pll := .failed }).clockRecord 1).clk = (n.mClk fun c => { c with pll := .failed }).clk :=
    (Within.clockRecord .rfl : Within [.jrnl, .tide, .pair] _ _).part .clk
  have ha : ((n.mClk fun c => { c with pll := .failed }).clockRecord 1).anyDom (fun c => c.st == .bridge || c.sw == some .rc) = false := by
    refine (anyDom_eq_false _).2 fun d => ?_
    have hx : (n.mClk fun c => { c with pll := .failed }).dom d = n.dom d := by cases d <;> rfl
    rw [dom_of_clk hw, hx]
    simp [hd d]
  unfold lockFails
  rw [if_neg (by simp [hp]), if_pos hl]
  dsimp only
  rw [ha]
  rfl

theorem lockFails_of_bridge {d : Domain} (hp : n.clk.pll = .locking) (hl : n.clk.lockCoast = true) (hd : (n.dom d).st = .bridge) :
    ∃ was, n.lockFails = (((n.mClk fun c => { c with pll := .failed }).clockRecord 1).latch 2).coastChange was := by
  have hw : ((n.mClk fun c => { c with pll := .failed }).clockRecord 1).clk = (n.mClk fun c => { c with pll := .failed }).clk :=
    (Within.clockRecord .rfl : Within [.jrnl, .tide, .pair] _ _).part .clk
  have ha : ((n.mClk fun c => { c with pll := .failed }).clockRecord 1).anyDom (fun c => c.st == .bridge || c.sw == some .rc) = true := by
    refine anyDom_eq_true d ?_
    have hx : (n.mClk fun c => { c with pll := .failed }).dom d = n.dom d := by cases d <;> rfl
    rw [dom_of_clk hw, hx]
    simp [hd]
  refine ⟨((n.mClk fun c => { c with pll := .failed }).clockRecord 1).clkCoast, ?_⟩
  unfold lockFails
  rw [if_neg (by simp [hp]), if_pos hl]
  dsimp only
  rw [if_pos ha]

theorem lockFails_of_crystal (hp : n.clk.pll = .locking) (hl : n.clk.lockCoast = false) (hr : n.clk.rc ≠ .failed) (h0 : n.clk.ret = 0)
    (hm : n.clk.maskDue = false) : n.lockFails = (n.mClk fun c => { c with due := false, lockCoast := true }).clockRecord 1 := by
  have hk : (n.mClk fun c => { c with ret := 0, due := false }).pllToCoast = n.mClk fun c => { c with due := false, lockCoast := true } := by
    unfold pllToCoast mClk
    dsimp only
    rw [if_neg hr, ← h0, ← hp]
  have hrec {k : Node} : (k.clockRecord 1).clk = k.clk := (Within.clockRecord .rfl : Within [.jrnl, .tide, .pair] k _).part .clk
  unfold lockFails
  rw [if_neg (by simp [hp]), if_neg (by simp [hl])]
  dsimp only
  rw [if_neg (by simp [h0]), hk, masksNow_of_none]
  rw [hrec]
  exact hm

/-- The LSE's failure makes the time untrusted (05 R184). -/
theorem settleTrust_trust : n.settleTrust.rtc.trust = n.trustOf ∧ n.settleTrust.rtc.osf = n.rtc.osf := by
  unfold settleTrust
  dsimp only
  split
  next h => exact ⟨h.symm, rfl⟩
  next =>
    rw [(Within.later .rfl : Within [.jrnl, .tide, .pair] _ _).part .rtc]
    exact ⟨rfl, rfl⟩

theorem tripLse_of_ready (h : n.clk.lse = .ready) : n.tripLse.clk = { n.clk with lse := .failed } ∧ n.tripLse.rtc.osf = true ∧
    n.tripLse.rtc.trust = 0 ∧ Keeps [.clk, .rtc, .jrnl, .tide, .pair, .free] n n.tripLse := by
  unfold tripLse
  rw [if_neg (by simp [h])]
  dsimp only
  generalize hk : ite (n.aonAlone = true) n.rtcElapses n.rtcHold = k
  have hkw : Within [.rtc, .free] n k := by
    rw [← hk]
    exact .ite (.rtcElapses .rfl) (.rtcHold .rfl)
  generalize hm : (k.mClk fun c => { c with lse := .failed }).mRtc _ = m
  have hmw : Within [.clk, .rtc, .free] n m := by
    rw [← hm]
    exact .mRtc (.mClk (hkw.after .rfl (by decide)))
  have hmc : m.clk = { n.clk with lse := .failed } := by
    rw [← hm, ← hkw.part .clk]
    rfl
  have hmo : m.rtc.osf = true := by
    rw [← hm]
    rfl
  have hrec : (m.clockRecord 1).rtc = m.rtc := (Within.clockRecord .rfl : Within [.jrnl, .tide, .pair] m _).part .rtc
  obtain ⟨ht, ho⟩ := (m.clockRecord 1).settleTrust_trust
  refine ⟨?_, ?_, ?_, ?_⟩
  · rw [(Within.settleTrust (.clockRecord .rfl) : Within [.rtc, .jrnl, .tide, .pair] m _).part .clk, hmc]
  · rw [ho, hrec, hmo]
  · rw [ht, trustOf, hrec, hmo, if_pos rfl]
  · exact ((Within.settleTrust (.clockRecord .rfl) : Within [.rtc, .jrnl, .tide, .pair] m _).after (hmw.after .rfl (by decide)) (by decide) :
      Within [.clk, .rtc, .jrnl, .tide, .pair, .free] n _).keeps

end Sys2Proof.Machine.Node

open Sys2Proof Sys2Proof.Machine Sys2Proof.Machine.Node

/-- Settles O21: a trip is a pass over the domains by their policy, and a failed lock latches where a domain needs it. -/
theorem clockFailures : Obligations.ClockFailures := by
  unfold Obligations.ClockFailures
  refine ⟨?_, ?_⟩
  · rintro ⟨n, q⟩ pll
    dsimp only
    intro hx hp hr hm hd
    have hon (d : Domain) : onPll (n.dom d) = true := by
      obtain ⟨h, hw, -⟩ := hd d
      simp [onPll, h, hw]
    obtain ⟨⟨h1, h2, h3, h4, h5⟩, hdom⟩ := xtalPllTrip_nominal pll hx hp hr hm hon
    refine .of_run (fun n => if pll then n.tripPll else n.tripXtal) rfl ⟨?_, h2, h3, h4, h5, fun d => ?_⟩
    · exact h1
    · rw [hdom]
      exact trippedTo_of_nominal (hd d).2.2
  · rintro ⟨n, q⟩
    dsimp only
    have hrec {k : Node} : (k.clockRecord 1).clk = k.clk := (Within.clockRecord .rfl : Within [.jrnl, .tide, .pair] k _).part .clk
    refine ⟨fun hr hp hm hd => .of_run Node.tripRc rfl ?_, fun hr ⟨d, hd⟩ => .of_run Node.tripRc rfl ?_, fun h => .of_run Node.tripLse rfl ?_,
      fun hp hl hd => .of_run Node.lockFails rfl ?_, fun hp hl ⟨d, hd⟩ => .of_run Node.lockFails rfl ?_,
      fun hp hl hr h0 hm => .of_run Node.lockFails rfl ?_⟩
    · rw [tripRc_of_unused hr hp hm hd]
      rfl
    · rw [tripRc_of_used hr hd]
      obtain ⟨h1, -, h3, h4, h5⟩ := clockFailed_latched (n := (n.mClk fun c => { c with rc := .failed }).clockRecord 1) 1 n.clkCoast
      rw [hrec] at h1 h4
      exact ⟨h1, h3, h4, h5⟩
    · exact tripLse_of_ready h
    · rw [lockFails_of_unused hp hl hd]
      rfl
    · obtain ⟨was, h⟩ := lockFails_of_bridge hp hl hd
      rw [h]
      obtain ⟨-, h2, h3, h4, h5⟩ := clockFailed_latched (n := (n.mClk fun c => { c with pll := .failed }).clockRecord 1) 2 was
      rw [hrec] at h2 h4
      exact ⟨h2, h3, h4, fun d => (h5 d).1⟩
    · rw [lockFails_of_crystal hp hl hr h0 hm]
      rfl

end

section
/-! Switches and ramps of a domain (04 Table 4.8). -/

namespace Sys2Proof.Machine.Node

variable {n : Node} {d : Domain}

/-- FORCED and its event, once set, stay (04 R141). -/
def ForcedStays (n m : Node) : Prop :=
  (n.clk.forced = true → m.clk.forced = true) ∧ (bit n.sys.irq 7 = true → bit m.sys.irq 7 = true)

namespace ForcedStays

theorem rfl : ForcedStays n n := ⟨id, id⟩

theorem trans {m k : Node} (h : ForcedStays n m) (g : ForcedStays m k) : ForcedStays n k := ⟨g.1 ∘ h.1, g.2 ∘ h.2⟩

theorem frame {m : Node} (h : Within (Part.allBut [.clk, .sys]) n m) : ForcedStays n m := by
  rw [ForcedStays, h.part .clk, h.part .sys]
  exact rfl

/-- A function that leaves both parts alone, after. -/
theorem after {m k : Node} (h : ForcedStays n m) (g : Within (Part.allBut [.clk, .sys]) m k) : ForcedStays n k := h.trans (frame g)

theorem ite {c : Prop} [Decidable c] {a b : Node} (ha : ForcedStays n a) (hb : ForcedStays n b) : ForcedStays n (if c then a else b) := by
  split
  · exact ha
  · exact hb

theorem mClk {m : Node} {f : Clk → Clk} (h : ForcedStays n m) (hf : (f m.clk).forced = m.clk.forced) : ForcedStays n (m.mClk f) :=
  h.trans ⟨fun hm => hf.trans hm, id⟩

theorem setDom {m : Node} {v : DomClk} (h : ForcedStays n m) : ForcedStays n (m.setDom d v) := by
  cases d <;> exact mClk h (Eq.refl _)

theorem irqEvent {m : Node} {i : Nat} (h : ForcedStays n m) : ForcedStays n (m.irqEvent i) := by
  refine h.trans ⟨id, fun hb => ?_⟩
  change bit (setBit m.sys.irq i) 7 = true
  by_cases hi : i = 7
  · subst hi
    exact bit_setBit_same _ (by decide)
  · rw [bit_setBit_other _ hi]
    exact hb

theorem eachDom {m : Node} {f : Node → Domain → Node} (h : ForcedStays n m) (hf : ∀ k d, ForcedStays k (f k d)) : ForcedStays n (m.eachDom f) :=
  h.trans (eachDom_rel trans hf)

theorem mSys {m : Node} {f : Sys → Sys} (h : ForcedStays n m) (hf : (f m.sys).irq = m.sys.irq) : ForcedStays n (m.mSys f) :=
  h.trans ⟨id, fun hb => by
    change bit (f m.sys).irq 7 = true
    rw [hf]
    exact hb⟩

theorem coreClamped {m : Node} (h : ForcedStays n m) : ForcedStays n m.coreClamped := by
  unfold Node.coreClamped
  dsimp only
  generalize hk : Node.mSys _ _ = k
  have hm : ForcedStays n k := by
    rw [← hk]
    exact mSys (after h (.selectModes .rfl)) (Eq.refl _)
  exact after (ite (after hm (.leaveRing .rfl)) hm) (.ethDown .rfl)

theorem coastChange {m : Node} {was : Bool} (h : ForcedStays n m) : ForcedStays n (m.coastChange was) := by
  refine h.trans ?_
  unfold Node.coastChange
  exact ite (after (ite rfl (irqEvent rfl)) (.clockRecord .rfl)) (ite rfl (irqEvent rfl))

theorem solvDrained {m : Node} (h : ForcedStays n m) : ForcedStays n m.solvDrained := by
  refine h.trans ?_
  unfold Node.solvDrained
  exact ite (ite (setDom (after rfl (.mPwr .rfl))) (mClk (after rfl (.mPwr .rfl)) (Eq.refl _))) rfl

theorem engine {m : Node} (h : ForcedStays n m) : ForcedStays n m.engine := solvDrained (after h (.startNext .rfl))

theorem gates : Gates ForcedStays where
  refl _ := rfl
  trans := trans
  setDom _ _ _ := setDom rfl
  mask n f hf := by
    obtain ⟨_, _, h⟩ := hf n.clk
    exact mClk rfl ((congrArg Clk.forced h :))
  coreClamped _ := coreClamped rfl
  fieldStops _ := after rfl (.fieldStops .rfl)
  stopEngine _ := after rfl (.stopEngine .rfl)
  syncCauses _ := after rfl (.syncCauses .rfl)
  engine _ := engine rfl
  coastChange _ _ := coastChange rfl

theorem enterSlack {m : Node} {st : DomSt} (h : ForcedStays n m) : ForcedStays n (m.enterSlack d st) := h.trans (gates.enterSlack _ _ _)

theorem masksNow {m : Node} (h : ForcedStays n m) : ForcedStays n m.masksNow :=
  h.trans (ite (ite (mClk rfl (Eq.refl _)) (gates.applyDomains _)) rfl)

theorem clockRecord {m : Node} {k : Nat} (h : ForcedStays n m) : ForcedStays n (m.clockRecord k) := after h (.clockRecord .rfl)

theorem returnEnds {m : Node} (h : ForcedStays n m) : ForcedStays n m.returnEnds :=
  h.trans (ite (masksNow (clockRecord (mClk rfl (Eq.refl _)))) rfl)

theorem returnSwitch {m : Node} (h : ForcedStays n m) : ForcedStays n m.returnSwitch := by
  refine h.trans (returnEnds (eachDom (mClk rfl (Eq.refl _)) fun k d => ?_))
  dsimp only
  split
  · exact setDom rfl
  · exact setDom rfl
  · exact setDom rfl
  · exact rfl

theorem returnAdvance {m : Node} (h : ForcedStays n m) : ForcedStays n m.returnAdvance := by
  refine h.trans ?_
  unfold Node.returnAdvance
  dsimp only
  generalize hk : (if m.clk.ret = 1 && !m.anyDom (·.ramp.isSome) then m.mClk fun c => { c with ret := 2 } else m) = k
  have hm : ForcedStays m k := by
    rw [← hk]
    exact ite (mClk rfl (Eq.refl _)) rfl
  exact ite (ite (returnSwitch hm) (mClk hm (Eq.refl _))) hm

theorem leftSlack {m : Node} (h : ForcedStays n m) : ForcedStays n (m.leftSlack d) := by
  refine h.trans ?_
  cases d
  · exact mClk (setDom rfl) (Eq.refl _)
  · exact after (setDom rfl) (.syncCauses .rfl)
  · exact engine (setDom rfl)

theorem switched {m : Node} (h : ForcedStays n m) : ForcedStays n (m.switched d) := by
  refine h.trans ?_
  unfold Node.switched
  dsimp only
  split
  · exact rfl
  · exact returnAdvance (setDom rfl)
  · exact setDom rfl
  · exact ite (leftSlack (setDom rfl)) (setDom rfl)

theorem pllToCoast {m : Node} (h : ForcedStays n m) : ForcedStays n m.pllToCoast := by
  refine mClk h ?_
  split
  · exact Eq.refl _
  · exact Eq.refl _

theorem latch {m : Node} {cause : Nat} (h : ForcedStays n m) : ForcedStays n (m.latch cause) :=
  clockRecord (eachDom (mClk h (Eq.refl _)) fun _ _ => enterSlack rfl)

theorem emergency {m : Node} (h : ForcedStays n m) : ForcedStays n (m.emergency d) := by
  refine h.trans (ite (enterSlack rfl) (ite ?_ (enterSlack rfl)))
  cases d
  · exact after (setDom rfl) (.ethDown .rfl)
  · exact after (setDom rfl) (.fieldStops .rfl)
  · exact setDom rfl

theorem tripDomain {m : Node} (h : ForcedStays n m) : ForcedStays n (m.tripDomain d) :=
  h.trans (ite (emergency rfl) (ite rfl (setDom rfl)))

theorem rcMoves {m : Node} (h : ForcedStays n m) : ForcedStays n (m.rcMoves d) := h.trans (ite (emergency rfl) (setDom rfl))

theorem tripMoves {m : Node} (h : ForcedStays n m) : ForcedStays n m.tripMoves :=
  h.trans (ite (latch (mClk rfl (Eq.refl _))) (eachDom (mClk rfl (Eq.refl _)) fun _ _ => tripDomain rfl))

theorem lockFails {m : Node} (h : ForcedStays n m) : ForcedStays n m.lockFails := by
  refine h.trans (ite rfl (ite (ite (coastChange (latch (clockRecord (mClk rfl (Eq.refl _))))) (clockRecord (mClk rfl (Eq.refl _)))) ?_))
  exact masksNow (clockRecord (ite (mClk (pllToCoast (mClk rfl (Eq.refl _))) (Eq.refl _)) (pllToCoast (mClk rfl (Eq.refl _)))))

theorem tripPll {m : Node} (h : ForcedStays n m) : ForcedStays n m.tripPll := by
  refine h.trans ?_
  unfold Node.tripPll
  split
  · exact rfl
  · exact rfl
  · exact lockFails (mClk rfl (Eq.refl _))
  · exact masksNow (coastChange (clockRecord (tripMoves (pllToCoast rfl))))
  · exact masksNow (coastChange (clockRecord (tripMoves (pllToCoast rfl))))

theorem rcCountFails {m : Node} (h : ForcedStays n m) : ForcedStays n m.rcCountFails :=
  h.trans (ite (coastChange (latch (clockRecord (mClk rfl (Eq.refl _))))) (clockRecord (mClk rfl (Eq.refl _))))

theorem tripRc {m : Node} (h : ForcedStays n m) : ForcedStays n m.tripRc := by
  refine h.trans ?_
  unfold Node.tripRc
  split
  · exact rfl
  · exact rfl
  · exact rcCountFails rfl
  · refine ite (coastChange (latch (clockRecord (mClk rfl (Eq.refl _))))) ?_
    dsimp only
    generalize hk : Node.eachDom _ Node.rcMoves = k
    have hm : ForcedStays m k := by
      rw [← hk]
      exact eachDom (mClk rfl (Eq.refl _)) fun _ _ => rcMoves rfl
    exact masksNow (coastChange (clockRecord (ite (pllToCoast hm) hm)))

end ForcedStays

/-- A forced switch sets FORCED and its event, and nothing it leads to clears them. -/
theorem forced_flags {tgt : SwTo} (h : (n.dom d).sw = some tgt) :
    (n.forced d).clk.forced = true ∧ bit (n.forced d).sys.irq 7 = true := by
  have hs : ForcedStays ((n.mClk fun c => { c with forced := true }).irqEvent 7) (n.forced d) := by
    unfold forced
    rw [h]
    cases tgt
    · exact .ite (.masksNow (.clockRecord (.switched (.mClk (.clockRecord .rfl) rfl)))) (.tripPll (.switched (.mClk (.clockRecord .rfl) rfl)))
    · exact .tripRc (.switched (.clockRecord .rfl))
    · exact .tripRc (.switched (.clockRecord .rfl))
  exact ⟨hs.1 rfl, hs.2 (bit_setBit_same _ (by decide))⟩

theorem returnAdvance_of_none (h : n.clk.ret = 0) : n.returnAdvance = n := by simp [returnAdvance, h]

theorem returnEnds_of_none (h : n.clk.ret = 0) : n.returnEnds = n := if_neg (by simp [h])

theorem ret_setDom (v : DomClk) : (n.setDom d v).clk.ret = n.clk.ret := by cases d <;> rfl

theorem switched_of_none (h : (n.dom d).sw = none) : n.switched d = n := by simp only [switched, h]

theorem switched_of_coast (h : (n.dom d).sw = some .coast) :
    n.switched d = n.setDom d { n.dom d with ratio := 3, ramp := some true, sw := none } := by simp only [switched, h]

theorem switched_of_nominal (h : (n.dom d).sw = some .nominal) (hs : (n.dom d).st ∉ [DomSt.slack, .slackCoast]) :
    n.switched d = n.setDom d { n.dom d with ratio := 3, ramp := some true, sw := none } := by
  have hn : ¬ ((n.dom d).st = .slack ∨ (n.dom d).st = .slackCoast) := by simpa [not_or] using hs
  simp only [switched, h, hn, if_false]

theorem switched_of_rc (h : (n.dom d).sw = some .rc) (h0 : n.clk.ret = 0) : n.switched d = n.setDom d { n.dom d with
    st := .bridge
    ratio := 4
    ramp := none
    sw := if n.clk.pll = .coast then some .coast else none } := by
  simp only [switched, h, h0, beq_self_eq_true, Bool.true_and, beq_iff_eq]
  exact returnAdvance_of_none ((ret_setDom _).trans h0)

theorem rampNext_of_none (h : (n.dom d).ramp = none) : n.rampNext d = n := by simp only [rampNext, h]

theorem rampNext_of_ebb (h : (n.dom d).ramp = some false) (hr : (n.dom d).ratio < 4) :
    n.rampNext d = n.setDom d { n.dom d with ratio := (n.dom d).ratio + 1 } := by simp only [rampNext, h, hr, if_true]

theorem rampNext_of_ebbed (h : (n.dom d).ramp = some false) (hr : 4 ≤ (n.dom d).ratio) (h0 : n.clk.ret = 0) :
    n.rampNext d = n.setDom d { n.dom d with ramp := none, sw := some .rc } := by
  simp only [rampNext, h, Nat.not_lt.2 hr, if_false]
  exact returnAdvance_of_none ((ret_setDom _).trans h0)

theorem rampNext_of_flood (h : (n.dom d).ramp = some true) (hr : 0 < (n.dom d).ratio) :
    n.rampNext d = n.setDom d { n.dom d with ratio := (n.dom d).ratio - 1 } := by simp only [rampNext, h, hr, if_true]

/-- The domain that a ramp up ends with. -/
def flooded (n : Node) (d : Domain) : Node :=
  n.setDom d { n.dom d with ramp := none, st := if n.clk.pll = .nominal then .nominal else .coast }

/-- What the end of a ramp releases. -/
def floodEnds (n : Node) : Domain → Node
  | .core => n.idleEnds
  | .field => n.syncCauses
  | .solv => n

theorem floodEnds_within : Within [.lane, .tide, .ext] n (n.floodEnds d) := by
  cases d
  · exact .idleEnds .rfl
  · exact .syncCauses .rfl
  · exact .rfl

theorem rampNext_of_flooded (h : (n.dom d).ramp = some true) (hr : (n.dom d).ratio = 0) :
    n.rampNext d = ((n.flooded d).floodEnds d).returnEnds := by
  have hz : ¬ 0 < (n.dom d).ratio := by omega
  simp only [rampNext, h, hz, if_false]
  cases d
  · rfl
  · rfl
  · rfl

theorem frameResumes_of_none (h : n.sys.wait = none) : n.frameResumes = n := by simp only [frameResumes, h]

theorem sys_setDom (v : DomClk) : (n.setDom d v).sys = n.sys := by cases d <;> rfl

/-! A frame that waits for CORE is not dropped where CORE's ramp ends. -/

theorem domClamped_sys (h : d ≠ .core) : (n.domClamped d).sys = n.sys := by
  cases d
  · exact absurd rfl h
  · exact (Within.fieldStops .rfl : Within [.afe, .lane] n _).part .sys
  · exact (Within.stopEngine .rfl : Within [.solv] n _).part .sys

theorem enterSlack_sys (st : DomSt) (h : d ≠ .core) : (n.enterSlack d st).sys = n.sys :=
  (domClamped_sys h).trans (sys_setDom _)

theorem engine_core : n.engine.dom .core = n.dom .core := by
  have hw : Within [.solv, .jrnl, .tide, .pair, .free] n (startNext 17 n) := .startNext .rfl
  refine Eq.trans ?_ (dom_of_clk (hw.part .clk) .core)
  unfold engine solvDrained
  split
  · dsimp only
    split
    · rfl
    · rfl
  · rfl

theorem domStarts_of_other (h : d ≠ .core) : (n.domStarts d).sys = n.sys ∧ (n.domStarts d).dom .core = n.dom .core := by
  have hset (v : DomClk) : (n.setDom d v).sys = n.sys ∧ (n.setDom d v).dom .core = n.dom .core :=
    ⟨sys_setDom _, dom_setDom_other _ h.symm⟩
  have hslack (st : DomSt) : (n.enterSlack d st).sys = n.sys ∧ (n.enterSlack d st).dom .core = n.dom .core :=
    ⟨enterSlack_sys _ h, enterSlack_dom_other _ h.symm⟩
  unfold domStarts
  dsimp only
  split
  · exact hset _
  · split
    · exact hslack _
    · split
      · exact hslack _
      · split
        · exact hset _
        · exact hset _

/-- SYS, and CORE as it stands or off: what gating leaves where CORE is on. -/
def CoreStands (n m : Node) : Prop := m.sys.wait = n.sys.wait ∧ (m.dom .core = n.dom .core ∨ m.dom .core = {})

theorem CoreStands.trans {m k : Node} (h : CoreStands n m) (hs : k.sys.wait = m.sys.wait) (hd : k.dom .core = m.dom .core) :
    CoreStands n k := ⟨hs.trans h.1, by rw [hd]; exact h.2⟩

theorem applyDomain_core_of_on (h : (n.dom .core).st ≠ .off) : CoreStands n (n.applyDomain .core) := by
  unfold applyDomain
  split
  · exact ⟨rfl, .inl rfl⟩
  · split
    · exact ⟨rfl, .inl rfl⟩
    · exact ⟨rfl, .inr rfl⟩

theorem applyDomain_of_other (h : d ≠ .core) : (n.applyDomain d).sys = n.sys ∧ (n.applyDomain d).dom .core = n.dom .core := by
  have hset {k : Node} (v : DomClk) (hs : k.sys = n.sys) (hd : k.dom .core = n.dom .core) :
      (k.setDom d v).sys = n.sys ∧ (k.setDom d v).dom .core = n.dom .core :=
    ⟨(sys_setDom _).trans hs, (dom_setDom_other _ h.symm).trans hd⟩
  obtain ⟨hs, hd⟩ := n.domStarts_of_other h
  unfold applyDomain
  split
  · exact ⟨rfl, rfl⟩
  · split
    · split
      · cases d
        · exact absurd rfl h
        · have hw : Within [.lane] (n.domStarts .field) (n.domStarts .field).syncCauses := .syncCauses .rfl
          exact ⟨Eq.trans (hw.part .sys :) hs, (dom_of_clk (hw.part .clk) _).trans hd⟩
        · have hw : Within (Part.allBut [.sys]) (n.domStarts .solv) (n.domStarts .solv).engine := .engine .rfl
          refine ⟨Eq.trans (hw.part .sys :) hs, Eq.trans ?_ hd⟩
          exact engine_core
      · exact ⟨rfl, rfl⟩
    · split
      · split
        · exact hset _ rfl rfl
        · exact ⟨rfl, rfl⟩
      · cases d
        · exact absurd rfl h
        · have hw : Within [.afe, .lane] n n.fieldStops := .fieldStops .rfl
          exact hset _ (hw.part .sys) (dom_of_clk (hw.part .clk) _)
        · have hw : Within [.solv] n n.stopEngine := .stopEngine .rfl
          exact hset _ (hw.part .sys) (dom_of_clk (hw.part .clk) _)

theorem coastChange_wait (was : Bool) : (n.coastChange was).sys.wait = n.sys.wait := by
  unfold coastChange
  dsimp only
  generalize hk : (if n.clkCoast == was then n else n.irqEvent 7) = k
  have hs : k.sys.wait = n.sys.wait := by
    rw [← hk]
    split
    · rfl
    · rfl
  rw [(Within.iteThen .rfl (.clockRecord .rfl) : Within [.jrnl, .tide, .pair] k _).part .sys, hs]

theorem applyDomains_of_on (h : (n.dom .core).st ≠ .off) : CoreStands n n.applyDomains := by
  unfold applyDomains
  split
  · exact ⟨rfl, .inl rfl⟩
  · have hc := applyDomain_core_of_on (n := n.mClk fun c => { c with maskDue := false, heldMode := none }) h
    obtain ⟨hfs, hfd⟩ := applyDomain_of_other (n := (n.mClk fun c => { c with maskDue := false, heldMode := none }).applyDomain .core)
      (d := .field) (by simp)
    obtain ⟨hss, hsd⟩ := applyDomain_of_other
      (n := ((n.mClk fun c => { c with maskDue := false, heldMode := none }).applyDomain .core).applyDomain .field) (d := .solv) (by simp)
    have hp : CoreStands n ((n.mClk fun c => { c with maskDue := false, heldMode := none }).eachDom applyDomain) :=
      ((show CoreStands n _ from hc).trans (congrArg Sys.wait hfs) hfd).trans (congrArg Sys.wait hss) hsd
    dsimp only
    exact hp.trans (coastChange_wait _) (dom_of_clk ((Within.coastChange .rfl : Within [.sys, .jrnl, .tide, .pair] _ _).part .clk) _)

theorem masksNow_of_on (h : (n.dom .core).st ≠ .off) : CoreStands n n.masksNow := by
  unfold masksNow
  split
  · split
    · exact ⟨rfl, .inl rfl⟩
    · exact applyDomains_of_on h
  · exact ⟨rfl, .inl rfl⟩

theorem returnEnds_of_on (h : (n.dom .core).st ≠ .off) : CoreStands n n.returnEnds := by
  unfold returnEnds
  split
  · have hw : Within [.jrnl, .tide, .pair] (n.mClk fun c => { c with ret := 0 }) ((n.mClk fun c => { c with ret := 0 }).clockRecord 5) :=
      .clockRecord .rfl
    have hd : ((n.mClk fun c => { c with ret := 0 }).clockRecord 5).dom .core = n.dom .core := dom_of_clk (hw.part .clk) .core
    have hs : ((n.mClk fun c => { c with ret := 0 }).clockRecord 5).sys = n.sys := hw.part .sys
    have hm := masksNow_of_on (n := (n.mClk fun c => { c with ret := 0 }).clockRecord 5) (by rw [hd]; exact h)
    rw [CoreStands, hd, hs] at hm
    exact hm
  · exact ⟨rfl, .inl rfl⟩

theorem bridges_of_core (h : (n.dom .core).st ≠ .bridge) (hs : (n.dom .core).sw = none) : n.bridges = false := by
  have hst : n.clk.core.st ≠ .bridge := h
  have hsw : n.clk.core.sw = none := hs
  simp [bridges, hst, hsw]

/-- A frame that waited is executed: no frame waits and a response is ready. -/
theorem frameResumes_of_wait {f : HostFrame} (h : n.sys.wait = some f) (hb : n.bridges = false) :
    n.frameResumes.sys.wait = none ∧ n.frameResumes.sys.resp.isSome = true := by
  simp only [frameResumes, h, hb]
  exact ⟨rfl, rfl⟩

end Sys2Proof.Machine.Node

open Sys2Proof Sys2Proof.Machine Sys2Proof.Machine.Node

/-- Settles O22: each switch and step by its branch, and a frame that waits for CORE by the end of its ramp. -/
theorem switchesAndRamps : Obligations.SwitchesAndRamps := by
  unfold Obligations.SwitchesAndRamps
  rintro ⟨n, q⟩ d
  dsimp only
  have hstep {m : Node} (hw : n.sys.wait = none) (h : n.rampNext d = m) (hs : m.sys = n.sys) : (n.rampNext d).frameResumes = m := by
    rw [h, frameResumes_of_none (by rw [hs, hw])]
  refine ⟨fun h => ⟨.of_run (fun n => n.switched d) rfl (switched_of_none h), .of_run (fun n => n.forced d) rfl ?_⟩,
    fun hw h => .of_run (fun n => (n.rampNext d).frameResumes) rfl (hstep hw (rampNext_of_none h) rfl),
    fun tgt h => .of_run (fun n => n.forced d) rfl (forced_flags h),
    fun h => .of_run (fun n => n.switched d) rfl (switched_of_coast h),
    fun h hs => .of_run (fun n => n.switched d) rfl (switched_of_nominal h hs),
    fun hw h hr => .of_run (fun n => (n.rampNext d).frameResumes) rfl (hstep hw (rampNext_of_ebb h hr) (sys_setDom _)),
    fun hw h hr => .of_run (fun n => (n.rampNext d).frameResumes) rfl (hstep hw (rampNext_of_flood h hr) (sys_setDom _)),
    fun h0 => ⟨fun h => .of_run (fun n => n.switched d) rfl (switched_of_rc h h0),
      fun hw h hr => .of_run (fun n => (n.rampNext d).frameResumes) rfl (hstep hw (rampNext_of_ebbed h hr h0) (sys_setDom _)),
      fun hw h hr => .of_run (fun n => (n.rampNext d).frameResumes) rfl ?_⟩, fun f hf h hr hs => ?_⟩
  · simp only [forced, h]
  · have hsys : ((n.flooded d).floodEnds d).sys = n.sys := Eq.trans (floodEnds_within.part .sys :) (sys_setDom _)
    have hret : ((n.flooded d).floodEnds d).clk.ret = 0 := Eq.trans (congrArg Clk.ret (floodEnds_within.part .clk) :) ((ret_setDom _).trans h0)
    have hdom (e : Domain) : ((n.flooded d).floodEnds d).dom e = (n.flooded d).dom e := dom_of_clk (floodEnds_within.part .clk) e
    rw [rampNext_of_flooded h hr, returnEnds_of_none hret, frameResumes_of_none (by rw [hsys, hw])]
    refine ⟨?_, fun e he => ?_⟩
    · rw [hdom, flooded, dom_setDom_same]
    · rw [hdom, flooded, dom_setDom_other _ he]
  · refine .of_run (fun n => (n.rampNext .core).frameResumes) rfl ?_
    have hk : Within [.lane, .tide, .ext] (n.flooded .core) ((n.flooded .core).floodEnds .core) := floodEnds_within
    have hdom : ((n.flooded .core).floodEnds .core).dom .core = _ := (dom_of_clk (hk.part .clk) .core).trans (dom_setDom_same _)
    have hst : (((n.flooded .core).floodEnds .core).dom .core).st = if n.clk.pll = .nominal then .nominal else .coast := by rw [hdom]
    have hsw : (((n.flooded .core).floodEnds .core).dom .core).sw = none := by
      rw [hdom]
      exact hs
    have hne (st : DomSt) (h1 : st ≠ .nominal) (h2 : st ≠ .coast) : (((n.flooded .core).floodEnds .core).dom .core).st ≠ st := by
      rw [hst]
      split
      · exact h1.symm
      · exact h2.symm
    rw [rampNext_of_flooded (d := .core) h hr]
    obtain ⟨hw, hd⟩ := returnEnds_of_on (hne .off (by simp) (by simp))
    refine frameResumes_of_wait (f := f) ?_ ?_
    · rw [hw, show ((n.flooded .core).floodEnds .core).sys = n.sys from hk.part .sys, hf]
    · rcases hd with hd | hd
      · exact bridges_of_core (by rw [hd]; exact hne .bridge (by simp) (by simp)) (by rw [hd, hsw])
      · exact bridges_of_core (by rw [hd]; simp) (by rw [hd])

end

section
/-! Host sets of the RTC, leap seconds, slews and steps of node time (05 Tables 5.1 to 5.3). -/

namespace Sys2Proof.Machine.Node

variable {n : Node}

/-- Reaching a trust changes of the RTC the trust, and clears OSF at most. -/
def Trusted (n m : Node) : Prop :=
  ∃ t, m.rtc = { n.rtc with trust := t } ∨ m.rtc = { n.rtc with trust := t, osf := false }

theorem settleTrust_rtc : ∃ t, n.settleTrust.rtc = { n.rtc with trust := t } := by
  unfold settleTrust
  dsimp only
  split
  · exact ⟨_, rfl⟩
  · exact ⟨_, (Within.later .rfl : Within [.jrnl, .tide, .pair] _ _).part .rtc⟩

theorem reachTracking_rtc : Trusted n n.reachTracking := by
  unfold reachTracking
  dsimp only
  split
  · obtain ⟨t, h⟩ := settleTrust_rtc (n := n.mRtc fun r => { r with osf := false })
    exact ⟨t, .inr h⟩
  · obtain ⟨t, h⟩ := n.settleTrust_rtc
    exact ⟨t, .inl h⟩

theorem reachTracking_within : Within [.rtc, .jrnl, .tide, .pair] n n.reachTracking := .reachTracking .rfl

/-- The slew or the step that an offset asks for (Table 5.2). -/
def slewTo (n : Node) (m : Nat) (rem : Int) : Node := n.retime fun r => { r with slewing := m, slewRem := rem, slewFrom := r.now }

theorem correct_of_tracked {d : Int} (h1 : -10 ≤ d) (h2 : d ≤ 10) : n.correct d = (n.slewTo 0 0).reachTracking := by
  unfold correct
  dsimp only
  rw [if_pos ⟨h1, h2⟩]
  rfl

theorem correct_of_trim {d : Int} (h : d < -10 ∨ 10 < d) (h1 : -1000 ≤ d) (h2 : d ≤ 1000) : n.correct d = (n.slewTo 1 d).reachTracking := by
  unfold correct
  dsimp only
  rw [if_neg (by omega), if_pos ⟨h1, h2⟩]
  rfl

theorem correct_of_back {d : Int} (h : d < -1000) : n.correct d = (n.slewTo 2 d).reachTracking := by
  unfold correct
  dsimp only
  rw [if_neg (by omega), if_neg (by omega), if_pos (by omega)]
  rfl

theorem correct_of_fast {d : Int} (h1 : 1000 < d) (h2 : d < 1000000) : n.correct d = (n.slewTo 3 d).reachTracking := by
  unfold correct
  dsimp only
  rw [if_neg (by omega), if_neg (by omega), if_neg (by omega), if_pos h2]
  rfl

theorem correct_of_step {d : Int} (h : 1000000 ≤ d) : n.correct d =
    ((n.slewTo 0 (d % 1000000)).mRtc fun r => { r with stepPend := some (d / 1000000, (n.slewTo 0 (d % 1000000)).stepBoundary) }).reachTracking := by
  unfold correct
  dsimp only
  rw [if_neg (by omega), if_neg (by omega), if_neg (by omega), if_neg (by omega)]
  rfl

theorem Trusted.eq {m : Node} (h : Trusted n m) : ∃ t o, m.rtc = { n.rtc with trust := t, osf := o } ∧ (n.rtc.osf = false → o = false) := by
  obtain ⟨t, h | h⟩ := h
  · exact ⟨t, _, h, id⟩
  · exact ⟨t, _, h, fun _ => rfl⟩

/-- What a correction leaves of the RTC: its target by Table 5.2, and the time as it was. -/
def Corrected (n m : Node) (k : Nat) (rem : Int) (sp : Option (Int × Nat)) : Prop := ∃ t o x, (n.rtc.osf = false → o = false) ∧ m.rtc = { n.rtc with
  sec := n.rtcCycles / 32768
  subsec := n.rtcCycles % 32768
  slewing := k
  slewRem := rem
  slewFrom := n.rtc.now
  stepPend := sp
  mark := x
  trust := t
  osf := o }

theorem slewTo_corrected (k : Nat) (rem : Int) : Corrected n (n.slewTo k rem).reachTracking k rem n.rtc.stepPend := by
  obtain ⟨t, o, h, ho⟩ := (n.slewTo k rem).reachTracking_rtc.eq
  exact ⟨t, o, _, ho, h⟩

theorem correct_corrected (d : Int) : ∃ k rem sp, Corrected n (n.correct d) k rem sp ∧
    (-10 ≤ d → d ≤ 10 → k = 0 ∧ rem = 0 ∧ sp = n.rtc.stepPend) ∧
    (-1000 ≤ d → d ≤ 1000 → d < -10 ∨ 10 < d → k = 1 ∧ rem = d ∧ sp = n.rtc.stepPend) ∧
    (d < -1000 → k = 2 ∧ rem = d ∧ sp = n.rtc.stepPend) ∧
    (1000 < d → d < 1000000 → k = 3 ∧ rem = d ∧ sp = n.rtc.stepPend) ∧
    (1000000 ≤ d → sp = some (d / 1000000, n.stepBoundary) ∧ rem = d % 1000000) := by
  rcases show d < -1000 ∨ (-1000 ≤ d ∧ d < -10) ∨ (-10 ≤ d ∧ d ≤ 10) ∨ (10 < d ∧ d ≤ 1000) ∨ (1000 < d ∧ d < 1000000) ∨ 1000000 ≤ d by omega
    with h | h | h | h | h | h
  · rw [correct_of_back h]
    exact ⟨2, d, _, slewTo_corrected _ _, by omega, by omega, fun _ => ⟨rfl, rfl, rfl⟩, by omega, by omega⟩
  · rw [correct_of_trim (.inl h.2) h.1 (by omega)]
    exact ⟨1, d, _, slewTo_corrected _ _, by omega, fun _ _ _ => ⟨rfl, rfl, rfl⟩, by omega, by omega, by omega⟩
  · rw [correct_of_tracked h.1 h.2]
    exact ⟨0, 0, _, slewTo_corrected _ _, fun _ _ => ⟨rfl, rfl, rfl⟩, by omega, by omega, by omega, by omega⟩
  · rw [correct_of_trim (.inr h.1) (by omega) h.2]
    exact ⟨1, d, _, slewTo_corrected _ _, by omega, fun _ _ _ => ⟨rfl, rfl, rfl⟩, by omega, by omega, by omega⟩
  · rw [correct_of_fast h.1 h.2]
    exact ⟨3, d, _, slewTo_corrected _ _, by omega, by omega, by omega, fun _ _ => ⟨rfl, rfl, rfl⟩, by omega⟩
  · rw [correct_of_step h]
    obtain ⟨t, o, hr, ho⟩ := Trusted.eq (reachTracking_rtc (n := (n.slewTo 0 (d % 1000000)).mRtc fun r =>
      { r with stepPend := some (d / 1000000, (n.slewTo 0 (d % 1000000)).stepBoundary) }))
    exact ⟨0, d % 1000000, _, ⟨t, o, _, ho, hr⟩, by omega, by omega, by omega, by omega, fun _ => ⟨rfl, rfl⟩⟩

theorem correct_within (d : Int) : Within [.rtc, .jrnl, .tide, .pair] n (n.correct d) := .correct .rfl

/-- The RTC set by the host, not counting yet (05 R190). -/
def hostSet (n : Node) (d : Int) : Node :=
  (n.mRtc fun r => { r with halt := false, setResult := 0 }).mRtc fun r =>
    { r with sec := r.setSec, subsec := 0, mark := targetTime r, osf := false, offset := d }

theorem hostSet_cycles (d : Int) (h : n.rtc.setSec < 2 ^ 32) : (n.hostSet d).rtcCycles = n.rtc.setSec * 32768 := by
  have hm : targetTime (n.hostSet d).rtc - (n.hostSet d).rtc.mark = 0 := sub_self (targetTime n.rtc)
  rw [rtcCycles, hm]
  change (n.rtc.setSec * 32768 + 0 + _) % 2 ^ 47 = _
  simp only [Int.toNat_zero, Nat.zero_mul, Nat.zero_div, ite_self, Nat.add_zero]
  exact Nat.mod_eq_of_lt (by omega)

/-- The offset of the time that the host sets. -/
def setOffset (n : Node) : Int := (n.rtc.setSec * 1000000 : Nat) - (n.rtc.now : Int)

theorem setRefusal_of_inserted (h : n.tide.st = .inserted) (hr : n.rtc.reference = false) : n.setRefusal = 1 := by simp [setRefusal, h, hr]

theorem setRefusal_of_free (h : n.tide.st ≠ .inserted ∨ n.rtc.reference = true) :
    n.setRefusal = if n.setOffset < -3600000000 then 2 else if n.rtc.stepPend.isSome then 4 else 0 := by
  have hx : (n.tide.st == .inserted && !n.rtc.reference) = false := by
    rcases h with h | h
    · simp [h]
    · simp [h]
  unfold setRefusal setOffset
  rw [hx]
  rfl

theorem haltClear_of_refused (hh : n.rtc.halt = true) (hc : n.setRefusal ≠ 0) :
    n.haltClear = (n.mRtc fun r => { r with halt := false, setResult := n.setRefusal }).reloadRtc := by
  unfold haltClear
  rw [if_neg (by simp [hh])]
  dsimp only
  rw [if_pos hc]

theorem haltClear_of_taken (hh : n.rtc.halt = true) (hc : n.setRefusal = 0) : n.haltClear = (n.hostSet n.setOffset).correct n.setOffset := by
  unfold haltClear
  rw [if_neg (by simp [hh])]
  dsimp only
  rw [if_neg (not_not.2 hc), hc]
  rfl

/-- Node time moved on by a step of `k` seconds at `b`, and with it every stored instant (05 R187). -/
def stepMoved (n : Node) (k : Int) (b : Nat) : Node :=
  let jump := (k * 1000000).toNat
  let m := (n.setNow b).retime fun r => { r with
    now := r.now + jump
    stepPend := none
    offset := n.rtc.slewRem
    slewRem := 0
    steps := r.steps ++ [(b, jump)] }
  let later (x : Nat) : Nat := if b < x then x + jump else x
  let m := m.mSec fun s => { s with
    lastWrite := s.lastWrite + jump
    unlockAt := s.unlockAt + jump
    act := s.act.map fun a => { a with boundary := later a.boundary }
    notice := s.notice.map fun x => (x.1, later x.2) }
  let m := m.mPwr fun p => { p with t0 := p.t0 + jump }
  m.mSolv fun s => { s with slots := s.slots.map fun (i, x) =>
    (i, { x with job := x.job.map fun j => { j with start := j.start + jump, deadline := j.deadline + jump } }) }

theorem timeStep_eq {k : Int} {b : Nat} (h : n.rtc.stepPend = some (k, b)) : n.timeStep =
    (((n.stepMoved k b).stepOne ((n.stepMoved k b).timeBody 2 (intBits 32 k))).stepSyncs).correct n.rtc.slewRem := by
  simp only [timeStep, h]
  rfl

theorem stepOne_firstRecs (b : RecBody) (h : n.ownDuty = true) :
    (n.stepOne b).jrnl = { n.jrnl with firstRecs := n.jrnl.firstRecs ++ [b] } := by
  rw [stepOne, if_pos h]
  rfl

theorem settleTrust_waits : RecordWaits n n.settleTrust := by
  unfold settleTrust
  dsimp only
  split
  · exact .of_jrnl rfl
  · exact .trans (.of_jrnl rfl) (later_waits _)

theorem reachTracking_waits : RecordWaits n n.reachTracking := by
  unfold reachTracking
  dsimp only
  split
  · exact .trans (.of_jrnl rfl) settleTrust_waits
  · exact settleTrust_waits

theorem correct_waits (d : Int) : RecordWaits n (n.correct d) := by
  unfold correct
  dsimp only
  refine .trans ?_ reachTracking_waits
  split
  · exact .of_jrnl rfl
  · split
    · exact .of_jrnl rfl
    · split
      · exact .of_jrnl rfl
      · split
        · exact .of_jrnl rfl
        · exact .of_jrnl rfl

theorem leapApply_of_some {v : Nat} (h : n.rtc.leapPend = some v) : n.leapApply =
    ((n.mRtc fun r => { r with leap := v, leapPend := none }).flashAdd (.ident (.leap v))).stepOne
      ((n.mRtc fun r => { r with leap := v, leapPend := none }).timeBody 3 v) := by
  simp only [leapApply, h]

theorem slewEnd_of_trim (h : n.rtc.slewing = 1) : n.slewEnd =
    (n.retime fun r => { r with slewing := 0, slewRem := 0, offset := if n.rtc.slewRem < 0 then -10 else 10 }).reachTracking := by
  simp only [slewEnd, h, decide_eq_true_eq]
  rfl

theorem slewEnd_of_fast (h : n.rtc.slewing ∈ [2, 3]) : n.slewEnd =
    ((n.mRtc fun r => { r with offset := if n.rtc.slewRem < 0 then -1000 else 1000 }).correct
      (if n.rtc.slewRem < 0 then -1000 else 1000)).relock := by
  have h0 : n.rtc.slewing ≠ 0 ∧ n.rtc.slewing ≠ 1 := by
    have : n.rtc.slewing = 2 ∨ n.rtc.slewing = 3 := by simpa using h
    omega
  simp only [slewEnd, h0.1, h0.2, decide_eq_true_eq, if_false]

theorem stepMoved_keeps (k : Int) (b : Nat) : Keeps [.rtc, .sec, .pwr, .solv] n (n.stepMoved k b) := by
  unfold stepMoved
  exact (Within.mSolv (.mPwr (.mSec (.retime (.setNow .rfl)))) : Within [.rtc, .sec, .pwr, .solv] n _).keeps

/-- The step ends with the correction of the remainder. -/
theorem timeStep_ends {k : Int} {b : Nat} (h : n.rtc.stepPend = some (k, b)) : ∃ m, n.timeStep = m.correct n.rtc.slewRem ∧
    Within [.jrnl, .tide, .pair, .lane] (n.stepMoved k b) m ∧
    (n.ownDuty = true → m.jrnl = { n.jrnl with firstRecs := n.jrnl.firstRecs ++ [(n.stepMoved k b).timeBody 2 (intBits 32 k)] }) := by
  refine ⟨_, timeStep_eq h, .stepSyncs (.stepOne .rfl), fun ho => ?_⟩
  have hk := n.stepMoved_keeps k b
  have hown : (n.stepMoved k b).ownDuty = true := (ownDuty_of (hk.part .img (by decide)) (hk.part .sys (by decide)) (hk.part .pair (by decide))).trans ho
  have hl : Within [.lane] _ ((n.stepMoved k b).stepOne ((n.stepMoved k b).timeBody 2 (intBits 32 k))).stepSyncs := .stepSyncs .rfl
  rw [hl.part .jrnl, stepOne_firstRecs _ hown, hk.part .jrnl (by decide)]

theorem timeStep_rtc {m : Node} {k : Int} {b : Nat} (h : n.timeStep = m.correct n.rtc.slewRem) (hm : m.rtc = (n.stepMoved k b).rtc) :
    n.timeStep.rtc.now = max n.rtc.now b + (k * 1000000).toNat ∧
      (0 ≤ n.rtc.slewRem → n.rtc.slewRem < 1000000 → n.timeStep.rtc.stepPend = none) := by
  obtain ⟨x, rem, sp, ⟨t, o, y, -, hr⟩, h1, h2, h3, h4, -⟩ := m.correct_corrected n.rtc.slewRem
  have hn : m.rtc.stepPend = none := by
    rw [hm]
    rfl
  rw [hn] at h1 h2 h4
  rw [h, hr]
  refine ⟨?_, fun hlo hhi => ?_⟩
  · rw [hm]
    rfl
  · rcases show n.rtc.slewRem ≤ 10 ∨ (10 < n.rtc.slewRem ∧ n.rtc.slewRem ≤ 1000) ∨ 1000 < n.rtc.slewRem by omega with hx | hx | hx
    · exact (h1 (by omega) hx).2.2
    · exact (h2 (by omega) hx.2 (.inr hx.1)).2.2
    · exact (h4 hx hhi).2.2

end Sys2Proof.Machine.Node

open Sys2Proof Sys2Proof.Machine Sys2Proof.Machine.Node

/-- Settles O23: every correction by what it leaves of the RTC, a step by the state that it moves on. -/
theorem nodeTimeSetAndStepped : Obligations.NodeTimeSetAndStepped := by
  unfold Obligations.NodeTimeSetAndStepped
  refine ⟨?_, ?_, ?_⟩
  · rintro ⟨n, q⟩
    dsimp only
    refine ⟨rfl, fun hh => ⟨?_, ?_⟩, fun hh => ⟨?_, fun hi hr => ?_, fun hfree => ?_⟩⟩
    · exact .of_run Node.haltClear rfl (if_pos (by simp [hh]))
    · exact .of_run Node.haltTimeout rfl (if_neg (by simp [hh]))
    · exact .of_run Node.haltTimeout rfl (if_pos hh)
    · refine .of_run Node.haltClear rfl ?_
      have hc := setRefusal_of_inserted hi hr
      rw [haltClear_of_refused hh (by rw [hc]; decide), hc]
      rfl
    · have hc := setRefusal_of_free hfree
      refine ⟨fun hd => ?_, fun hd hs => ?_, fun hd hs h32 => ?_⟩
      · refine .of_run Node.haltClear rfl ?_
        rw [if_pos (show n.setOffset < -3600000000 from hd)] at hc
        rw [haltClear_of_refused hh (by rw [hc]; decide), hc]
        rfl
      · refine .of_run Node.haltClear rfl ?_
        rw [if_neg (show ¬ n.setOffset < -3600000000 from Int.not_lt.2 hd), if_pos hs] at hc
        rw [haltClear_of_refused hh (by rw [hc]; decide), hc]
        rfl
      · refine .of_run Node.haltClear rfl ?_
        rw [if_neg (show ¬ n.setOffset < -3600000000 from Int.not_lt.2 hd), hs, if_neg (by decide)] at hc
        rw [haltClear_of_taken hh hc]
        obtain ⟨k, rem, sp, ⟨t, o, x, ho, hr⟩, h1, h2, h3, h4, h5⟩ := (n.hostSet n.setOffset).correct_corrected n.setOffset
        have hcyc := hostSet_cycles n.setOffset h32
        have hsp : (n.hostSet n.setOffset).rtc.stepPend = none := hs
        have hk : Within [.rtc, .jrnl, .tide, .pair] n ((n.hostSet n.setOffset).correct n.setOffset) := by
          unfold hostSet
          exact .correct (.mRtc (.mRtc .rfl))
        rw [hr, hcyc]
        rw [hsp] at h1 h2 h3 h4
        refine ⟨rfl, rfl, Nat.mul_div_cancel _ (by decide), Nat.mul_mod_left _ _, ho rfl, rfl, rfl, hk.keeps, h1, h2, h3, h4, fun h => ?_⟩
        obtain ⟨hsp', hrem⟩ := h5 h
        refine ⟨hsp'.trans ?_, hrem⟩
        simp only [stepBoundary, Bool.and_eq_true, beq_iff_eq]
        rfl
  · rintro ⟨n, q⟩ v
    dsimp only
    refine ⟨fun h => ?_, fun hr hi => ?_, fun h => ?_, fun k h => ?_, fun h => ?_, fun h => ?_, fun h => ?_, rfl, fun ht hr => ?_⟩
    · refine .of_run (fun n => n.leapWrite v.toNat) rfl (if_pos ?_)
      rcases h with h | h
      · simp [h]
      · simp [h]
    · exact .of_run (fun n => n.leapWrite v.toNat) rfl (if_neg (by simp [hr, hi]))
    · refine .of_run Node.leapApply rfl ?_
      simp only [leapApply, h]
    · refine .of_run Node.leapApply rfl ?_
      have hw : Within [.jrnl, .tide, .pair] ((n.mRtc fun r => { r with leap := k, leapPend := none }).flashAdd (.ident (.leap k)))
        n.leapApply := by
        rw [leapApply_of_some h]
        exact .stepOne .rfl
      refine ⟨hw.part .rtc, (hw.after (.flashAdd (.mRtc .rfl)) (by decide) : Within [.rtc, .stor, .jrnl, .tide, .pair] n _).keeps, fun ho => ?_⟩
      rw [leapApply_of_some h]
      exact ⟨_, rfl, rfl, stepOne_firstRecs _ ho⟩
    · exact .of_run Node.slewEnd rfl (if_pos h)
    · refine .of_run Node.slewEnd rfl ?_
      rw [slewEnd_of_trim h]
      obtain ⟨t, o, hr, -⟩ := Trusted.eq (reachTracking_rtc (n := n.retime fun r =>
        { r with slewing := 0, slewRem := 0, offset := if n.rtc.slewRem < 0 then -10 else 10 }))
      rw [hr]
      exact ⟨rfl, rfl, rfl, (Within.reachTracking (.retime .rfl) : Within [.rtc, .jrnl, .tide, .pair] n _).keeps⟩
    · refine .of_run Node.slewEnd rfl ?_
      rw [slewEnd_of_fast h, (Within.relock .rfl : Within [.lane] _ _).part .rtc]
      obtain ⟨k, rem, sp, ⟨t, o, x, -, hr⟩, -, h2, -⟩ := (n.mRtc fun r => { r with offset := if n.rtc.slewRem < 0 then -1000 else 1000 }).correct_corrected
        (if n.rtc.slewRem < 0 then -1000 else 1000)
      have hlim : -1000 ≤ (if n.rtc.slewRem < 0 then -1000 else 1000 : Int) ∧ (if n.rtc.slewRem < 0 then -1000 else 1000 : Int) ≤ 1000 ∧
          ((if n.rtc.slewRem < 0 then -1000 else 1000 : Int) < -10 ∨ 10 < (if n.rtc.slewRem < 0 then -1000 else 1000 : Int)) := by
        split <;> omega
      obtain ⟨hk, hrem, -⟩ := h2 hlim.1 hlim.2.1 hlim.2.2
      rw [hr, hk, hrem]
      exact ⟨rfl, rfl, rfl, (Within.relock (.correct (.mRtc .rfl)) : Within [.rtc, .lane, .jrnl, .tide, .pair] n _).keeps⟩
    · refine .of_run (fun n => if decide (10 ≤ n.tide.noTime) && !n.rtc.reference then n.noReference else n) rfl ?_
      rw [if_pos (by simp [ht, hr])]
      obtain ⟨t, h⟩ := (n.mRtc fun r => { r with tracked := false }).settleTrust_rtc
      rw [noReference, h]
      exact ⟨rfl, rfl, (Within.settleTrust (.mRtc .rfl) : Within [.rtc, .jrnl, .tide, .pair] n _).keeps⟩
  · rintro ⟨n, q⟩ k b
    dsimp only
    intro h
    refine .of_run Node.timeStep rfl ?_
    obtain ⟨m, hm, hs, hj⟩ := timeStep_ends h
    have hrtc : m.rtc = (n.stepMoved k b).rtc := hs.part .rtc
    have hp : Within [.rtc, .jrnl, .tide, .pair, .lane] (n.stepMoved k b) n.timeStep := by
      rw [hm]
      exact .correct (hs.after .rfl (by decide))
    have hk := n.stepMoved_keeps k b
    have hpart (p : Part) (h1 : p ∉ [.rtc, .jrnl, .tide, .pair, .lane]) (h2 : p ∉ [.rtc, .sec, .pwr, .solv]) : p.Same n n.timeStep :=
      (hk.part p h2).trans (hp.keeps p h1)
    obtain ⟨hnow, hnone⟩ := timeStep_rtc hm hrtc
    refine ⟨hnow, ?_, ?_, hnone, fun ho => ?_, hpart .fab (by decide) (by decide), hpart .call (by decide) (by decide),
      hpart .dio (by decide) (by decide), hpart .stor (by decide) (by decide)⟩
    · rw [hp.part .sec]
      rfl
    · rw [hp.part .sec]
      rfl
    · obtain ⟨d, l, hw⟩ := m.correct_waits n.rtc.slewRem
      exact ⟨(n.stepMoved k b).timeBody 2 (intBits 32 k), rfl, rfl, by rw [hm, hw, hj ho]⟩

end

section
/-! The course of an impedance check, its commands, and the self-test of the IMU (06 R215 to R230, Table 6.10). -/

namespace Sys2Proof.Machine.Node

variable {n : Node}

theorem setAfeCh_of_chans (c : Nat) (v : AfeCh) : (n.setAfeCh c v).afe = { n.afe with chans := tset {} n.afe.chans c v } := rfl

theorem afeCh_setAfeCh_same (h : twf {} n.afe.chans = true) (c : Nat) (v : AfeCh) : (n.setAfeCh c v).afeCh c = v :=
  tget_tset_same h c v

theorem afeCh_setAfeCh_other (h : twf {} n.afe.chans = true) {c k : Nat} (v : AfeCh) (hk : k ≠ c) : (n.setAfeCh c v).afeCh k = n.afeCh k :=
  tget_tset_other h hk v

/-- What giving an input back to its lane leaves of the front end: the input is no longer off its lane, and nothing else changes. -/
theorem rejoin_afe (i : InputCfg) : (n.rejoin i).afe = (if (n.afeCh i.num).offLane then
    n.setAfeCh i.num { n.afeCh i.num with offLane := false } else n).afe := by
  unfold rejoin
  dsimp only
  cases ho : (n.afeCh i.num).offLane with
  | true =>
    rw [if_neg (by decide), if_pos rfl]
    split
    · exact (Within.syncCause .rfl : Within [.lane] _ _).part .afe
    · rfl
  | false => rfl

theorem rejoin_twf (h : twf {} n.afe.chans = true) (i : InputCfg) : twf {} (n.rejoin i).afe.chans = true := by
  rw [rejoin_afe]
  split
  · exact twf_tset h _ _
  · exact h

theorem rejoin_afeCh (h : twf {} n.afe.chans = true) (i : InputCfg) (k : Nat) :
    (n.rejoin i).afeCh k = if k = i.num then { n.afeCh k with offLane := false } else n.afeCh k := by
  have he : (n.rejoin i).afeCh k = (if (n.afeCh i.num).offLane then
      n.setAfeCh i.num { n.afeCh i.num with offLane := false } else n).afeCh k := by
    rw [afeCh, rejoin_afe]
    rfl
  rw [he]
  by_cases hk : k = i.num
  · subst hk
    rw [if_pos rfl]
    split
    · exact afeCh_setAfeCh_same h _ _
    next ho =>
      have ho' : (n.afeCh i.num).offLane = false := by simpa using ho
      rw [← ho']
  · rw [if_neg hk]
    split
    · exact afeCh_setAfeCh_other h _ hk
    · rfl

theorem rejoin_rest (i : InputCfg) : (n.rejoin i).afe = { n.afe with chans := (n.rejoin i).afe.chans } := by
  rw [rejoin_afe]
  split <;> rfl

/-- Every input given back is on its lane, and one that was stays so. -/
theorem foldl_rejoin_offLane (l : List InputCfg) (h : twf {} n.afe.chans = true) (k : Nat)
    (hk : (∃ i ∈ l, i.num = k) ∨ (n.afeCh k).offLane = false) : ((l.foldl rejoin n).afeCh k).offLane = false := by
  induction l generalizing n with
  | nil =>
    rcases hk with ⟨i, hi, -⟩ | hk
    · cases hi
    · exact hk
  | cons x l ih =>
    refine ih (rejoin_twf h x) ?_
    by_cases hx : k = x.num
    · exact .inr (by rw [rejoin_afeCh h, if_pos hx])
    · rw [rejoin_afeCh h, if_neg hx]
      rcases hk with ⟨i, hi, he⟩ | hk
      · rcases List.mem_cons.1 hi with hi | hi
        · exact absurd (he.symm.trans (congrArg InputCfg.num hi)) hx
        · exact .inl ⟨i, hi, he⟩
      · exact .inr hk

theorem foldl_rejoin_afe (l : List InputCfg) : (l.foldl rejoin n).afe = { n.afe with chans := (l.foldl rejoin n).afe.chans } := by
  induction l generalizing n with
  | nil => rfl
  | cons x l ih =>
    rw [List.foldl_cons, ih, rejoin_rest]

theorem input_num {c : Nat} {i : InputCfg} (h : n.input c = some i) : i.num = c := by
  have := List.find?_some h
  simpa using this

theorem impResult_refused {code : Nat} (h : code ≠ 0) : n.impResult code = { n with afe := { n.afe with
    cmdResult := code
    flags := setBit n.afe.flags 1 } } := by
  unfold impResult
  rw [if_neg h]
  rfl

theorem takeOffLane_of_not {c : Nat} {i : InputCfg} (h : n.input c = some i)
    (hc : ¬ ((n.afeCh c).due = true ∨ (n.afeCh c).checkNow = true) ∨ (n.afeCh c).dueFor < 19 ∨ (n.afeCh c).offLane = true ∨ n.checksHeld = true) :
    n.takeOffLane c = n := by
  simp only [takeOffLane, h]
  refine if_neg fun hx => ?_
  simp only [Bool.and_eq_true, Bool.or_eq_true, decide_eq_true_eq, Bool.not_eq_true'] at hx
  obtain ⟨⟨⟨ha, hd⟩, ho⟩, hk⟩ := hx
  rcases hc with hc | hc | hc | hc
  · exact hc ha
  · omega
  · rw [ho] at hc
    cases hc
  · rw [hk] at hc
    cases hc

theorem takeOffLane_of {c : Nat} {i : InputCfg} (h : n.input c = some i) (hh : n.checksHeld = false)
    (ha : (n.afeCh c).due = true ∨ (n.afeCh c).checkNow = true) (hd : 19 ≤ (n.afeCh c).dueFor) (ho : (n.afeCh c).offLane = false) :
    n.takeOffLane c = if i.sole then (n.setAfeCh c { n.afeCh c with offLane := true }).stopChain i.lane
      else if (n.laneSt i.lane).conv = some c then (n.setAfeCh c { n.afeCh c with offLane := true }).outputLost i.lane c
      else n.setAfeCh c { n.afeCh c with offLane := true } := by
  simp only [takeOffLane, h]
  refine if_pos ?_
  simp only [Bool.and_eq_true, Bool.or_eq_true, decide_eq_true_eq, Bool.not_eq_true']
  exact ⟨⟨⟨ha, by omega⟩, ho⟩, hh⟩

/-- A check's end on the channel before it is given back. -/
def checkJudged (n : Node) (c : Nat) (i : InputCfg) (z : ImpReading) : Node :=
  (n.mAfe fun x => { x with imuCh := none }).setAfeCh c { judgeCheck i (n.afeCh c) z with
    age := 0
    due := false
    dueFor := 0
    ticks := if (n.afeCh c).checkNow && (n.afeCh c).due then 0 else (n.afeCh c).ticks
    checkNow := false }

theorem endCheck_eq {c : Nat} {i : InputCfg} (hc : n.afe.imuCh = some c) (h : n.input c = some i) (z : ImpReading) :
    n.endCheck z = (n.checkJudged c i z).rejoin i := by
  have hi : (n.mAfe fun x => { x with imuCh := none }).input c = some i := h
  simp only [endCheck, hc, hi]
  rfl

/-- A check given up, before the inputs are given back. -/
def checkDropped (n : Node) : Node :=
  match n.afe.imuCh with
  | none => n
  | some c => (n.setAfeCh c { n.afeCh c with due := true }).mAfe fun x => { x with imuCh := none }

theorem checkDropped_imuCh (n : Node) : n.checkDropped.afe.imuCh = none := by
  unfold checkDropped
  split
  next h => exact h
  · rfl

theorem checkDropped_twf (h : twf {} n.afe.chans = true) : twf {} n.checkDropped.afe.chans = true := by
  unfold checkDropped
  split
  · exact h
  · exact twf_tset h _ _

theorem checkDropped_inputs (n : Node) : n.checkDropped.inputs = n.inputs := by
  unfold checkDropped
  split <;> rfl

theorem abandonCheck_eq (n : Node) : n.abandonCheck = n.inputs.foldl rejoin n.checkDropped := by
  rw [← checkDropped_inputs]
  rfl

theorem abandonCheck_imuCh (n : Node) : n.abandonCheck.afe.imuCh = none := by
  rw [abandonCheck_eq, foldl_rejoin_afe]
  exact n.checkDropped_imuCh

theorem abandonCheck_offLane (h : twf {} n.afe.chans = true) {i : InputCfg} (hi : i ∈ n.inputs) :
    (n.abandonCheck.afeCh i.num).offLane = false := by
  rw [abandonCheck_eq]
  exact foldl_rejoin_offLane _ (checkDropped_twf h) _ (.inl ⟨i, hi, rfl⟩)

theorem imuTest_fails (h : n.afe.imuFault = false) : n.imuTest false =
    ((n.abandonCheck.mAfe fun a => { a with imuFault := true }).afeFlag 2).afeRecord 0x03FF 5 true
      ((n.abandonCheck.mAfe fun a => { a with imuFault := true }).afeFlag 2).afeStat := by
  rw [imuTest, if_neg (by decide), if_neg (by simp [h])]

end Sys2Proof.Machine.Node

open Sys2Proof Sys2Proof.Machine Sys2Proof.Machine.Node

/-- Settles O25: each step of a check by its branch, and its end and the self-test by what giving inputs back leaves. -/
theorem impedanceChecks : Obligations.ImpedanceChecks := by
  unfold Obligations.ImpedanceChecks
  refine ⟨?_, ?_⟩
  · rintro ⟨n, q⟩ c i z gap
    dsimp only
    refine ⟨fun h => ⟨?_, ?_⟩, fun h => ?_, fun h => ?_, fun hh hi hn => ?_, fun h => ⟨fun hh hd ht => ?_, fun hn => ?_, fun hn => ?_,
      fun hh ha hd ho => ⟨fun hs hc => ?_, fun hs hc => ?_, fun hs => ?_⟩, fun hc hw => ?_⟩⟩
    · rw [Answers, exec, execCheckDue, State.run]
      simp only [h]
    · refine .of_run (fun n => n.takeOffLane c.val) rfl ?_
      simp only [takeOffLane, h]
    · refine .of_run (fun n => n.endCheck z) rfl ?_
      simp only [endCheck, h]
    · refine .of_run (fun n => n.startCheck gap) rfl ?_
      unfold startCheck
      rcases h with h | h | h
      · exact if_pos (by simp [h])
      · exact if_pos (by simp [h])
      · rw [h]
        exact ite_self n
    · refine .of_run (fun n => n.startCheck gap) rfl ?_
      unfold startCheck
      rw [if_neg (by simp [hh, hi]), hn]
      dsimp only
      split
      · exact ⟨rfl, rfl, (Within.afeFlag (.mAfe .rfl) : Within [.afe] n _).keeps⟩
      · exact ⟨rfl, rfl, (Within.mAfe .rfl : Within [.afe] n _).keeps⟩
    · rw [Answers, exec, execCheckDue, State.run]
      simp only [h]
      rw [if_pos (by simp [hh, hd, ht])]
    · rw [Answers, exec, execCheckDue, State.run]
      simp only [h]
      rw [if_neg]
      rintro ⟨h1, h2, h3⟩
      rcases hn with hn | hn | hn
      · simp [hn] at h1
      · simp [hn] at h2
      · omega
    · exact .of_run (fun n => n.takeOffLane c.val) rfl (takeOffLane_of_not h hn)
    · refine .of_run (fun n => n.takeOffLane c.val) rfl ?_
      rw [takeOffLane_of h hh ha hd ho, hs, if_neg (by decide), if_neg hc]
    · refine .of_run (fun n => n.takeOffLane c.val) rfl ?_
      rw [takeOffLane_of h hh ha hd ho, hs, if_neg (by decide), if_pos hc]
    · refine .of_run (fun n => n.takeOffLane c.val) rfl ?_
      rw [takeOffLane_of h hh ha hd ho, hs, if_pos rfl]
    · refine .of_run (fun n => n.endCheck z) rfl ?_
      rw [endCheck_eq hc h]
      have hnum := input_num h
      have hw' : twf {} (n.checkJudged c.val i z).afe.chans = true := twf_tset hw _ _
      have hk : Within [.afe, .lane] n ((n.checkJudged c.val i z).rejoin i) := by
        unfold checkJudged
        exact .rejoin (.setAfeCh (.mAfe .rfl))
      have hb : ((n.checkJudged c.val i z).rejoin i).afeCh c.val = { (n.checkJudged c.val i z).afeCh c.val with offLane := false } := by
        rw [rejoin_afeCh hw', if_pos hnum.symm]
      have hs : (n.checkJudged c.val i z).afeCh c.val = _ := afeCh_setAfeCh_same hw _ _
      rw [hb, hs, rejoin_rest]
      refine ⟨rfl, rfl, rfl, rfl, rfl, rfl, rfl, rfl, rfl, fun hl => ?_, fun k hkc => ?_, hk.keeps⟩
      · simp only [judgeCheck, hl, Bool.true_and, if_true, and_self]
      · rw [rejoin_afeCh hw', if_neg (by rw [hnum]; exact hkc)]
        exact afeCh_setAfeCh_other hw _ hkc
  · rintro ⟨n, q⟩ c
    dsimp only
    refine ⟨fun h => ⟨?_, ?_⟩, fun h => ⟨fun hh => ?_, fun hh hc => ?_, fun hh hc => ?_, fun hm => ?_, fun hm => ?_⟩, fun hf => ⟨?_, ?_⟩, fun hf => ⟨?_, ?_⟩⟩
    · refine .of_run (fun n => n.checkNow c.toNat) rfl ?_
      rw [checkNow, if_pos (by simp [h]), impResult_refused (by decide)]
    · refine .of_run (fun n => n.rebase c.toNat) rfl ?_
      rw [rebase, if_pos (by simp [h]), impResult_refused (by decide)]
    · refine .of_run (fun n => n.checkNow c.toNat) rfl ?_
      rw [checkNow, if_neg (by simpa [Option.isSome_iff_ne_none] using h), if_pos hh, impResult_refused (by decide)]
    · refine .of_run (fun n => n.checkNow c.toNat) rfl ?_
      rw [checkNow, if_neg (by simpa [Option.isSome_iff_ne_none] using h), if_neg (by simp [hh]), if_pos hc, impResult_refused (by decide)]
    · refine .of_run (fun n => n.checkNow c.toNat) rfl ?_
      rw [checkNow, if_neg (by simpa [Option.isSome_iff_ne_none] using h), if_neg (by simp [hh]), if_neg (by simp [hc])]
      rfl
    · refine .of_run (fun n => n.rebase c.toNat) rfl ?_
      rw [rebase, if_neg (by simpa [Option.isSome_iff_ne_none] using h), if_pos (by simp [hm]), impResult_refused (by decide)]
    · refine .of_run (fun n => n.rebase c.toNat) rfl ?_
      rw [rebase, if_neg (by simpa [Option.isSome_iff_ne_none] using h), if_neg (by simp [hm])]
      rfl
    · refine .of_run (fun n => n.imuTest true) rfl ?_
      simp [imuTest, hf]
    · refine .of_run (fun n => n.imuTest false) rfl ?_
      rw [imuTest_fails hf]
      have hr : ∀ d : Node, (d.afeRecord 0x03FF 5 true d.afeStat).afe = d.afe := fun d =>
        (Within.afeRecord .rfl : Within [.jrnl, .tide, .pair] d _).part .afe
      refine ⟨?_, ?_, ?_, fun hw i hi => ?_, (Within.afeRecord (.afeFlag (.mAfe (.abandonCheck .rfl))) : Within [.afe, .lane, .jrnl, .tide, .pair] n _).keeps⟩
      · rw [hr]
        rfl
      · rw [hr]
        exact n.abandonCheck_imuCh
      · rw [hr]
        exact bit_setBit_same _ (by decide)
      · refine (congrArg (fun x : Afe => (tget ({} : AfeCh) x.chans i.num).offLane) (hr _)).trans ?_
        exact abandonCheck_offLane hw hi
    · refine .of_run (fun n => n.imuTest false) rfl ?_
      simp [imuTest, hf]
    · refine .of_run (fun n => n.imuTest true) rfl ?_
      simp only [imuTest, hf, if_true]
      refine ⟨(Within.afeRecord .rfl : Within [.jrnl, .tide, .pair] _ _).part .afe, ?_⟩
      exact (Within.afeRecord (.mAfe .rfl) : Within [.afe, .jrnl, .tide, .pair] n _).keeps

end

section
/-! Excitation: a write that waits, its application, and a step of the adaptive loop (06 R221 to R227). -/

namespace Sys2Proof.Machine.Node

variable {n : Node}

theorem afeExc_setAfeExc_same (h : twf {} n.afe.exc = true) (c : Nat) (v : AfeExc) : (n.setAfeExc c v).afeExc c = v :=
  tget_tset_same h c v

theorem afeExc_setAfeExc_other (h : twf {} n.afe.exc = true) {c k : Nat} (v : AfeExc) (hk : k ≠ c) :
    (n.setAfeExc c v).afeExc k = n.afeExc k := tget_tset_other h hk v

theorem afeExc_of_afe {m : Node} (h : m.afe = n.afe) (k : Nat) : m.afeExc k = n.afeExc k := by
  unfold afeExc
  rw [h]

/-- The record of a pin leaves the channels' excitation as it is. -/
theorem pinnedChange_within (c : Nat) (e : AfeExc) : Within [.jrnl, .tide, .pair] n (n.pinnedChange c e) := .pinnedChange .rfl

theorem pinnedChange_afeExc (c : Nat) (e : AfeExc) (k : Nat) : (n.pinnedChange c e).afeExc k = n.afeExc k :=
  afeExc_of_afe ((pinnedChange_within c e).part .afe) k

theorem pinnedChange_firstRecs (c : Nat) (e : AfeExc) : (n.pinnedChange c e).jrnl.firstRecs = n.jrnl.firstRecs := by
  obtain ⟨_, _, hj⟩ : RecordWaits n (n.pinnedChange c e) := .ite (later_waits _) (.of_jrnl rfl)
  rw [hj]

theorem applyExc_of {c : Nat} {i : InputCfg} {v : Word} (hi : n.input c = some i) (hv : (n.afeExc c).pend = some v) :
    n.applyExc c = ((n.applyCode i (excValues (n.afeExc c) v)).stepOne (n.configBody c 7 0 (leBytes 4 v.toNat))).pinnedChange c (n.afeExc c) := by
  simp only [applyExc, hi, hv]
  rfl

theorem applyExc_of_none {c : Nat} (h : n.input c = none ∨ (n.afeExc c).pend = none) : n.applyExc c = n := by
  unfold applyExc
  split
  next hi hv =>
    rcases h with h | h
    · rw [h] at hi
      cases hi
    · rw [h] at hv
      cases hv
  · rfl

theorem excStep_of_none {c : Nat} (h : n.input c = none) : n.excStep c = n := by
  simp only [excStep, h]

theorem excStep_of_not {c : Nat} {i : InputCfg} (hi : n.input c = some i)
    (h : i.adaptEn = false ∨ (n.afeExc c).forceEn = true ∨ n.fieldCoasts = true ∨ n.fieldHeld = true ∨ (n.afeExc c).lastEpoch.length < 4) :
    n.excStep c = n := by
  simp only [excStep, hi]
  exact if_pos (by simpa using h)

/-- The channel's excitation after a step of the loop, before the code is applied. -/
def steppedExc (n : Node) (c : Nat) (i : InputCfg) : AfeExc :=
  let e := n.afeExc c
  let var := ratioVar (Config.fullScale i.type) e.lastEpoch
  let w := wantedCode e.code (snrBelow var (i.snrTgt - 3)) (snrAbove var (i.snrTgt + 6))
  pinStep { e with want := w, snr := snrShown var, lastEpoch := [] } w

theorem excStep_of {c : Nat} {i : InputCfg} (hi : n.input c = some i) (ha : i.adaptEn = true) (hf : (n.afeExc c).forceEn = false)
    (hc : n.fieldCoasts = false) (hh : n.fieldHeld = false) (hl : 4 ≤ (n.afeExc c).lastEpoch.length) :
    n.excStep c = (n.applyCode i (n.steppedExc c i)).pinnedChange c (n.afeExc c) := by
  simp only [excStep, hi]
  exact if_neg (by simp [ha, hf, hc, hh, hl])

theorem pinStep_inside {e : AfeExc} {w : Nat} (hlo : e.excMin ≤ w) (hhi : w ≤ e.excMax) :
    pinStep e w = { e with pinCnt := 0, pinned := false } := if_neg (by omega)

theorem pinStep_outside {e : AfeExc} {w : Nat} (h : e.excMax < w ∨ w < e.excMin) : pinStep e w = { e with
    pinCnt := min 8 (e.pinCnt + 1)
    pinned := e.pinned || e.pinCnt == 7
    pinDir := if e.pinCnt == 7 then decide (e.excMax < w) else e.pinDir } := if_pos h

/-- The code applied after a step is the wanted one within the clamps, where nothing is forced. -/
theorem appliedCode_pinStep {e : AfeExc} (w : Nat) (h : e.forceEn = false) :
    appliedCode (pinStep e w) = max e.excMin (min e.want e.excMax) := by
  by_cases hw : e.excMax < w ∨ w < e.excMin
  · rw [pinStep_outside hw, appliedCode, if_neg (by simp [h])]
  · rw [pinStep_inside (by omega) (by omega), appliedCode, if_neg (by simp [h])]

theorem pinStep_want (e : AfeExc) (w : Nat) : (pinStep e w).want = e.want := by
  unfold pinStep
  split <;> rfl

theorem pinStep_lastEpoch (e : AfeExc) (w : Nat) : (pinStep e w).lastEpoch = e.lastEpoch := by
  unfold pinStep
  split <;> rfl

theorem writeExc_accepted {c : Nat} {w : Word} (h : excWriteCode (n.input c) w = 0) : n.writeExc c w = { n with afe := { n.afe with
    excResult := 0
    excCh := c
    exc := tset {} n.afe.exc c { n.afeExc c with pend := some (w &&& 0x01FFFFFF) } } } := by
  simp only [writeExc, h, if_true]
  rfl

theorem writeExc_refused {c : Nat} {w : Word} (h : excWriteCode (n.input c) w ≠ 0) : n.writeExc c w = { n with afe := { n.afe with
    excResult := excWriteCode (n.input c) w
    excCh := c
    flags := setBit n.afe.flags 0 } } := by
  simp only [writeExc, h, if_false]
  rfl

/-- What the application of a write leaves in its channel and in the others. -/
theorem applyExc_afeExc {c : Nat} {i : InputCfg} {v : Word} (hi : n.input c = some i) (hv : (n.afeExc c).pend = some v)
    (hw : twf {} n.afe.exc = true) (k : Nat) : (n.applyExc c).afeExc k =
      if k = c then { excValues (n.afeExc c) v with code := appliedCode (excValues (n.afeExc c) v) } else n.afeExc k := by
  have hk : Within [.jrnl, .tide, .pair] (n.applyCode i (excValues (n.afeExc c) v)) (n.applyExc c) := by
    rw [applyExc_of hi hv]
    exact .pinnedChange (.stepOne .rfl)
  rw [afeExc_of_afe (hk.part .afe), applyCode, input_num hi]
  split
  next h =>
    rw [h]
    exact afeExc_setAfeExc_same hw c _
  next h => exact afeExc_setAfeExc_other hw _ h

/-- What a step of the loop leaves in its channel and in the others. -/
theorem excStep_afeExc {c : Nat} {i : InputCfg} (hi : n.input c = some i) (h : n.excStep c = (n.applyCode i (n.steppedExc c i)).pinnedChange c (n.afeExc c))
    (hw : twf {} n.afe.exc = true) (k : Nat) : (n.excStep c).afeExc k =
      if k = c then { n.steppedExc c i with code := appliedCode (n.steppedExc c i) } else n.afeExc k := by
  rw [h, pinnedChange_afeExc, applyCode, input_num hi]
  split
  next h =>
    rw [h]
    exact afeExc_setAfeExc_same hw c _
  next h => exact afeExc_setAfeExc_other hw _ h

end Sys2Proof.Machine.Node

open Sys2Proof Sys2Proof.Machine Sys2Proof.Machine.Node

/-- Settles O26: a write by its code, and its application and a step of the loop by what each leaves in its channel. -/
theorem excitationControl : Obligations.ExcitationControl := by
  unfold Obligations.ExcitationControl
  rintro ⟨n, q⟩ c w
  dsimp only
  refine ⟨fun h => ?_, fun h => ?_, fun h => ?_, fun i v hi hv hw => ?_, fun h => ?_, fun i hi => ⟨fun h => ?_, fun ha hf hc hh hl hw => ?_⟩⟩
  · exact .of_run (fun n => n.writeExc c.val w) rfl (writeExc_accepted h)
  · exact .of_run (fun n => n.writeExc c.val w) rfl (writeExc_refused h)
  · exact .of_run (fun n => n.applyExc c.val) rfl (applyExc_of_none h)
  · refine .of_run (fun n => n.applyExc c.val) rfl ?_
    have hb := applyExc_afeExc hi hv hw
    have hc := hb c.val
    rw [if_pos rfl] at hc
    rw [hc]
    refine ⟨rfl, rfl, rfl, rfl, rfl, fun h => ?_, fun h => ?_, fun ho => ?_, fun k hk => (hb k).trans (if_neg hk),
      (Within.applyExc .rfl : Within [.afe, .jrnl, .tide, .pair] n _).keeps⟩
    · simp [excValues, appliedCode, h]
    · simp [excValues, appliedCode, h]
    · rw [applyExc_of hi hv, pinnedChange_firstRecs]
      exact (congrArg (fun j : Jrnl => j.firstRecs) (stepOne_firstRecs (n := n.applyCode i _) _ ho) :)
  · exact .of_run (fun n => n.excStep c.val) rfl (excStep_of_none h)
  · exact .of_run (fun n => n.excStep c.val) rfl (excStep_of_not hi h)
  · refine .of_run (fun n => n.excStep c.val) rfl ?_
    have hb := excStep_afeExc hi (excStep_of hi ha hf hc hh hl) hw
    have he := hb c.val
    rw [if_pos rfl] at he
    rw [he]
    unfold steppedExc
    simp only [pinStep_want, pinStep_lastEpoch]
    refine ⟨trivial, trivial, ?_, fun hlo hhi => ?_, fun ho => ⟨?_, fun h7 => ?_⟩, fun k hk => (hb k).trans (if_neg hk),
      (Within.excStep .rfl : Within [.afe, .jrnl, .tide, .pair] n _).keeps⟩
    · exact appliedCode_pinStep (e := { n.afeExc c.val with want := _, snr := _, lastEpoch := [] }) _ hf
    · rw [pinStep_inside (e := { n.afeExc c.val with want := _, snr := _, lastEpoch := [] }) hlo hhi]
      exact ⟨rfl, rfl⟩
    · rw [pinStep_outside (e := { n.afeExc c.val with want := _, snr := _, lastEpoch := [] }) ho]
    · rw [pinStep_outside (e := { n.afeExc c.val with want := _, snr := _, lastEpoch := [] }) ho]
      simp [h7]

/-! The torn-read latches of the lanes (07 R249, R253, R258). -/

/-- Settles O27: each read is one update of its lane or channel; the window's is a split on the FIFO. -/
theorem laneReadsLatch : Obligations.LaneReadsLatch := by
  unfold Obligations.LaneReadsLatch
  rintro ⟨n, q⟩ l c
  dsimp only
  refine ⟨?_, ?_, fun h => ?_, fun r rest h hr => ?_, ?_, ?_⟩
  · exact .of_run (fun n => n.updLane l.val LaneSt.snap) rfl rfl
  · exact .of_run (fun n => n.updLane l.val fun s => { s with snapPend := false }) rfl rfl
  · refine .of_run (fun n => n.updLane l.val LaneSt.popFifo) rfl ?_
    simp only [updLane, LaneSt.popFifo, h]
  · refine .of_run (fun n => n.updLane l.val LaneSt.popFifo) rfl ?_
    simp only [updLane, LaneSt.popFifo, LaneSt.takePending, h]
    cases hm : (n.laneSt l.val).markerPend with
    | none => simp
    | some k => simp [hr]
  · exact .of_run (fun n => n.setLaneCh c.val { n.laneCh c.val with engHi := Node.highWord (n.laneCh c.val).eng.toNat }) rfl rfl
  · exact .of_run (fun n => n) rfl rfl

end

section
/-! The lane commands and the sync command (07 R240 to R242, R261, R264 to R266, Table 7.6). -/

namespace Sys2Proof.Machine.Node

variable {n : Node} {l : Nat}

theorem syncCause_of_runs (h : n.laneRuns l = true) : n.syncCause l = n.updLane l fun s => { s with sync := some (n.gridAfter l n.now) } :=
  if_pos h

theorem syncCause_of_not_runs (h : n.laneRuns l = false) : n.syncCause l = n := if_neg (by simp [h])

/-- Whether a lane runs is read from the lane's own state, the clocks, the power and the image. -/
theorem laneRuns_of {m : Node} (hs : (m.laneSt l).suspended = (n.laneSt l).suspended) (hf : (m.laneSt l).failed = (n.laneSt l).failed) (hi : m.img = n.img) (hc : m.clk = n.clk) (hp : m.pwr = n.pwr) :
    m.laneRuns l = n.laneRuns l := by
  have hg : m.laneCfg l = n.laneCfg l := congrFun (laneCfg_of_img hi) l
  have hr : m.slotRuns = n.slotRuns := by
    funext c s
    unfold slotRuns schedMode
    rw [hp]
  simp only [laneRuns, laneLive, laneUsed, hs, hf, hg, hr, hc, hp]

theorem flushed_of_none {x : LaneSt} (h : x.markerPend = none) : x.flushed = { x with fifo := [], dropped := 0 } := by
  simp only [LaneSt.flushed, LaneSt.takePending, h]

theorem flushed_of_some {x : LaneSt} {k : LaneRes} (h : x.markerPend = some k) :
    x.flushed = { x with fifo := [k], dropped := 0, markerPend := none } := by
  simp [LaneSt.flushed, LaneSt.takePending, h]

theorem laneResync_unused (h : n.laneUsed l = false) : n.laneResync l = n.laneRefused 1 := if_pos (by simp [h])
theorem laneFlush_unused (h : n.laneUsed l = false) : n.laneFlush l = n.laneRefused 1 := if_pos (by simp [h])
theorem laneSuspend_unused (h : n.laneUsed l = false) : n.laneSuspend l = n.laneRefused 1 := if_pos (by simp [h])
theorem laneResume_unused (h : n.laneUsed l = false) : n.laneResume l = n.laneRefused 1 := if_pos (by simp [h])

theorem laneSuspend_locked (h : n.laneUsed l = true) (hm : n.sec.maint = false) : n.laneSuspend l = n.laneRefused 3 := by
  rw [laneSuspend, if_neg (by simp [h]), if_pos (by simp [hm])]

theorem laneSuspend_stopping (h : n.laneUsed l = true) (hm : n.sec.maint = true) (hl : n.laneLive l = false ∨ (n.laneSt l).stopPend.isSome = true) :
    n.laneSuspend l = n.laneRefused 4 := by
  rw [laneSuspend, if_neg (by simp [h]), if_neg (by simp [hm]), if_pos (by rcases hl with hl | hl <;> simp [hl])]

theorem laneSuspend_done (h : n.laneUsed l = true) (hm : n.sec.maint = true) (hl : n.laneLive l = true) (hs : (n.laneSt l).stopPend = none) :
    n.laneSuspend l = ((n.updLane l fun s => { s with stopPend := some (n.nextGrid l n.now) }).laneRecordSync l 3).laneOk := by
  rw [laneSuspend, if_neg (by simp [h]), if_neg (by simp [hm]), if_neg (by simp [hl, hs])]

theorem laneResume_locked (h : n.laneUsed l = true) (hm : n.sec.maint = false) : n.laneResume l = n.laneRefused 3 := by
  simp [laneResume, h, hm]

theorem laneResume_running (h : n.laneUsed l = true) (hm : n.sec.maint = true) (hs : (n.laneSt l).suspended = false) (hf : (n.laneSt l).failed = false) :
    n.laneResume l = n.laneRefused 4 := by
  simp [laneResume, h, hm, hs, hf]

/-- A lane taken out of its suspension or failure. -/
def laneFreed (n : Node) (l : Nat) : Node := n.setLane l { n.laneSt l with suspended := false, failed := false }

theorem laneResume_done (h : n.laneUsed l = true) (hm : n.sec.maint = true) (hs : (n.laneSt l).suspended = true ∨ (n.laneSt l).failed = true) :
    n.laneResume l = (((n.laneFreed l).syncCause l).laneRecordSync l 4).laneOk := by
  unfold laneResume
  dsimp only
  rw [if_neg (by simp [h]), if_neg (by simp [hm]), if_neg (by rcases hs with hs | hs <;> simp [hs])]
  rfl

theorem laneSt_laneFreed (hw : twf {} n.lane.lanes = true) : (n.laneFreed l).laneSt l = { n.laneSt l with suspended := false, failed := false } :=
  tget_tset_same hw l _

/-- A lane that is resumed runs from a sync instant, where it runs. -/
theorem laneSt_syncCause_laneFreed (hw : twf {} n.lane.lanes = true) : ((n.laneFreed l).syncCause l).laneSt l = { n.laneSt l with
    suspended := false
    failed := false
    sync := if (n.laneFreed l).laneRuns l then some (n.gridAfter l n.rtc.now) else (n.laneSt l).sync } := by
  by_cases hr : (n.laneFreed l).laneRuns l = true
  · rw [syncCause_of_runs hr, laneSt_updLane (twf_tset hw l _), laneSt_laneFreed hw, if_pos hr]
    rfl
  · rw [syncCause_of_not_runs (by simpa using hr), laneSt_laneFreed hw, if_neg hr]

theorem laneStops_of {t : Nat} (h : (n.laneSt l).stopPend = some t) : n.laneStops l =
    ((n.setNow t).haltChain l).updLane l fun s => { s with suspended := true } := by
  simp only [laneStops, h]

theorem laneSt_laneStops {t : Nat} (h : (n.laneSt l).stopPend = some t) (hw : twf {} n.lane.lanes = true) : (n.laneStops l).laneSt l =
    { n.laneSt l with conv := none, routed := none, exc := none, chain := false, running := false, settling := false, sync := none,
                      stopPend := none, suspended := true } := by
  rw [laneStops_of h, laneSt_updLane (n := (n.setNow t).haltChain l) (twf_updLane (n := n.setNow t) hw l _), haltChain,
    laneSt_updLane (n := n.setNow t) hw]
  rfl

theorem laneSync_waiting {lanes : BitVec 8} (ring : Bool) (h0 : lanes ≠ 0) (h : n.lane.syncPend ≠ []) :
    n.laneSync lanes ring = n.mLane fun s => { s with syncResult := 2 } := by
  rw [laneSync, if_neg h0, if_pos (by simp [h])]

theorem laneSync_local {lanes : BitVec 8} (h0 : lanes ≠ 0) (h : n.lane.syncPend = []) : n.laneSync lanes false =
    n.mLane fun s => { s with syncResult := 0, syncTime := epochAfter n.now 1, syncPend := addSync s.syncPend ⟨lanes, false, epochAfter n.now 1⟩ } := by
  rw [laneSync, if_neg h0, if_neg (by simp [h])]
  rfl

theorem laneSync_outside {lanes : BitVec 8} (h0 : lanes ≠ 0) (h : n.lane.syncPend = []) (ht : n.tide.st ≠ .inserted) :
    n.laneSync lanes true = n.mLane fun s => { s with syncResult := 0 } := by
  have hs : (n.tide.st == .inserted) = false := by simpa using ht
  rw [laneSync, if_neg h0, if_neg (by simp [h])]
  simp [hs]

theorem laneSync_ring {lanes : BitVec 8} (h0 : lanes ≠ 0) (h : n.lane.syncPend = []) (ht : n.tide.st = .inserted) :
    n.laneSync lanes true = (n.sendFrame allNodes (.command (.laneSync lanes (epochAfter n.now 2)))).mLane fun s =>
      { s with syncResult := 0, syncTime := epochAfter n.now 2, syncPend := addSync s.syncPend ⟨lanes, true, epochAfter n.now 2⟩ } := by
  rw [laneSync, if_neg h0, if_neg (by simp [h])]
  simp [ht]

end Sys2Proof.Machine.Node

open Sys2Proof Sys2Proof.Machine Sys2Proof.Machine.Node

/-- Settles O28: each command by the branch its refusals leave, and what a resumed and a stopped lane holds. -/
theorem laneCommandsAndSync : Obligations.LaneCommandsAndSync := by
  unfold Obligations.LaneCommandsAndSync
  refine ⟨?_, ?_⟩
  · rintro ⟨n, q⟩ l
    dsimp only
    refine ⟨fun h c hc => ?_, fun h => ?_, fun h => ⟨fun hl => ?_, fun hl => ⟨?_, ?_⟩, fun hm => ?_, fun k hm => ?_, fun hm => ⟨?_, ?_⟩, fun hm hs => ?_,
      fun hm hl hs => ?_, fun hm hs hf => ?_, fun hm hs hw => ?_⟩, fun h => ?_, fun t h hw => ?_⟩
    · simp only [List.mem_cons, List.not_mem_nil, or_false] at hc
      rcases hc with rfl | rfl | rfl | rfl
      · exact .of_run (fun n => n.laneResync l.val) rfl (laneResync_unused h)
      · exact .of_run (fun n => n.laneFlush l.val) rfl (laneFlush_unused h)
      · exact .of_run (fun n => n.laneSuspend l.val) rfl (laneSuspend_unused h)
      · exact .of_run (fun n => n.laneResume l.val) rfl (laneResume_unused h)
    · exact .of_run (fun n => if n.laneLive l.val then n.updLane l.val fun s => { s with unlocked := true } else n) rfl (if_neg (by simp [h]))
    · refine .of_run (fun n => n.laneResync l.val) rfl ?_
      rw [laneResync, if_neg (by simp [h]), if_pos (by simp [hl])]
      rfl
    · refine .of_run (fun n => n.laneResync l.val) rfl ?_
      rw [laneResync, if_neg (by simp [h]), if_neg (by simp [hl])]
      rfl
    · exact .of_run (fun n => if n.laneLive l.val then n.updLane l.val fun s => { s with unlocked := true } else n) rfl (if_pos hl)
    · refine .of_run (fun n => n.laneFlush l.val) rfl ?_
      rw [laneFlush, if_neg (by simp [h]), updLane, flushed_of_none hm]
      rfl
    · refine .of_run (fun n => n.laneFlush l.val) rfl ?_
      rw [laneFlush, if_neg (by simp [h]), updLane, flushed_of_some hm]
      rfl
    · exact .of_run (fun n => n.laneSuspend l.val) rfl (laneSuspend_locked h hm)
    · exact .of_run (fun n => n.laneResume l.val) rfl (laneResume_locked h hm)
    · exact .of_run (fun n => n.laneSuspend l.val) rfl (laneSuspend_stopping h hm hs)
    · exact .of_run (fun n => n.laneSuspend l.val) rfl (laneSuspend_done h hm hl hs)
    · exact .of_run (fun n => n.laneResume l.val) rfl (laneResume_running h hm hs hf)
    · refine .of_run (fun n => n.laneResume l.val) rfl ?_
      rw [laneResume_done h hm hs]
      have hr : Within [.jrnl, .tide, .pair] ((n.laneFreed l.val).syncCause l.val) (((n.laneFreed l.val).syncCause l.val).laneRecordSync l.val 4) :=
        .laneRecordSync .rfl
      have hk : Within [.lane, .jrnl, .tide, .pair] n ((((n.laneFreed l.val).syncCause l.val).laneRecordSync l.val 4).laneOk) :=
        .laneOk (.laneRecordSync (.syncCause (.setLane .rfl)))
      have hx : ((((n.laneFreed l.val).syncCause l.val).laneRecordSync l.val 4).laneOk).laneSt l.val = _ :=
        (laneSt_of_lanes (congrArg Lanes.lanes (hr.part .lane) :) _).trans (laneSt_syncCause_laneFreed hw)
      refine ⟨congrArg LaneSt.suspended hx, congrArg LaneSt.failed hx, fun hy => ?_, rfl, hk.keeps⟩
      have hf : (n.laneFreed l.val).laneRuns l.val = true := by
        rw [← hy]
        have hl := n.laneSt_laneFreed (l := l.val) hw
        exact (laneRuns_of ((congrArg LaneSt.suspended hx).trans (congrArg LaneSt.suspended hl).symm)
          ((congrArg LaneSt.failed hx).trans (congrArg LaneSt.failed hl).symm) (hk.part .img) (hk.part .clk) (hk.part .pwr)).symm
      rw [hx, if_pos hf]
    · refine .of_run (fun n => n.laneStops l.val) rfl ?_
      simp only [laneStops, h]
    · refine .of_run (fun n => n.laneStops l.val) rfl ?_
      rw [laneSt_laneStops h hw]
      have hr : (n.laneStops l.val).rtc.now = max n.rtc.now t := by
        rw [laneStops_of h]
        rfl
      exact ⟨hr, rfl, rfl, rfl, rfl, rfl, rfl, rfl, rfl, (Within.laneStops .rfl : Within [.lane, .rtc] n _).keeps⟩
  · rintro ⟨n, q⟩ lanes ring
    dsimp only
    refine ⟨fun h => ?_, fun h0 h => ?_, fun h0 h hr => ?_, fun h0 h hr ht => ?_, fun h0 h hr ht => ?_⟩
    · exact .of_run (fun n => n.laneSync lanes ring) rfl (if_pos h)
    · exact .of_run (fun n => n.laneSync lanes ring) rfl (laneSync_waiting ring h0 h)
    · refine .of_run (fun n => n.laneSync lanes ring) rfl ?_
      rw [hr, laneSync_local h0 h]
      simp only [mLane, h]
      rfl
    · refine .of_run (fun n => n.laneSync lanes ring) rfl ?_
      rw [hr, laneSync_outside h0 h ht]
      rfl
    · refine .of_run (fun n => n.laneSync lanes ring) rfl ?_
      rw [hr, laneSync_ring h0 h ht]
      simp only [mLane, sendFrame, mTide, h]
      rfl

end

section
/-! A lane's reset at its sync instant, and the results it publishes, loses or discards (07 R233 to R246, R261 to R263). -/

namespace Sys2Proof.Machine.Node

variable {n : Node} {l : Nat}

theorem laneSt_updLane_other (h : twf {} n.lane.lanes = true) {k : Nat} (hk : k ≠ l) (f : LaneSt → LaneSt) :
    (n.updLane l f).laneSt k = n.laneSt k := tget_tset_other h hk _

theorem laneSt_setLane (h : twf {} n.lane.lanes = true) (v : LaneSt) : (n.setLane l v).laneSt l = v := tget_tset_same h l v

theorem laneCh_setLaneCh (h : twf {} n.lane.chans = true) (c : Nat) (v : LaneCh) : (n.setLaneCh c v).laneCh c = v := tget_tset_same h c v

theorem twf_setLaneCh (h : twf {} n.lane.chans = true) (c : Nat) (v : LaneCh) : twf {} (n.setLaneCh c v).lane.chans = true := twf_tset h c v

/-! The reset. -/

theorem syncAt_idle {t : Nat} (h : n.laneRuns l = false ∨ n.fieldHeld = true ∨ (n.laneSt l).sync ≠ some t ∧ (n.laneSt l).unlocked = false) :
    n.syncAt l t = n.setNow t := by
  refine if_neg ?_
  rcases h with h | h | ⟨hs, hu⟩
  · simp [h]
  · simp [h]
  · cases hx : (n.laneSt l).sync with
    | none => simp [hu]
    | some u =>
      have hut : (u == t) = false := by simpa [hx] using hs
      simp [hut]

theorem syncAt_due {t : Nat} (hr : n.laneRuns l = true) (hh : n.fieldHeld = false)
    (h : (n.laneSt l).sync = some t ∨
      ((n.laneSt l).sync = none ∧ (n.laneSt l).unlocked = true ∧ n.rateOff = false ∧ n.gridPeriod l ≠ 0 ∧ t % n.gridPeriod l = 0)) :
    n.syncAt l t = (n.setNow t).laneReset l t := by
  refine if_pos ?_
  rcases h with h | ⟨hs, hu, ho, hp, ht⟩
  · simp [h, hr, hh]
  · simp [hs, hu, ho, hp, ht, hr, hh]

/-- The lane's state as a reset begins it. -/
def restarted (n : Node) (l t : Nat) : LaneSt :=
  LaneSt.pushMarker { (n.laneSt l).openPath with
    sync := none
    resetAt := some t
    chain := !((n.soleInput l).any fun i => n.imuHolds i.num)
    settle := 3
    settling := true
    unlocked := (n.laneSt l).unlocked && n.rateOff
    slot := 0
    res := (n.laneSt l).res.map fun r => { r with flags := setBit r.flags flagSettling } } (syncMarker 0xFF t)

/-- The lane restarted, with SEQ of its channels. -/
def laneBegun (n : Node) (l t : Nat) : Node :=
  ((n.laneCfg l).elim [] (·.slots)).foldl resetChannel (n.updLane l fun _ => n.restarted l t)

theorem foldl_resetChannel_lanes (r : List Nat) : (r.foldl resetChannel n).lane.lanes = n.lane.lanes := by
  induction r generalizing n with
  | nil => rfl
  | cons c r ih => exact ih

theorem foldl_resetChannel_seq (r : List Nat) (hw : twf {} n.lane.chans = true) {c : Nat} (hc : c ∈ r ∨ (n.laneCh c).seq = 0) :
    ((r.foldl resetChannel n).laneCh c).seq = 0 := by
  induction r generalizing n with
  | nil => exact hc.resolve_left List.not_mem_nil
  | cons d r ih =>
    refine ih (twf_tset hw d _) ?_
    by_cases hd : c = d
    · rw [hd, laneCh_resetChannel hw]
      exact .inr rfl
    · have ho : (n.resetChannel d).laneCh c = n.laneCh c := tget_tset_other hw hd _
      rw [ho]
      exact hc.imp_left fun hm => (List.mem_cons.1 hm).resolve_left hd

theorem laneBegun_within (t : Nat) : Within [.lane] n (n.laneBegun l t) := .foldl _ (.updLane .rfl) fun _ _ => .resetChannel .rfl

theorem soleInput_laneBegun (t : Nat) : (n.laneBegun l t).soleInput l = n.soleInput l := by
  have hi : (n.laneBegun l t).img = n.img := (laneBegun_within t).part .img
  rw [soleInput, soleInput, laneCfg_of_img hi, input_of_img hi]

theorem laneSt_laneBegun (hw : twf {} n.lane.lanes = true) (t : Nat) : (n.laneBegun l t).laneSt l = n.restarted l t :=
  (laneSt_of_lanes (foldl_resetChannel_lanes _) l).trans (laneSt_updLane hw l _)

theorem laneSt_laneBegun_other (hw : twf {} n.lane.lanes = true) (t : Nat) {k : Nat} (hk : k ≠ l) :
    (n.laneBegun l t).laneSt k = n.laneSt k :=
  (laneSt_of_lanes (foldl_resetChannel_lanes _) k).trans (laneSt_updLane_other hw hk _)

theorem twf_laneBegun (hw : twf {} n.lane.lanes = true) (t : Nat) : twf {} (n.laneBegun l t).lane.lanes = true := by
  rw [laneBegun, foldl_resetChannel_lanes]
  exact twf_updLane hw l _

theorem laneReset_again {t : Nat} (h : (n.laneSt l).resetAt = some t) :
    n.laneReset l t = n.updLane l fun s => { s with sync := none } := if_pos h

theorem laneReset_eq {t : Nat} (h : (n.laneSt l).resetAt ≠ some t) : n.laneReset l t = (n.soleInput l).elim (n.laneBegun l t) fun i =>
    if n.imuHolds i.num then (n.laneBegun l t).takenOff i.num else (n.laneBegun l t).convert l i := by
  have hm : n.laneReset l t = (match (n.laneBegun l t).soleInput l with
      | none => n.laneBegun l t
      | some i => if (n.soleInput l).any (fun i => n.imuHolds i.num) then (n.laneBegun l t).takenOff i.num
        else (n.laneBegun l t).convert l i) := by
    rw [laneReset, if_neg h]
    rfl
  rw [hm, soleInput_laneBegun]
  cases n.soleInput l <;> rfl

/-- The lane's state as a reset begins it, but for its marker. -/
theorem restarted_eq (n : Node) (l t : Nat) : ∃ q k, n.restarted l t = { n.laneSt l with
    conv := none, routed := none, exc := none, sync := none, resetAt := some t
    chain := !((n.soleInput l).any fun i => n.imuHolds i.num)
    settle := 3, settling := true, unlocked := (n.laneSt l).unlocked && n.rateOff, slot := 0
    res := (n.laneSt l).res.map fun r => { r with flags := setBit r.flags flagSettling }
    fifo := q, markerPend := k } ∧
    ((n.laneSt l).fifo.length < 256 → q = (n.laneSt l).fifo ++ [syncMarker 0xFF t] ∧ k = (n.laneSt l).markerPend) ∧
    (256 ≤ (n.laneSt l).fifo.length → q = (n.laneSt l).fifo ∧ k = some (syncMarker 0xFF t)) := by
  by_cases h : (n.laneSt l).fifo.length < 256
  · exact ⟨_, _, if_pos h, fun _ => ⟨rfl, rfl⟩, fun hn => absurd h (Nat.not_lt.2 hn)⟩
  · exact ⟨_, _, if_neg h, fun hn => absurd hn h, fun _ => ⟨rfl, rfl⟩⟩

/-- A reset converts the lane's own input, unless the IMU holds it. -/
theorem laneReset_laneSt {t : Nat} (hw : twf {} n.lane.lanes = true) (h : (n.laneSt l).resetAt ≠ some t) :
    ∃ c ro e, (n.laneReset l t).laneSt l = { n.restarted l t with conv := c, routed := ro, exc := e } ∧
      (n.soleInput l = none → c = none ∧ ro = none) ∧
      (∀ i, n.soleInput l = some i → c = if n.imuHolds i.num then none else some i.num) := by
  obtain ⟨q, k, hq, -⟩ := restarted_eq n l t
  have hb := laneSt_laneBegun (l := l) hw t
  rw [laneReset_eq h]
  cases hs : n.soleInput l with
  | none =>
    refine ⟨none, none, none, hb.trans ?_, fun _ => ⟨rfl, rfl⟩, nofun⟩
    rw [hq]
  | some i =>
    rw [Option.elim_some]
    by_cases hi : n.imuHolds i.num = true
    · rw [if_pos hi]
      refine ⟨none, none, none, Eq.trans (b := (n.laneBegun l t).laneSt l) rfl (hb.trans ?_), nofun, fun j hj => ?_⟩
      · rw [hq]
      · cases hj
        rw [if_pos hi]
    · rw [if_neg hi]
      refine ⟨_, _, _, (convert_laneSt l i (twf_laneBegun hw t)).trans (by rw [hb]), nofun, fun j hj => ?_⟩
      cases hj
      rw [if_neg hi]

theorem laneReset_chans {t : Nat} (h : (n.laneSt l).resetAt ≠ some t) : (n.laneReset l t).lane.chans = (n.laneBegun l t).lane.chans := by
  rw [laneReset_eq h]
  cases n.soleInput l with
  | none => rfl
  | some i =>
    rw [Option.elim_some]
    split <;> rfl

theorem laneReset_other {t k : Nat} (hw : twf {} n.lane.lanes = true) (h : (n.laneSt l).resetAt ≠ some t) (hk : k ≠ l) :
    (n.laneReset l t).laneSt k = n.laneSt k := by
  have hb := laneSt_laneBegun_other (l := l) hw t hk
  rw [laneReset_eq h]
  cases n.soleInput l with
  | none => exact hb
  | some i =>
    rw [Option.elim_some]
    split
    · exact hb
    · exact (laneSt_updLane_other (twf_laneBegun hw t) hk _).trans hb

/-! A result. -/

variable {i : InputCfg} {c : Nat} {r : LaneRes}

/-- The end of a visit opens the path of a scanned lane. -/
theorem visitEnds_laneSt (hw : twf {} n.lane.lanes = true) : ∃ c ro e, (n.visitEnds l).laneSt l = { n.laneSt l with conv := c, routed := ro, exc := e } ∧
    ((n.laneCfg l).any (·.mode == 2) = true → c = none ∧ ro = none ∧ e = none) := by
  by_cases h : (n.laneCfg l).any (·.mode == 2) = true
  · rw [visitEnds, if_pos h, laneSt_updLane hw]
    exact ⟨none, none, none, rfl, fun _ => ⟨rfl, rfl, rfl⟩⟩
  · rw [visitEnds, if_neg h]
    exact ⟨_, _, _, rfl, fun hm => absurd hm h⟩

theorem visitEnds_chans : (n.visitEnds l).lane.chans = n.lane.chans := by
  unfold visitEnds
  split <;> rfl

theorem twf_visitEnds (hw : twf {} n.lane.lanes = true) : twf {} (n.visitEnds l).lane.lanes = true := by
  unfold visitEnds
  split
  · exact twf_updLane hw l _
  · exact hw

theorem registerResult_laneSt (hw : twf {} n.lane.lanes = true) : ∃ f w c' ro e, (n.registerResult l c r).laneSt l = { n.laneSt l with
    res := some { r with flags := f }, ovwr := w, running := true, settling := false, conv := c', routed := ro, exc := e } ∧
      ((n.laneCfg l).any (·.mode == 2) = true → c' = none ∧ ro = none ∧ e = none) := by
  obtain ⟨c', ro, e, he, hc⟩ := visitEnds_laneSt (n := n.setLane l { n.laneSt l with
    res := some { r with flags := putBit r.flags flagSkip ((n.laneCh c).resSkip || seqGap (n.laneCh c).resSeq r.seq) }
    ovwr := (n.laneSt l).ovwr || (n.laneSt l).snapPend
    running := true
    settling := false }) (l := l) (twf_tset hw l _)
  rw [laneSt_setLane hw] at he
  exact ⟨_, _, c', ro, e, he, hc⟩

theorem twf_registerResult (hw : twf {} n.lane.lanes = true) : twf {} (n.registerResult l c r).lane.lanes = true :=
  twf_visitEnds (n := n.setLane l _) (twf_tset hw l _)

theorem registerResult_chans : (n.registerResult l c r).lane.chans = tset {} n.lane.chans c { n.laneCh c with resSeq := some r.seq, resSkip := false } := by
  rw [registerResult, setLaneCh]
  exact congrArg (fun t : Tab LaneCh => tset {} t c { n.laneCh c with resSeq := some r.seq, resSkip := false }) visitEnds_chans

theorem fifoResult_full (h : 256 ≤ (n.laneSt l).fifo.length) : n.fifoResult l c r =
    ((n.setLane l { n.laneSt l with dropped := satInc 0xFFFF (n.laneSt l).dropped, ovf := true }).mLane
      fun g => { g with ovfFlags := setBit g.ovfFlags l }).setLaneCh c { n.laneCh c with fifoSkip := true } := if_pos (by simp [h])

theorem fifoResult_laneSt (hw : twf {} n.lane.lanes = true) : ∃ q d o, (n.fifoResult l c r).laneSt l = { n.laneSt l with fifo := q, dropped := d, ovf := o } ∧
    ((n.laneSt l).fifo.length < 256 → (n.laneSt l).markerPend = none → q.length = (n.laneSt l).fifo.length + 1) ∧
    (256 ≤ (n.laneSt l).fifo.length → q = (n.laneSt l).fifo ∧ d = satInc 0xFFFF (n.laneSt l).dropped ∧
      (n.fifoResult l c r).lane.ovfFlags = setBit n.lane.ovfFlags l) := by
  by_cases h : ((n.laneSt l).markerPend.isSome || decide (256 ≤ (n.laneSt l).fifo.length)) = true
  · rw [fifoResult, if_pos h]
    refine ⟨_, _, _, laneSt_setLane hw _, fun hl hm => ?_, fun _ => ⟨rfl, rfl, rfl⟩⟩
    have : ¬ 256 ≤ (n.laneSt l).fifo.length := by omega
    simp [hm, this] at h
  · rw [fifoResult, if_neg h]
    refine ⟨_, _, _, laneSt_setLane hw _, fun _ _ => List.length_append, fun hl => ?_⟩
    simp [hl] at h

theorem twf_fifoResult (hw : twf {} n.lane.lanes = true) : twf {} (n.fifoResult l c r).lane.lanes = true := by
  unfold fifoResult
  dsimp only
  split <;> exact twf_tset hw l _

theorem fifoResult_chans : ∃ v, (n.fifoResult l c r).lane.chans = tset {} n.lane.chans c v ∧ v.seq = (n.laneCh c).seq := by
  unfold fifoResult
  dsimp only
  split
  · exact ⟨_, rfl, rfl⟩
  · exact ⟨_, rfl, rfl⟩

/-- The engineering value of a result changes of the lanes its channel's value alone. -/
theorem engineer4_lane (m : Int) (o : Bool) (ts : Nat) : ∃ t, (n.engineer4 i m o ts).lane = { n.lane with chans := t } ∧
    (twf {} n.lane.chans = true → (tget {} t i.num).seq = (n.laneCh i.num).seq) := by
  unfold engineer4
  split
  · unfold classify
    split
    · exact ⟨_, rfl, fun _ => rfl⟩
    next cfg _ =>
      dsimp only
      have hr : ∀ (b : Bool) (d : Node) (x y : Nat), (if b = true then d.loopInRecord i.num x y else d).lane = d.lane := fun b d x y =>
        (Within.ite (.loopInRecord .rfl) .rfl : Within [.jrnl, .tide, .pair] d _).part .lane
      have hf : ∀ (b : Bool) (d : Node) (k : Nat), (if b = true then d.loopFlag k else d).lane = d.lane := fun b d k =>
        (Within.ite (.loopFlag .rfl) .rfl : Within [.loop] d _).part .lane
      rw [hr, hf, hf]
      split
      · exact ⟨_, rfl, fun _ => rfl⟩
      · refine ⟨_, rfl, fun hw => ?_⟩
        exact (congrArg LaneCh.seq (tget_tset_same hw i.num _)).trans rfl
  · exact ⟨_, rfl, fun hw => (congrArg LaneCh.seq (tget_tset_same hw i.num _)).trans rfl⟩

/-- What a published result leaves in its lane. -/
structure Published (n m : Node) (l c : Nat) (r : LaneRes) : Prop where
  lane : ∃ f w c' ro e q d o, m.laneSt l = { n.laneSt l with
    res := some { r with flags := f }, ovwr := w, running := true, settling := false, conv := c', routed := ro, exc := e,
    fifo := q, dropped := d, ovf := o } ∧
      ((n.laneCfg l).any (·.mode == 2) = true → c' = none ∧ ro = none ∧ e = none) ∧
      ((n.laneSt l).fifo.length < 256 → (n.laneSt l).markerPend = none → q.length = (n.laneSt l).fifo.length + 1) ∧
      (256 ≤ (n.laneSt l).fifo.length → q = (n.laneSt l).fifo ∧ d = satInc 0xFFFF (n.laneSt l).dropped ∧
        m.lane.ovfFlags = setBit n.lane.ovfFlags l)
  seq : (m.laneCh c).seq = (n.laneCh c).seq
  lanes : twf {} m.lane.lanes = true

theorem fifoResult_registerResult (hw : twf {} n.lane.lanes = true) (hv : twf {} n.lane.chans = true) :
    Published n ((n.registerResult l c r).fifoResult l c r) l c r := by
  obtain ⟨f, w, c', ro, e, hr, hc⟩ := registerResult_laneSt (c := c) (r := r) (l := l) hw
  obtain ⟨q, d, o, hq, h1, h2⟩ := fifoResult_laneSt (c := c) (r := r) (l := l) (n := n.registerResult l c r) (twf_registerResult hw)
  obtain ⟨v, hch, hseq⟩ := fifoResult_chans (c := c) (r := r) (l := l) (n := n.registerResult l c r)
  have ho : (n.registerResult l c r).lane.ovfFlags = n.lane.ovfFlags := by
    unfold registerResult visitEnds
    dsimp only
    split <;> rfl
  rw [hr] at hq h1 h2
  rw [ho] at h2
  refine ⟨⟨f, w, c', ro, e, q, d, o, hq, hc, h1, h2⟩, ?_, twf_fifoResult (twf_registerResult hw)⟩
  have hreg : (n.registerResult l c r).laneCh c = { n.laneCh c with resSeq := some r.seq, resSkip := false } := by
    rw [laneCh, registerResult_chans]
    exact tget_tset_same hv c _
  rw [laneCh, hch, registerResult_chans, tget_tset_same (twf_tset hv c _), hseq, hreg]

theorem Published.of_lane {m k : Node} (h : Published n m l c r) {t : Tab LaneCh} (hl : k.lane = { m.lane with chans := t })
    (hs : (tget {} t c).seq = (m.laneCh c).seq) : Published n k l c r := by
  obtain ⟨⟨f, w, c', ro, e, q, d, o, hq, hc, h1, h2⟩, hseq, hw⟩ := h
  have hx : k.laneSt l = m.laneSt l := laneSt_of_lanes (congrArg Lanes.lanes hl :) l
  have ho : k.lane.ovfFlags = m.lane.ovfFlags := (congrArg Lanes.ovfFlags hl :)
  refine ⟨⟨f, w, c', ro, e, q, d, o, hx.trans hq, hc, h1, ho.symm ▸ h2⟩, ?_, ?_⟩
  · rw [laneCh, hl]
    exact hs.trans hseq
  · rw [hl]
    exact hw

/-- How far before its output the window of a result begins, halved. -/
def lagOf (n : Node) (lc : LaneCfg) : Nat := if n.fieldCoasts then lc.fdPeriod * 17 / 4 else lc.fdPeriod * 17 / 10

/-- The result that an output becomes. -/
def resultOf (n : Node) (l : Nat) (lc : LaneCfg) (i : InputCfg) (raw : Int) (o : Bool) (t : Nat) : LaneRes :=
  ⟨BitVec.ofInt 32 (clamp26 (n.measurand i raw (t - 2 * n.lagOf lc))), (n.laneCh i.num).seq,
    putBit (putBit (putBit (putBit (0 : BitVec 8) flagFault (n.frontFault i (t - 2 * n.lagOf lc))) flagOverrange (o || !inRange i.type raw))
      flagCoast n.fieldCoasts) flagUnlocked (n.laneSt l).unlocked,
    i.num, max (t - n.lagOf lc) ((n.laneSt l).res.elim 0 (·.ts))⟩

/-- The channel takes its next number. -/
def numbered (n : Node) (c : Nat) (r : LaneRes) : Node :=
  n.setLaneCh c { n.laneCh c with seq := ((n.laneCh c).seq + 1) % 65536, last := some r }

/-- A result in its lane's register and FIFO, and its engineering value. -/
def shownResult (n : Node) (l : Nat) (lc : LaneCfg) (i : InputCfg) (raw : Int) (o : Bool) (t : Nat) : Node :=
  (((n.numbered i.num (n.resultOf l lc i raw o t)).registerResult l i.num (n.resultOf l lc i raw o t)).fifoResult l i.num
    (n.resultOf l lc i raw o t)).engineer4 i (clamp26 (n.measurand i raw (t - 2 * n.lagOf lc))) (o || !inRange i.type raw)
      (n.resultOf l lc i raw o t).ts

theorem publish_lane (lc : LaneCfg) (raw : Int) (o : Bool) (t : Nat) : (n.publish l lc i raw o t).lane = (n.shownResult l lc i raw o t).lane := by
  show Node.lane (if ((n.shownResult l lc i raw o t).afeExc i.num).compliance then _ else _) = _
  split <;> rfl

theorem publish_published (lc : LaneCfg) (raw : Int) (o : Bool) (t : Nat) (hw : twf {} n.lane.lanes = true) (hv : twf {} n.lane.chans = true) :
    Published (n.numbered i.num (n.resultOf l lc i raw o t)) (n.publish l lc i raw o t) l i.num (n.resultOf l lc i raw o t) := by
  have hn : twf {} (n.numbered i.num (n.resultOf l lc i raw o t)).lane.chans = true := twf_setLaneCh hv i.num _
  have hp := fifoResult_registerResult (n := n.numbered i.num (n.resultOf l lc i raw o t)) (l := l) (c := i.num) (r := n.resultOf l lc i raw o t) hw hn
  obtain ⟨t', ht, hs⟩ := engineer4_lane (n := ((n.numbered i.num (n.resultOf l lc i raw o t)).registerResult l i.num (n.resultOf l lc i raw o t)).fifoResult l i.num
    (n.resultOf l lc i raw o t)) (i := i) (clamp26 (n.measurand i raw (t - 2 * n.lagOf lc))) (o || !inRange i.type raw) (n.resultOf l lc i raw o t).ts
  refine hp.of_lane ((publish_lane lc raw o t).trans ht) (hs ?_)
  obtain ⟨v, hch, -⟩ := fifoResult_chans (c := i.num) (r := n.resultOf l lc i raw o t) (l := l)
    (n := (n.numbered i.num (n.resultOf l lc i raw o t)).registerResult l i.num (n.resultOf l lc i raw o t))
  rw [hch, registerResult_chans]
  exact twf_tset (twf_tset hn _ _) _ _

/-! The excitation of a sole input, and a parity error. -/

theorem takeCode_of_same (h : i.sole = false ∨ (n.laneSt l).exc = none ∨ (n.laneSt l).exc = some (n.afeExc i.num).code) : n.takeCode l i = n := by
  refine if_neg ?_
  rcases h with h | h | h <;> simp [h]

theorem takeCode_of_new {v : Nat} (hs : i.sole = true) (hv : (n.laneSt l).exc = some v) (hne : v ≠ (n.afeExc i.num).code) :
    n.takeCode l i = (n.updLane l fun s => { s with exc := some (n.afeExc i.num).code }).syncCause l :=
  if_pos (by simpa [hs, hv] using hne)

theorem syncCause_laneSt (hw : twf {} n.lane.lanes = true) : ∃ y, (n.syncCause l).laneSt l = { n.laneSt l with sync := y } ∧
    ((n.laneSt l).sync.isSome = true → y.isSome = true) ∧ (n.laneRuns l = true → y.isSome = true) := by
  by_cases h : n.laneRuns l = true
  · rw [syncCause_of_runs h, laneSt_updLane hw]
    exact ⟨_, rfl, fun _ => rfl, fun _ => rfl⟩
  · rw [syncCause_of_not_runs (by simpa using h)]
    exact ⟨_, rfl, id, fun hr => absurd hr h⟩

theorem syncCause_rest : (n.syncCause l).lane = { n.lane with lanes := (n.syncCause l).lane.lanes } := by
  unfold syncCause
  split <;> rfl

/-- The code of a sole input's excitation changes of the lanes its lane's excitation, and the sync that it causes. -/
theorem takeCode_lane (hw : twf {} n.lane.lanes = true) : ∃ e y, (n.takeCode l i).laneSt l = { n.laneSt l with exc := e, sync := y } ∧
    ((n.laneSt l).exc = none → e = none) ∧ ((n.laneSt l).sync.isSome = true → y.isSome = true) ∧
    (n.takeCode l i).lane = { n.lane with lanes := (n.takeCode l i).lane.lanes } := by
  by_cases h : (i.sole && (n.laneSt l).exc.any (· != (n.afeExc i.num).code)) = true
  · rw [takeCode, if_pos h]
    obtain ⟨y, hy, h1, -⟩ := syncCause_laneSt (l := l) (n := n.updLane l fun s => { s with exc := some (n.afeExc i.num).code }) (twf_updLane hw l _)
    rw [laneSt_updLane hw] at hy h1
    exact ⟨_, y, hy, fun he => by simp [he] at h, h1, syncCause_rest⟩
  · rw [takeCode, if_neg h]
    exact ⟨_, _, rfl, id, id, rfl⟩

/-- The parity errors of the last minute, the new one among them. -/
def parityAt60 (n : Node) (l t : Nat) : List Nat := t :: (n.laneSt l).parityAt.filter fun x => decide (t < x + 60000000)

/-- A parity error, before the third of a minute fails the lane. -/
def parityNoted (n : Node) (l t : Nat) : Node :=
  ((((n.setLane l { n.laneSt l with resync := satInc 0xFF (n.laneSt l).resync, parityAt := n.parityAt60 l t }).mLane
    fun g => { g with parityFlags := setBit g.parityFlags l }).syncCause l).laneRecordSync l 1)

theorem parityError_few {t : Nat} (h : (n.parityAt60 l t).length < 3) : n.parityError l t = n.parityNoted l t := if_pos h

theorem parityError_third {t : Nat} (h : ¬ (n.parityAt60 l t).length < 3) : n.parityError l t =
    (((n.parityNoted l t).haltChain l).updLane l fun s => { s with failed := true, parityAt := [] }).laneRecordSync l 2 := if_neg h

theorem laneRecordSync_lane (e : Nat) : (n.laneRecordSync l e).lane = n.lane :=
  (Within.laneRecordSync .rfl : Within [.jrnl, .tide, .pair] n _).part .lane

/-- The count of the error, before its sync cause. -/
def parityCounted (n : Node) (l t : Nat) : Node :=
  (n.setLane l { n.laneSt l with resync := satInc 0xFF (n.laneSt l).resync, parityAt := n.parityAt60 l t }).mLane
    fun g => { g with parityFlags := setBit g.parityFlags l }

theorem parityNoted_lane (t : Nat) : (n.parityNoted l t).lane = ((n.parityCounted l t).syncCause l).lane := laneRecordSync_lane 1

theorem parityNoted_laneSt (hw : twf {} n.lane.lanes = true) (hr : n.laneRuns l = true) (t : Nat) : ∃ y, (n.parityNoted l t).laneSt l =
    { n.laneSt l with resync := satInc 0xFF (n.laneSt l).resync, parityAt := n.parityAt60 l t, sync := y } ∧ y.isSome = true := by
  obtain ⟨y, hy, -, h2⟩ := syncCause_laneSt (l := l) (n := n.parityCounted l t) (twf_tset hw l _)
  have hc : (n.parityCounted l t).laneSt l = { n.laneSt l with resync := satInc 0xFF (n.laneSt l).resync, parityAt := n.parityAt60 l t } :=
    tget_tset_same hw l _
  refine ⟨y, (laneSt_of_lanes (congrArg Lanes.lanes (parityNoted_lane t) :) l).trans (hy.trans ?_), h2 ?_⟩
  · rw [hc]
  · rw [← hr]
    exact laneRuns_of (congrArg LaneSt.suspended hc :) (congrArg LaneSt.failed hc :) rfl rfl rfl

theorem twf_parityNoted (hw : twf {} n.lane.lanes = true) (t : Nat) : twf {} (n.parityNoted l t).lane.lanes = true := by
  rw [parityNoted_lane, syncCause]
  split
  · exact twf_updLane (n := n.parityCounted l t) (twf_tset hw l _) l _
  · exact twf_tset hw l _

/-- What a parity error leaves in its lane: a sync cause, or the third of a minute the lane's failure. -/
theorem parityError_laneSt (hw : twf {} n.lane.lanes = true) (hr : n.laneRuns l = true) (t : Nat) :
    twf {} (n.parityError l t).lane.lanes = true ∧ (n.parityError l t).lane.chans = n.lane.chans ∧ (n.parityError l t).lane.parityFlags = setBit n.lane.parityFlags l ∧
    ((n.parityError l t).laneSt l).resync = satInc 0xFF (n.laneSt l).resync ∧ ((n.parityError l t).laneSt l).fifo = (n.laneSt l).fifo ∧
    ((n.parityError l t).laneSt l).res = (n.laneSt l).res ∧
    ((n.parityAt60 l t).length < 3 → ((n.parityError l t).laneSt l).failed = (n.laneSt l).failed ∧ ((n.parityError l t).laneSt l).sync.isSome = true) ∧
    (¬ (n.parityAt60 l t).length < 3 → ((n.parityError l t).laneSt l).failed = true ∧ ((n.parityError l t).laneSt l).chain = false) := by
  obtain ⟨y, hy, hs⟩ := parityNoted_laneSt hw hr t
  have hf : (n.parityNoted l t).lane.chans = n.lane.chans ∧ (n.parityNoted l t).lane.parityFlags = setBit n.lane.parityFlags l := by
    rw [parityNoted_lane, syncCause]
    split <;> exact ⟨rfl, rfl⟩
  by_cases h : (n.parityAt60 l t).length < 3
  · rw [parityError_few h, hy]
    exact ⟨twf_parityNoted hw t, hf.1, hf.2, rfl, rfl, rfl, fun _ => ⟨rfl, hs⟩, fun hn => absurd h hn⟩
  · rw [parityError_third h]
    have hx := (laneSt_of_lanes (congrArg Lanes.lanes (laneRecordSync_lane (l := l)
      (n := ((n.parityNoted l t).haltChain l).updLane l fun s => { s with failed := true, parityAt := [] }) 2) :) l).trans
        (laneSt_updLane (n := (n.parityNoted l t).haltChain l) (twf_updLane (twf_parityNoted hw t) l _) l _)
    rw [haltChain, laneSt_updLane (twf_parityNoted hw t), hy] at hx
    rw [haltChain, hx, laneRecordSync_lane]
    exact ⟨twf_updLane (twf_updLane (twf_parityNoted hw t) l _) l _, hf.1, hf.2, rfl, rfl, rfl, fun hn => absurd hn h, fun _ => ⟨rfl, rfl⟩⟩

theorem takeCode_new_laneSt (hw : twf {} n.lane.lanes = true) (hr : n.laneRuns l = true) {v : Nat} (hs : i.sole = true)
    (hv : (n.laneSt l).exc = some v) (hne : v ≠ (n.afeExc i.num).code) : ∃ y, (n.takeCode l i).laneSt l =
      { n.laneSt l with exc := some (n.afeExc i.num).code, sync := y } ∧ y.isSome = true := by
  rw [takeCode_of_new hs hv hne]
  obtain ⟨y, hy, -, h2⟩ := syncCause_laneSt (l := l) (n := n.updLane l fun s => { s with exc := some (n.afeExc i.num).code }) (twf_updLane hw _ _)
  have hc := laneSt_updLane (l := l) hw fun s => { s with exc := some (n.afeExc i.num).code }
  rw [hc] at hy
  exact ⟨y, hy, h2 (hr ▸ laneRuns_of (congrArg LaneSt.suspended hc :) (congrArg LaneSt.failed hc :) rfl rfl rfl)⟩

/-! An output of the lane. -/

theorem output_idle {raw : Int} {o p : Bool} {t : Nat}
    (h : n.laneRuns l = false ∨ (n.laneSt l).chain = false ∨ n.fieldHeld = true ∨ (n.laneSt l).conv = none) : n.output l raw o p t = n.setNow t := by
  by_cases hb : (!(n.setNow t).laneRuns l || !((n.setNow t).laneSt l).chain || (n.setNow t).fieldHeld) = true
  · exact if_pos hb
  · have hc : ((n.setNow t).laneSt l).conv = none := by
      rcases h with h | h | h | h
      · exact absurd (by rw [show (n.setNow t).laneRuns l = false from h]; rfl) hb
      · exact absurd (by rw [show ((n.setNow t).laneSt l).chain = false from h]; simp) hb
      · exact absurd (by rw [show (n.setNow t).fieldHeld = true from h]; simp) hb
      · exact h
    rw [output, if_neg hb]
    simp only [hc]
    cases (n.setNow t).laneCfg l <;> rfl

/-- The output of a settled or settling lane, before a parity error and the code. -/
def settledOutput (n : Node) (l : Nat) (lc : LaneCfg) (i : InputCfg) (raw : Int) (o p : Bool) : Node :=
  if (n.laneSt l).settle ≠ 0 then n.updLane l fun s => { s with settle := s.settle - 1 }
  else if p then n.outputLost l i.num
  else n.publish l lc i raw o n.now

theorem output_of {raw : Int} {o p : Bool} {t : Nat} {lc : LaneCfg} (hr : n.laneRuns l = true) (hc : (n.laneSt l).chain = true)
    (hh : n.fieldHeld = false) (hl : n.laneCfg l = some lc) (hi : (n.laneSt l).conv.bind n.input = some i) : n.output l raw o p t =
      (if p then ((n.setNow t).settledOutput l lc i raw o p).parityError l ((n.setNow t).settledOutput l lc i raw o p).now
        else (n.setNow t).settledOutput l lc i raw o p).takeCode l i := by
  have hb : ¬ (!(n.setNow t).laneRuns l || !((n.setNow t).laneSt l).chain || (n.setNow t).fieldHeld) = true := by
    rw [show (n.setNow t).laneRuns l = true from hr, show ((n.setNow t).laneSt l).chain = true from hc, show (n.setNow t).fieldHeld = false from hh]
    decide
  have hl' : (n.setNow t).laneCfg l = some lc := hl
  have hi' : ((n.setNow t).laneSt l).conv.bind (n.setNow t).input = some i := hi
  rw [output, if_neg hb]
  simp only [hl', hi']
  rfl

theorem settledOutput_settling (lc : LaneCfg) (raw : Int) (o p : Bool) (h : (n.laneSt l).settle ≠ 0) :
    n.settledOutput l lc i raw o p = n.updLane l fun s => { s with settle := s.settle - 1 } := if_pos h

theorem settledOutput_good (lc : LaneCfg) (raw : Int) (o : Bool) (h : (n.laneSt l).settle = 0) :
    n.settledOutput l lc i raw o false = n.publish l lc i raw o n.now := by
  rw [settledOutput, if_neg (not_not.2 h), if_neg (by decide)]

theorem settledOutput_within (lc : LaneCfg) (raw : Int) (o : Bool) : Within [.lane] n (n.settledOutput l lc i raw o true) := by
  unfold settledOutput
  exact .ite (.updLane .rfl) (.outputLost .rfl)

/-- An output that is lost or discarded: its lane but for its path and its settling, and its channel's number. -/
theorem settledOutput_parity (lc : LaneCfg) (raw : Int) (o : Bool) (hw : twf {} n.lane.lanes = true) (hv : twf {} n.lane.chans = true) :
    ∃ c ro e st, (n.settledOutput l lc i raw o true).laneSt l = { n.laneSt l with conv := c, routed := ro, exc := e, settle := st } ∧
      twf {} (n.settledOutput l lc i raw o true).lane.lanes = true ∧
      (n.settledOutput l lc i raw o true).lane.parityFlags = n.lane.parityFlags ∧
      Within [.lane] n (n.settledOutput l lc i raw o true) ∧
      ((n.laneSt l).settle = 0 → ((n.settledOutput l lc i raw o true).laneCh i.num).seq = ((n.laneCh i.num).seq + 1) % 65536) := by
  by_cases h : (n.laneSt l).settle ≠ 0
  · rw [settledOutput, if_pos h]
    exact ⟨_, _, _, _, laneSt_updLane hw _ _, twf_updLane hw _ _, rfl, .updLane .rfl, fun h0 => absurd h0 h⟩
  · rw [settledOutput, if_neg h, if_pos rfl]
    obtain ⟨c, ro, e, hv', -⟩ := visitEnds_laneSt (l := l) (n := n.setLaneCh i.num { n.laneCh i.num with seq := ((n.laneCh i.num).seq + 1) % 65536 }) hw
    refine ⟨c, ro, e, _, hv', twf_visitEnds (n := n.setLaneCh i.num _) hw, ?_, .outputLost .rfl, fun _ => ?_⟩
    · unfold outputLost visitEnds
      dsimp only
      split <;> rfl
    · have hc : (n.outputLost l i.num).laneCh i.num = _ := (laneCh_of_chans visitEnds_chans i.num).trans (laneCh_setLaneCh hv i.num _)
      rw [hc]

/-- An output with a parity error. -/
theorem lostOutput_laneSt (lc : LaneCfg) (raw : Int) (o : Bool) (hw : twf {} n.lane.lanes = true) (hv : twf {} n.lane.chans = true)
    (hr : n.laneRuns l = true) {m : Node} (hm : m = ((n.settledOutput l lc i raw o true).parityError l (n.settledOutput l lc i raw o true).now).takeCode l i) :
    m.lane.parityFlags = setBit n.lane.parityFlags l ∧ (m.laneSt l).resync = satInc 0xFF (n.laneSt l).resync ∧
      (m.laneSt l).fifo = (n.laneSt l).fifo ∧ (m.laneSt l).res = (n.laneSt l).res ∧
      ((n.laneSt l).settle = 0 → (m.laneCh i.num).seq = ((n.laneCh i.num).seq + 1) % 65536) ∧
      ((n.parityAt60 l n.now).length < 3 → (m.laneSt l).failed = (n.laneSt l).failed ∧ (m.laneSt l).sync.isSome = true) ∧
      (¬ (n.parityAt60 l n.now).length < 3 → (m.laneSt l).failed = true ∧ (m.laneSt l).chain = false) := by
  obtain ⟨c, ro, e, st, hset, hws, hpf, hwith, hseq⟩ := settledOutput_parity (l := l) (i := i) lc raw o hw hv
  generalize n.settledOutput l lc i raw o true = k at *
  have hnow : k.now = n.now := (congrArg Rtc.now (hwith.part .rtc) :)
  have hat : k.parityAt60 l n.now = n.parityAt60 l n.now := by
    rw [parityAt60, hset]
    rfl
  have hrk : k.laneRuns l = true := hr ▸ laneRuns_of (congrArg LaneSt.suspended hset :) (congrArg LaneSt.failed hset :)
    (hwith.part .img) (hwith.part .clk) (hwith.part .pwr)
  obtain ⟨hwp, hch, hflags, hres, hfifo, hre, hfew, hmany⟩ := parityError_laneSt hws hrk k.now
  rw [hnow] at hm hwp hch hflags hres hfifo hre hfew hmany
  rw [hat, hset] at hfew
  rw [hat] at hmany
  rw [hset] at hres hfifo hre
  obtain ⟨e', y, hx, -, hy, hrest⟩ := takeCode_lane (i := i) hwp
  have hchans : m.laneCh i.num = k.laneCh i.num := laneCh_of_chans ((congrArg Lanes.chans (hm ▸ hrest) :).trans (hm ▸ hch)) _
  rw [hm, hx]
  refine ⟨?_, hres, hfifo, hre, fun h0 => ?_, fun h => ⟨(hfew h).1, hy (hfew h).2⟩, hmany⟩
  · rw [hrest]
    exact hflags.trans (congrArg (setBit · l) hpf)
  · rw [← hm, hchans]
    exact hseq h0

end Sys2Proof.Machine.Node

open Sys2Proof Sys2Proof.Machine Sys2Proof.Machine.Node

/-- Settles O29: the reset by its lane's own input, and an output by whether it settles, is lost, or is published. -/
theorem laneResetAndResults : Obligations.LaneResetAndResults := by
  unfold Obligations.LaneResetAndResults
  refine ⟨?_, ?_⟩
  · rintro ⟨n, q⟩ l t
    dsimp only
    refine ⟨fun h => ?_, fun hr hh hd => ⟨fun h => ?_, fun h hw hv => ?_⟩⟩
    · exact .of_run (fun n => n.syncAt l.val t) rfl (syncAt_idle h)
    · refine .of_run (fun n => n.syncAt l.val t) rfl ?_
      rw [syncAt_due hr hh hd]
      exact laneReset_again h
    · refine .of_run (fun n => n.syncAt l.val t) rfl ?_
      rw [syncAt_due hr hh hd]
      obtain ⟨c, ro, e, hx, hnone, hsome⟩ := laneReset_laneSt (n := n.setNow t) (l := l.val) hw h
      obtain ⟨f, k, hf, hlt, hge⟩ := restarted_eq (n.setNow t) l.val t
      rw [hx, hf]
      refine ⟨rfl, rfl, rfl, rfl, rfl, rfl, fun hs => ⟨?_, hnone hs⟩, fun i hi => ⟨?_, hsome i hi⟩, hlt, hge, fun lc c hlc hc => ?_,
        fun k hk => laneReset_other (n := n.setNow t) hw h hk, ?_, (Within.laneReset (.setNow .rfl) : Within [.lane, .rtc, .afe] n _).keeps⟩
      · show (!((n.soleInput l.val).any fun i => n.imuHolds i.num)) = true
        rw [hs]
        rfl
      · show (!((n.soleInput l.val).any fun i => n.imuHolds i.num)) = !n.imuHolds i.num
        rw [hi]
        rfl
      · refine (congrArg LaneCh.seq (laneCh_of_chans (laneReset_chans (n := n.setNow t) h) c)).trans ?_
        refine foldl_resetChannel_seq (n := (n.setNow t).updLane l.val _) _ hv (.inl ?_)
        have hl : (n.setNow t).laneCfg l.val = some lc := hlc
        rw [hl]
        exact hc
      · exact (congrArg Rtc.now ((Within.laneReset .rfl : Within [.lane, .afe] (n.setNow t) _).part .rtc) :)
  · rintro ⟨n, q⟩ l raw ovr t lc i
    dsimp only
    refine ⟨fun h p => ?_, fun hw hv hr hc hh hl hi => ⟨?_, fun hs h => ?_, fun hs hsole hx => ?_, fun hs => ?_⟩⟩
    · exact .of_run (fun n => n.output l.val raw.toInt ovr p t) rfl (output_idle h)
    · refine .of_run (fun n => n.output l.val raw.toInt ovr true t) rfl ?_
      rw [output_of hr hc hh hl hi, if_pos rfl]
      obtain ⟨hflags, hres, hfifo, hre, hseq, hfew, hmany⟩ := lostOutput_laneSt (n := n.setNow t) (l := l.val) (i := i) lc raw.toInt ovr hw hv hr rfl
      have hlen : ((n.setNow t).parityAt60 l.val (n.setNow t).now).length =
        ((n.laneSt l.val).parityAt.filter fun y => decide (max n.rtc.now t < y + 60000000)).length + 1 := List.length_cons
      have hwith : Within [.lane, .rtc] n ((n.setNow t).settledOutput l.val lc i raw.toInt ovr true) :=
        (settledOutput_within _ _ _).after (.setNow .rfl) (by decide)
      refine ⟨hflags, hres, hfifo, hre, hseq, fun h => hfew (by omega), fun h => hmany (by omega), ?_⟩
      exact (Within.takeCode (.parityError (hwith.after .rfl (by decide))) : Within [.lane, .rtc, .jrnl, .tide, .pair] n _).keeps
    · refine .of_run (fun n => n.output l.val raw.toInt ovr false t) rfl ?_
      rw [output_of hr hc hh hl hi, if_neg (by decide), settledOutput_settling (n := n.setNow t) _ _ _ _ hs]
      refine takeCode_of_same ?_
      rw [laneSt_updLane (n := n.setNow t) hw]
      exact h
    · refine .of_run (fun n => n.output l.val raw.toInt ovr false t) rfl ?_
      obtain ⟨v, hv', hne⟩ := hx
      rw [output_of hr hc hh hl hi, if_neg (by decide), settledOutput_settling (n := n.setNow t) _ _ _ _ hs]
      have hset := laneSt_updLane (n := n.setNow t) (l := l.val) hw fun s => { s with settle := s.settle - 1 }
      obtain ⟨y, hy, hsome⟩ := takeCode_new_laneSt (i := i) (n := (n.setNow t).updLane l.val fun s => { s with settle := s.settle - 1 })
        (l := l.val) (twf_updLane (n := n.setNow t) hw _ _)
        (hr ▸ laneRuns_of (congrArg LaneSt.suspended hset :) (congrArg LaneSt.failed hset :) rfl rfl rfl) hsole (by rw [hset]; exact hv') hne
      rw [hset] at hy
      rw [hy]
      exact ⟨rfl, rfl, hsome, (Within.takeCode (.updLane (.setNow .rfl)) : Within [.lane, .rtc] n _).keeps⟩
    · refine .of_run (fun n => n.output l.val raw.toInt ovr false t) rfl ?_
      rw [output_of hr hc hh hl hi, if_neg (by decide), settledOutput_good (n := n.setNow t) _ _ _ hs]
      obtain ⟨⟨f, w, c', ro, e, q', d, o, hp, hpath, hq1, hq2⟩, hseq, hlanes⟩ := publish_published (n := n.setNow t) (l := l.val) (i := i) lc raw.toInt ovr (n.setNow t).now hw hv
      obtain ⟨e', y, hx, hnone, -, hrest⟩ := takeCode_lane (i := i) (l := l.val)
        (n := (n.setNow t).publish l.val lc i raw.toInt ovr (n.setNow t).now) hlanes
      have hchans : (((n.setNow t).publish l.val lc i raw.toInt ovr (n.setNow t).now).takeCode l.val i).laneCh i.num = _ :=
        laneCh_of_chans (congrArg Lanes.chans hrest :) _
      rw [hp] at hnone hx
      rw [hx, hchans]
      refine ⟨?_, rfl, rfl, ⟨_, rfl, rfl, rfl, fun h4 => ?_, rfl⟩, fun hm => ?_, hq1, fun hf => ⟨(hq2 hf).1, (hq2 hf).2.1, ?_⟩⟩
      · exact hseq.trans (congrArg LaneCh.seq (laneCh_setLaneCh (n := n.setNow t) hv i.num _))
      · exact congrArg (fun m => BitVec.ofInt 32 (clamp26 m)) (if_neg h4)
      · have hl' : (((n.setNow t).numbered i.num ((n.setNow t).resultOf l.val lc i raw.toInt ovr (n.setNow t).now)).laneCfg l.val).any (·.mode == 2) = true := by
          rw [show ((n.setNow t).numbered i.num ((n.setNow t).resultOf l.val lc i raw.toInt ovr (n.setNow t).now)).laneCfg l.val = some lc from hl]
          simp [hm]
        obtain ⟨h1, h2, h3⟩ := hpath hl'
        exact ⟨h1, h2, hnone h3⟩
      · rw [hrest]
        exact (hq2 hf).2.2

end

section
/-! The output islands (08 R276 to R282, Tables 8.3, 8.4, 8.6 and 8.8): their own state machine, the reply that shows it, and their forces. -/

namespace Sys2Proof.Machine.Node

variable {n m : Node} {a : Nat} {v : AoSt}

/-- From `n` to `m`, one island's state as CORE holds it became `v`; the other islands', and all field sides, stand. -/
structure AoIs (n m : Node) (a : Nat) (v : AoSt) : Prop where
  same : m.aoSt a = v
  others : ∀ k, k ≠ a → m.aoSt k = n.aoSt k
  twf : twf {} m.loop.aos = true
  islands : m.loop.islands = n.loop.islands

theorem AoIs.refl (h : Machine.twf {} n.loop.aos = true) : AoIs n n a (n.aoSt a) := ⟨rfl, fun _ _ => rfl, h, rfl⟩

theorem AoIs.set (h : AoIs n m a v) (w : AoSt) : AoIs n (m.setAo a w) a w :=
  ⟨tget_tset_same h.twf a w, fun k hk => (tget_tset_other h.twf hk w).trans (h.others k hk), twf_tset h.twf a w, h.islands⟩

theorem AoIs.flag (h : AoIs n m a v) (i : Nat) : AoIs n (m.loopFlag i) a v := ⟨h.same, h.others, h.twf, h.islands⟩

theorem AoIs.recorded (h : AoIs n m a v) (e : Nat) (d : Bool) : AoIs n (m.aoRecord a e d) a v := by
  have hl := m.aoRecord_loop a e d
  exact ⟨(aoSt_of_loop hl a).trans h.same, fun k hk => (aoSt_of_loop hl k).trans (h.others k hk), hl ▸ h.twf, hl ▸ h.islands⟩

theorem AoIs.iteThen (h : AoIs n m a v) {c : Prop} [Decidable c] {k : Node} (hk : c → AoIs n k a v) : AoIs n (if c then k else m) a v := by
  split
  next hc => exact hk hc
  · exact h

/-! The frame. -/

theorem islandFrame_idle (h : n.islandFrames = false ∨ n.island a = none ∨ (n.aoSt a).cmd = 0) (ok : Bool) : n.islandFrame a ok = n := by
  unfold islandFrame
  split
  · rfl
  next hs =>
    refine if_pos ?_
    rcases h with h | h | h
    · simp [h]
    · rw [h] at hs
      cases hs
    · simp [h]

/-- The frame that CORE sends, as CORE counts it. -/
def frameCounted (n : Node) (a : Nat) : Node :=
  if (n.aoSt a).missed < 5 then n.setAo a { n.aoSt a with missed := (n.aoSt a).missed + 1 }
  else if (n.aoSt a).linkLost then n
  else ((n.setAo a { n.aoSt a with linkLost := true, state := 0 }).loopFlag 3).aoRecord a 1 true

theorem islandFrame_of {c : IslandCfg} (hf : n.islandFrames = true) (hc : n.island a = some c) (h0 : (n.aoSt a).cmd ≠ 0) (ok : Bool) :
    n.islandFrame a ok = if ok then (n.frameCounted a).setIsle a (islandTakes ((n.frameCounted a).isle a) (n.aoSt a).cmd (n.aoSt a).hbMode
      (n.aoSt a).hbTimeout false) else n.frameCounted a := by
  simp only [islandFrame, hc]
  exact if_neg (by simp [hf, h0])

theorem frameCounted_aoIs (hw : Machine.twf {} n.loop.aos = true) : ∃ v, AoIs n (n.frameCounted a) a v ∧
    ((n.aoSt a).missed < 5 → v = { n.aoSt a with missed := (n.aoSt a).missed + 1 }) ∧ (5 ≤ (n.aoSt a).missed → v.linkLost = true) := by
  have hn := AoIs.refl (a := a) hw
  unfold frameCounted
  split
  next h => exact ⟨_, hn.set _, fun _ => rfl, fun h' => by omega⟩
  next h =>
    split
    next hl => exact ⟨_, hn, fun h' => absurd h' h, fun _ => hl⟩
    · exact ⟨_, ((hn.set _).flag 3).recorded 1 true, fun h' => absurd h' h, fun _ => rfl⟩

theorem frameCounted_isle (hw : Machine.twf {} n.loop.aos = true) (k : Nat) : (n.frameCounted a).isle k = n.isle k := by
  obtain ⟨v, hv, -⟩ := frameCounted_aoIs (a := a) hw
  rw [isle, hv.islands]
  rfl

theorem islandTakes_run {s : Island} {cur hb ht : Nat} (h : s.state ∈ [IslandState.unconfigured, .run] ∨ s.state ∈ [IslandState.fail, .parked] ∧ s.run3 = 2) :
    islandTakes s cur hb ht false = { s with
      state := .run, cur := cur, cmd := cur, hbMode := hb, hbTimeout := ht, timer := true, run3 := 0 } := by
  simp only [List.mem_cons, List.not_mem_nil, or_false] at h
  rcases h with (h | h) | ⟨h | h, h3⟩ <;> simp [islandTakes, *]

theorem islandTakes_counted {s : Island} {cur hb ht : Nat} (h : s.state ∈ [IslandState.fail, .parked]) (h3 : s.run3 ≠ 2) :
    islandTakes s cur hb ht false = { s with run3 := s.run3 + 1 } := by
  simp only [List.mem_cons, List.not_mem_nil, or_false] at h
  rcases h with h | h <;> simp [islandTakes, h, h3]

/-! The reply. -/

theorem islandCode_eq_zero {s : IslandState} : islandCode s = 0 ↔ s = .unpowered := by
  cases s <;> simp [islandCode]

theorem islandReply_idle (h : n.islandFrames = false ∨ n.island a = none ∨ (n.isle a).state = .unpowered) (r : Nat) (low : Bool) :
    n.islandReply a r low = n := by
  refine if_pos ?_
  rcases h with h | h | h <;> simp [h, islandCode]

/-- A reply received: the silence ends. -/
def replyHeard (n : Node) (a st rdbk : Nat) (s0 : AoSt) : Node :=
  let n := n.setAo a { s0 with missed := 0, linkLost := false, state := st, lastState := st, rdbk := rdbk }
  let n := if s0.linkLost then n.aoRecord a 1 false else n
  if st = 3 then n.loopFlag 2 else n

/-- The island's resets, as its state shows them. -/
def resetsJudged (n : Node) (a st : Nat) (s0 : AoSt) : Node :=
  if st = 1 ∧ 2 ≤ s0.lastState then
    (n.setAo a { n.aoSt a with resets := satInc 0xFF s0.resets, wasReset := true }).aoRecord a 4 true
  else if 2 ≤ st ∧ s0.wasReset then (n.setAo a { n.aoSt a with wasReset := false }).aoRecord a 4 false
  else n

/-- The island's compliance. -/
def complianceJudged (n : Node) (a : Nat) (low : Bool) (s0 : AoSt) : Node :=
  if low == s0.compliance then n else (n.setAo a { n.aoSt a with compliance := low }).aoRecord a 3 low

/-- The island's read-back against its command. -/
def mismatchJudged (n : Node) (a st rdbk : Nat) (low : Bool) : Node :=
  let s := n.aoSt a
  let near := decide (rdbk ≤ s.cmd + 200) && decide (s.cmd ≤ rdbk + 200)
  if low then n.setAo a { s with misRun := 0, okRun := 0 }
  else if s.mismatch then
    let k := if near then s.okRun + 1 else 0
    if 3 ≤ k then (n.setAo a { s with mismatch := false, misRun := 0, okRun := 0 }).aoRecord a 2 false
    else n.setAo a { s with misRun := 0, okRun := k }
  else
    let k := if !near && st == 2 then s.misRun + 1 else 0
    if 3 ≤ k then ((n.setAo a { s with mismatch := true, misRun := 0, okRun := 0 }).loopFlag 4).aoRecord a 2 true
    else n.setAo a { s with misRun := k, okRun := 0 }

theorem islandReply_of (hf : n.islandFrames = true) (hc : (n.island a).isSome = true) (hu : (n.isle a).state ≠ .unpowered) (r : Nat) (low : Bool) :
    n.islandReply a r low = (((n.replyHeard a (islandCode (n.isle a).state) r (n.aoSt a)).resetsJudged a (islandCode (n.isle a).state) (n.aoSt a)).complianceJudged
      a low (n.aoSt a)).mismatchJudged a (islandCode (n.isle a).state) r low := by
  have h0 : islandCode (n.isle a).state ≠ 0 := fun h => hu (islandCode_eq_zero.1 h)
  have hn : (n.island a).isNone = false := by simpa using hc
  exact if_neg (by simp [hf, hn, h0])

theorem replyHeard_aoIs (hw : Machine.twf {} n.loop.aos = true) (st r : Nat) : AoIs n (n.replyHeard a st r (n.aoSt a)) a
    { n.aoSt a with missed := 0, linkLost := false, state := st, lastState := st, rdbk := r } := by
  have h := (AoIs.refl (a := a) hw).set { n.aoSt a with missed := 0, linkLost := false, state := st, lastState := st, rdbk := r }
  have h2 := h.iteThen (c := (n.aoSt a).linkLost = true) fun _ => h.recorded 1 false
  exact h2.iteThen fun _ => h2.flag 2

theorem resetsJudged_aoIs (h : AoIs n m a v) (st : Nat) (s0 : AoSt) : ∃ k w, AoIs n (m.resetsJudged a st s0) a { v with resets := k, wasReset := w } ∧
    (st = 1 → 2 ≤ s0.lastState → k = satInc 0xFF s0.resets ∧ w = true) ∧
    (2 ≤ st → v.resets = s0.resets → v.wasReset = s0.wasReset → w = false ∧ k = s0.resets) := by
  unfold resetsJudged
  rw [h.same]
  split
  next hc => exact ⟨_, _, (h.set _).recorded 4 true, fun _ _ => ⟨rfl, rfl⟩, fun hst => by omega⟩
  next hc =>
    split
    next hw => exact ⟨_, _, (h.set _).recorded 4 false, fun h1 h2 => absurd ⟨h1, h2⟩ hc, fun _ hr _ => ⟨rfl, hr⟩⟩
    next hw =>
      refine ⟨_, _, h, fun h1 h2 => absurd ⟨h1, h2⟩ hc, fun hst hr hv => ⟨?_, hr⟩⟩
      rw [hv]
      simpa using fun hx => hw ⟨hst, hx⟩

theorem complianceJudged_aoIs (h : AoIs n m a v) (low : Bool) (s0 : AoSt) (hv : v.compliance = s0.compliance) :
    AoIs n (m.complianceJudged a low s0) a { v with compliance := low } := by
  unfold complianceJudged
  rw [h.same]
  split
  next hc =>
    have : low = v.compliance := by simpa [hv] using hc
    rw [this]
    exact h
  · exact (h.set _).recorded 3 low

theorem mismatchJudged_aoIs (h : AoIs n m a v) (st r : Nat) (low : Bool) : ∃ x p q, AoIs n (m.mismatchJudged a st r low) a
    { v with mismatch := x, misRun := p, okRun := q } ∧ (v.mismatch = false → r ≤ v.cmd + 200 → v.cmd ≤ r + 200 → x = false) := by
  unfold mismatchJudged
  rw [h.same]
  dsimp only
  split
  · exact ⟨_, _, _, h.set _, fun hm _ _ => hm⟩
  · split
    next hm =>
      generalize (if (decide (r ≤ v.cmd + 200) && decide (v.cmd ≤ r + 200)) = true then v.okRun + 1 else 0) = k
      split
      · exact ⟨_, _, _, (h.set _).recorded 2 false, fun _ _ _ => rfl⟩
      · exact ⟨_, _, _, h.set _, fun hm _ _ => hm⟩
    next hm =>
      generalize hk : (if (!(decide (r ≤ v.cmd + 200) && decide (v.cmd ≤ r + 200)) && st == 2) = true then v.misRun + 1 else 0) = k
      split
      next h3 =>
        refine ⟨_, _, _, ((h.set _).flag 4).recorded 2 true, fun _ h1 h2 => ?_⟩
        rw [if_neg (by simp [h1, h2])] at hk
        omega
      · exact ⟨_, _, _, h.set _, fun hm _ _ => hm⟩

/-! The forces. -/

theorem forceIsland_done {cur : Nat} (hm : n.sec.maint = true) (h : 3500 ≤ cur ∧ cur ≤ 22000) (hc : (n.island a).isSome = true) :
    n.forceIsland a cur = ((n.setAo a { n.aoSt a with forced := some cur }).loopOk).aoRecord a 5 false := by
  have hn : (n.island a).isNone = false := by simpa using hc
  rw [forceIsland, if_neg (by simp [hm]), if_neg (by omega), if_neg (by simp [hn])]

theorem releaseIsland_done (hm : n.sec.maint = true) (hc : (n.island a).isSome = true) (hf : (n.aoSt a).forced.isSome = true) :
    n.releaseIsland a = ((n.setAo a { n.aoSt a with forced := none }).loopOk).aoRecord a 6 false := by
  have hn : (n.island a).isNone = false := by simpa using hc
  have hx : (n.aoSt a).forced.isNone = false := by simpa using hf
  rw [releaseIsland, if_neg (by simp [hm]), if_neg (by simp [hn]), if_neg (by simp [hx])]

end Sys2Proof.Machine.Node

open Sys2Proof Sys2Proof.Machine Sys2Proof.Machine.Node

/-- Settles O30: the island's own machine by its state, and the reply by its four judgements. -/
theorem islandStates : Obligations.IslandStates := by
  unfold Obligations.IslandStates
  refine ⟨?_, ?_⟩
  · rintro ⟨n, q⟩ a c
    dsimp only
    refine ⟨?_, fun h => ?_, fun h => ?_, fun h ht => ?_, fun h => ?_, fun h => ⟨?_, ?_⟩, fun hf hc h0 hi hw => ?_⟩
    · exact .of_run (fun n => n.setIsle a.val {}) rfl rfl
    · exact .of_run (fun n => if (n.isle a.val).state = .unpowered then n.setIsle a.val { state := .unconfigured, cur := 3500 } else n) rfl (if_pos h)
    · exact .of_run (fun n => if (n.isle a.val).state = .unpowered then n.setIsle a.val { state := .unconfigured, cur := 3500 } else n) rfl (if_neg h)
    · rw [Answers, exec, execIslandHeartbeatExpiry, State.run]
      dsimp only
      rw [if_pos ⟨h, ht⟩]
      rfl
    · rw [Answers, exec, execIslandHeartbeatExpiry, State.run]
      dsimp only
      rw [if_neg (by rcases h with h | h <;> simp [h])]
    · exact .of_run (fun n => n.islandFrame a.val true) rfl (islandFrame_idle h true)
    · exact .of_run (fun n => n.islandFrame a.val false) rfl (islandFrame_idle h false)
    · obtain ⟨v, hv, hless, hlost⟩ := frameCounted_aoIs (a := a.val) hw
      have hframe := islandFrame_of hf hc h0
      have hk : ∀ ok, Keeps [.loop, .jrnl, .tide, .pair] n (n.islandFrame a.val ok) := fun ok => (Within.islandFrame .rfl : Within _ n _).keeps
      have htrue : (n.islandFrame a.val true).isle a.val = islandTakes (n.isle a.val) (n.aoSt a.val).cmd (n.aoSt a.val).hbMode (n.aoSt a.val).hbTimeout false := by
        rw [hframe, if_pos rfl, frameCounted_isle hw]
        refine tget_tset_same ?_ _ _
        rw [hv.islands]
        exact hi
      refine ⟨?_, fun ok => ?_, fun h => ?_, fun h h3 => ?_, fun h => ?_⟩
      · refine .of_run (fun n => n.islandFrame a.val false) rfl ⟨?_, hk false⟩
        rw [hframe]
        exact hv.islands
      · refine .of_run (fun n => n.islandFrame a.val ok) rfl ?_
        have hao : (n.islandFrame a.val ok).loop.aos = (n.frameCounted a.val).loop.aos := by
          rw [hframe]
          cases ok <;> rfl
        have hao' : ∀ k, (n.islandFrame a.val ok).aoSt k = (n.frameCounted a.val).aoSt k := fun k => congrArg (fun t : Tab AoSt => tget ({} : AoSt) t k) hao
        rw [hao', hv.same]
        refine ⟨hless, hlost, fun k hk => ⟨(hao' k).trans (hv.others k hk), ?_⟩⟩
        rw [hframe]
        cases ok with
        | false => exact frameCounted_isle hw k
        | true =>
          refine (tget_tset_other ?_ hk _).trans (frameCounted_isle hw k)
          rw [hv.islands]
          exact hi
      · refine .of_run (fun n => n.islandFrame a.val true) rfl ⟨htrue.trans (islandTakes_run h), hk true⟩
      · exact .of_run (fun n => n.islandFrame a.val true) rfl (htrue.trans (islandTakes_counted h h3))
      · refine .of_run (fun n => n.islandFrame a.val true) rfl (htrue.trans ?_)
        simp [islandTakes, h]
  · rintro ⟨n, q⟩ a rdbk low
    dsimp only
    refine ⟨fun h => ?_, fun hf hc hu hw => ?_⟩
    · exact .of_run (fun n => n.islandReply a.val rdbk.toNat low) rfl (islandReply_idle h _ _)
    · refine .of_run (fun n => n.islandReply a.val rdbk.toNat low) rfl ?_
      have hk : Keeps [.loop, .jrnl, .tide, .pair] n (n.islandReply a.val rdbk.toNat low) := (Within.islandReply .rfl : Within _ n _).keeps
      have h1 := replyHeard_aoIs (a := a.val) hw (islandCode (n.isle a.val).state) rdbk.toNat
      obtain ⟨k, w, h2, hone, htwo⟩ := resetsJudged_aoIs h1 (islandCode (n.isle a.val).state) (n.aoSt a.val)
      have h3 := complianceJudged_aoIs h2 low (n.aoSt a.val) rfl
      obtain ⟨x, p, q', h4, hnear⟩ := mismatchJudged_aoIs h3 (islandCode (n.isle a.val).state) rdbk.toNat low
      rw [← islandReply_of hf hc hu] at h4
      rw [h4.same]
      exact ⟨rfl, rfl, rfl, rfl, rfl, rfl, rfl, hone, fun h => htwo h rfl rfl, hnear, h4.others, h4.islands, hk⟩

/-- Settles O31: each refusal in its order, and each effect as one update and its record. -/
theorem outputForces : Obligations.OutputForces := by
  unfold Obligations.OutputForces
  refine ⟨?_, ?_⟩
  · rintro ⟨n, q⟩ a cur
    dsimp only
    refine ⟨fun hm => ⟨?_, ?_⟩, fun hm => ⟨fun h => ?_, fun h hc => ?_, fun h hc => ?_, fun hc => ?_, fun hc hx => ?_, fun hc hx => ?_⟩⟩
    · exact .of_run (fun n => n.forceIsland a.val cur.toNat) rfl (if_pos (by simp [hm]))
    · exact .of_run (fun n => n.releaseIsland a.val) rfl (if_pos (by simp [hm]))
    · refine .of_run (fun n => n.forceIsland a.val cur.toNat) rfl ?_
      rw [forceIsland, if_neg (by simp [hm]), if_pos (by omega)]
      rfl
    · refine .of_run (fun n => n.forceIsland a.val cur.toNat) rfl ?_
      rw [forceIsland, if_neg (by simp [hm]), if_neg (by omega), if_pos (by simp [hc])]
      rfl
    · exact .of_run (fun n => n.forceIsland a.val cur.toNat) rfl (forceIsland_done hm h hc)
    · refine .of_run (fun n => n.releaseIsland a.val) rfl ?_
      rw [releaseIsland, if_neg (by simp [hm]), if_pos (by simp [hc])]
      rfl
    · refine .of_run (fun n => n.releaseIsland a.val) rfl ?_
      have hn : (n.island a.val).isNone = false := by simpa using hc
      rw [releaseIsland, if_neg (by simp [hm]), if_neg (by simp [hn]), if_pos (by simp [hx])]
      rfl
    · exact .of_run (fun n => n.releaseIsland a.val) rfl (releaseIsland_done hm hc hx)
  · rintro ⟨n, q⟩ p
    dsimp only
    refine ⟨fun hm c hc => ?_, fun hm ho c hc => ?_, fun hm ho => ⟨?_, ?_, fun hx => ?_, fun hx => ?_⟩, fun h => ?_, fun h => ?_⟩
    · simp only [List.mem_cons, List.not_mem_nil, or_false] at hc
      rcases hc with rfl | rfl | rfl
      · exact .of_run (fun n => n.dioForce p.val true) rfl (if_pos (by simp [hm]))
      · exact .of_run (fun n => n.dioForce p.val false) rfl (if_pos (by simp [hm]))
      · exact .of_run (fun n => n.dioUnforce p.val) rfl (if_pos (by simp [hm]))
    · simp only [List.mem_cons, List.not_mem_nil, or_false] at hc
      rcases hc with rfl | rfl | rfl
      · exact .of_run (fun n => n.dioForce p.val true) rfl ((if_neg (by simp [hm])).trans (if_pos (by simp [ho])))
      · exact .of_run (fun n => n.dioForce p.val false) rfl ((if_neg (by simp [hm])).trans (if_pos (by simp [ho])))
      · exact .of_run (fun n => n.dioUnforce p.val) rfl ((if_neg (by simp [hm])).trans (if_pos (by simp [ho])))
    · exact .of_run (fun n => n.dioForce p.val true) rfl ((if_neg (by simp [hm])).trans (if_neg (by simp [ho])))
    · exact .of_run (fun n => n.dioForce p.val false) rfl ((if_neg (by simp [hm])).trans (if_neg (by simp [ho])))
    · refine .of_run (fun n => n.dioUnforce p.val) rfl ?_
      rw [dioUnforce, if_neg (by simp [hm]), if_neg (by simp [ho]), if_pos (by simp [hx])]
      rfl
    · refine .of_run (fun n => n.dioUnforce p.val) rfl ?_
      have hn : (n.dioForced p.val).isNone = false := by simpa using hx
      rw [dioUnforce, if_neg (by simp [hm]), if_neg (by simp [ho]), if_neg (by simp [hn])]
      rfl
    · exact .of_run (fun n => n.latchClear p.val) rfl (if_pos h)
    · exact .of_run (fun n => n.latchClear p.val) rfl (if_neg (by omega))

end

section
/-! The field sides of digital I/O (09 R285 to R306): what they drive, their supply and watchdog, their pins, and the sweep. -/

namespace Sys2Proof.Machine

/-! What a field side drives. -/

theorem DioField.drive_of_unpowered {f : DioField} (h : f.powered = false) (mode : Nat) : f.drive mode = 0 := by
  simp [DioField.drive, h]

/-- A field side drives no pin that is no output, and none that is latched off. -/
theorem DioField.of_bit_drive {f : DioField} {mode j : Nat} (h : bit (f.drive mode) j = true) : bit f.dir j = true ∧ bit f.latched j = false := by
  obtain ⟨w, hw⟩ : ∃ w, f.drive mode = w &&& f.dir &&& ~~~f.latched := ⟨_, rfl⟩
  rw [hw] at h
  simp only [bit, BitVec.getLsbD_and, BitVec.getLsbD_not, Bool.and_eq_true, Bool.not_eq_true', decide_eq_true_eq] at h ⊢
  exact ⟨h.1.2, h.2.2⟩

theorem DioField.drive_follow {f : DioField} (hp : f.powered = true) : f.drive modeFollow =
    (if f.stored then (if f.wdExpired && !f.parked then f.safe else f.cmd) else 0) &&& f.dir &&& ~~~f.latched := by
  cases hs : f.stored <;> simp [DioField.drive, hp, hs]

/-- A field side whose watchdog has expired drives its safe states, and nothing before the first frame. -/
theorem DioField.drive_expired {f : DioField} (hp : f.powered = true) (hk : f.parked = false) (r : Nat) (l : BitVec 8) (t : List (Nat × Nat)) :
    ({ f with wdExpired := true, run3 := r, backfeed := l, reports := t } : DioField).drive modeFollow =
      if f.stored then f.safe &&& f.dir &&& ~~~f.latched else 0 := by
  cases f.stored <;> simp [DioField.drive, hp, hk]

/-! A sample of an input. -/

theorem bit_putBit_same {w : Nat} (v : BitVec w) {i : Nat} (h : i < w) (b : Bool) : bit (putBit v i b) i = b := by
  cases b with
  | true => exact Node.bit_setBit_same v h
  | false => exact Node.bit_clrBit_same v i

/-- The reading that a sample gives, by the thresholds of the input's mode. -/
def DioField.readingOf (f : DioField) (j vin vf : Nat) : Bool :=
  if bit f.wb j then (if 6 * vf ≤ 10 * vin then true else if 10 * vin ≤ 4 * vf then false else bit f.reading j)
  else if bit f.reading j then decide (7000 < vin) else decide (9000 ≤ vin)

/-- The field side after a sample that reads `r`. -/
def DioField.sampled (f : DioField) (j : Nat) (r : Bool) : DioField :=
  let k := if r == bit f.filtered j then 0 else tget 0 f.agree j + 1
  let change := decide (0 < f.filter) && decide (f.filter ≤ k)
  { f with
    reading := putBit f.reading j r
    agree := tset 0 f.agree j (if change then 0 else k)
    filtered := if change then putBit f.filtered j r else f.filtered }

theorem DioField.sample_eq (f : DioField) (j vin vf : Nat) : f.sample j vin vf = f.sampled j (f.readingOf j vin vf) := rfl

theorem DioField.sample_reading (f : DioField) {j : Nat} (h : j < 8) (vin vf : Nat) :
    bit (f.sample j vin vf).reading j = f.readingOf j vin vf := bit_putBit_same _ h _

theorem DioField.sampled_same {f : DioField} {j : Nat} {r : Bool} (h : r = bit f.filtered j) : (f.sampled j r).filtered = f.filtered := by
  have hr : (r == bit f.filtered j) = true := beq_iff_eq.2 h
  simp only [DioField.sampled, hr, if_true]
  refine if_neg ?_
  simp only [Bool.and_eq_true, decide_eq_true_eq]
  omega

theorem DioField.sampled_change {f : DioField} {j : Nat} {r : Bool} (h : r ≠ bit f.filtered j) (h0 : 0 < f.filter)
    (hk : f.filter ≤ tget 0 f.agree j + 1) : (f.sampled j r).filtered = putBit f.filtered j r := by
  simp [DioField.sampled, h, h0, hk]

theorem DioField.sampled_counting {f : DioField} {j : Nat} {r : Bool} (h : r ≠ bit f.filtered j) (hk : tget 0 f.agree j + 1 < f.filter) :
    f.sampled j r = { f with reading := putBit f.reading j r, agree := tset 0 f.agree j (tget 0 f.agree j + 1) } := by
  have hk' : ¬ f.filter ≤ tget 0 f.agree j + 1 := by omega
  simp [DioField.sampled, h, hk']

/-! A pin's cause. -/

theorem replaced_nibble_lt {x j c : Nat} (hj : j < 8) (hx : x < 2 ^ 32) :
    x - x / 2 ^ (4 * j) % 16 * 2 ^ (4 * j) + c % 16 * 2 ^ (4 * j) < 2 ^ 32 := by
  have hc := Nat.mod_lt c (by decide : 0 < 16)
  generalize c % 16 = d at *
  interval_cases j <;> omega

theorem replaced_nibble {x j c : Nat} (hj : j < 8) :
    (x - x / 2 ^ (4 * j) % 16 * 2 ^ (4 * j) + c % 16 * 2 ^ (4 * j)) / 2 ^ (4 * j) % 16 = c % 16 := by
  have hc := Nat.mod_lt c (by decide : 0 < 16)
  generalize c % 16 = d at *
  interval_cases j <;> omega

theorem DioField.causeOf_putCause (f : DioField) {j : Nat} (hj : j < 8) (c : Nat) : (f.putCause j c).causeOf j = c % 16 := by
  have hlt := replaced_nibble_lt (c := c) hj f.cause.isLt
  show (BitVec.ofNat 32 _).toNat / 2 ^ (4 * j) % 16 = c % 16
  rw [BitVec.toNat_ofNat]
  exact (congrArg (· / 2 ^ (4 * j) % 16) (Nat.mod_eq_of_lt hlt)).trans (replaced_nibble hj)

/-- A fault is kept where the cause is clear. -/
theorem DioField.causeOf_stick {f : DioField} {j : Nat} (hj : j < 8) {c : Nat} (hc : c < 16) (h : f.causeOf j = 0) : (f.stick j c).causeOf j = c := by
  rw [DioField.stick, if_pos h, DioField.causeOf_putCause f hj, Nat.mod_eq_of_lt hc]

end Sys2Proof.Machine

namespace Sys2Proof.Machine.Node

variable {n m : Node} {b : Nat}

theorem liveFault_lt (f : DioField) (j : Nat) : liveFault f j < 16 := by
  unfold liveFault
  split
  · split <;> omega
  · split
    · omega
    · split <;> omega

theorem fieldSide_setField (h : twf {} n.dio.field = true) (v : DioField) : (n.setField b v).fieldSide b = v := tget_tset_same h b v

theorem fieldSide_setField_other (h : twf {} n.dio.field = true) {k : Nat} (hk : k ≠ b) (v : DioField) : (n.setField b v).fieldSide k = n.fieldSide k :=
  tget_tset_other h hk v

/-! The link and the fault of a bank. -/

theorem dioRecord_dio (e : Nat) : (n.dioRecord b e).dio = n.dio := (Within.dioRecord .rfl : Within [.jrnl, .tide, .pair] n _).part .dio

/-- Of DIO, the banks and the flags alone change. -/
def BankJudged (n m : Node) : Prop := ∃ s f, m.dio = { n.dio with banks := s, flags := f }

theorem BankJudged.refl : BankJudged n n := ⟨_, _, rfl⟩

theorem BankJudged.trans {k : Node} (h : BankJudged n m) (g : BankJudged m k) : BankJudged n k := by
  obtain ⟨_, _, h⟩ := h
  obtain ⟨s, f, g⟩ := g
  exact ⟨s, f, by rw [g, h]⟩

theorem setBank_judged (v : DioBank) : BankJudged n (n.setBank b v) := ⟨_, _, rfl⟩

theorem setLinkLost_judged (v : Bool) : BankJudged n (n.setLinkLost b v) := by
  unfold setLinkLost
  dsimp only
  split
  · exact .refl
  · split
    · exact ⟨_, _, dioRecord_dio 3⟩
    · exact ⟨_, _, dioRecord_dio 3⟩

theorem judgeFault_judged : BankJudged n (n.judgeFault b) := by
  unfold judgeFault
  dsimp only
  split
  · exact .refl
  · split
    · exact ⟨_, _, dioRecord_dio 1⟩
    · exact ⟨_, _, dioRecord_dio 1⟩

theorem BankJudged.fieldSide (h : BankJudged n m) (k : Nat) : m.fieldSide k = n.fieldSide k := by
  obtain ⟨_, _, h⟩ := h
  unfold Node.fieldSide
  rw [h]

theorem bankSt_of_dio (h : m.dio.banks = n.dio.banks) (k : Nat) : m.bankSt k = n.bankSt k := by
  unfold bankSt
  rw [h]

theorem setLinkLost_bankSt (h : twf {} n.dio.banks = true) (v : Bool) :
    twf {} (n.setLinkLost b v).dio.banks = true ∧ (n.setLinkLost b v).bankSt b = { n.bankSt b with linkLost := v } := by
  unfold setLinkLost
  dsimp only
  split
  next hv =>
    refine ⟨h, ?_⟩
    have : v = (n.bankSt b).linkLost := by simpa using (beq_iff_eq.1 hv).symm
    rw [this]
  · have hb : ∀ k : Node, k.dio.banks = tset {} n.dio.banks b { n.bankSt b with linkLost := v } → twf {} (k.dioRecord b 3).dio.banks = true ∧
        (k.dioRecord b 3).bankSt b = { n.bankSt b with linkLost := v } := fun k hk => by
      rw [bankSt, dioRecord_dio, hk]
      exact ⟨twf_tset h b _, tget_tset_same h b _⟩
    split
    · exact hb _ rfl
    · exact hb _ rfl

theorem judgeFault_bankSt (h : twf {} n.dio.banks = true) : (n.judgeFault b).bankSt b =
    { n.bankSt b with shownFault := (n.bankSt b).pinFault || !(n.bankSt b).supplyOk || (n.bankSt b).linkLost } := by
  unfold judgeFault
  dsimp only
  split
  next hf => rw [beq_iff_eq.1 hf]
  · have hb : ∀ k : Node, k.dio.banks = tset {} n.dio.banks b { n.bankSt b with
        shownFault := (n.bankSt b).pinFault || !(n.bankSt b).supplyOk || (n.bankSt b).linkLost } → (k.dioRecord b 1).bankSt b =
        { n.bankSt b with shownFault := (n.bankSt b).pinFault || !(n.bankSt b).supplyOk || (n.bankSt b).linkLost } := fun k hk => by
      rw [bankSt, dioRecord_dio, hk]
      exact tget_tset_same h b _
    split
    · exact hb _ rfl
    · exact hb _ rfl

/-! The sweep. -/

theorem dioRuns_of (hi : m.img = n.img) (hp : m.pwr = n.pwr) (hc : m.clk = n.clk) : m.dioRuns = n.dioRuns := by
  simp only [dioRuns, coreRuns, coreHeld, hi, hp, hc]

theorem sweepDone_dio : n.sweepDone.dio = { n.dio with
    sweepBusy := false
    sweepReq := false
    sweepDone := true
    sweepRes := n.dio.sweepAcc
    field := tset {} n.dio.field n.dio.sweepBank { n.fieldSide n.dio.sweepBank with reports := [] } } :=
  (Within.later .rfl : Within [.jrnl, .tide, .pair] _ _).part .dio

/-- An abort clears the reports of its bank's field side, where the sweep is that bank's. -/
theorem sweepAbort_dio (hw : twf {} n.dio.field = true) (c : Nat) : (n.sweepAbort b c).dio.banks = n.dio.banks ∧
    (∀ k, k ≠ b → (n.sweepAbort b c).fieldSide k = n.fieldSide k) ∧
    ∃ r, (n.sweepAbort b c).fieldSide b = { n.fieldSide b with reports := r } ∧ ((n.fieldSide b).reports = [] → r = []) := by
  by_cases h : (n.dio.sweepBusy && n.dio.sweepBank == b) = true
  · have hb : n.dio.sweepBank = b := by simpa using (Bool.and_eq_true_iff.1 h).2
    have hd := sweepDone_dio (n := n.mDio fun d => { d with sweepAcc := if d.sweepReq then d.sweepAcc else putCode d.sweepAcc d.sweepSlot c })
    rw [sweepAbort, if_pos h]
    refine ⟨(congrArg Dio.banks hd :).trans rfl, fun k hk => ?_, [], ?_, fun _ => rfl⟩
    · rw [fieldSide, hd]
      exact tget_tset_other hw (by rw [← hb] at hk; exact hk) _
    · rw [fieldSide, hd, ← hb]
      exact tget_tset_same hw _ _
  · rw [sweepAbort, if_neg h]
    exact ⟨rfl, fun _ _ => rfl, _, rfl, id⟩

end Sys2Proof.Machine.Node

open Sys2Proof Sys2Proof.Machine Sys2Proof.Machine.Node

/-- Settles O33: what is driven by the mode, and the watchdog and the supply by what an abort of the sweep leaves. -/
theorem fieldSideDrivesAndWatchdog : Obligations.FieldSideDrivesAndWatchdog := by
  unfold Obligations.FieldSideDrivesAndWatchdog
  refine ⟨?_, ?_⟩
  · intro f mode
    refine ⟨fun h => DioField.drive_of_unpowered h mode, fun j => DioField.of_bit_drive, fun h => ?_, fun hp hs hw hk => ?_, fun hp hs hw => ?_, fun hp => ?_, ?_⟩
    · cases hp : f.powered with
      | false => exact DioField.drive_of_unpowered hp _
      | true => simp [DioField.drive_follow hp, h]
    · simp [DioField.drive_follow hp, hs, hw, hk]
    · simp [DioField.drive_follow hp, hs, hw]
    · simp [DioField.drive, hp, modeSafe, modeFollow]
    · simp [DioField.drive, modeOff, modeSafe, modeFollow, modeKeep]
  · rintro ⟨n, q⟩ b vf
    dsimp only
    refine ⟨fun hp hx hm hk hw => ?_, fun h => ?_, fun hw hb => ?_, fun hp hv => ?_, fun h => ?_⟩
    · rw [Gives, exec, execWatchdogExpiry, State.run]
      dsimp only
      rw [if_pos (by simp [hp, hx, hm, hk])]
      refine ⟨_, rfl, rfl, ?_⟩
      obtain ⟨-, -, r, hr, -⟩ := sweepAbort_dio (n := n.setField b.val (({ n.fieldSide b.val with wdExpired := true, run3 := 0 } : DioField).settle modeFollow))
        (b := b.val) (twf_tset hw _ _) 7
      rw [fieldSide_setField hw] at hr
      rw [hr]
      refine ⟨rfl, ?_, (Within.sweepAbort (.setField .rfl) : Within [.dio, .jrnl, .tide, .pair] n _).keeps⟩
      exact DioField.drive_expired hp hk 0 _ r
    · rw [Answers, exec, execWatchdogExpiry, State.run]
      dsimp only
      rw [if_neg]
      rcases h with h | h | h | h <;> simp [h]
    · refine .of_run (fun n => if ((n.setField b.val { powered := false }).sweepAbort b.val 5).dioRuns then
        (((n.setField b.val { powered := false }).sweepAbort b.val 5).setLinkLost b.val true).judgeFault b.val
        else (n.setField b.val { powered := false }).sweepAbort b.val 5) rfl ?_
      obtain ⟨hbanks, hother, r, hr, hnil⟩ := sweepAbort_dio (n := n.setField b.val { powered := false }) (b := b.val) (twf_tset hw _ _) 5
      have hwith : Within [.dio, .jrnl, .tide, .pair] n ((n.setField b.val { powered := false }).sweepAbort b.val 5) := .sweepAbort (.setField .rfl)
      have hruns := dioRuns_of (hwith.part .img) (hwith.part .pwr) (hwith.part .clk)
      rw [fieldSide_setField hw] at hr hnil
      rw [hnil rfl] at hr
      generalize (n.setField b.val { powered := false }).sweepAbort b.val 5 = k at *
      have ho : ∀ j, j ≠ b.val → k.fieldSide j = n.fieldSide j := fun j hj => (hother j hj).trans (fieldSide_setField_other hw hj _)
      have hkb : twf {} k.dio.banks = true := by
        rw [hbanks]
        exact hb
      by_cases hd : n.dioRuns = true
      · rw [if_pos (hruns.trans hd)]
        obtain ⟨htw, hlost⟩ := setLinkLost_bankSt (b := b.val) hkb true
        have hj : BankJudged k ((k.setLinkLost b.val true).judgeFault b.val) := (setLinkLost_judged true).trans judgeFault_judged
        rw [hj.fieldSide, judgeFault_bankSt htw, hlost]
        exact ⟨hr, fun j hjb => (hj.fieldSide j).trans (ho j hjb), fun _ => ⟨rfl, Bool.or_true _⟩,
          (Within.judgeFault (.setLinkLost hwith) : Within [.dio, .jrnl, .tide, .pair] n _).keeps⟩
      · rw [if_neg (by rw [hruns]; exact hd)]
        exact ⟨hr, ho, fun h => absurd h hd, hwith.keeps⟩
    · exact .of_run (fun n => if vf.toNat ≤ 70 ∨ (n.fieldSide b.val).powered then n else n.setField b.val {}) rfl
        (if_neg (by simp only [hp, or_false, Bool.false_eq_true]; omega))
    · exact .of_run (fun n => if vf.toNat ≤ 70 ∨ (n.fieldSide b.val).powered then n else n.setField b.val {}) rfl (if_pos h.symm)

namespace Sys2Proof.Machine.Node

variable {n m : Node} {b : Nat}

theorem onField_unpowered {p : Nat} (h : (n.fieldSide (p / 8)).powered = false) (g : DioField → Nat → DioField) : n.onField p g = n :=
  if_neg (by simp [h])

theorem onField_powered {p : Nat} (h : (n.fieldSide (p / 8)).powered = true) (g : DioField → Nat → DioField) :
    n.onField p g = n.setField (p / 8) (g (n.fieldSide (p / 8)) (p % 8)) := if_pos h

/-! A sweep's slot, its frame and its reports. -/

theorem slotEnd_idle (h : n.dio.sweepBusy = false) : n.slotEnd = n := if_pos (by simp [h])

/-- The field side with a slot's report. -/
def slotReported (n : Node) : DioField :=
  let f := n.fieldSide n.dio.sweepBank
  let j := n.dio.sweepSlot
  { (f.putCause j 0).stick j (liveFault f j) with
    reports := f.reports ++ [(j, if n.dio.sweepLow || !(n.bankSt n.dio.sweepBank).supplyOk then 5 else f.causeOf j)] }

theorem slotEnd_of (hb : n.dio.sweepBusy = true) (hq : n.dio.sweepReq = false) (hp : (n.fieldSide n.dio.sweepBank).powered = true)
    (hr : ∀ x ∈ (n.fieldSide n.dio.sweepBank).reports, x.1 ≠ n.dio.sweepSlot) : n.slotEnd.dio.field = tset {} n.dio.field n.dio.sweepBank n.slotReported ∧
      n.slotEnd.dio.sweepRes = n.dio.sweepRes ∧ (∀ k r, n.sweepPins n.dio.sweepBank (n.dio.sweepSlot + 1) = k :: r → n.slotEnd.dio.sweepSlot = k) := by
  have ha : (n.fieldSide n.dio.sweepBank).reports.any (·.1 == n.dio.sweepSlot) = false := by simpa using hr
  have hpins : ∀ v, (n.setField n.dio.sweepBank v).sweepPins n.dio.sweepBank (n.dio.sweepSlot + 1) =
    n.sweepPins n.dio.sweepBank (n.dio.sweepSlot + 1) := fun _ => rfl
  unfold slotEnd
  dsimp only
  rw [if_neg (by simp [hb, hq, hp, ha])]
  simp only [hpins]
  cases n.sweepPins n.dio.sweepBank (n.dio.sweepSlot + 1) with
  | nil => exact ⟨rfl, rfl, nofun⟩
  | cons k r => exact ⟨rfl, rfl, fun k' r' h => (List.cons.inj h).1⟩

theorem slotReported_causeOf (hj : n.dio.sweepSlot < 8) : n.slotReported.causeOf n.dio.sweepSlot =
    liveFault (n.fieldSide n.dio.sweepBank) n.dio.sweepSlot :=
  DioField.causeOf_stick hj (liveFault_lt _ _) (DioField.causeOf_putCause _ hj 0)

theorem sweepBegins_of (hq : n.dio.sweepReq = true) (hb : n.dio.sweepBank = b) : (n.sweepBegins b).dio.sweepReq = false ∧
    (n.sweepPins b 0 ≠ [] → (n.sweepBegins b).dio.sweepBusy = n.dio.sweepBusy) ∧
    (n.sweepPins b 0 = [] → (n.sweepBegins b).dio.sweepBusy = false ∧ (n.sweepBegins b).dio.sweepDone = true) := by
  have hd := sweepDone_dio (n := n.mDio fun d => { d with sweepReq := false })
  have hpins : (n.mDio fun d => { d with sweepReq := false }).sweepPins b 0 = n.sweepPins b 0 := rfl
  rw [sweepBegins, if_pos (by simp [hq, hb])]
  simp only [hpins]
  split
  next h =>
    rw [hd]
    exact ⟨rfl, fun hn => absurd (List.isEmpty_iff.1 h) hn, fun _ => ⟨rfl, rfl⟩⟩
  next h => exact ⟨rfl, fun _ => rfl, fun hn => absurd (List.isEmpty_iff.2 hn) h⟩

theorem fieldFrame_dio (cmd : BitVec 8) (park : Bool) : ∃ t, (n.fieldFrame b cmd park).dio = { n.dio with field := t } := by
  unfold fieldFrame
  dsimp only
  split
  · exact ⟨_, rfl⟩
  · exact ⟨_, rfl⟩

/-- The bank as a frame's silence leaves it. -/
def frameMissed (n : Node) (b : Nat) : Node :=
  let n := if (n.bankSt b).missed < 5 then n else (n.setLinkLost b true).judgeFault b
  n.setBank b { n.bankSt b with missed := if (n.bankSt b).missed < 5 then (n.bankSt b).missed + 1 else (n.bankSt b).missed }

theorem frameMissed_judged : BankJudged n (n.frameMissed b) := by
  refine BankJudged.trans ?_ (setBank_judged _)
  split
  · exact .refl
  · exact (setLinkLost_judged true).trans judgeFault_judged

theorem frameOut_good (h : n.dioRuns = true) : n.frameOut b true =
    ((n.frameMissed b).fieldFrame b ((n.frameMissed b).frameCmd b) false).sweepBegins b := by
  rw [frameOut, if_neg (by simp [h])]
  rfl

theorem sweepReply_of {i c : Nat} {rest : List (Nat × Nat)} (h : (n.fieldSide b).reports = (i, c) :: rest) :
    (n.sweepPins b (i + 1) = [] → (n.sweepReply b).dio.sweepBusy = false ∧ (n.sweepReply b).dio.sweepDone = true ∧
      (n.sweepReply b).dio.sweepRes = putCode n.dio.sweepAcc i c) ∧
    (n.sweepPins b (i + 1) ≠ [] → (n.sweepReply b).dio.sweepAcc = putCode n.dio.sweepAcc i c ∧ (n.sweepReply b).dio.sweepBusy = n.dio.sweepBusy) := by
  have hpins : ∀ v g, ((n.setField b v).mDio g).sweepPins b (i + 1) = n.sweepPins b (i + 1) := fun _ _ => rfl
  unfold sweepReply
  simp only [h, hpins]
  split
  next hn =>
    rw [sweepDone_dio]
    exact ⟨fun _ => ⟨rfl, rfl, rfl⟩, fun hx => absurd (List.isEmpty_iff.1 hn) hx⟩
  next hn => exact ⟨fun hx => absurd (List.isEmpty_iff.2 hx) hn, fun _ => ⟨rfl, rfl⟩⟩

theorem sweepPins_of_img (h : m.img = n.img) : m.sweepPins = n.sweepPins := by
  funext b j
  rw [sweepPins, sweepPins, pin_of_img h]

/-- A reply shown in its bank and in DIO, before the sweep's report. -/
def replyShown (n : Node) (b : Nat) (levels vf : BitVec 8) : Node :=
  let f := n.fieldSide b
  let n := n.setLinkLost b false
  let n := n.setBank b { n.bankSt b with
    missed := 0
    vf := vf.toNat
    supplyOk := vfGood vf.toNat
    pinFault := f.cause != 0
    wdExpired := f.wdExpired }
  n.mDio fun d => { d with
    inp := putByte d.inp b (replyInputs f)
    rdbk := putByte d.rdbk b levels
    sweepLow := d.sweepLow || (d.sweepBusy && d.sweepBank == b && !vfGood vf.toNat) }

theorem replyShown_sweep (levels vf : BitVec 8) : (n.replyShown b levels vf).dio.field = n.dio.field ∧
    (n.replyShown b levels vf).dio.sweepAcc = n.dio.sweepAcc ∧ (n.replyShown b levels vf).dio.sweepBusy = n.dio.sweepBusy := by
  obtain ⟨s, f, h⟩ : BankJudged n (n.setLinkLost b false) := setLinkLost_judged false
  refine ⟨(congrArg Dio.field h :).trans rfl, (congrArg Dio.sweepAcc h :).trans rfl, (congrArg Dio.sweepBusy h :).trans rfl⟩

theorem bankRecord_judged {c : Prop} [Decidable c] (h : BankJudged n m) (e : Nat) : BankJudged n (if c then m.dioRecord b e else m) := by
  split
  · exact h.trans ⟨_, _, dioRecord_dio e⟩
  · exact h

/-- After the sweep's report a reply judges its bank. -/
theorem replyIn_judged {levels vf : BitVec 8} (hr : n.dioRuns = true) (hp : (n.fieldSide b).powered = true) (hv : 70 ≤ vf.toNat) :
    BankJudged ((n.replyShown b levels vf).sweepReply b) (n.replyIn b levels vf) := by
  have ha : vfAbsent vf.toNat = false := by
    rw [vfAbsent, decide_eq_false_iff_not]
    omega
  unfold replyIn
  dsimp only
  rw [if_neg (by simp [hr]), if_neg (by simp [hp, ha])]
  refine BankJudged.trans ?_ judgeFault_judged
  split
  · exact bankRecord_judged ⟨_, _, rfl⟩ 4
  · exact bankRecord_judged .refl 5

end Sys2Proof.Machine.Node

open Sys2Proof Sys2Proof.Machine Sys2Proof.Machine.Node

/-- Settles O34: a sample by its thresholds, a pin's event by its direction, and the sweep by its slot, its frame and its reports. -/
theorem pinsAndSweep : Obligations.PinsAndSweep := by
  unfold Obligations.PinsAndSweep
  refine ⟨?_, ?_, ?_⟩
  · intro f j vin vf
    dsimp only
    rw [DioField.sample_reading f j.isLt]
    refine ⟨fun hw => ?_, fun hw => ?_, fun h => ?_, fun h h0 hk => ?_, fun h hk => ?_⟩
    · simp only [DioField.readingOf, hw, Bool.false_eq_true, if_false]
      cases bit f.reading j.val <;> simp <;> omega
    · simp only [DioField.readingOf, hw, if_true]
      refine ⟨fun h => if_pos h, fun h1 h2 => ?_, fun h1 h2 => ?_⟩
      · rw [if_neg (by omega), if_pos h2]
      · rw [if_neg (by omega), if_neg (by omega)]
    · exact DioField.sampled_same h
    · exact DioField.sampled_change h h0 hk
    · rw [DioField.sample_eq, DioField.sampled_counting h hk]
      exact ⟨rfl, fun hw => tget_tset_same hw _ _⟩
  · rintro ⟨n, q⟩ p on l
    dsimp only
    refine ⟨fun h c hc => ?_, fun h => ⟨fun hd => ⟨?_, ?_, ?_⟩, fun hd => ⟨?_, ?_, ?_, fun hx => ?_, fun hx => ?_, ?_⟩, fun hw => ?_, fun hd hw => ⟨?_, ?_⟩⟩⟩
    · simp only [List.mem_cons, List.not_mem_nil, or_false] at hc
      rcases hc with rfl | rfl | rfl | rfl
      · exact .of_run (fun n => n.onField p.val _) rfl (onField_unpowered h _)
      · exact .of_run (fun n => n.onField p.val _) rfl (onField_unpowered h _)
      · exact .of_run (fun n => n.onField p.val _) rfl (onField_unpowered h _)
      · exact .of_run (fun n => n.onField p.val _) rfl (onField_unpowered h _)
    · refine .of_run (fun n => n.onField p.val _) rfl ((onField_powered h _).trans (congrArg (n.setField (p.val / 8)) ?_))
      exact if_neg (by simp [hd])
    · refine .of_run (fun n => n.onField p.val _) rfl ((onField_powered h _).trans (congrArg (n.setField (p.val / 8)) ?_))
      exact if_pos (by simp [hd])
    · refine .of_run (fun n => n.onField p.val fun f j => _) rfl ((onField_powered h _).trans (congrArg (n.setField (p.val / 8)) ?_))
      exact if_pos (by simp [hd])
    · refine .of_run (fun n => n.onField p.val _) rfl ((onField_powered h _).trans (congrArg (n.setField (p.val / 8)) ?_))
      exact if_pos hd
    · refine .of_run (fun n => n.onField p.val _) rfl ((onField_powered h _).trans (congrArg (n.setField (p.val / 8)) ?_))
      exact if_pos (by simp [hd])
    · refine .of_run (fun n => n.onField p.val _) rfl ((onField_powered h _).trans (congrArg (n.setField (p.val / 8)) ?_))
      exact if_neg (by simp [hd])
    · refine .of_run (fun n => n.onField p.val fun f j => _) rfl ((onField_powered h _).trans (congrArg (n.setField (p.val / 8)) ?_))
      exact if_neg (by simp [hd, hx])
    · refine .of_run (fun n => n.onField p.val fun f j => _) rfl ((onField_powered h _).trans (congrArg (n.setField (p.val / 8)) ?_))
      exact if_pos (by simp [hx])
    · refine .of_run (fun n => n.onField p.val fun f j => _) rfl ((onField_powered h _).trans (congrArg (n.setField (p.val / 8)) ?_))
      exact if_neg (by simp [hd])
    · refine .of_run (fun n => n.onField p.val _) rfl ((onField_powered h _).trans (congrArg (n.setField (p.val / 8)) ?_))
      exact if_pos (by simp [hw])
    · refine .of_run (fun n => n.onField p.val _) rfl ((onField_powered h _).trans (congrArg (n.setField (p.val / 8)) ?_))
      exact if_neg (by simp [hd, hw])
    · refine .of_run (fun n => n.onField p.val _) rfl ((onField_powered h _).trans (congrArg (n.setField (p.val / 8)) ?_))
      exact if_neg (by simp [hd, hw])
  · rintro ⟨n, q⟩ b levels vf
    dsimp only
    refine ⟨fun h => ?_, fun h => ⟨?_, fun hl => ?_, fun hl hm => ?_, fun hl hm => ?_⟩, fun hr hq hb => ?_, fun hy hq hb hj hp hf hw => ?_, fun i c rest hr hp hv hf => ?_⟩
    · exact .of_run (fun n => n.sweepStart b.val) rfl (if_pos h)
    · exact .of_run Node.slotEnd rfl (slotEnd_idle h)
    · refine .of_run (fun n => n.sweepStart b.val) rfl ?_
      rw [sweepStart, if_neg (by simp [h]), if_pos hl]
      rfl
    · refine .of_run (fun n => n.sweepStart b.val) rfl ?_
      rw [sweepStart, if_neg (by simp [h]), if_neg (by simp [hl]), if_pos hm]
      rfl
    · refine .of_run (fun n => n.sweepStart b.val) rfl ?_
      rw [sweepStart, if_neg (by simp [h]), if_neg (by simp [hl]), if_neg (not_not.2 hm)]
      refine ⟨rfl, rfl, rfl, rfl, rfl, rfl, fun k r hk => ?_, rfl, (Within.mDio .rfl : Within [.dio] n _).keeps⟩
      exact congrArg (List.headD · 0) hk
    · refine .of_run (fun n => n.frameOut b.val true) rfl ?_
      obtain ⟨bs, fl, hm⟩ := frameMissed_judged (n := n) (b := b.val)
      obtain ⟨t, ht⟩ := fieldFrame_dio (n := n.frameMissed b.val) (b := b.val) ((n.frameMissed b.val).frameCmd b.val) false
      have hi : ((n.frameMissed b.val).fieldFrame b.val ((n.frameMissed b.val).frameCmd b.val) false).img = n.img :=
        (Within.fieldFrame (.setBank (.ite .rfl (.judgeFault (.setLinkLost .rfl)))) : Within [.dio, .jrnl, .tide, .pair] n _).part .img
      rw [frameOut_good hr, ← sweepPins_of_img hi]
      have hs := sweepBegins_of (n := (n.frameMissed b.val).fieldFrame b.val ((n.frameMissed b.val).frameCmd b.val) false) (b := b.val)
      rw [ht, hm] at hs
      exact hs hq hb
    · refine .of_run Node.slotEnd rfl ?_
      dsimp only
      rw [← hb] at hf hp ⊢
      obtain ⟨h1, h2, h3⟩ := slotEnd_of hy hq hp hf
      have hs : n.slotEnd.fieldSide n.dio.sweepBank = n.slotReported := by
        rw [fieldSide, h1]
        exact tget_tset_same hw _ _
      rw [hs]
      refine ⟨slotReported_causeOf hj, ?_, h3, h2, (Within.slotEnd .rfl : Within [.dio] n _).keeps⟩
      simp [slotReported]
    · refine .of_run (fun n => n.replyIn b.val levels vf) rfl ?_
      obtain ⟨s, f, hd⟩ := replyIn_judged (levels := levels) hr hp hv
      obtain ⟨h1, h2, h3⟩ := replyShown_sweep (n := n) (b := b.val) levels vf
      have hi : (n.replyShown b.val levels vf).img = n.img :=
        (Within.mDio (.setBank (.setLinkLost .rfl)) : Within [.dio, .jrnl, .tide, .pair] n _).part .img
      have hrep := sweepReply_of (n := n.replyShown b.val levels vf) (b := b.val) (i := i) (c := c) (rest := rest) (by rw [fieldSide, h1]; exact hf)
      rw [h2, h3, sweepPins_of_img hi] at hrep
      dsimp only
      rw [hd]
      exact hrep

end

section
/-! The fabric's commands at the host port, and what they and the timers do to a point (10 R316 to R327, Tables 10.5 and 10.6). -/

namespace Sys2Proof.Machine.Node

variable {n : Node}

/-- The host's command reaches the node that owns its pair's duty. -/
theorem dest_own (hi : n.img.isSome = true) (ho : n.ownDuty = true) (hp : n.pwr.parked = false) : n.dest none = .own := by
  have hn : n.img.isNone = false := by simpa using hi
  simp [dest, hn, ho, hp]

theorem dest_unreachable (hi : n.img = none) : n.dest none = .unreachable := by simp [dest, hi]

theorem fabHost_own {op target arg : Nat} (h0 : ¬ (op = 0 ∨ 8 < op)) (hd : n.dest none = .own) :
    (n.fabRefusal op target arg n.sec.maint = 0 → n.fabHost op target arg none = { n with fab := { n.fab with
      queue := n.fab.queue ++ [⟨op, target, arg, 0, n.sys.node, n.fab.cmdId, 0⟩]
      cmdId := if n.fab.cmdId = 0xFFFF then 1 else n.fab.cmdId + 1
      cmdResult := 0
      cmdStatId := n.fab.cmdId } }) ∧
    (n.fabRefusal op target arg n.sec.maint ≠ 0 → n.fabHost op target arg none = n.fabRefused (n.fabRefusal op target arg n.sec.maint)) := by
  unfold fabHost
  rw [if_neg h0]
  simp only [hd]
  refine ⟨fun h => ?_, fun h => if_pos h⟩
  rw [if_neg (not_not.2 h)]
  rfl

theorem fabHost_unreachable {op target arg : Nat} (h0 : ¬ (op = 0 ∨ 8 < op)) (hd : n.dest none = .unreachable) :
    n.fabHost op target arg none = n.fabRefused (if (op = 6 ∨ op = 7) ∧ !n.sec.maint then 3 else 7) := by
  unfold fabHost
  rw [if_neg h0]
  simp only [hd]

theorem fabNet_unreachable {op target arg path : Nat} (hd : n.dest none = .unreachable) : n.fabNet none op target arg path = n := by
  simp only [fabNet, hd]

/-- The refusals of a fabric command, as FAB_CMD_STAT orders them. -/
theorem fabRefusal_eq {op target arg : Nat} (h0 : ¬ (op = 0 ∨ 8 < op)) : n.fabRefusal op target arg n.sec.maint =
    if (if op = 2 ∨ op = 8 then (n.group target).isSome else (n.point target).isSome) = false then 2
    else if (op = 6 ∨ op = 7) ∧ n.sec.maint = false then 3
    else if 256 ≤ (n.fab.queue.filter (·.reason == 0)).length then 4
    else if op = 3 ∧ (n.point target).any (fun c => c.prio == 0 || c.shelveMax == 0) = true then 5
    else if op = 3 ∧ (n.point target).any (fun c => decide (c.shelveMax < arg)) = true then 6
    else 0 := by
  unfold fabRefusal
  rw [if_neg h0]
  have hk : ((if (op == 2 || op == 8) = true then (n.group target).isNone else (n.point target).isNone) = true) ↔
      ((if op = 2 ∨ op = 8 then (n.group target).isSome else (n.point target).isSome) = false) := by
    cases n.group target <;> cases n.point target <;> by_cases h : op = 2 ∨ op = 8 <;> simp_all
  have hq : (n.queueFull = true) ↔ 256 ≤ (n.fab.queue.filter (·.reason == 0)).length := decide_eq_true_iff
  simp only [hk, hq, Bool.not_eq_true']

/-- A command of the host port at the owner: a place in the queue, or its first refusal. -/
theorem fabHost_arrives {c : Instr} {s : State} {op target arg : Nat} (h0 : ¬ (op = 0 ∨ 8 < op)) (hd : s.node.dest none = .own)
    (hc : exec c s = s.run fun n => n.fabHost op target arg none) :
    (s.node.fabRefusal op target arg s.node.sec.maint = 0 → Answers c s { s.node with fab := { s.node.fab with
      queue := s.node.fab.queue ++ [⟨op, target, arg, 0, s.node.sys.node, s.node.fab.cmdId, 0⟩]
      cmdId := if s.node.fab.cmdId = 0xFFFF then 1 else s.node.fab.cmdId + 1
      cmdResult := 0
      cmdStatId := s.node.fab.cmdId } }) ∧
    (s.node.fabRefusal op target arg s.node.sec.maint ≠ 0 → Answers c s (s.node.fabRefused (s.node.fabRefusal op target arg s.node.sec.maint))) := by
  obtain ⟨h1, h2⟩ := fabHost_own (target := target) (arg := arg) h0 hd
  exact ⟨fun h => .of_run _ hc (h1 h), fun h => .of_run _ hc (h2 h)⟩

end Sys2Proof.Machine.Node

open Sys2Proof Sys2Proof.Machine Sys2Proof.Machine.Node

/-- Settles O35: the destination of the host's commands, and at the owner the refusals in their order. -/
theorem fabricCommands : Obligations.FabricCommands := by
  unfold Obligations.FabricCommands
  refine ⟨?_, ?_⟩
  · intro s p n pt known code arrives hi ho hp
    have hd := dest_own hi ho hp
    have key : ∀ c op arg, ¬ (op = 0 ∨ 8 < op) → exec c s = s.run (fun n => n.fabHost op p.val arg none) → arrives c op arg := fun c op arg h0 hc => by
      have h := fabHost_arrives h0 hd hc
      rw [fabRefusal_eq h0] at h
      exact h
    exact ⟨key _ 1 0 (by decide) rfl, key _ 2 0 (by decide) rfl, key _ 3 n.fab.arg (by decide) rfl, key _ 4 0 (by decide) rfl,
      key _ 5 0 (by decide) rfl, key _ 6 0 (by decide) rfl, key _ 7 0 (by decide) rfl, key _ 8 0 (by decide) rfl⟩
  · intro s p port n hi
    have hd : n.dest none = .unreachable := dest_unreachable hi
    have hcode : ∀ c op arg, ¬ (op = 0 ∨ 8 < op) → exec c s = s.run (fun n => n.fabHost op p.val arg none) →
        Answers c s (n.fabRefused (if (op = 6 ∨ op = 7) ∧ !n.sec.maint then 3 else 7)) := fun c op arg h0 hc =>
      .of_run _ hc (fabHost_unreachable h0 hd)
    have hnet : ∀ c op arg path, exec c s = s.run (fun n => n.fabNet none op p.val arg path) → Answers c s n := fun c op arg path hc =>
      .of_run _ hc (fabNet_unreachable hd)
    refine ⟨fun c hc => ?_, fun c hc => ?_, fun o ho => ?_⟩
    · simp only [List.mem_cons, List.not_mem_nil, or_false] at hc
      rcases hc with rfl | rfl | rfl | rfl | rfl | rfl
      · exact hcode _ 1 0 (by decide) rfl
      · exact hcode _ 2 0 (by decide) rfl
      · exact hcode _ 3 _ (by decide) rfl
      · exact hcode _ 4 0 (by decide) rfl
      · exact hcode _ 5 0 (by decide) rfl
      · exact hcode _ 8 0 (by decide) rfl
    · have hflag : n.fabRefused (if !n.sec.maint then 3 else 7) = { n with fab := { n.fab with
          cmdResult := if n.sec.maint then 7 else 3
          flags := setBit n.fab.flags 0 } } := by
        cases hm : n.sec.maint <;> rfl
      rw [← hflag]
      simp only [List.mem_cons, List.not_mem_nil, or_false] at hc
      rcases hc with rfl | rfl
      · have h := hcode (.outOfService p .host) 6 0 (by decide) rfl
        simpa using h
      · have h := hcode (.inService p .host) 7 0 (by decide) rfl
        simpa using h
    · simp only [List.mem_cons, List.not_mem_nil, or_false] at ho
      rcases ho with rfl | rfl
      · exact ⟨hnet _ 1 0 2 rfl, hnet _ 2 0 2 rfl, hnet _ 3 _ 2 rfl, hnet _ 4 0 2 rfl, hnet _ 5 0 2 rfl, hnet _ 6 0 2 rfl, hnet _ 7 0 2 rfl, hnet _ 8 0 2 rfl⟩
      · exact ⟨hnet _ 1 0 3 rfl, hnet _ 2 0 3 rfl, hnet _ 3 _ 3 rfl, hnet _ 4 0 3 rfl, hnet _ 5 0 3 rfl, hnet _ 6 0 3 rfl, hnet _ 7 0 3 rfl, hnet _ 8 0 3 rfl⟩

/-! What a point command does, and the last counts of a point's timers. -/

namespace Sys2Proof.Machine.Node

variable {n : Node} {p : Nat} {c : PointCfg}

theorem ifEvaluates_of_not (h : n.evaluates = false) (f : Node → Node) : n.ifEvaluates f = n := if_neg (by simp [h])

theorem ifEvaluates_of (h : n.evaluates = true) (f : Node → Node) : n.ifEvaluates f = f n := if_pos h

/-- A delay's last count turns the condition, and moves its point where no overlay hides it. -/
theorem delayExpiry_of {rise : Bool} (hc : n.point p = some c) (hf : (n.pointSt p).f ≠ rise) (hr : (n.pointSt p).running = true)
    (hs : (n.pointSt p).supp = false) (hl : n.ticksOf c (if rise then 4 else 5) ≤ (n.pointSt p).cnt + 1) (ho : overlay (n.pointSt p).st = false) :
    n.delayExpiry p rise = n.setPoint p (conditionMove c.latch (n.pointSt p).f { n.pointSt p with f := rise, cnt := 0, running := false }) := by
  simp only [delayExpiry, hc]
  rw [if_pos (by simp [hf, hr, hs, hl]), if_neg (by simp [ho])]

theorem delayExpiry_of_not {rise : Bool} (hc : n.point p = some c)
    (h : (n.pointSt p).f = rise ∨ (n.pointSt p).running = false ∨ (n.pointSt p).supp = true ∨
      (n.pointSt p).cnt + 1 < n.ticksOf c (if rise then 4 else 5)) : n.delayExpiry p rise = n := by
  simp only [delayExpiry, hc]
  refine if_neg ?_
  simp only [Bool.and_eq_true, decide_eq_true_eq, bne_iff_ne, Bool.not_eq_true', ne_eq]
  rintro ⟨⟨⟨hf, hr⟩, hs⟩, hl⟩
  rcases h with h | h | h | h
  · exact hf h
  · rw [hr] at h
    cases h
  · rw [hs] at h
    cases h
  · omega

theorem holdExpiry_of_not (hc : n.point p = some c) (h : (n.pointSt p).supp = false ∨ (n.pointSt p).hold ≠ 1) : n.holdExpiry p = n := by
  simp only [holdExpiry, hc]
  exact if_neg (by rcases h with h | h <;> simp [h])

/-- The end of a hold of a clear condition lets its point return to Normal. -/
theorem holdExpiry_clear (hc : n.point p = some c) (hs : (n.pointSt p).supp = true) (hh : (n.pointSt p).hold = 1)
    (hst : (n.pointSt p).st = stSuppressed) (hf : (n.pointSt p).f = false) (hr : (n.pointSt p).r = false) :
    n.holdExpiry p = n.setPoint p { n.pointSt p with supp := false, hold := 0, cnt := 0, running := false, st := stNormal } := by
  have hd : delayEval (n.ticksOf c 4) (n.ticksOf c 5) n.tickTime { n.pointSt p with supp := false, hold := 0 } =
      { n.pointSt p with supp := false, hold := 0, cnt := 0, running := false } := by
    simp [delayEval, hf, hr]
  simp only [holdExpiry, hc]
  rw [if_pos (by simp [hs, hh]), hd, if_pos hst]
  simp [returnState, hf]

theorem shelfExpiry_of_not (h : (n.pointSt p).st ≠ stShelved ∨ 1 < (n.pointSt p).shelf ∨ (n.pointSt p).shelfSet = true) : n.shelfExpiry p = n := by
  refine if_neg ?_
  rintro ⟨h1, h2, h3⟩
  rcases h with h | h | h
  · exact h h1
  · omega
  · simp [h] at h3

theorem returnState_ne_outOfService (x : PointSt) : returnState x ≠ stOutOfService := by
  unfold returnState
  split
  · decide
  · split <;> decide

theorem shelfExpiry_of (hst : (n.pointSt p).st = stShelved) (hs : (n.pointSt p).shelf = 1) (hset : (n.pointSt p).shelfSet = false) :
    n.shelfExpiry p = (n.setPoint p { n.pointSt p with shelf := 0, st := returnState (n.pointSt p) }).ckpt 5 p 0 := by
  have hr : (returnState (n.pointSt p) == stOutOfService) = false := by simpa using returnState_ne_outOfService (n.pointSt p)
  have hx : ((n.pointSt p).st == stOutOfService) = false := by rw [hst]; decide
  rw [shelfExpiry]
  dsimp only
  rw [if_pos ⟨hst, by omega, by simp [hset]⟩, markEntries]
  dsimp only
  rw [hr, hx, if_neg (by decide), clockEntry, if_pos (by simp [hs])]

end Sys2Proof.Machine.Node

open Sys2Proof Sys2Proof.Machine Sys2Proof.Machine.Node

/-- Settles O36: each command by the point's state, and each timer by whether this is its last count. -/
theorem pointCommandsAndTimers : Obligations.PointCommandsAndTimers := by
  unfold Obligations.PointCommandsAndTimers
  refine ⟨?_, ?_⟩
  · intro c x arg
    refine ⟨fun h => ?_, fun h => ?_, fun h1 h2 => ?_, fun h1 h2 h3 h4 => ?_, fun h => ?_, fun h1 h2 => ?_, fun h => ?_, fun h => ?_, fun h => ?_⟩
    · simp [pointCommand, ackPoint, h]
    · simp [pointCommand, ackPoint, h]
    · simp [pointCommand, ackPoint, h1, h2]
    · have h3' : ¬ c.shelveMax < arg := by omega
      simp [pointCommand, shelvePoint, h1, h2, h3', h4]
    · simp [pointCommand, returnState, h]
    · simp [pointCommand, h1, h2]
    · have hl : (x.latched && !x.f) = false := by rcases h with h | h <;> simp [h]
      simp [pointCommand, hl]
    · simp [pointCommand, h]
    · simp [pointCommand, returnState, h]
  · rintro ⟨n, q⟩ p c
    dsimp only
    refine ⟨fun h e he => ?_, fun h hc => ⟨fun hf hr hs hl ho => ?_, fun hn => ?_, fun hf hr hs hl hst => ?_, fun hf hr hs hl hst => ?_, fun hn => ?_,
      fun hs hh hst hf hr => ?_, fun hn => ?_, fun hst hs hset => ?_, fun hn => ?_⟩⟩
    · simp only [List.mem_cons, List.not_mem_nil, or_false] at he
      rcases he with rfl | rfl | rfl | rfl
      · exact .of_run (fun n => n.ifEvaluates fun n => n.delayExpiry p.val true) rfl (ifEvaluates_of_not h _)
      · exact .of_run (fun n => n.ifEvaluates fun n => n.delayExpiry p.val false) rfl (ifEvaluates_of_not h _)
      · exact .of_run (fun n => n.ifEvaluates fun n => n.holdExpiry p.val) rfl (ifEvaluates_of_not h _)
      · exact .of_run (fun n => n.ifEvaluates fun n => n.shelfExpiry p.val) rfl (ifEvaluates_of_not h _)
    · refine .of_run (fun n => n.ifEvaluates fun n => n.delayExpiry p.val true) rfl ((ifEvaluates_of h _).trans ?_)
      rw [delayExpiry_of (rise := true) hc (by simp [hf]) hr hs hl ho]
      by_cases hst : (n.pointSt p.val).st = stActUnack ∨ (n.pointSt p.val).st = stActAck
      · simp [conditionMove, hf, hst]
      · simp [conditionMove, hf, hst]
    · exact .of_run (fun n => n.ifEvaluates fun n => n.delayExpiry p.val true) rfl ((ifEvaluates_of h _).trans (delayExpiry_of_not hc hn))
    · refine .of_run (fun n => n.ifEvaluates fun n => n.delayExpiry p.val false) rfl ((ifEvaluates_of h _).trans ?_)
      rw [delayExpiry_of (rise := false) hc (by simp [hf]) hr hs hl (by rw [hst]; decide)]
      cases hcl : c.latch <;> simp [conditionMove, hf, hst]
    · refine .of_run (fun n => n.ifEvaluates fun n => n.delayExpiry p.val false) rfl ((ifEvaluates_of h _).trans ?_)
      rw [delayExpiry_of (rise := false) hc (by simp [hf]) hr hs hl (by rw [hst]; decide)]
      cases hcl : c.latch <;> simp [conditionMove, hf, hst]
    · exact .of_run (fun n => n.ifEvaluates fun n => n.delayExpiry p.val false) rfl ((ifEvaluates_of h _).trans (delayExpiry_of_not hc hn))
    · exact .of_run (fun n => n.ifEvaluates fun n => n.holdExpiry p.val) rfl ((ifEvaluates_of h _).trans (holdExpiry_clear hc hs hh hst hf hr))
    · exact .of_run (fun n => n.ifEvaluates fun n => n.holdExpiry p.val) rfl ((ifEvaluates_of h _).trans (holdExpiry_of_not hc hn))
    · exact .of_run (fun n => n.ifEvaluates fun n => n.shelfExpiry p.val) rfl ((ifEvaluates_of h _).trans (shelfExpiry_of hst hs hset))
    · exact .of_run (fun n => n.ifEvaluates fun n => n.shelfExpiry p.val) rfl ((ifEvaluates_of h _).trans (shelfExpiry_of_not hn))

end

section
/-! The fabric window (10 R332 to R336) and errors of the fabric's memory (01 Table 1.7, 10 R339). -/

namespace Sys2Proof.Machine.Node

variable {n m : Node}

/-! What a clamp of CORE takes of the fabric. -/

/-- Of the fabric a demotion drops the queue and the values shown, and changes the role shown; the rest stands. -/
def FabDemoted (n m : Node) : Prop :=
  ∃ q s r, (q = n.fab.queue ∨ q = []) ∧ m.fab = { n.fab with queue := q, shownSrc := s, role := r }

theorem FabDemoted.of_fab (h : m.fab = n.fab) : FabDemoted n m := ⟨_, _, _, .inl rfl, h⟩

theorem FabDemoted.trans {k : Node} (h : FabDemoted n m) (g : FabDemoted m k) : FabDemoted n k := by
  obtain ⟨p, _, _, hp, h⟩ := h
  obtain ⟨q, s, r, hq, g⟩ := g
  rw [h] at hq
  refine ⟨q, s, r, ?_, by rw [g, h]⟩
  rcases hq with rfl | rfl
  · exact hp
  · exact .inr rfl

theorem FabDemoted.frame (h : Within (Part.allBut [.fab]) n m) : FabDemoted n m := .of_fab (h.part .fab)

theorem FabDemoted.ite {c : Prop} [Decidable c] {a b : Node} (ha : FabDemoted n a) (hb : FabDemoted n b) :
    FabDemoted n (if c then a else b) := by
  split <;> assumption

theorem setRole_fabDemoted (r : Nat) : FabDemoted n (n.setRole r) := ⟨_, _, _, .inl rfl, rfl⟩

theorem demoteNow_fabDemoted (c : Nat) : FabDemoted n (n.demoteNow c) := by
  unfold demoteNow
  refine .ite (.of_fab rfl) ?_
  dsimp only
  have h1 : FabDemoted n (n.issueDemote c) := .frame (.issueDemote .rfl)
  have h2 : FabDemoted n ((n.issueDemote c).setRole (if c = 4 then 2 else 5)) := h1.trans (setRole_fabDemoted _)
  generalize (n.issueDemote c).setRole (if c = 4 then 2 else 5) = a at *
  refine h2.trans ?_
  generalize hb : Node.mPair (a.pairFlag 1) _ = b
  have hb' : b.fab = a.fab := by
    rw [← hb]
    rfl
  refine .trans (.of_fab hb') (.trans (m := b.mFab fun f => { f with queue := [], shownSrc := [] }) ⟨_, _, _, .inr rfl, rfl⟩ ?_)
  exact .frame (.portsFollow (.foldl _ (.mJrnl .rfl) fun _ _ => .notify .rfl))

theorem leaveRing_fabDemoted (st : RingSt) (e : Nat) : FabDemoted n (n.leaveRing st e) := by
  unfold leaveRing
  dsimp only
  generalize hk : Node.settleTrust _ = k
  have h : FabDemoted n k := by
    rw [← hk]
    exact .frame (.settleTrust (.mRtc (.mTide .rfl)))
  exact .ite ((h.trans (.frame (.mPair (.ringEvent .rfl)))).trans (demoteNow_fabDemoted 1)) h

theorem coreClamped_fabDemoted : FabDemoted n n.coreClamped := by
  unfold coreClamped
  dsimp only
  generalize hk : Node.mSys _ _ = k
  have h : FabDemoted n k := by
    rw [← hk]
    exact .frame (.mSys (.selectModes .rfl))
  exact .trans (.ite (h.trans (leaveRing_fabDemoted _ _)) h) (.frame (.ethDown .rfl))

theorem setDom_fab (d : Domain) (v : DomClk) : (n.setDom d v).fab = n.fab := (Within.setDom .rfl : Within [.clk] n _).part .fab

theorem enterSlack_fabDemoted (d : Domain) (st : DomSt) : FabDemoted n (n.enterSlack d st) := by
  unfold enterSlack
  dsimp only
  generalize hk : Node.setDom n d _ = k
  refine .trans (m := k) (.of_fab (by rw [← hk, setDom_fab])) ?_
  cases d with
  | core => exact coreClamped_fabDemoted
  | field => exact .frame (.fieldStops .rfl)
  | solv => exact .frame (.stopEngine .rfl)

theorem fabError_latches (d : Domain) : ((n.fabError true).dom d).st = .latched ∧ ((n.fabError true).dom d).clamp = true := by
  rw [fabError, if_pos rfl]
  refine eachDom_dom (P := fun _ => True) (Q := fun _ _ c => c.st = .latched ∧ c.clamp = true) trivial (fun _ _ _ => trivial)
    (fun m d e _ h => enterSlack_dom_other _ h) (fun m d _ => ?_) d
  rw [enterSlack_dom_same]
  exact ⟨rfl, rfl⟩

theorem fabError_ecc : (n.fabError true).fab.ecc = n.fab.ecc := by
  obtain ⟨_, _, _, -, h⟩ : FabDemoted n (n.eachDom fun n d => n.enterSlack d .latched) :=
    eachDom_rel (R := FabDemoted) .trans fun _ d => enterSlack_fabDemoted d .latched
  rw [fabError, if_pos rfl, h]

/-! The window. -/

theorem windowDone_idle (h : n.fab.winRun = none) : n.windowDone = n := by simp only [windowDone, h]

/-- The window's operation completed with a code. -/
def windowEnds (n : Node) (code : Nat) (d : Option B64) : Node := n.mFab fun f => { f with
  winRun := none
  winResult := code
  winData := d.getD f.winData
  flags := if code = 0 then f.flags else setBit f.flags 1 }

theorem windowDone_read {sel : Word} {v : B64} (h : n.fab.winRun = some (1, sel, v)) :
    n.windowDone = n.windowEnds (n.windowRead sel).1 (n.windowRead sel).2 := by
  simp only [windowDone, h]
  rfl

theorem windowDone_write {sel : Word} {v : B64} (h : n.fab.winRun = some (2, sel, v)) :
    n.windowDone = (n.windowWrite sel v).2.windowEnds (n.windowWrite sel v).1 none := by
  simp only [windowDone, h]
  rfl

section
variable {sel : Word} (hk : bitsOf 12 2 sel = 0)
include hk

theorem windowRead_absent (hp : n.point (bitsOf 0 10 sel) = none) : n.windowRead sel = (4, none) := by
  simp [windowRead, hk, cellExists, hp]

/-- An item of a point that is no bound of a tunable. -/
theorem windowRead_item (hp : (n.point (bitsOf 0 10 sel)).isSome = true) (hi : bitsOf 16 8 sel ≤ 9) :
    n.windowRead sel = (0, some (n.windowItem 0 (bitsOf 0 10 sel) (bitsOf 16 8 sel))) := by
  have hb : bitsOf 16 8 sel % 64 = bitsOf 16 8 sel := Nat.mod_eq_of_lt (by omega)
  simp [windowRead, hk, cellExists, hp, itemExists, hb, hi]

theorem windowRead_beyond (h1 : 10 ≤ bitsOf 16 8 sel) (h2 : bitsOf 16 8 sel < 64) : n.windowRead sel = (4, none) := by
  have hb : bitsOf 16 8 sel % 64 = bitsOf 16 8 sel := Nat.mod_eq_of_lt h2
  have hi : ¬ bitsOf 16 8 sel ≤ 9 := by omega
  simp [windowRead, hk, itemExists, hb, hi]

theorem windowWrite_absent {v : B64} (hp : n.point (bitsOf 0 10 sel) = none) (h : bitsOf 16 8 sel < 64) : n.windowWrite sel v = (4, n) := by
  simp [windowWrite, hk, cellExists, hp, Nat.mod_eq_of_lt h]

theorem windowWrite_untunable {v : B64} (hp : (n.point (bitsOf 0 10 sel)).isSome = true) (h : bitsOf 16 8 sel ≤ 9)
    (ht : tunableItem (bitsOf 16 8 sel) = false) : n.windowWrite sel v = (1, n) := by
  have hb : bitsOf 16 8 sel % 64 = bitsOf 16 8 sel := Nat.mod_eq_of_lt (by omega)
  simp [windowWrite, hk, cellExists, hp, itemExists, hb, h, ht]

theorem windowWrite_tunable {v : B64} (hp : (n.point (bitsOf 0 10 sel)).isSome = true) (h : bitsOf 16 8 sel ≤ 9)
    (ht : tunableItem (bitsOf 16 8 sel) = true) : n.windowWrite sel v =
      if n.tuneRefusal (bitsOf 0 10 sel) (bitsOf 16 8 sel) v ≠ 0 then (n.tuneRefusal (bitsOf 0 10 sel) (bitsOf 16 8 sel) v, n)
      else (0, n.mFab fun f => { f with tunePend := putTune f.tunePend ⟨bitsOf 0 10 sel, bitsOf 16 8 sel, v⟩ }) := by
  have hb : bitsOf 16 8 sel % 64 = bitsOf 16 8 sel := Nat.mod_eq_of_lt (by omega)
  simp [windowWrite, hk, cellExists, hp, itemExists, hb, h, ht]

end

theorem windowWrite_bound {sel : Word} {v : B64} (h : 64 ≤ bitsOf 16 8 sel) : n.windowWrite sel v = (1, n) :=
  if_pos (by have := Nat.mod_lt (bitsOf 16 8 sel) (by decide : 0 < 64); omega)

theorem windowItem_value {p : Nat} (hp : (n.point p).isSome = true) : n.windowItem 0 p 1 = (n.shownPoint p).value := by
  obtain ⟨c, hc⟩ := Option.isSome_iff_exists.1 hp
  simp only [windowItem, hc]

theorem windowItem_runStart {p : Nat} (hp : (n.point p).isSome = true) : n.windowItem 0 p 9 = BitVec.ofNat 64 (n.shownPoint p).runStart := by
  obtain ⟨c, hc⟩ := Option.isSome_iff_exists.1 hp
  simp only [windowItem, hc]

end Sys2Proof.Machine.Node

open Sys2Proof Sys2Proof.Machine Sys2Proof.Machine.Node

/-- Settles O38: an operation by its start and its completion, and a memory error by what its clamp takes of the fabric. -/
theorem fabricWindowAndErrors : Obligations.FabricWindowAndErrors := by
  unfold Obligations.FabricWindowAndErrors
  refine ⟨?_, ?_⟩
  · rintro ⟨n, q⟩ sel v
    dsimp only
    refine ⟨fun h => ⟨?_, ?_, ?_⟩, fun h c hc => ?_, fun h hk => ⟨fun hp => ?_, fun hp hi => ?_, fun hp hi => ?_, fun hp h1 h2 => ?_⟩,
      fun h hk => ⟨fun hi => ?_, fun hp hi => ?_, fun hp hi => ⟨fun hc => ?_, fun hc => ?_⟩, fun hp hi => ?_⟩⟩
    · refine .of_run (fun n => n.windowStart 1) rfl ?_
      simp [windowStart, mFab, h]
    · refine .of_run (fun n => n.windowStart 2) rfl ?_
      simp [windowStart, mFab, h]
    · exact .of_run Node.windowDone rfl (windowDone_idle h)
    · simp only [List.mem_cons, List.not_mem_nil, or_false] at hc
      rcases hc with rfl | rfl
      · refine .of_run (fun n => n.windowStart 1) rfl ?_
        simp [windowStart, mFab, h]
      · refine .of_run (fun n => n.windowStart 2) rfl ?_
        simp [windowStart, mFab, h]
    · refine .of_run Node.windowDone rfl ?_
      rw [windowDone_read h, windowRead_absent hk hp]
      rfl
    · refine .of_run Node.windowDone rfl ?_
      rw [windowDone_read h, windowRead_item hk hp (by omega), hi, windowItem_value hp]
      rfl
    · refine .of_run Node.windowDone rfl ?_
      rw [windowDone_read h, windowRead_item hk hp (by omega), hi, windowItem_runStart hp]
      rfl
    · refine .of_run Node.windowDone rfl ?_
      rw [windowDone_read h, windowRead_beyond hk h1 h2]
      rfl
    · refine .of_run Node.windowDone rfl ?_
      rw [windowDone_write h, windowWrite_bound hi]
      rfl
    · refine .of_run Node.windowDone rfl ?_
      rw [windowDone_write h, windowWrite_absent hk hp hi]
      rfl
    · refine .of_run Node.windowDone rfl ?_
      have ht : tunableItem (bitsOf 16 8 sel) = true ∧ bitsOf 16 8 sel ≤ 9 := by
        generalize bitsOf 16 8 sel = i at hi
        fin_cases hi <;> decide
      rw [windowDone_write h, windowWrite_tunable hk hp ht.2 ht.1, if_neg (not_not.2 hc)]
      rfl
    · refine .of_run Node.windowDone rfl ?_
      have ht : tunableItem (bitsOf 16 8 sel) = true ∧ bitsOf 16 8 sel ≤ 9 := by
        generalize bitsOf 16 8 sel = i at hi
        fin_cases hi <;> decide
      rw [windowDone_write h, windowWrite_tunable hk hp ht.2 ht.1, if_pos hc]
      rfl
    · refine .of_run Node.windowDone rfl ?_
      have ht : tunableItem (bitsOf 16 8 sel) = false ∧ bitsOf 16 8 sel ≤ 9 := by
        generalize bitsOf 16 8 sel = i at hi
        fin_cases hi <;> decide
      rw [windowDone_write h, windowWrite_untunable hk hp ht.2 ht.1]
      rfl
  · rintro ⟨n, q⟩
    dsimp only
    refine ⟨.of_run (fun n => n.fabError false) rfl rfl, .of_run (fun n => n.fabError true) rfl ⟨fabError_latches, fabError_ecc⟩⟩

end

section
/-! The engineer call (11): its commands, the dead-man watch and the rung timers; and what handing the records of a step over leaves (01 R23). -/

namespace Sys2Proof.Machine.Node

variable {n m : Node}

/-! The hand-over of a step's records, and their writing through. -/

/-- Of the journal a write to flash changes the marks of the RAM ring alone: its records stand. -/
def RingMarked (n m : Node) : Prop := ∃ r, m.jrnl = { n.jrnl with ram := r } ∧ r.map (·.item) = n.jrnl.ram.map (·.item)

theorem RingMarked.of_jrnl (h : m.jrnl = n.jrnl) : RingMarked n m := ⟨_, h, rfl⟩

theorem RingMarked.trans {k : Node} (h : RingMarked n m) (g : RingMarked m k) : RingMarked n k := by
  obtain ⟨r, h, hr⟩ := h
  obtain ⟨r', g, gr⟩ := g
  rw [h] at g gr
  exact ⟨r', g, gr.trans hr⟩

theorem RingMarked.frame (h : Within (Part.allBut [.jrnl]) n m) : RingMarked n m := .of_jrnl (h.part .jrnl)

theorem journalWritten_marked (l : List Record) : RingMarked n (n.journalWritten l) := by
  unfold journalWritten
  split
  · exact .of_jrnl rfl
  · refine ⟨_, rfl, ?_⟩
    show (n.jrnl.ram.map _).map _ = n.jrnl.ram.map _
    rw [List.map_map]
    refine List.map_congr_left fun r _ => ?_
    simp only [Function.comp_apply]
    split <;> rfl

theorem flushPages_marked (k : Nat) : RingMarked n (flushPages k n) := by
  induction k generalizing n with
  | zero => exact .of_jrnl rfl
  | succ k ih =>
    unfold flushPages
    dsimp only
    split
    · exact .of_jrnl rfl
    · have ho : RingMarked n n.openJournal := .frame (.openJournal .rfl)
      split
      · exact ho
      · exact ho.trans ((journalWritten_marked _).trans ih)

theorem writeThrough_marked : RingMarked n n.writeThrough := by
  unfold writeThrough
  split
  · unfold flushAll
    dsimp only
    generalize hk : Node.mStor n _ = k
    have h : RingMarked n (flushPages k.unwritten.length k) := by
      refine .trans (m := k) (.of_jrnl ?_) (flushPages_marked _)
      rw [← hk]
      rfl
    split
    · exact h.trans (.frame (.pickNext .rfl))
    · exact h
  · exact .of_jrnl rfl

theorem handOver_jrnl : n.handOver.jrnl = { n.jrnl with tickRecs := [] } :=
  (Within.extTake (.handRecords .rfl) : Within [.tide, .ext, .free] (n.mJrnl fun j => { j with tickRecs := [] }) _).part .jrnl

/-- On the ring a step's records join those that wait for the next visit, while no visit is held. -/
theorem handOver_recs (hs : n.tide.st = .inserted) (hh : n.tide.hold = none) : n.handOver.tide.recs = n.tide.recs ++ n.jrnl.tickRecs := by
  have he : n.handOver.tide = ((n.mJrnl fun j => { j with tickRecs := [] }).handRecords n.jrnl.tickRecs).tide :=
    (Within.extTake .rfl : Within [.ext, .free] _ _).part .tide
  have hi : (n.mJrnl fun j => { j with tickRecs := [] }).inserted = true := beq_iff_eq.2 hs
  rw [he, handRecords, if_pos hi, pump, if_neg (by rw [show ((n.mJrnl fun j => { j with tickRecs := [] }).mTide
    fun t => { t with recs := t.recs ++ n.jrnl.tickRecs }).tide.hold = none from hh]; decide)]
  rfl

/-- What the hand-over and the writing through of a step's records leave of the journal and of the ring's queue. -/
theorem handedThrough (n : Node) : n.handOver.writeThrough.jrnl.nextSeq = n.jrnl.nextSeq ∧ n.handOver.writeThrough.jrnl.tickRecs = [] ∧
    n.handOver.writeThrough.jrnl.ram.map (·.item) = n.jrnl.ram.map (·.item) ∧
    (n.tide.st = .inserted → n.tide.hold = none → n.handOver.writeThrough.tide.recs = n.tide.recs ++ n.jrnl.tickRecs) := by
  obtain ⟨r, h, hr⟩ := writeThrough_marked (n := n.handOver)
  rw [handOver_jrnl] at h hr
  refine ⟨?_, ?_, ?_, fun hs hh => ?_⟩
  · rw [h]
  · rw [h]
  · rw [h]
    exact hr
  · have ht : n.handOver.writeThrough.tide = n.handOver.tide := (Within.writeThrough .rfl : Within [.jrnl, .stor] _ _).part .tide
    rw [ht, handOver_recs hs hh]

/-! A record issued. -/

/-- The record that an issue makes of a body. -/
def recordOf (n : Node) (b : RecBody) : Record :=
  ⟨n.jrnl.nextSeq, n.sys.node, n.space, b.type, n.tickTime, b.source, b.old, b.new, detail b.detail⟩

theorem issueNow_ram (b : RecBody) : n.recordOf b ∈ (n.issueNow b).jrnl.ram.map (·.item) := by
  have h : (n.issueNow b).jrnl.ram.getLast? = some ⟨n.recordOf b, false⟩ := pushRam_getLast n (n.recordOf b) true
  exact List.mem_map.2 ⟨_, List.mem_of_getLast? h, rfl⟩

theorem issueNow_tickRecs (b : RecBody) : (n.issueNow b).jrnl.tickRecs = n.jrnl.tickRecs ++ [n.recordOf b] := rfl

theorem issueNow_nextSeq (b : RecBody) : (n.issueNow b).jrnl.nextSeq = n.jrnl.nextSeq + 1 := rfl

/-! The dead-man watch. -/

/-- A move of the watch goes to the ring with the records of its step. -/
theorem issued_handed (c : Call) (b : RecBody) {k : Node} (hk : k = (({ n with call := c } : Node).issueNow b).handOver.writeThrough) :
    k.call = c ∧ k.jrnl.nextSeq = n.jrnl.nextSeq + 1 ∧ (∃ x ∈ k.jrnl.ram, x.item = n.recordOf b) ∧ k.jrnl.tickRecs = [] ∧
      (n.tide.st = .inserted → n.tide.hold = none → k.tide.recs = n.tide.recs ++ (n.jrnl.tickRecs ++ [n.recordOf b])) ∧
      Keeps [.call, .jrnl, .tide, .ext, .stor, .free] n k := by
  obtain ⟨h1, h2, h3, h4⟩ := handedThrough (({ n with call := c } : Node).issueNow b)
  have hw : Within [.jrnl, .tide, .ext, .stor, .free] { n with call := c } k := by
    rw [hk]
    exact .writeThrough (.handOver (.issueNow .rfl))
  have hc : Keeps [.call, .jrnl, .tide, .ext, .stor, .free] n { n with call := c } := (Within.mCall (f := fun _ => c) .rfl : Within _ n _).keeps
  have hm := issueNow_ram (n := { n with call := c }) b
  rw [← hk] at h1 h2 h3 h4
  rw [← h3] at hm
  exact ⟨hw.part .call, h1, List.mem_map.1 hm, h2, h4, hc.trans (hw.keeps.mono (by decide))⟩

theorem dmMove_of (new : Nat) : n.dmMove new = ({ n with call := { n.call with
    dmState := new
    flags := if new = 3 then setBit n.call.flags 2 else n.call.flags } } : Node).issueNow (callBody 0x00FF n.call.dmState new 5 false 0) := rfl

theorem dmMove_prewarn (t : Nat) (h : n.call.dmState = 1) : (n.mCall fun c => { c with dmTimer := min c.dmTimer t }).dmMove 2 =
    ({ n with call := { n.call with dmState := 2, dmTimer := min n.call.dmTimer t } } : Node).issueNow (callBody 0x00FF 1 2 5 false 0) := by
  rw [dmMove_of, show (n.mCall fun c => { c with dmTimer := min c.dmTimer t }).call.dmState = 1 from h]
  rfl

theorem dmMove_expired (h : n.call.dmState = 2) : (n.mCall fun c => { c with dmTimer := 0 }).dmMove 3 =
    ({ n with call := { n.call with dmState := 3, dmTimer := 0, flags := setBit n.call.flags 2 } } : Node).issueNow
      (callBody 0x00FF 2 3 5 false 0) := by
  rw [dmMove_of, show (n.mCall fun c => { c with dmTimer := 0 }).call.dmState = 2 from h]
  rfl

/-! The commands. -/

theorem callHost_own {op target arg : Nat} (h0 : ¬ (op < 0x11 ∨ 0x16 < op)) (hd : n.dest none = .own) :
    (n.callRefusal op arg n.queueFull = 0 → n.callHost op target arg = { n with
      fab := { n.fab with
        queue := n.fab.queue ++ [⟨op, target, arg, 0, n.sys.node, n.fab.cmdId, 0⟩]
        cmdId := if n.fab.cmdId = 0xFFFF then 1 else n.fab.cmdId + 1 }
      call := { n.call with
        cmdResult := 0
        cmdStatId := n.fab.cmdId } }) ∧
    (n.callRefusal op arg n.queueFull ≠ 0 → n.callHost op target arg = n.callRefused (n.callRefusal op arg n.queueFull)) := by
  unfold callHost
  rw [if_neg h0]
  simp only [hd]
  refine ⟨fun h => ?_, fun h => if_pos h⟩
  rw [if_neg (not_not.2 h)]
  rfl

theorem callRefusal_ack (full : Bool) (arg : Nat) : n.callRefusal 0x11 arg full = if full then 5 else 0 := by
  cases full <;> simp [callRefusal]

theorem callRefusal_setDuty (full : Bool) (e : Nat) : n.callRefusal 0x12 e full =
    if n.engineer e = none then 2 else if bit n.call.present e = false then 3 else if full then 5 else 0 := by
  cases full <;> simp [callRefusal]

theorem callRefusal_setPresent (full : Bool) (m : Nat) : n.callRefusal 0x13 m full =
    if n.maskUndefined m = true then 2 else if m.testBit n.call.duty = false then 4 else if full then 5 else 0 := by
  cases full <;> simp [callRefusal]

theorem callRefusal_watch {op : Nat} (h1 : 0x14 ≤ op) (h2 : op ≤ 0x16) (arg : Nat) : n.callRefusal op arg false =
    if op = 0x15 ∧ n.watch.isSome = true ∧ n.call.dmState = 3 then 6 else if n.watch = none then 8 else 0 := by
  interval_cases op <;> simp [callRefusal]

/-! The rung timers. -/

theorem limitTimer_slow {c : LadderCfg} (h : c.fastEscalate = false) (x : LadderSt) : n.limitTimer c x = x := if_neg (by simp [h])

theorem limitTimer_rung (c : LadderCfg) (x : LadderSt) : (n.limitTimer c x).rung = x.rung := by
  unfold limitTimer
  dsimp only
  split <;> rfl

theorem ladderSt_of_call (h : m.call.ladders = n.call.ladders) (k : Nat) : m.ladderSt k = n.ladderSt k := by
  unfold ladderSt
  rw [h]

/-- From `n` to `m` a ladder moved: its state is `x`, the others stand, and records were issued. -/
structure LadderMoved (n m : Node) (l : Nat) (x : LadderSt) (d : Nat) : Prop where
  same : m.ladderSt l = x
  others : ∀ k, k ≠ l → m.ladderSt k = n.ladderSt k
  twf : twf {} m.call.ladders = true
  seq : m.jrnl.nextSeq = n.jrnl.nextSeq + d

theorem setLadder_issued (h : Machine.twf {} n.call.ladders = true) (l : Nat) (x : LadderSt) (b : RecBody) :
    LadderMoved n ((n.setLadder l x).issueNow b) l x 1 :=
  ⟨tget_tset_same h l x, fun _ hk => tget_tset_other h hk x, twf_tset h l x, rfl⟩

theorem LadderMoved.trans {k : Node} {l d e : Nat} {x y : LadderSt} (h : LadderMoved n m l x d) (g : LadderMoved m k l y e) :
    LadderMoved n k l y (d + e) :=
  ⟨g.same, fun j hj => (g.others j hj).trans (h.others j hj), g.twf, by rw [g.seq, h.seq]; omega⟩

/-- The ladder's state at its rung `k`. -/
def rungEntered (n : Node) (c : LadderCfg) (k : Nat) : LadderSt := n.limitTimer c { n.ladderSt c.num with
  rung := k
  shortened := false
  timer := (c.rungs.getD (k - 1) ⟨[], 0⟩).timer
  repeats := if k = 1 then 0 else (n.ladderSt c.num).repeats }

theorem rungEntered_rung (n : Node) (c : LadderCfg) (k : Nat) : (n.rungEntered c k).rung = k := limitTimer_rung c _

/-- One rung entered, with its record. -/
def rungStep (n : Node) (c : LadderCfg) (old k : Nat) : Node :=
  (n.setLadder c.num (n.rungEntered c k)).issueNow (callBody c.num old k 1 (n.rungEntered c k).shortened 0)

theorem enterRung_succ (c : LadderCfg) (old f k : Nat) : enterRung c old (f + 1) k n =
    if k < c.rungs.length && !(n.rungStep c old k).rungAdds c k then enterRung c k f (k + 1) (n.rungStep c old k) else n.rungStep c old k := rfl

theorem rungStep_moved (c : LadderCfg) (old k : Nat) (h : Machine.twf {} n.call.ladders = true) :
    LadderMoved n (n.rungStep c old k) c.num (n.rungEntered c k) 1 := setLadder_issued h _ _ _

theorem enterRung_moved (c : LadderCfg) (f old k : Nat) (h : Machine.twf {} n.call.ladders = true) :
    ∃ x d, LadderMoved n (enterRung c old (f + 1) k n) c.num x (1 + d) ∧ k ≤ x.rung := by
  induction f generalizing old k n with
  | zero =>
    have h1 := rungStep_moved c old k h
    rw [enterRung_succ]
    refine ⟨n.rungEntered c k, 0, ?_, (n.rungEntered_rung c k).ge⟩
    split
    · exact h1
    · exact h1
  | succ f ih =>
    have h1 := rungStep_moved c old k h
    rw [enterRung_succ]
    split
    · obtain ⟨x, d, h2, hx⟩ := ih k (k + 1) h1.twf
      exact ⟨x, 1 + d, h1.trans h2, by omega⟩
    · exact ⟨n.rungEntered c k, 0, h1, (n.rungEntered_rung c k).ge⟩

/-- The ladder's state as its last rung repeats. -/
def rungRepeated (n : Node) (c : LadderCfg) : LadderSt := n.limitTimer c { n.ladderSt c.num with
  timer := (c.rungs.getD ((n.ladderSt c.num).rung - 1) ⟨[], 0⟩).timer
  shortened := false
  repeats := satInc 0xFFF (n.ladderSt c.num).repeats }

theorem repeatRung_moved (c : LadderCfg) (h : Machine.twf {} n.call.ladders = true) :
    LadderMoved n (n.repeatRung c) c.num (n.rungRepeated c) 1 :=
  setLadder_issued h c.num (n.rungRepeated c) (callBody c.num (n.rungRepeated c).rung (n.rungRepeated c).rung 2 (n.rungRepeated c).shortened 0)

/-- What the rest of the step leaves of a ladder that moved. -/
theorem LadderMoved.handed {l d : Nat} {x : LadderSt} (h : LadderMoved n m l x d) :
    LadderMoved n m.bridgeUpdate.handOver.writeThrough l x d ∧ m.bridgeUpdate.handOver.writeThrough.jrnl.tickRecs = [] := by
  obtain ⟨h1, h2, -, -⟩ := handedThrough m.bridgeUpdate
  have hc : m.bridgeUpdate.handOver.writeThrough.call.ladders = m.call.ladders :=
    (congrArg Call.ladders ((Within.writeThrough (.handOver .rfl) : Within [.jrnl, .tide, .ext, .stor, .free] m.bridgeUpdate _).part .call) :)
  exact ⟨⟨(ladderSt_of_call hc l).trans h.same, fun k hk => (ladderSt_of_call hc k).trans (h.others k hk), hc ▸ h.twf, h1.trans h.seq⟩, h2⟩

end Sys2Proof.Machine.Node

open Sys2Proof Sys2Proof.Machine Sys2Proof.Machine.Node

/-- Settles O39: the commands by their refusals, the watch by its two moves, and a rung's timer by whether there is a rung above. -/
theorem engineerCall : Obligations.EngineerCall := by
  unfold Obligations.EngineerCall
  refine ⟨?_, ?_, ?_⟩
  · intro s scope e mask n full queued refused hi ho hp
    have hd := dest_own hi ho hp
    have hq : n.queueFull = true ↔ full := decide_eq_true_iff
    have hcall : ∀ c op target arg, ¬ (op < 0x11 ∨ 0x16 < op) → exec c s = s.run (fun n => n.callHost op target arg) →
        (n.callRefusal op arg n.queueFull = 0 → queued c op target arg) ∧
        ∀ k, n.callRefusal op arg n.queueFull = k → k ≠ 0 → refused c k := fun c op target arg h0 hc => by
      obtain ⟨h1, h2⟩ := callHost_own (target := target) (arg := arg) h0 hd
      exact ⟨fun h => .of_run _ hc (h1 h), fun k hk h => .of_run _ hc (by rw [← hk] at h ⊢; exact h2 h)⟩
    have hack := hcall (.callAck scope .host) 0x11 (Node.scopeCode scope) 0 (by decide) rfl
    have hduty := hcall (.setDuty e) 0x12 e.toNat e.toNat (by decide) rfl
    have hpres := hcall (.setPresent mask) 0x13 0 mask.toNat (by decide) rfl
    have hstart := hcall .dmStart 0x14 0x00FF 0 (by decide) rfl
    have hstop := hcall .dmStop 0x15 0x00FF 0 (by decide) rfl
    have hreset := hcall .dmReset 0x16 0x00FF 0 (by decide) rfl
    rw [callRefusal_ack] at hack
    rw [callRefusal_setDuty] at hduty
    rw [callRefusal_setPresent] at hpres
    refine ⟨fun h => hack.1 (if_neg (mt hq.1 h)), fun h => hack.2 5 (if_pos (hq.2 h)) (by decide), fun h => hduty.2 2 (if_pos h) (by decide),
      fun h hb => ?_, fun h hb hf => ?_, fun h => hpres.2 2 (if_pos h) (by decide), fun h hb => ?_, fun h hb hf => ?_, fun h hf => ?_, fun h hf => ?_,
      fun h hf h3 => ?_, fun h hf h3 => ?_⟩
    · refine hduty.2 3 ?_ (by decide)
      rw [if_neg (Option.isSome_iff_ne_none.1 h), if_pos hb]
    · refine hduty.1 ?_
      rw [if_neg (Option.isSome_iff_ne_none.1 h), if_neg (by simp [hb]), if_neg (mt hq.1 hf)]
    · refine hpres.2 4 ?_ (by decide)
      rw [if_neg (by simp [h]), if_pos hb]
    · refine hpres.1 ?_
      rw [if_neg (by simp [h]), if_neg (by simp [hb]), if_neg (mt hq.1 hf)]
    · have hw : ∀ op, 0x14 ≤ op → op ≤ 0x16 → n.callRefusal op 0 n.queueFull = 8 := fun op h1 h2 => by
        rw [Bool.eq_false_iff.2 (mt hq.1 hf), callRefusal_watch h1 h2, if_neg (by simp [h]), if_pos h]
      exact ⟨hstart.2 8 (hw _ (by decide) (by decide)) (by decide), hstop.2 8 (hw _ (by decide) (by decide)) (by decide),
        hreset.2 8 (hw _ (by decide) (by decide)) (by decide)⟩
    · have hw : ∀ op, 0x14 ≤ op → op ≤ 0x16 → op ≠ 0x15 → n.callRefusal op 0 n.queueFull = 0 := fun op h1 h2 h3 => by
        rw [Bool.eq_false_iff.2 (mt hq.1 hf), callRefusal_watch h1 h2, if_neg (by simp [h3]), if_neg (Option.isSome_iff_ne_none.1 h)]
      exact ⟨hstart.1 (hw _ (by decide) (by decide) (by decide)), hreset.1 (hw _ (by decide) (by decide) (by decide))⟩
    · refine hstop.2 6 ?_ (by decide)
      rw [Bool.eq_false_iff.2 (mt hq.1 hf), callRefusal_watch (by decide) (by decide), if_pos ⟨rfl, h, h3⟩]
    · refine hstop.1 ?_
      rw [Bool.eq_false_iff.2 (mt hq.1 hf), callRefusal_watch (by decide) (by decide), if_neg (by simp [h3]), if_neg (Option.isSome_iff_ne_none.1 h)]
  · rintro ⟨n, q⟩ w
    dsimp only
    refine ⟨fun h => ⟨?_, ?_⟩, fun he hw => ⟨fun hs ht => ?_, fun h => ?_, fun hs ht => ?_, fun h => ?_⟩⟩
    · rw [Answers, exec, execDmPrewarn, State.run]
      dsimp only
      split
      · rfl
      next hx => rw [if_neg (by rcases h with h | h <;> simp [h] at hx ⊢)]
    · rw [Answers, exec, execDmExpiry, State.run]
      dsimp only
      rw [if_neg (by rcases h with h | h <;> simp [h])]
    · rw [Gives, exec, execDmPrewarn, State.run]
      simp only [hw]
      rw [if_pos ⟨he, hs, ht⟩]
      rw [dmMove_prewarn _ hs]
      exact ⟨_, rfl, rfl, n.issued_handed { n.call with dmState := 2, dmTimer := min n.call.dmTimer (w.warn * 20) } (callBody 0x00FF 1 2 5 false 0) rfl⟩
    · rw [Answers, exec, execDmPrewarn, State.run]
      simp only [hw]
      rw [if_neg]
      rintro ⟨-, h1, h2⟩
      rcases h with h | h
      · exact h h1
      · omega
    · rw [Gives, exec, execDmExpiry, State.run]
      dsimp only
      rw [if_pos ⟨he, by rw [hw]; rfl, hs, ht⟩, dmMove_expired hs]
      exact ⟨_, rfl, rfl, n.issued_handed { n.call with dmState := 3, dmTimer := 0, flags := setBit n.call.flags 2 } (callBody 0x00FF 2 3 5 false 0) rfl⟩
    · rw [Answers, exec, execDmExpiry, State.run]
      dsimp only
      rw [if_neg]
      rintro ⟨-, -, h1, h2⟩
      rcases h with h | h
      · exact h h1
      · omega
  · rintro ⟨n, q⟩ l c
    dsimp only
    refine ⟨fun h => ?_, fun hl he => ⟨fun h => ?_, fun h0 ht hr hf hw => ?_, fun h0 ht hr hw => ?_⟩⟩
    · rw [Answers, exec, execRungTimerExpiry, State.run]
      dsimp only
      split
      · rfl
      next hx => rw [if_neg (by rcases h with h | h <;> simp [h] at hx ⊢)]
    · rw [Answers, exec, execRungTimerExpiry, State.run]
      simp only [hl]
      rw [if_neg]
      rintro ⟨-, h1, h2⟩
      rcases h with h | h
      · exact h1 h
      · omega
    · rw [Gives, exec, execRungTimerExpiry, State.run]
      simp only [hl]
      rw [if_pos ⟨he, h0, ht⟩]
      have hr' : n.rungExpires c = n.repeatRung c := if_neg (by omega)
      obtain ⟨⟨h1, h2, -, h4⟩, h5⟩ := (repeatRung_moved c hw).handed
      rw [hr']
      refine ⟨_, rfl, rfl, h1.trans (limitTimer_slow hf _), h4, h5, h2, ?_⟩
      exact (Within.writeThrough (.handOver (.bridgeUpdate (.repeatRung .rfl))) : Within [.call, .jrnl, .tide, .ext, .stor, .free] n _).keeps
    · rw [Gives, exec, execRungTimerExpiry, State.run]
      simp only [hl]
      rw [if_pos ⟨he, h0, ht⟩]
      have hr' : n.rungExpires c = enterRung c (n.ladderSt c.num).rung 4 ((n.ladderSt c.num).rung + 1) n := if_pos hr
      obtain ⟨x, d, hm, hx⟩ := enterRung_moved c 3 (n.ladderSt c.num).rung ((n.ladderSt c.num).rung + 1) hw
      obtain ⟨⟨h1, h2, -, h4⟩, h5⟩ := hm.handed
      rw [hr']
      refine ⟨_, rfl, rfl, ?_, ?_, h5, h2, ?_⟩
      · rw [h1]
        omega
      · rw [h4]
        omega
      · exact (Within.writeThrough (.handOver (.bridgeUpdate (.enterRung .rfl))) : Within [.call, .jrnl, .tide, .ext, .stor, .free] n _).keeps

end

section
/-! The solver memory window (12 R365, R378). -/

namespace Sys2Proof.Machine.Node

variable {n : Node}

theorem memRefusal_outside (h : n.solv.memAddr < n.region.1 ∨ n.region.1 + n.region.2 ≤ n.solv.memAddr) : n.memRefusal = 1 := if_pos h

theorem memRefusal_taken (h : ¬ (n.solv.memAddr < n.region.1 ∨ n.region.1 + n.region.2 ≤ n.solv.memAddr))
    (ht : ∃ j ∈ n.hostJobs, ∃ x ∈ j.areas, x.1 ≤ n.solv.memAddr ∧ n.solv.memAddr < x.2) : n.memRefusal = 2 :=
  (if_neg h).trans (if_pos (by simpa using ht))

theorem memRefusal_free (h : ¬ (n.solv.memAddr < n.region.1 ∨ n.region.1 + n.region.2 ≤ n.solv.memAddr))
    (ht : ¬ ∃ j ∈ n.hostJobs, ∃ x ∈ j.areas, x.1 ≤ n.solv.memAddr ∧ n.solv.memAddr < x.2) : n.memRefusal = 0 :=
  (if_neg h).trans (if_neg (by simpa using ht))

theorem memStore_refused (hi : Word) (h : n.memRefusal ≠ 0) : n.memStore hi = { n with solv := { n.solv with
    memResult := n.memRefusal
    memHi := hi
    flags := setBit n.solv.flags 6
    memAddr := if n.solv.autoinc then (n.solv.memAddr + 1) % 2 ^ 18 else n.solv.memAddr } } := by
  rw [memStore]
  dsimp only
  rw [if_neg h]
  rfl

theorem memStore_stored (hi : Word) (h : n.memRefusal = 0) : n.memStore hi = { n with solv := { n.solv with
    mem := tset 0 n.solv.mem n.solv.memAddr (hi ++ n.solv.memLo)
    memResult := 0
    memHi := hi
    memAddr := if n.solv.autoinc then (n.solv.memAddr + 1) % 2 ^ 18 else n.solv.memAddr } } := by
  rw [memStore]
  dsimp only
  rw [if_pos h, h]
  rfl

theorem high_word (v : B64) : BitVec.ofNat 32 (v.toNat / 2 ^ 32) = v.extractLsb' 32 32 := by
  rw [BitVec.extractLsb', Nat.shiftRight_eq_div_pow]

end Sys2Proof.Machine.Node

open Sys2Proof Sys2Proof.Machine Sys2Proof.Machine.Node

/-- Settles O40: a write by its refusal, and a stored word by the table it is put into. -/
theorem solverMemoryWindow : Obligations.SolverMemoryWindow := by
  unfold Obligations.SolverMemoryWindow
  rintro ⟨n, q⟩ hi
  dsimp only
  refine ⟨fun h => ?_, fun h ht => ?_, fun h ht hw => ?_, ?_, ?_⟩
  · refine .of_run (fun n => n.memStore hi) rfl ?_
    rw [memStore_refused hi (by rw [memRefusal_outside h]; decide), memRefusal_outside h]
  · refine .of_run (fun n => n.memStore hi) rfl ?_
    rw [memStore_refused hi (by rw [memRefusal_taken h ht]; decide), memRefusal_taken h ht]
  · refine .of_run (fun n => n.memStore hi) rfl ?_
    have hk : Within [.solv] n (n.memStore hi) := .memStore .rfl
    refine ⟨?_, fun k hk => ?_, hk.mem hw, ?_, hk.keeps⟩
    · rw [memStore_stored hi (memRefusal_free h ht)]
      exact tget_tset_same hw _ _
    · rw [memStore_stored hi (memRefusal_free h ht)]
      exact tget_tset_other hw hk _
    · rw [memStore_stored hi (memRefusal_free h ht)]
  · exact .of_run Node.memLatch rfl (by rw [memLatch, mSolv, high_word])
  · exact .of_run Node.memAdvance rfl rfl

end

section
/-! What the solver's engine may do (12): jobs that end and start, and what stands of the submission, the queues and the slots. -/

namespace Sys2Proof.Machine.Node

variable {n m : Node}

/-- The table of slots in its form, and every job naming its own slot. -/
def Slotted (n : Node) : Prop := twf {} n.solv.slots = true ∧ ∀ i o, (n.slotSt i).job = some o → o.slot = i

/-- From `n` to `m` jobs ended and started: no slot is taken, none changes its generation, and a host job keeps its slot. -/
structure JobsStand (n m : Node) : Prop where
  slotted : m.Slotted
  gen : ∀ k, (m.slotSt k).gen = (n.slotSt k).gen
  free : ∀ k, (n.slotSt k).job = none → (m.slotSt k).job = none
  host : ∀ k j, (n.slotSt k).job = some j → j.queue ≠ 0 → ∃ i, (m.slotSt k).job = some i ∧ i.queue ≠ 0

theorem JobsStand.of_slots (h : m.solv.slots = n.solv.slots) (hs : n.Slotted) : JobsStand n m := by
  have hl : ∀ k, m.slotSt k = n.slotSt k := fun k => by simp only [slotSt, h]
  refine ⟨⟨by rw [h]; exact hs.1, fun i o => by rw [hl]; exact hs.2 i o⟩, fun k => by rw [hl], fun k => by rw [hl]; exact id, fun k j hj hq => ?_⟩
  rw [hl]
  exact ⟨j, hj, hq⟩

theorem JobsStand.trans {k : Node} (h : JobsStand n m) (g : JobsStand m k) : JobsStand n k := by
  refine ⟨g.slotted, fun i => (g.gen i).trans (h.gen i), fun i hi => g.free i (h.free i hi), fun i j hj hq => ?_⟩
  obtain ⟨x, hx, hxq⟩ := h.host i j hj hq
  exact g.host i x hx hxq

/-- What the engine leaves of the submission, the faults counted, the queues, the templates' host jobs and the slots. -/
structure Engine (n m : Node) : Prop where
  sub : m.solv.subJobId = n.solv.subJobId ∧ m.solv.subResult = n.solv.subResult ∧ m.solv.subQueue = n.solv.subQueue
  flag1 : m.solv.flags.getLsbD 1 = n.solv.flags.getLsbD 1
  flag5 : bit n.solv.flags 5 = true → bit m.solv.flags 5 = true
  faults : m.solv.hwfaults = n.solv.hwfaults
  cq : ∀ q, ∃ r, m.cqOf q = n.cqOf q ++ r
  used : twf {} n.solv.tmpl = true → twf {} m.solv.tmpl = true ∧ ∀ t, (m.tmplSt t).hostUsed = (n.tmplSt t).hostUsed
  jobs : n.Slotted → JobsStand n m

theorem Engine.of_solv (h : m.solv = n.solv) : Engine n m := by
  have hq : ∀ q, m.cqOf q = n.cqOf q := fun q => by simp only [cqOf, h]
  have ht : ∀ t, m.tmplSt t = n.tmplSt t := fun t => by simp only [tmplSt, h]
  exact ⟨by simp [h], by rw [h], by rw [h]; exact id, by rw [h], fun q => ⟨[], by rw [hq, List.append_nil]⟩,
    fun hw => ⟨by rw [h]; exact hw, fun t => by rw [ht]⟩, .of_slots (by rw [h])⟩

theorem Engine.rfl : Engine n n := .of_solv (.refl _)

theorem Engine.trans {k : Node} (h : Engine n m) (g : Engine m k) : Engine n k := by
  refine ⟨⟨g.sub.1.trans h.sub.1, g.sub.2.1.trans h.sub.2.1, g.sub.2.2.trans h.sub.2.2⟩, g.flag1.trans h.flag1, g.flag5 ∘ h.flag5,
    g.faults.trans h.faults, fun q => ?_, fun hw => ?_, fun hs => (h.jobs hs).trans (g.jobs (h.jobs hs).slotted)⟩
  · obtain ⟨r, hr⟩ := h.cq q
    obtain ⟨r', hr'⟩ := g.cq q
    exact ⟨r ++ r', by rw [hr', hr, List.append_assoc]⟩
  · obtain ⟨h1, h2⟩ := h.used hw
    obtain ⟨g1, g2⟩ := g.used h1
    exact ⟨g1, fun t => (g2 t).trans (h2 t)⟩

theorem Engine.frame (h : Within (Part.allBut [.solv]) n m) : Engine n m := .of_solv (h.part .solv)

theorem Engine.ite {c : Prop} [Decidable c] {a b : Node} (ha : c → Engine n a) (hb : ¬ c → Engine n b) : Engine n (if c then a else b) := by
  split
  next h => exact ha h
  next h => exact hb h

/-- An update of SOLV that leaves what the engine leaves. -/
theorem mSolv_engine {f : Solv → Solv} (h : ∀ s, ∃ me od ru st fr, f s = { s with mem := me, order := od, running := ru, stopped := st, faultReq := fr }) :
    Engine n (n.mSolv f) := by
  obtain ⟨_, _, _, _, _, hf⟩ := h n.solv
  have hs : (n.mSolv f).solv = _ := hf
  have hq : ∀ q, (n.mSolv f).cqOf q = n.cqOf q := fun q => by simp only [cqOf, hs]
  have ht : ∀ t, (n.mSolv f).tmplSt t = n.tmplSt t := fun t => by simp only [tmplSt, hs]
  refine ⟨?_, by rw [hs], by rw [hs]; exact id, by rw [hs], fun q => ⟨[], by rw [hq, List.append_nil]⟩,
    fun hw => ⟨by rw [hs]; exact hw, fun t => by rw [ht]⟩, .of_slots (by rw [hs])⟩
  rw [hs]
  exact ⟨.refl _, .refl _, .refl _⟩

theorem putMem_engine (a : Nat) (l : List B64) : Engine n (n.putMem a l) := mSolv_engine fun _ => ⟨_, _, _, _, _, .refl _⟩

/-- A flag other than the refusal's. -/
theorem solvFlag_engine (i : Nat) (h : i ≠ 1) : Engine n (n.solvFlag i) := by
  refine ⟨⟨.refl _, .refl _, .refl _⟩, bit_setBit_other n.solv.flags h, fun h5 => ?_, .refl _, fun q => ⟨[], (List.append_nil _).symm⟩,
    fun hw => ⟨hw, fun _ => .refl _⟩, .of_slots (.refl _)⟩
  by_cases hi : i = 5
  · rw [hi]
    exact bit_setBit_same _ (by decide)
  · exact (bit_setBit_other n.solv.flags hi).trans h5

theorem setTmpl_engine (t : Nat) {x : TmplSt} (h : x.hostUsed = (n.tmplSt t).hostUsed) : Engine n (n.setTmpl t x) := by
  refine ⟨⟨.refl _, .refl _, .refl _⟩, .refl _, id, .refl _, fun q => ⟨[], (List.append_nil _).symm⟩, fun hw => ⟨twf_tset hw t x, fun i => ?_⟩, .of_slots (.refl _)⟩
  by_cases hi : i = t
  · rw [hi]
    exact (congrArg TmplSt.hostUsed (tget_tset_same hw t x)).trans h
  · exact congrArg TmplSt.hostUsed (tget_tset_other hw hi x)

/-- An update of SOLV that appends to its queues. -/
theorem Engine.of_cq {a b c : List CqEntry} (h : m.solv = { n.solv with cq1 := n.solv.cq1 ++ a, cq2 := n.solv.cq2 ++ b, cq3 := n.solv.cq3 ++ c }) :
    Engine n m := by
  have ht : ∀ t, m.tmplSt t = n.tmplSt t := fun t => by simp only [tmplSt, h]
  refine ⟨by simp [h], by rw [h], by rw [h]; exact id, by rw [h], fun q => ?_, fun hw => ⟨by rw [h]; exact hw, fun t => by rw [ht]⟩, .of_slots (by rw [h])⟩
  match q with
  | 0 => exact ⟨[], .refl _⟩
  | 1 => exact ⟨a, (congrArg Solv.cq1 h :)⟩
  | 2 => exact ⟨b, (congrArg Solv.cq2 h :)⟩
  | 3 => exact ⟨c, (congrArg Solv.cq3 h :)⟩
  | _ + 4 => exact ⟨[], .refl _⟩

theorem pushCq_engine (q : Nat) (e : CqEntry) : Engine n (n.pushCq q e) := by
  match q with
  | 0 => exact .of_cq (a := []) (b := []) (c := [e]) (by simp [pushCq, mSolv])
  | 1 => exact .of_cq (a := [e]) (b := []) (c := []) (by simp [pushCq, mSolv])
  | 2 => exact .of_cq (a := []) (b := [e]) (c := []) (by simp [pushCq, mSolv])
  | 3 => exact .of_cq (a := []) (b := []) (c := [e]) (by simp [pushCq, mSolv])
  | _ + 4 => exact .of_cq (a := []) (b := []) (c := [e]) (by simp [pushCq, mSolv])

theorem cqOf_pushCq {q : Nat} (h1 : 1 ≤ q) (h3 : q ≤ 3) (e : CqEntry) : (n.pushCq q e).cqOf q = n.cqOf q ++ [e] := by
  interval_cases q <;> rfl

theorem slotSt_setJob (h : twf {} n.solv.slots = true) (k : Nat) (x : Option Job) : (n.setJob k x).slotSt k = { n.slotSt k with job := x } :=
  tget_tset_same h k _

theorem slotSt_setJob_other (h : twf {} n.solv.slots = true) {k i : Nat} (hi : i ≠ k) (x : Option Job) : (n.setJob k x).slotSt i = n.slotSt i :=
  tget_tset_other h hi _

/-- A slot's job moves on, or a scheduled one leaves it. -/
theorem setJob_engine {k : Nat} {j : Job} {x : Option Job} (hj : n.Slotted → (n.slotSt k).job = some j)
    (hx : x = none ∧ j.queue = 0 ∨ ∃ i, x = some i ∧ i.slot = j.slot ∧ i.queue = j.queue) : Engine n (n.setJob k x) := by
  refine ⟨⟨.refl _, .refl _, .refl _⟩, .refl _, id, .refl _, fun q => ⟨[], (List.append_nil _).symm⟩, fun hw => ⟨hw, fun _ => .refl _⟩, fun hs => ?_⟩
  have hj := hj hs
  obtain ⟨hw, hslot⟩ := hs
  refine ⟨⟨twf_tset hw k _, fun i o ho => ?_⟩, fun i => ?_, fun i hi => ?_, fun i o ho hq => ?_⟩
  · by_cases hi : i = k
    · rw [hi, slotSt_setJob hw] at ho
      rcases hx with ⟨hx, -⟩ | ⟨y, hx, hys, -⟩
      · rw [hx] at ho
        cases ho
      · rw [hx] at ho
        cases ho
        rw [hys, hi]
        exact hslot k j hj
    · rw [slotSt_setJob_other hw hi] at ho
      exact hslot i o ho
  · by_cases hi : i = k
    · rw [hi, slotSt_setJob hw]
    · rw [slotSt_setJob_other hw hi]
  · by_cases hk : i = k
    · rw [hk, hj] at hi
      cases hi
    · rw [slotSt_setJob_other hw hk]
      exact hi
  · by_cases hk : i = k
    · rw [hk] at ho ⊢
      rw [hj] at ho
      cases ho
      rw [slotSt_setJob hw]
      rcases hx with ⟨-, h0⟩ | ⟨y, hx, -, hyq⟩
      · exact absurd h0 hq
      · exact ⟨y, hx, by rw [hyq]; exact hq⟩
    · rw [slotSt_setJob_other hw hk]
      exact ⟨o, ho, hq⟩

/-! The end of a job. -/

theorem solvRecord_engine (t e : Nat) (w : Word) : Engine n (n.solvRecord t e w) := .frame (.solvRecord .rfl)

theorem setFault_engine (t : Nat) : Engine n (n.setFault t) := by
  unfold setFault
  refine .ite (fun _ => .rfl) fun _ => ?_
  dsimp only
  have h1 : Engine n (n.setTmpl t { n.tmplSt t with fault := true }) := setTmpl_engine t (.refl _)
  have h2 := h1.trans (solvFlag_engine 4 (by decide))
  exact (h2.trans (mSolv_engine fun _ => ⟨_, _, _, _, _, .refl _⟩)).trans (solvRecord_engine t 3 0)

theorem publishOk_engine (j : Job) (l : List (List B64)) : Engine n (n.publishOk j l) := by
  unfold publishOk
  dsimp only
  generalize hk : Node.setTmpl n _ _ = k
  have h1 : Engine n k := hk ▸ setTmpl_engine j.cfg.num (.refl _)
  have h2 : Engine n (if (n.tmplSt j.cfg.num).fault = true then (k.mSolv fun x => { x with faultReq := true }).solvRecord j.cfg.num 3 0 else k) :=
    .ite (fun _ => (h1.trans (mSolv_engine fun _ => ⟨_, _, _, _, _, .refl _⟩)).trans (solvRecord_engine _ 3 0)) fun _ => h1
  exact .ite (fun _ => h2.trans (solvRecord_engine _ 4 0)) fun _ => h2

theorem carryOn_engine (j : Job) : Engine n (n.carryOn j) := by
  unfold carryOn
  dsimp only
  refine .ite (fun _ => ?_) fun _ => ?_
  · have h1 : Engine n (n.setTmpl j.cfg.num { n.tmplSt j.cfg.num with carrying := false }) := setTmpl_engine _ (.refl _)
    exact .trans (.ite (fun _ => h1.trans (solvRecord_engine _ 4 0)) fun _ => h1) (setFault_engine _)
  · split
    · exact setTmpl_engine _ (.refl _)
    · generalize hk : Node.setTmpl n _ _ = k
      have h1 : Engine n k := hk ▸ setTmpl_engine j.cfg.num (.refl _)
      have h2 := h1.trans (solvFlag_engine 3 (by decide))
      exact .ite (fun _ => h2) fun _ => h2.trans (solvRecord_engine _ 2 0)

theorem scheduledEnd_engine (j : Job) (s : Nat) (l : List (List B64)) : Engine n (n.scheduledEnd j s l) := by
  unfold scheduledEnd
  refine .ite (fun _ => .rfl) fun _ => .ite (fun _ => publishOk_engine j l) fun _ => ?_
  dsimp only
  have h1 : Engine n (n.solvRecord j.cfg.num 1 0) := solvRecord_engine _ 1 0
  exact .ite (fun _ => h1) fun _ => .ite (fun _ => .ite (fun _ => h1) fun _ => h1.trans (carryOn_engine j)) fun _ => h1.trans (setFault_engine _)

theorem writeResults_engine (j : Job) (l : List MatEnd) : Engine n (n.writeResults j l) := by
  unfold writeResults
  refine .ite (fun _ => .rfl) fun _ => ?_
  generalize l.zipIdx = z
  induction z generalizing n with
  | nil => exact .rfl
  | cons x z ih => exact ((putMem_engine _ _).trans (putMem_engine _ _)).trans ih

theorem countEnd_engine (t : Nat) {s : Nat} (h : s ≠ 4) : Engine n (n.countEnd t s) := by
  unfold countEnd
  dsimp only
  rw [if_neg h]
  generalize hk : Node.setTmpl n _ _ = k
  have h1 : Engine n k := hk ▸ setTmpl_engine t (.refl _)
  exact .ite (fun _ => h1.trans (solvFlag_engine 2 (by decide))) fun _ => h1

/-- The status of a job's end: the first code of its matrices that is not OK. -/
def statusOf (l : List MatEnd) : Nat := ((l.map MatEnd.code).find? (· != 0)).getD 0

theorem statusOf_ne {l : List MatEnd} {c : Nat} (hc : c ≠ 0) (h : ∀ e ∈ l, e.code ≠ c) : statusOf l ≠ c := by
  unfold statusOf
  cases hf : (l.map MatEnd.code).find? (· != 0) with
  | none => exact hc.symm
  | some x =>
    obtain ⟨e, he, hx⟩ := List.mem_map.1 (List.mem_of_find?_eq_some hf)
    rw [Option.getD_some, ← hx]
    exact h e he

theorem statusOf_ne_zero {l : List MatEnd} (h : ∃ e ∈ l, e.code ≠ 0) : statusOf l ≠ 0 := by
  obtain ⟨e, he, hc⟩ := h
  unfold statusOf
  cases hf : (l.map MatEnd.code).find? (· != 0) with
  | none =>
    have := List.find?_eq_none.1 hf e.code (List.mem_map.2 ⟨e, he, rfl⟩)
    simp [hc] at this
  | some x =>
    have := List.find?_some hf
    simpa using this

theorem statusOf_replicate {b : Nat} (hb : 1 ≤ b) (e : MatEnd) (hc : e.code ≠ 0) : statusOf (List.replicate b e) = e.code := by
  obtain ⟨k, rfl⟩ := Nat.exists_eq_add_of_le' hb
  simp [statusOf, List.replicate_succ, hc]

theorem runMatrix_code (j : Job) (i : Nat) : (n.runMatrix j i).code = 0 ∨ (n.runMatrix j i).code = 2 := by
  unfold runMatrix matrixEnd MatEnd.code
  split
  · exact .inl (Nat.mul_mod_left _ _)
  · refine .inr ?_
    dsimp only
    omega

/-- The matrices of a job that was stopped with the code `c`: those computed end by themselves. -/
def stoppedEnds (n : Node) (j : Job) (c : Nat) (v : BitVec 64) : List MatEnd :=
  (List.range j.b).map fun i => if bit v i then n.runMatrix j i else ⟨[], c, 0⟩

theorem matrixEnds_own (j : Job) (ran : Bool) : n.matrixEnds j .own ran = ((List.range j.b).map (n.runMatrix j), n) := rfl
theorem matrixEnds_deadline_ran (j : Job) : n.matrixEnds j .deadline true =
    ((n.computedSet j.b).2.stoppedEnds j 1 (n.computedSet j.b).1, (n.computedSet j.b).2) := rfl
theorem matrixEnds_deadline_queued (j : Job) : n.matrixEnds j .deadline false = (List.replicate j.b ⟨[], 1, 0⟩, n) := rfl
theorem matrixEnds_aborted_ran (j : Job) : n.matrixEnds j .aborted true =
    ((n.computedSet j.b).2.stoppedEnds j 3 (n.computedSet j.b).1, (n.computedSet j.b).2) := rfl
theorem matrixEnds_aborted_queued (j : Job) : n.matrixEnds j .aborted false = (List.replicate j.b ⟨[], 3, 0⟩, n) := rfl
theorem matrixEnds_hwfault (j : Job) (ran : Bool) : n.matrixEnds j .hwfault ran = (List.replicate j.b ⟨[], 4, 0⟩, n) := rfl

theorem stoppedEnds_code {j : Job} {c : Nat} (h0 : c < 16) (h : c ≠ 4) (v : BitVec 64) : ∀ e ∈ n.stoppedEnds j c v, e.code ≠ 4 := by
  intro e he
  obtain ⟨i, -, hi⟩ := List.mem_map.1 he
  by_cases hb : bit v i = true
  · rw [if_pos hb] at hi
    rcases runMatrix_code (n := n) j i with hc | hc <;> rw [← hi, hc] <;> decide
  · rw [if_neg hb] at hi
    rw [← hi]
    exact fun hx => h ((Nat.mod_eq_of_lt h0).symm.trans hx)

theorem replicate_code {b c : Nat} (h0 : c < 16) (h : c ≠ 4) : ∀ e ∈ List.replicate b (⟨[], c, 0⟩ : MatEnd), e.code ≠ 4 := by
  intro e he
  rw [List.eq_of_mem_replicate he]
  exact fun hx => h ((Nat.mod_eq_of_lt h0).symm.trans hx)

/-- How the matrices of a job end, but for a second fault: none of them HWFAULT. -/
theorem matrixEnds_code {j : Job} {how : JobHow} (h : how ≠ .hwfault) (ran : Bool) : ∀ e ∈ (n.matrixEnds j how ran).1, e.code ≠ 4 := by
  cases how with
  | own =>
    intro e he
    obtain ⟨i, -, hi⟩ := List.mem_map.1 he
    rcases runMatrix_code (n := n) j i with hc | hc <;> rw [← hi, hc] <;> decide
  | deadline =>
    cases ran
    · exact replicate_code (by decide) (by decide)
    · exact stoppedEnds_code (by decide) (by decide) _
  | aborted =>
    cases ran
    · exact replicate_code (by decide) (by decide)
    · exact stoppedEnds_code (by decide) (by decide) _
  | hwfault => exact absurd rfl h
  | stale =>
    refine replicate_code ?_ ?_
    · split <;> decide
    · split <;> decide

/-- Of a job stopped at its deadline a matrix was not computed. -/
theorem stoppedEnds_computedSet {j : Job} (hb : 1 ≤ j.b) {c : Nat} (hc : c % 16 ≠ 0) :
    ∃ e ∈ (n.computedSet j.b).2.stoppedEnds j c (n.computedSet j.b).1, e.code ≠ 0 := by
  have hi : ∃ i, i < j.b ∧ bit (n.computedSet j.b).1 i = false := by
    by_cases ha : (List.range j.b).all (bit n.fresh.1 ·) = true
    · have hv : (n.computedSet j.b).1 = clrBit n.fresh.1 (j.b - 1) := if_pos ha
      exact ⟨j.b - 1, by omega, by rw [hv]; exact bit_clrBit_same _ _⟩
    · have hv : (n.computedSet j.b).1 = n.fresh.1 := if_neg ha
      rw [hv]
      simpa using ha
  obtain ⟨i, hlt, hbit⟩ := hi
  refine ⟨⟨[], c, 0⟩, List.mem_map.2 ⟨i, List.mem_range.2 hlt, ?_⟩, hc⟩
  rw [if_neg (by simp [hbit])]

/-- A job's matrices written, and the job off the queues and the engine. -/
def matricesEnded (n : Node) (j : Job) (slot : Nat) (l : List MatEnd) : Node :=
  (n.writeResults j l).mSolv fun s => { s with
    order := s.order.filter (· != slot)
    running := if s.running = some slot then none else s.running
    stopped := if s.stopped = some slot then none else s.stopped }

/-- The end counted at the job's template. -/
def endCounted (n : Node) (j : Job) (l : List MatEnd) : Node :=
  let n := n.countEnd j.cfg.num (statusOf l)
  if statusOf l = 0 && n.sameTemplate j.cfg then
    n.setTmpl j.cfg.num { n.tmplSt j.cfg.num with committed := some (l.map fun e => e.out.take j.n) } else n

/-- The completion entry of a host job. -/
def entryOf (n : Node) (j : Job) (slot : Nat) (l : List MatEnd) (ran : Bool) : CqEntry :=
  ⟨slot, jobId slot j.gen, j.cfg.num, statusOf l, l.foldl (fun f x => f ||| x.flags) 0, j.rerun, j.x0.isSome,
    if statusOf l = 0 then 0x7F else (l.map MatEnd.code).findIdx (· != 0), (l.map (·.iter)).foldl max 0, if ran then n.now - j.start else 0⟩

/-- The job's slot, after its end is counted. -/
def endSlotted (n : Node) (j : Job) (slot : Nat) (l : List MatEnd) (ran : Bool) : Node :=
  if j.queue = 0 then (n.setJob slot none).scheduledEnd j (statusOf l) (l.map (·.out))
  else
    let e := n.entryOf j slot l ran
    let n := (n.setJob slot (some { j with ended := true })).pushCq j.queue e
    if statusOf l = 1 ∨ statusOf l = 3 ∨ statusOf l = 4 then n.solvRecord j.cfg.num 5 (entryE0 e) else n

theorem endJob_of {slot : Nat} {j : Job} (hj : (n.slotSt slot).job = some j) (how : JobHow) (ran : Bool) : n.endJob slot how ran =
    (((n.matrixEnds j how ran).2.matricesEnded j slot (n.matrixEnds j how ran).1).endCounted j (n.matrixEnds j how ran).1).endSlotted j slot
      (n.matrixEnds j how ran).1 ran := by
  simp only [endJob, hj]
  rfl

theorem endJob_of_none {slot : Nat} (hj : (n.slotSt slot).job = none) (how : JobHow) (ran : Bool) : n.endJob slot how ran = n := by
  simp only [endJob, hj]

theorem matrixEnds_solv (j : Job) (how : JobHow) (ran : Bool) : (n.matrixEnds j how ran).2.solv = n.solv :=
  (Within.matrixEnds .rfl : Within [.free] n _).part .solv

theorem matricesEnded_engine (j : Job) (slot : Nat) (l : List MatEnd) : Engine n (n.matricesEnded j slot l) :=
  (writeResults_engine j l).trans (mSolv_engine fun _ => ⟨_, _, _, _, _, .refl _⟩)

theorem endCounted_engine (j : Job) {l : List MatEnd} (h : statusOf l ≠ 4) : Engine n (n.endCounted j l) := by
  have h1 : Engine n (n.countEnd j.cfg.num (statusOf l)) := countEnd_engine _ h
  exact .ite (fun _ => h1.trans (setTmpl_engine _ (.refl _))) fun _ => h1

theorem endSlotted_engine {j : Job} {slot : Nat} (hj : (n.slotSt slot).job = some j) (l : List MatEnd) (ran : Bool) :
    Engine n (n.endSlotted j slot l ran) := by
  refine .ite (fun h0 => ?_) fun _ => ?_
  · exact (setJob_engine (fun _ => hj) (.inl ⟨.refl _, h0⟩)).trans (scheduledEnd_engine _ _ _)
  · dsimp only
    have h1 : Engine n ((n.setJob slot (some { j with ended := true })).pushCq j.queue (n.entryOf j slot l ran)) :=
      (setJob_engine (fun _ => hj) (.inr ⟨{ j with ended := true }, .refl _, .refl _, .refl _⟩)).trans (pushCq_engine _ _)
    exact .ite (fun _ => h1.trans (solvRecord_engine _ 5 _)) fun _ => h1

/-- The slots and the queues stand. -/
def QueuesStand (n m : Node) : Prop :=
  m.solv.slots = n.solv.slots ∧ m.solv.cq1 = n.solv.cq1 ∧ m.solv.cq2 = n.solv.cq2 ∧ m.solv.cq3 = n.solv.cq3

theorem QueuesStand.trans {k : Node} (h : QueuesStand n m) (g : QueuesStand m k) : QueuesStand n k :=
  ⟨g.1.trans h.1, g.2.1.trans h.2.1, g.2.2.1.trans h.2.2.1, g.2.2.2.trans h.2.2.2⟩

theorem QueuesStand.slotSt (h : QueuesStand n m) (k : Nat) : m.slotSt k = n.slotSt k := by
  unfold Node.slotSt
  rw [h.1]

theorem QueuesStand.cqOf (h : QueuesStand n m) (q : Nat) : m.cqOf q = n.cqOf q := by
  obtain ⟨-, h1, h2, h3⟩ := h
  simp only [Node.cqOf, h1, h2, h3]

theorem writeResults_queues (j : Job) (l : List MatEnd) : QueuesStand n (n.writeResults j l) := by
  unfold writeResults
  split
  · exact ⟨.refl _, .refl _, .refl _, .refl _⟩
  · generalize l.zipIdx = z
    induction z generalizing n with
    | nil => exact ⟨.refl _, .refl _, .refl _, .refl _⟩
    | cons x z ih => exact .trans (m := (n.putMem _ _).putMem _ _) ⟨.refl _, .refl _, .refl _, .refl _⟩ ih

theorem countEnd_queues (t s : Nat) : QueuesStand n (n.countEnd t s) := by
  unfold countEnd
  dsimp only
  split
  · split <;> exact ⟨.refl _, .refl _, .refl _, .refl _⟩
  · split <;> exact ⟨.refl _, .refl _, .refl _, .refl _⟩

theorem endCounted_queues (j : Job) (l : List MatEnd) : QueuesStand n (n.endCounted j l) := by
  refine .trans (countEnd_queues j.cfg.num (statusOf l)) ?_
  unfold endCounted
  dsimp only
  split <;> exact ⟨.refl _, .refl _, .refl _, .refl _⟩

/-- A job's end counted, before its own slot is set. -/
def endNoted (n : Node) (j : Job) (slot : Nat) (how : JobHow) (ran : Bool) : Node :=
  ((n.matrixEnds j how ran).2.matricesEnded j slot (n.matrixEnds j how ran).1).endCounted j (n.matrixEnds j how ran).1

theorem endNoted_queues (j : Job) (slot : Nat) (how : JobHow) (ran : Bool) : QueuesStand n (n.endNoted j slot how ran) := by
  have h := matrixEnds_solv (n := n) j how ran
  have h1 : QueuesStand n (n.matrixEnds j how ran).2 := by
    unfold QueuesStand
    rw [h]
    exact ⟨.refl _, .refl _, .refl _, .refl _⟩
  have h2 : QueuesStand n ((n.matrixEnds j how ran).2.matricesEnded j slot (n.matrixEnds j how ran).1) :=
    (h1.trans (writeResults_queues _ _)).trans ⟨.refl _, .refl _, .refl _, .refl _⟩
  exact h2.trans (endCounted_queues _ _)

theorem endNoted_now (j : Job) (slot : Nat) (how : JobHow) (ran : Bool) : (n.endNoted j slot how ran).now = n.now := by
  have h : Within [.solv, .free] n (n.endNoted j slot how ran) := by
    unfold endNoted endCounted matricesEnded
    exact .ite (.setTmpl (.countEnd (.mSolv (.writeResults (.matrixEnds .rfl))))) (.countEnd (.mSolv (.writeResults (.matrixEnds .rfl))))
  exact (congrArg Rtc.now (h.part .rtc) :)

theorem endJob_engine (slot : Nat) {how : JobHow} (h : how ≠ .hwfault) (ran : Bool) : Engine n (n.endJob slot how ran) := by
  cases hj : (n.slotSt slot).job with
  | none =>
    rw [endJob_of_none hj]
    exact .rfl
  | some j =>
    rw [endJob_of hj]
    have h1 : Engine n (n.matrixEnds j how ran).2 := .of_solv (matrixEnds_solv j how ran)
    have h2 := h1.trans (matricesEnded_engine j slot (n.matrixEnds j how ran).1)
    have h4 : statusOf (n.matrixEnds j how ran).1 ≠ 4 := statusOf_ne (by decide) (matrixEnds_code h ran)
    refine (h2.trans (endCounted_engine j h4)).trans (endSlotted_engine ?_ _ _)
    exact (congrArg SlotSt.job ((endNoted_queues j slot how ran).slotSt slot)).trans hj

/-! The engine. -/

theorem sweepHeads_engine (f t : Nat) : Engine n (sweepHeads f t n) := by
  induction f generalizing n with
  | zero => exact .rfl
  | succ f ih =>
    unfold sweepHeads
    split
    · exact .rfl
    · exact (endJob_engine _ (by decide) false).trans ih

theorem slotSt_of_headOf {q : Nat} {j : Job} (h : n.headOf q = some j) : ∃ k, (n.slotSt k).job = some j := by
  obtain ⟨k, -, hk⟩ := List.exists_of_findSome?_eq_some h
  obtain ⟨x, hx, hq⟩ := Option.bind_eq_some_iff.1 hk
  by_cases hxq : x.queue = q
  · rw [if_pos hxq] at hq
    cases hq
    exact ⟨k, hx⟩
  · rw [if_neg hxq] at hq
    cases hq

theorem slotSt_of_nextJob {j : Job} (h : n.nextJob = some j) : ∃ k, (n.slotSt k).job = some j := by
  unfold nextJob at h
  split at h
  next k _ => exact ⟨k, h⟩
  · obtain ⟨q, -, hq⟩ := List.exists_of_findSome?_eq_some h
    exact slotSt_of_headOf hq

theorem startNext_engine (f : Nat) : Engine n (startNext f n) := by
  induction f generalizing n with
  | zero => exact .rfl
  | succ f ih =>
    unfold startNext
    dsimp only
    have h1 : Engine n (sweepHeads 16 n.now n) := sweepHeads_engine _ _
    generalize sweepHeads 16 n.now n = k at *
    refine .ite (fun _ => h1) fun _ => ?_
    split
    · exact h1
    next j hj =>
      refine .ite (fun _ => (h1.trans (endJob_engine _ (by decide) true)).trans ih) fun _ => ?_
      have h2 : Engine n (k.setJob j.slot (some { j with ins := k.resolveIns j, x0 := k.warmOf j, start := k.now })) := by
        refine h1.trans (setJob_engine (j := j) (fun hs => ?_) (.inr ⟨_, .refl _, .refl _, .refl _⟩))
        obtain ⟨i, hi⟩ := slotSt_of_nextJob hj
        rw [hs.2 i j hi]
        exact hi
      refine .ite (fun _ => (h2.trans (endJob_engine _ (by decide) false)).trans ih) fun _ => h2.trans (mSolv_engine fun _ => ⟨_, _, _, _, _, .refl _⟩)

/-- The engine at work. -/
theorem engine_engine : Engine n n.engine :=
  (startNext_engine 17).trans (.of_solv ((Within.solvDrained .rfl : Within [.pwr, .clk] _ _).part .solv))

/-! A job's own end, before the engine goes on. -/

theorem endSlotted_host {j : Job} (h1 : 1 ≤ j.queue) (h3 : j.queue ≤ 3) (slot : Nat) (l : List MatEnd) (ran : Bool) :
    (n.endSlotted j slot l ran).cqOf j.queue = n.cqOf j.queue ++ [n.entryOf j slot l ran] := by
  have hp : ((n.setJob slot (some { j with ended := true })).pushCq j.queue (n.entryOf j slot l ran)).cqOf j.queue =
      n.cqOf j.queue ++ [n.entryOf j slot l ran] := cqOf_pushCq h1 h3 _
  unfold endSlotted
  rw [if_neg (by omega)]
  dsimp only
  split
  · refine Eq.trans ?_ hp
    unfold cqOf
    rw [(Within.solvRecord .rfl : Within [.jrnl, .tide, .pair] _ _).part .solv]
  · exact hp

/-- The job off its queue, with its own end: the completion entry is the first that follows, and a scheduled job frees its slot. -/
theorem endJob_entered {slot : Nat} {j : Job} (hj : (n.slotSt slot).job = some j) (how : JobHow) (ran : Bool) (h1 : 1 ≤ j.queue) (h3 : j.queue ≤ 3)
    {k : Node} (hk : Engine (n.endJob slot how ran) k) : ∃ e r, k.cqOf j.queue = n.cqOf j.queue ++ e :: r ∧ e.slot = slot ∧ e.jobId = jobId slot j.gen ∧
      e.template = j.cfg.num ∧ e.rerun = j.rerun ∧ e.status = statusOf (n.matrixEnds j how ran).1 ∧ e.time = if ran then n.now - j.start else 0 := by
  obtain ⟨r, hr⟩ := hk.cq j.queue
  rw [endJob_of hj, endSlotted_host h1 h3] at hr
  have hq : k.cqOf j.queue = n.cqOf j.queue ++ [entryOf (n.endNoted j slot how ran) j slot (n.matrixEnds j how ran).1 ran] ++ r := by
    have h0 := (endNoted_queues (n := n) j slot how ran).cqOf j.queue
    unfold endNoted at h0
    rw [h0] at hr
    exact hr
  rw [List.append_assoc, List.singleton_append] at hq
  refine ⟨_, r, hq, .refl _, .refl _, .refl _, .refl _, .refl _, ?_⟩
  rw [← endNoted_now (n := n) j slot how ran]
  exact .refl _

/-- A scheduled job's end frees its slot. -/
theorem endJob_freed {slot : Nat} {j : Job} (hs : n.Slotted) (hj : (n.slotSt slot).job = some j) (h0 : j.queue = 0) (how : JobHow) (ran : Bool)
    {k : Node} (hk : Engine (n.endJob slot how ran) k) : (k.slotSt slot).job = none := by
  have hq := endNoted_queues (n := n) j slot how ran
  have hc : (n.endNoted j slot how ran).Slotted := ⟨by rw [hq.1]; exact hs.1, fun i o => by rw [hq.slotSt]; exact hs.2 i o⟩
  have hjc : ((n.endNoted j slot how ran).slotSt slot).job = some j := by
    rw [hq.slotSt]
    exact hj
  have hd := (setJob_engine (fun _ => hjc) (.inl ⟨.refl _, h0⟩)).jobs hc
  have he := (scheduledEnd_engine (n := (n.endNoted j slot how ran).setJob slot none) j (statusOf (n.matrixEnds j how ran).1)
    ((n.matrixEnds j how ran).1.map (·.out))).jobs hd.slotted
  have hend : n.endJob slot how ran = ((n.endNoted j slot how ran).setJob slot none).scheduledEnd j (statusOf (n.matrixEnds j how ran).1)
      ((n.matrixEnds j how ran).1.map (·.out)) := (endJob_of hj how ran).trans (if_pos h0)
  rw [← hend] at he
  refine (hk.jobs he.slotted).free slot (he.free slot ?_)
  rw [slotSt_setJob hc.1]

theorem countEnd_four (t : Nat) : (n.countEnd t 4).solv.hwfaults = satInc 0xFF n.solv.hwfaults ∧ bit (n.countEnd t 4).solv.flags 5 = true :=
  ⟨.refl _, bit_setBit_same n.solv.flags (by decide)⟩

theorem endCounted_four (j : Job) {l : List MatEnd} (h : statusOf l = 4) : n.endCounted j l = n.countEnd j.cfg.num 4 := by
  rw [endCounted, h]
  exact if_neg (by simp)

/-- A second fault is counted, and sets its flag, whatever the engine does after it. -/
theorem endJob_hwfault {slot : Nat} {j : Job} (hj : (n.slotSt slot).job = some j) (hb : 1 ≤ j.b) {k : Node}
    (hk : Engine (n.endJob slot .hwfault true) k) : k.solv.hwfaults = satInc 0xFF n.solv.hwfaults ∧ bit k.solv.flags 5 = true := by
  have hst : statusOf (n.matrixEnds j .hwfault true).1 = 4 := statusOf_replicate hb ⟨[], 4, 0⟩ (by decide)
  have h1 : Engine n ((n.matrixEnds j .hwfault true).2.matricesEnded j slot (n.matrixEnds j .hwfault true).1) :=
    (Engine.of_solv (matrixEnds_solv j .hwfault true)).trans (matricesEnded_engine j slot _)
  have hq := endNoted_queues (n := n) j slot .hwfault true
  have hjc : ((n.endNoted j slot .hwfault true).slotSt slot).job = some j := by
    rw [hq.slotSt]
    exact hj
  have h3 := (endSlotted_engine hjc (n.matrixEnds j .hwfault true).1 true).trans ((endJob_of hj .hwfault true) ▸ hk)
  have hcount : (n.endNoted j slot .hwfault true).solv.hwfaults = satInc 0xFF n.solv.hwfaults ∧ bit (n.endNoted j slot .hwfault true).solv.flags 5 = true := by
    rw [endNoted, endCounted_four j hst]
    obtain ⟨c1, c2⟩ := countEnd_four (n := (n.matrixEnds j .hwfault true).2.matricesEnded j slot (n.matrixEnds j .hwfault true).1) j.cfg.num
    exact ⟨c1.trans (congrArg (satInc 0xFF) h1.faults), c2⟩
  exact ⟨h3.faults.trans hcount.1, h3.flag5 hcount.2⟩

end Sys2Proof.Machine.Node

end

section
/-! A submission (12 R373 to R377, Table 12.3), and how jobs end (12 R380, R382, R391). -/

namespace Sys2Proof.Machine.Node

variable {n m : Node} {q : Nat}

/-! A submission. -/

theorem submitNow_refused {code : Nat} (h : n.submitCode q = (code, none)) : n.submitNow q = { n with solv := { n.solv with
    subJobId := 0xFF
    subResult := code
    subQueue := q
    flags := if code == 1 then setBit (setBit n.solv.flags 1) 0 else setBit n.solv.flags 1 } } := by
  simp only [submitNow, h]
  by_cases h1 : code = 1
  · rw [if_pos h1, h1]
    rfl
  · rw [if_neg h1]
    have : (code == 1) = false := by simpa using h1
    rw [this]
    rfl

theorem submitCode_down (h : n.solvRefuses = true) : n.submitCode q = (8, none) := if_pos h

section
variable (hr : n.solvRefuses = false)
include hr

theorem submitCode_zero : n.submitCode 0 = (2, none) := by simp [submitCode, hr]

variable (hq : q ≠ 0)
include hq

theorem submitCode_unknown (ht : n.template n.descTemplate = none) : n.submitCode q = (3, none) := by
  simp [submitCode, hr, hq, ht]

variable {c : TemplateCfg} (ht : n.template n.descTemplate = some c)
include ht

/-- The refusals of a submission to a known template, in the order of Table 12.3. -/
theorem submitCode_known : n.submitCode q =
    if c.host = false then (3, none)
    else if badSize (n.descJob c q) = true then (4, none)
    else if 100000 < n.solv.descDl then (9, none)
    else if n.badArea (n.descJob c q) = true then (5, none)
    else if n.overlaps (n.descJob c q) = true then (6, none)
    else if c.hostMax ≤ (n.tmplSt c.num).hostUsed then (7, none)
    else if n.solvFull = true then (1, none)
    else (0, some (n.descJob c q)) := by
  simp [submitCode, hr, hq, ht]

end

/-- The engine leaves power and clocks as they are, unless SOLV drains in Sleep. -/
theorem engine_within (h : n.solvDrains = false) : Within [.solv, .jrnl, .tide, .pair, .free] n n.engine := by
  have hs : Within [.solv, .jrnl, .tide, .pair, .free] n (startNext 17 n) := .startNext .rfl
  have hd : (startNext 17 n).solvDrained = startNext 17 n := if_neg (by rw [solvDrains_of_pwr (hs.part .pwr), h]; simp)
  rw [engine, hd]
  exact hs

theorem solvDrains_of_solvRefuses (h : n.solvRefuses = false) : n.solvDrains = false := by
  have hm : n.pwr.mode = .run := by
    by_contra hne
    simp [solvRefuses, hne] at h
  rw [solvDrains, hm]
  rfl

/-- A submission in its slot and counted, before the engine goes on. -/
def submitted (n : Node) (q k : Nat) (j : Job) : Node :=
  let n := n.takeSlot k j
  let n := n.setTmpl j.cfg.num { n.tmplSt j.cfg.num with hostUsed := (n.tmplSt j.cfg.num).hostUsed + 1 }
  n.mSolv fun s => { s with subJobId := jobId k (n.slotSt k).gen, subResult := 0, subQueue := q }

theorem submitNow_accepted {j : Job} {k : Nat} (h : n.submitCode q = (0, some j)) (hk : n.freeSlot = some k) :
    n.submitNow q = (n.submitted q k j).engine := by
  simp only [submitNow, h, hk]
  rfl

theorem submitted_slotSt (hw : twf {} n.solv.slots = true) (k : Nat) (j : Job) : (n.submitted q k j).slotSt k =
    ⟨((n.slotSt k).gen + 1) % 8, some { j with slot := k, gen := ((n.slotSt k).gen + 1) % 8 }⟩ := tget_tset_same hw k _

theorem submitted_slotted (h : n.Slotted) (k : Nat) (j : Job) : (n.submitted q k j).Slotted := by
  refine ⟨twf_tset h.1 k _, fun i o ho => ?_⟩
  by_cases hi : i = k
  · rw [hi, submitted_slotSt h.1] at ho
    cases ho
    exact hi.symm
  · have hs : (n.submitted q k j).slotSt i = n.slotSt i := tget_tset_other h.1 hi _
    rw [hs] at ho
    exact h.2 i o ho

theorem submitted_used (hw : twf {} n.solv.tmpl = true) (k : Nat) (j : Job) : twf {} (n.submitted q k j).solv.tmpl = true ∧
    ((n.submitted q k j).tmplSt j.cfg.num).hostUsed = (n.tmplSt j.cfg.num).hostUsed + 1 :=
  ⟨twf_tset hw _ _, (congrArg TmplSt.hostUsed (tget_tset_same hw j.cfg.num _)).trans rfl⟩

theorem submitted_jobId (hw : twf {} n.solv.slots = true) (k : Nat) (j : Job) :
    (n.submitted q k j).solv.subJobId = jobId k (((n.slotSt k).gen + 1) % 8) := by
  have hg : (n.submitted q k j).solv.subJobId = jobId k ((n.submitted q k j).slotSt k).gen := rfl
  rw [hg, submitted_slotSt hw]

theorem submitted_within (k : Nat) (j : Job) : Within [.solv] n (n.submitted q k j) := by
  have h : Within [.solv] n (n.takeSlot k j) := .takeSlot .rfl
  unfold submitted
  exact .mSolv (.setTmpl h)

/-! The ends of jobs. -/

/-- The deadlines that have passed for queued jobs, and then the engine. -/
theorem swept_engine (f t : Nat) : Engine n (sweepHeads f t n).engine := (sweepHeads_engine f t).trans engine_engine

theorem jobDone_of {j : Job} (h : n.runJob = some j) : n.jobDone = (n.endJob j.slot (if j.deadline < n.now then .deadline else .own) true).engine := by
  simp only [jobDone, h]

theorem jobDone_of_none (h : n.runJob = none) : n.jobDone = n := by simp only [jobDone, h]

theorem expire_of_running {k : Nat} (h : n.lateRunning = some k) : n.expire = (sweepHeads 16 (n.now + 1) (n.endJob k .deadline true)).engine := by
  have hn : (n.endJob k .deadline true).now = n.now :=
    congrArg Rtc.now ((Within.endJob .rfl : Within [.solv, .jrnl, .tide, .pair, .free] n _).part .rtc)
  simp only [expire, h, hn]

theorem expire_of_head {k : Nat} (h : n.lateRunning = none) (hk : n.lateHead (n.now + 1) = some k) :
    n.expire = (sweepHeads 15 (n.now + 1) (n.endJob k .deadline false)).engine := by
  simp only [expire, h, sweepHeads, hk]

theorem slotSt_of_runJob {j : Job} (h : n.runJob = some j) (hr : n.solv.running = some j.slot) : (n.slotSt j.slot).job = some j := by
  rw [runJob, hr] at h
  exact h

theorem jobDone_within (h : n.solvDrains = false) : Within [.solv, .jrnl, .tide, .pair, .free] n n.jobDone := by
  cases hj : n.runJob with
  | none =>
    rw [jobDone_of_none hj]
    exact .rfl
  | some j =>
    rw [jobDone_of hj]
    generalize (if j.deadline < n.now then JobHow.deadline else .own) = how
    have he : Within [.solv, .jrnl, .tide, .pair, .free] n (n.endJob j.slot how true) := .endJob .rfl
    exact (engine_within ((solvDrains_of_pwr (he.part .pwr)).trans h)).after he (by decide)

/-- Late jobs ended and the engine after them. -/
theorem swept_within {m : Node} (hm : Within [.solv, .jrnl, .tide, .pair, .free] n m) (h : n.solvDrains = false) (t : Nat) :
    Within [.solv, .jrnl, .tide, .pair, .free] n (sweepHeads 16 t m).engine := by
  have h2 : Within [.solv, .jrnl, .tide, .pair, .free] n (sweepHeads 16 t m) := .sweepHeads hm
  exact (engine_within ((solvDrains_of_pwr (h2.part .pwr)).trans h)).after h2 (by decide)

theorem expire_within (h : n.solvDrains = false) : Within [.solv, .jrnl, .tide, .pair, .free] n n.expire := by
  cases hr : n.lateRunning with
  | none =>
    simp only [expire, hr]
    exact swept_within .rfl h _
  | some k =>
    rw [expire_of_running hr]
    exact swept_within (.endJob .rfl) h _

theorem hwFault_within (h : n.solvDrains = false) : Within [.solv, .jrnl, .tide, .pair, .free] n n.hwFault := by
  have he : ∀ k how, Within [.solv, .jrnl, .tide, .pair, .free] n (n.endJob k how true).engine := fun k how => by
    have he : Within [.solv, .jrnl, .tide, .pair, .free] n (n.endJob k how true) := .endJob .rfl
    exact (engine_within ((solvDrains_of_pwr (he.part .pwr)).trans h)).after he (by decide)
  unfold hwFault
  split
  · exact .rfl
  · exact .ite (he _ _) (.ite (he _ _) (.mSolv (.setJob .rfl)))

theorem hwFault_first {j : Job} (hj : n.runJob = some j) (ht : n.rtc.now < j.deadline) (hr : j.rerun = false) : n.hwFault = { n with solv := { n.solv with
    slots := tupd {} n.solv.slots j.slot fun x => { x with job := some { j with rerun := true } }
    reruns := satInc 0xFF n.solv.reruns } } := by
  simp only [hwFault, hj]
  rw [if_neg (show ¬ j.deadline ≤ n.now from Nat.not_le.2 ht), if_neg (by simp [hr])]
  rfl

theorem hwFault_second {j : Job} (hj : n.runJob = some j) (ht : n.rtc.now < j.deadline) (hr : j.rerun = true) :
    n.hwFault = (n.endJob j.slot .hwfault true).engine := by
  simp only [hwFault, hj]
  rw [if_neg (show ¬ j.deadline ≤ n.now from Nat.not_le.2 ht), if_pos hr]

/-- The effect of a fault of the solver. -/
def faultSeen (n : Node) : Node :=
  if n.runJob.isSome then n.hwFault
  else if n.solvHeld then n
  else n.mSolv fun x => { x with corrected := satInc 0xFFFF x.corrected }

theorem faultSeen_of {j : Job} (h : n.runJob = some j) : n.faultSeen = n.hwFault := if_pos (by rw [h]; rfl)

theorem faultSeen_of_none (h : n.runJob = none) : n.faultSeen =
    if n.solvHeld then n else n.mSolv fun x => { x with corrected := satInc 0xFFFF x.corrected } := if_neg (by rw [h]; simp)

theorem faultSeen_within (h : n.solvDrains = false) : Within [.solv, .jrnl, .tide, .pair, .free] n n.faultSeen :=
  .ite (hwFault_within h) (.ite .rfl (.mSolv .rfl))

theorem popCq_none {q : Nat} (h : n.cqOf q = []) : n.popCq q = n.solvFlag 7 := by simp only [popCq, h]

/-- The queue `q` taken to be `r`. -/
def setCq (n : Node) (q : Nat) (r : List CqEntry) : Node :=
  n.mSolv fun s =>
    match q with
    | 1 => { s with cq1 := r }
    | 2 => { s with cq2 := r }
    | _ => { s with cq3 := r }

theorem popCq_some {q : Nat} {e : CqEntry} {r : List CqEntry} (h : n.cqOf q = e :: r) : n.popCq q = (n.setCq q r).setJob e.slot none := by
  simp only [popCq, h]
  rfl

/-- What the update of a queue leaves: the slots, the memory, the flags and the other queues. -/
theorem setCq_stands {q : Nat} (h1 : 1 ≤ q) (h3 : q ≤ 3) (r : List CqEntry) : (n.setCq q r).solv.slots = n.solv.slots ∧
    (n.setCq q r).solv.mem = n.solv.mem ∧ (n.setCq q r).solv.flags = n.solv.flags ∧ (n.setCq q r).cqOf q = r ∧
    ∀ p, p ≠ q → (n.setCq q r).cqOf p = n.cqOf p := by
  interval_cases q
  · exact ⟨.refl _, .refl _, .refl _, .refl _, fun
      | 1, h => absurd rfl h
      | 0, _ | 2, _ | 3, _ | _ + 4, _ => rfl⟩
  · exact ⟨.refl _, .refl _, .refl _, .refl _, fun
      | 2, h => absurd rfl h
      | 0, _ | 1, _ | 3, _ | _ + 4, _ => rfl⟩
  · exact ⟨.refl _, .refl _, .refl _, .refl _, fun
      | 3, h => absurd rfl h
      | 0, _ | 1, _ | 2, _ | _ + 4, _ => rfl⟩

end Sys2Proof.Machine.Node

open Sys2Proof Sys2Proof.Machine Sys2Proof.Machine.Node

/-- Settles O41: each refusal by the code, and an accepted submission by what the engine leaves of it. -/
theorem hostSubmission : Obligations.HostSubmission := by
  unfold Obligations.HostSubmission
  intro s q t n j refused refuses
  have hrefuses : ∀ code, n.submitCode q.toNat = (code, none) → refuses code := fun code h =>
    .of_run (fun n => (n.setNow t).submitNow q.toNat) rfl (submitNow_refused h)
  refine ⟨fun h => hrefuses 8 (submitCode_down h), fun hr => ⟨fun h0 => hrefuses 2 (by rw [h0]; exact submitCode_zero hr), fun h0 => ?_⟩⟩
  have hq : q.toNat ≠ 0 := fun h => h0 (BitVec.eq_of_toNat_eq h)
  refine ⟨fun ht => hrefuses 3 (submitCode_unknown hr hq ht), fun c ht => ?_⟩
  have hcode := submitCode_known hr hq ht
  refine ⟨fun hh => hrefuses 3 ?_, fun hh => ⟨fun hb => hrefuses 4 ?_, fun hb => ⟨fun hd => hrefuses 9 ?_, fun hd => ⟨fun ha => hrefuses 5 ?_, fun ha =>
    ⟨fun ho => hrefuses 6 ?_, fun ho => ⟨fun hu => hrefuses 7 ?_, fun hu => ⟨fun hf => hrefuses 1 ?_, fun k hf hk hw hwt hslot => ?_⟩⟩⟩⟩⟩⟩⟩
  · rw [hcode, if_pos hh]
  · rw [hcode, if_neg (by simp [hh]), if_pos hb]
  · rw [hcode, if_neg (by simp [hh]), if_neg (by simpa using hb), if_pos hd]
  · rw [hcode, if_neg (by simp [hh]), if_neg (by simpa using hb), if_neg (by omega), if_pos ha]
  · rw [hcode, if_neg (by simp [hh]), if_neg (by simpa using hb), if_neg (by omega), if_neg (by simpa using ha), if_pos ho]
  · rw [hcode, if_neg (by simp [hh]), if_neg (by simpa using hb), if_neg (by omega), if_neg (by simpa using ha), if_neg (by simpa using ho), if_pos hu]
  · rw [hcode, if_neg (by simp [hh]), if_neg (by simpa using hb), if_neg (by omega), if_neg (by simpa using ha), if_neg (by simpa using ho), if_neg (by omega),
      if_pos hf]
  · have hacc : n.submitCode q.toNat = (0, some (n.descJob c q.toNat)) := by
      rw [hcode, if_neg (by simp [hh]), if_neg (by simpa using hb), if_neg (by omega), if_neg (by simpa using ha), if_neg (by simpa using ho), if_neg (by omega),
        if_neg (by simp [hf])]
    refine .of_run (fun n => (n.setNow t).submitNow q.toNat) rfl ?_
    have hx : (s.node.setNow t).submitNow q.toNat = _ := submitNow_accepted hacc hk
    rw [hx]
    have he := engine_engine (n := n.submitted q.toNat k (n.descJob c q.toNat))
    have hsl := submitted_slotted (q := q.toNat) ⟨hw, hslot⟩ k (n.descJob c q.toNat)
    have hss := submitted_slotSt (q := q.toNat) hw k (n.descJob c q.toNat)
    have hj := he.jobs hsl
    obtain ⟨hu1, hu2⟩ := submitted_used (q := q.toNat) hwt k (n.descJob c q.toNat)
    obtain ⟨i, hi, -⟩ := hj.host k _ (congrArg SlotSt.job hss) hq
    refine ⟨he.sub.2.1, he.sub.2.2, he.flag1, he.sub.1.trans (submitted_jobId hw k _), (hj.gen k).trans (congrArg SlotSt.gen hss), ?_,
      ((he.used hu1).2 c.num).trans hu2, ?_⟩
    · rw [hi]
      rfl
    · have hd : (n.submitted q.toNat k (n.descJob c q.toNat)).solvDrains = false :=
        (solvDrains_of_pwr ((submitted_within k _).part .pwr)).trans (solvDrains_of_solvRefuses hr)
      exact ((engine_within hd).after ((submitted_within k _).after (.setNow .rfl) (by decide)) (by decide)).keeps

/-- Settles O42: each job's end is one call of the same end of a job, and whatever the engine does next leaves its entry in place. -/
theorem hostJobsEnd : Obligations.HostJobsEnd := by
  unfold Obligations.HostJobsEnd
  intro s t n frame entered slotted
  have hd : n.solvDrains = s.node.solvDrains := rfl
  refine ⟨⟨?_, ?_, ?_⟩, fun j hj hr hw hslot => ⟨fun h0 => ?_, fun h1 h3 hn => ?_⟩, fun hj => ?_, fun k j hk hj hw hslot => ⟨fun h0 => ?_, fun h1 h3 hb => ?_⟩,
    fun k j hk hl hj hs h1 h3 hb => ?_, fun hj hh => ?_, fun hj hh => ?_, fun j hj hr ht => ⟨fun hre => ?_, fun hre hb => ?_⟩, fun q hq => ?_, fun q e r hq hw => ?_⟩
  · exact .of_run (fun n => (n.setNow t).jobDone) rfl ⟨(Within.jobDone (.setNow .rfl)).keeps, fun h =>
      ((jobDone_within (hd.trans h)).after (.setNow .rfl) (by decide)).keeps⟩
  · exact .of_run (fun n => (n.setNow t).expire) rfl ⟨(Within.expire (.setNow .rfl)).keeps, fun h =>
      ((expire_within (hd.trans h)).after (.setNow .rfl) (by decide)).keeps⟩
  · have hf : Within [.solv, .jrnl, .tide, .pair, .free, .pwr, .clk] s.node s.node.faultSeen :=
      .ite (.hwFault .rfl) (.ite .rfl (.mSolv .rfl))
    exact .of_run (fun n => n.faultSeen) rfl ⟨(hf.after .rfl (by decide)).keeps, fun h => ((faultSeen_within h).after .rfl (by decide)).keeps⟩
  · refine .of_run (fun n => (n.setNow t).jobDone) rfl ?_
    rw [show (s.node.setNow t).jobDone = _ from jobDone_of hj]
    exact endJob_freed ⟨hw, hslot⟩ (slotSt_of_runJob hj hr) h0 _ true engine_engine
  · refine .of_run (fun n => (n.setNow t).jobDone) rfl ?_
    rw [show (s.node.setNow t).jobDone = _ from jobDone_of hj, if_neg (Nat.not_lt.2 hn)]
    obtain ⟨e, r, hq, e1, e2, e3, e4, e5, e6⟩ := endJob_entered (slotSt_of_runJob hj hr) .own true h1 h3 engine_engine
    refine ⟨e, r, hq, e1, e2, e3, e4, e5.trans ?_, e6⟩
    rw [matrixEnds_own, statusOf, List.map_map]
    rfl
  · exact .of_run (fun n => (n.setNow t).jobDone) rfl (jobDone_of_none hj)
  · refine .of_run (fun n => (n.setNow t).expire) rfl ?_
    rw [show (s.node.setNow t).expire = _ from expire_of_running hk]
    exact endJob_freed ⟨hw, hslot⟩ hj h0 _ true (swept_engine 16 _)
  · refine .of_run (fun n => (n.setNow t).expire) rfl ?_
    rw [show (s.node.setNow t).expire = _ from expire_of_running hk]
    obtain ⟨e, r, hq, e1, e2, e3, e4, e5, -⟩ := endJob_entered hj .deadline true h1 h3 (swept_engine 16 _)
    have hs : j.slot = k := hslot k j hj
    rw [← hs] at e1 e2
    refine ⟨e, r, hq, e1, e2, e3, e4, ?_⟩
    change e.status ≠ 0
    rw [e5, matrixEnds_deadline_ran]
    exact statusOf_ne_zero (stoppedEnds_computedSet hb (by decide))
  · refine .of_run (fun n => (n.setNow t).expire) rfl ?_
    rw [show (s.node.setNow t).expire = _ from expire_of_head hk hl]
    obtain ⟨e, r, hq, e1, e2, e3, e4, e5, e6⟩ := endJob_entered hj .deadline false h1 h3 (swept_engine 15 _)
    rw [← hs] at e1 e2
    refine ⟨e, r, hq, e1, e2, e3, e4, ?_, e6⟩
    rw [e5, matrixEnds_deadline_queued, statusOf_replicate hb _ (by decide)]
    rfl
  · exact .of_run (fun n => n.faultSeen) rfl ((faultSeen_of_none hj).trans (if_neg (by simp [hh])))
  · exact .of_run (fun n => n.faultSeen) rfl ((faultSeen_of_none hj).trans (if_pos hh))
  · exact .of_run (fun n => n.faultSeen) rfl ((faultSeen_of hj).trans (hwFault_first hj ht hre))
  · refine .of_run (fun n => n.faultSeen) rfl ?_
    rw [faultSeen_of hj, hwFault_second hj ht hre]
    exact endJob_hwfault (slotSt_of_runJob hj hr) hb engine_engine
  · exact .of_run (fun n => n.popCq q.toNat) rfl (popCq_none hq)
  · have h1 : 1 ≤ q.toNat := by
      by_contra h
      rw [show q.toNat = 0 by omega] at hq
      cases hq
    have h3 : q.toNat ≤ 3 := by omega
    refine .of_run (fun n => n.popCq q.toNat) rfl ?_
    rw [popCq_some hq]
    obtain ⟨c1, c2, c3, c4, c5⟩ := setCq_stands (n := s.node) h1 h3 r
    have hk : Within [.solv] s.node ((s.node.setCq q.toNat r).setJob e.slot none) := by
      unfold setCq
      refine .setJob (.mSolv .rfl (hf := ?_))
      split <;> exact id
    generalize s.node.setCq q.toNat r = k at *
    have hw' : twf {} k.solv.slots = true := c1 ▸ hw
    have hsl : ∀ i, k.slotSt i = s.node.slotSt i := fun i => by simp only [slotSt, c1]
    refine ⟨c4, c5, ?_, ?_, fun i hi => ?_, c2, c3, hk.keeps⟩
    · rw [slotSt_setJob hw']
    · rw [slotSt_setJob hw', hsl]
    · rw [slotSt_setJob_other hw' hi, hsl]

end

section
/-! The journal's cursor (14 R442 to R445), and records that go to flash (14 R436, R437, R446, 19 R585, R591). -/

namespace Sys2Proof.Machine.Node

variable {n m : Node} {q : Nat}

/-! The numbers held, and what a load finds. -/

theorem foldl_max_of {l : List Nat} (hm : q ∈ l) (hle : ∀ x ∈ l, x ≤ q) : l.foldl max 0 = q := by
  refine Nat.le_antisymm ?_ ?_
  · have h : ∀ (l : List Nat) (a : Nat), a ≤ q → (∀ x ∈ l, x ≤ q) → l.foldl max a ≤ q := by
      intro l
      induction l with
      | nil => exact fun a ha _ => ha
      | cons x l ih => exact fun a ha hl => ih _ (Nat.max_le.2 ⟨ha, hl x (by simp)⟩) fun y hy => hl y (by simp [hy])
    exact h l 0 (Nat.zero_le _) hle
  · have h : ∀ (l : List Nat) (a : Nat), a ≤ l.foldl max a ∧ ∀ x ∈ l, x ≤ l.foldl max a := by
      intro l
      induction l with
      | nil => exact fun a => ⟨Nat.le_refl a, fun x hx => by cases hx⟩
      | cons y l ih =>
        intro a
        obtain ⟨h1, h2⟩ := ih (max a y)
        refine ⟨Nat.le_trans (Nat.le_max_left a y) h1, fun x hx => ?_⟩
        rcases List.mem_cons.1 hx with rfl | hx
        · exact Nat.le_trans (Nat.le_max_right a x) h1
        · exact h2 x hx
    exact (h l 0).2 q hm

theorem foldl_min_le (l : List Nat) (a : Nat) : l.foldl min a ≤ a ∧ ∀ x ∈ l, l.foldl min a ≤ x := by
  induction l generalizing a with
  | nil => exact ⟨Nat.le_refl a, fun x hx => by cases hx⟩
  | cons y l ih =>
    obtain ⟨h1, h2⟩ := ih (min a y)
    refine ⟨Nat.le_trans h1 (Nat.min_le_left a y), fun x hx => ?_⟩
    rcases List.mem_cons.1 hx with rfl | hx
    · exact Nat.le_trans h1 (Nat.min_le_right a x)
    · exact h2 x hx

theorem le_foldl_min {l : List Nat} {a : Nat} (ha : q ≤ a) (h : ∀ x ∈ l, q ≤ x) : q ≤ l.foldl min a := by
  induction l generalizing a with
  | nil => exact ha
  | cons y l ih => exact ih (Nat.le_min.2 ⟨ha, h y (by simp)⟩) fun x hx => h x (by simp [hx])

theorem newestHeld_of (hm : q ∈ n.heldNums) (hle : ∀ x ∈ n.heldNums, x ≤ q) : n.newestHeld = q := foldl_max_of hm hle

theorem oldestHeld_le {x : Nat} (hm : x ∈ n.heldNums) : n.oldestHeld ≤ x := by
  unfold oldestHeld
  cases hl : n.heldNums with
  | nil =>
    rw [hl] at hm
    cases hm
  | cons y l =>
    rw [hl] at hm
    rcases List.mem_cons.1 hm with rfl | hm
    · exact (foldl_min_le l x).1
    · exact (foldl_min_le l y).2 x hm

theorem oldestHeld_of (hm : q ∈ n.heldNums) (hle : ∀ x ∈ n.heldNums, q ≤ x) : n.oldestHeld = q := by
  refine Nat.le_antisymm (oldestHeld_le hm) ?_
  unfold oldestHeld
  cases hl : n.heldNums with
  | nil =>
    rw [hl] at hm
    cases hm
  | cons y l =>
    rw [hl] at hle
    exact le_foldl_min (hle y (by simp)) fun x hx => hle x (by simp [hx])

/-- One step of the search for the smallest number from `a` on. -/
def leastFrom (a : Nat) (b : Option Nat) (x : Nat) : Option Nat :=
  if x < a then b else match b with
    | none => some x
    | some y => some (min x y)

theorem leastFrom_below {a x : Nat} (h : x < a) (b : Option Nat) : leastFrom a b x = b := if_pos h
theorem leastFrom_none {a x : Nat} (h : a ≤ x) : leastFrom a none x = some x := if_neg (Nat.not_lt.2 h)
theorem leastFrom_some {a x y : Nat} (h : a ≤ x) : leastFrom a (some y) x = some (min x y) := if_neg (Nat.not_lt.2 h)

theorem foldl_leastFrom_below {a : Nat} {l : List Nat} (h : ∀ x ∈ l, x < a) (b : Option Nat) : l.foldl (leastFrom a) b = b := by
  induction l with
  | nil => rfl
  | cons x l ih =>
    rw [List.foldl_cons, leastFrom_below (h x (by simp))]
    exact ih fun y hy => h y (by simp [hy])

/-- From a number that is not below it, the search ends at the least. -/
theorem foldl_leastFrom_some {a : Nat} {l : List Nat} (haq : a ≤ q) (hle : ∀ x ∈ l, a ≤ x → q ≤ x) {y : Nat} (hy : q ≤ y) (hm : q ∈ l ∨ q = y) :
    l.foldl (leastFrom a) (some y) = some q := by
  induction l generalizing y with
  | nil =>
    rcases hm with hm | rfl
    · cases hm
    · rfl
  | cons x l ih =>
    have ih' : ∀ {y}, q ≤ y → q ∈ l ∨ q = y → l.foldl (leastFrom a) (some y) = some q := ih fun z hz => hle z (by simp [hz])
    rw [List.foldl_cons]
    by_cases hx : x < a
    · rw [leastFrom_below hx]
      refine ih' hy (hm.imp (fun h => ?_) id)
      rcases List.mem_cons.1 h with rfl | h
      · omega
      · exact h
    · have hqx : q ≤ x := hle x (by simp) (by omega)
      rw [leastFrom_some (by omega)]
      refine ih' (Nat.le_min.2 ⟨hqx, hy⟩) ?_
      rcases hm with hm | rfl
      · rcases List.mem_cons.1 hm with rfl | h
        · exact .inr (Nat.min_eq_left hy).symm
        · exact .inl h
      · exact .inr (Nat.min_eq_right hqx).symm

theorem heldFrom_eq (a : Nat) : n.heldFrom a = n.heldNums.foldl (leastFrom a) none := rfl

theorem heldFrom_none {a : Nat} (h : ∀ x ∈ n.heldNums, x < a) : n.heldFrom a = none := foldl_leastFrom_below h none

theorem heldFrom_some {a : Nat} (haq : a ≤ q) (hm : q ∈ n.heldNums) (hle : ∀ x ∈ n.heldNums, a ≤ x → q ≤ x) : n.heldFrom a = some q := by
  rw [heldFrom_eq]
  generalize n.heldNums = l at hm hle
  induction l with
  | nil => cases hm
  | cons x l ih =>
    rw [List.foldl_cons]
    by_cases hx : x < a
    · rw [leastFrom_below hx]
      refine ih ?_ fun y hy => hle y (by simp [hy])
      rcases List.mem_cons.1 hm with rfl | h
      · omega
      · exact h
    · rw [leastFrom_none (by omega)]
      refine foldl_leastFrom_some haq (fun y hy => hle y (by simp [hy])) (hle x (by simp) (by omega)) ?_
      rcases List.mem_cons.1 hm with rfl | h
      · exact .inr (.refl _)
      · exact .inl h

/-- A number held has its record: from the RAM ring where it holds one, else from flash. -/
theorem heldRecord_of (h : q ∈ n.heldNums) : ∃ r, n.heldRecord q = some (r, (n.ramRecord q).isNone) ∧ r.seq = q := by
  unfold heldRecord
  cases hr : n.ramRecord q with
  | some r =>
    refine ⟨r, .refl _, ?_⟩
    obtain ⟨x, hx, rfl⟩ := Option.map_eq_some_iff.1 hr
    exact beq_iff_eq.1 (List.find?_some (p := fun e : RamRec => e.item.seq == q) hx)
  | none =>
    have hf : ∃ x ∈ n.flashRecords, x.seq = q := by
      rcases List.mem_append.1 h with h | h
      · obtain ⟨x, hx, hq⟩ := List.mem_map.1 h
        exact ⟨x, hx, hq⟩
      · obtain ⟨x, hx, hq⟩ := List.mem_map.1 h
        have := List.find?_eq_none.1 (Option.map_eq_none_iff.1 hr) x hx
        simp [hq] at this
    obtain ⟨x, hx, hq⟩ := hf
    cases hfind : n.flashRecords.find? (·.seq == q) with
    | none =>
      have := List.find?_eq_none.1 hfind x hx
      simp [hq] at this
    | some r => exact ⟨r, .refl _, beq_iff_eq.1 (List.find?_some (p := fun e : Record => e.seq == q) hfind)⟩

/-- The cursor's fields, the errors counted and the flags set aside, the journal stands. -/
structure CursorMoved (n m : Node) : Prop where
  ram : m.jrnl.ram = n.jrnl.ram
  voids : m.jrnl.voids = n.jrnl.voids
  window : m.jrnl.window = n.jrnl.window
  pos : m.jrnl.pos = n.jrnl.pos
  asked : m.jrnl.asked = n.jrnl.asked
  busy : m.jrnl.busy = false
  within : Within [.jrnl] n m

/-- The load ended. -/
def loadEnded (n : Node) : Node := n.mJrnl fun j => { j with busy := false, op := 0 }

theorem loadEnded_moved : CursorMoved n n.loadEnded := ⟨.refl _, .refl _, .refl _, .refl _, .refl _, .refl _, (.mJrnl .rfl : Within [.jrnl] n (n.mJrnl _))⟩

theorem countBad_moved : CursorMoved n (n.loadEnded.countBad q) := by
  have h : Within [.jrnl] n n.loadEnded := .mJrnl .rfl
  unfold countBad
  split
  · exact ⟨.refl _, .refl _, .refl _, .refl _, .refl _, .refl _, .jrnlFlag (.mJrnl h)⟩
  · exact loadEnded_moved

theorem CursorMoved.flashRecords (h : CursorMoved n m) : m.flashRecords = n.flashRecords := by
  have hv : ∀ r, m.voided r = n.voided r := fun r => by
    unfold voided
    rw [h.voids, h.within.part .sys]
  have hs : m.stor = n.stor := h.within.part .stor
  unfold Node.flashRecords
  simp only [hs, hv]

theorem CursorMoved.heldNums (h : CursorMoved n m) : m.heldNums = n.heldNums := by
  unfold Node.heldNums
  rw [h.flashRecords, h.ram]

theorem CursorMoved.ramRecord (h : CursorMoved n m) (q : Nat) : m.ramRecord q = n.ramRecord q := by
  unfold Node.ramRecord
  rw [h.ram]

theorem CursorMoved.heldRecord (h : CursorMoved n m) (q : Nat) : m.heldRecord q = n.heldRecord q := by
  unfold Node.heldRecord
  rw [h.ramRecord, h.flashRecords]

/-- What the statement asks of a load of the record `q`. -/
def RecordLoaded (n : Node) (q result : Nat) (skipped : Bool) (m : Node) : Prop :=
  (∃ r, m.jrnl.window = some r ∧ r.seq = q) ∧ m.jrnl.pos = q ∧ m.jrnl.result = result ∧ m.jrnl.skipped = skipped ∧
    m.jrnl.fromFlash = (n.ramRecord q).isNone ∧ m.jrnl.busy = false ∧ m.jrnl.ram = n.jrnl.ram ∧ Keeps [.jrnl] n m

theorem loadRecord_loaded (h : CursorMoved n m) (hq : q ∈ n.heldNums) (asked result : Nat) :
    RecordLoaded n q result (q != asked) (m.loadRecord q asked result) := by
  obtain ⟨r, hr, hs⟩ := heldRecord_of hq
  have hk := (Within.loadRecord h.within : Within [.jrnl] n (m.loadRecord q asked result)).keeps
  rw [← h.heldRecord] at hr
  rw [loadRecord, hr] at hk ⊢
  exact ⟨⟨r, .refl _, hs⟩, .refl _, .refl _, .refl _, .refl _, h.busy, h.ram, hk⟩

/-- What a search that asks for `q` loads. -/
def found (n : Node) (q : Nat) : Node :=
  match n.heldFrom q with
  | none => n.mJrnl fun j => { j with result := 2 }
  | some x => n.loadRecord x q (if x = q then 0 else if q < n.oldestHeld then 3 else 1)

theorem loadEnded_holds (hne : n.heldNums ≠ []) : ¬ n.loadEnded.heldNums.isEmpty = true := by
  rw [loadEnded_moved.heldNums]
  simpa using hne

section
variable (hb : n.jrnl.busy = true)
include hb

theorem cursorStart_busy (op : Nat) : n.cursorStart op = { n with jrnl := { n.jrnl with
    result := 4
    flags := setBit n.jrnl.flags 5 } } := if_pos hb

theorem cursorDone_empty (h : n.heldNums = []) : n.cursorDone = { n with jrnl := { n.jrnl with
    busy := false
    op := 0
    result := 6 } } := by
  have he : n.loadEnded.heldNums.isEmpty = true := by rw [loadEnded_moved.heldNums, h]; rfl
  rw [cursorDone, if_pos hb]
  by_cases ho : n.jrnl.op = 1 ∨ n.jrnl.op = 2
  · exact (if_pos ho).trans (if_pos he)
  · exact (if_neg ho).trans (if_pos he)

variable (hne : n.heldNums ≠ [])
include hne

theorem cursorDone_find (ho : n.jrnl.op = 1 ∨ n.jrnl.op = 2) : n.cursorDone = (n.loadEnded.countBad n.jrnl.asked).found n.jrnl.asked := by
  rw [cursorDone, if_pos hb]
  exact (if_pos ho).trans (if_neg (loadEnded_holds hne))

theorem cursorDone_end (ho : ¬ (n.jrnl.op = 1 ∨ n.jrnl.op = 2)) : n.cursorDone =
    n.loadEnded.loadRecord (if n.jrnl.op = 3 then n.newestHeld else n.oldestHeld) (if n.jrnl.op = 3 then n.newestHeld else n.oldestHeld) 0 := by
  have h1 : n.loadEnded.newestHeld = n.newestHeld := by rw [newestHeld, loadEnded_moved.heldNums, newestHeld]
  have h2 : n.loadEnded.oldestHeld = n.oldestHeld := by rw [oldestHeld, loadEnded_moved.heldNums, oldestHeld]
  rw [cursorDone, if_pos hb, ← h1, ← h2]
  exact (if_neg ho).trans (if_neg (loadEnded_holds hne))

end

theorem CursorMoved.oldestHeld (h : CursorMoved n m) : m.oldestHeld = n.oldestHeld := by rw [Node.oldestHeld, h.heldNums, Node.oldestHeld]

theorem CursorMoved.heldFrom (h : CursorMoved n m) (a : Nat) : m.heldFrom a = n.heldFrom a := by rw [heldFrom_eq, h.heldNums, heldFrom_eq]

theorem found_none (h : CursorMoved n m) {a : Nat} (hf : n.heldFrom a = none) : m.found a = m.mJrnl fun j => { j with result := 2 } := by
  rw [← h.heldFrom] at hf
  simp only [found, hf]

theorem found_some (h : CursorMoved n m) {a : Nat} (hf : n.heldFrom a = some q) : m.found a =
    m.loadRecord q a (if q = a then 0 else if a < n.oldestHeld then 3 else 1) := by
  rw [← h.heldFrom] at hf
  simp only [found, hf, h.oldestHeld]

end Sys2Proof.Machine.Node

open Sys2Proof Sys2Proof.Machine Sys2Proof.Machine.Node
/-- Settles O43: a load ends, a number that is not held is looked for, and the record found is one held. -/
theorem journalCursor : Obligations.JournalCursor := by
  unfold Obligations.JournalCursor
  intro s n j start refused left loaded
  have hstart : ∀ op, j.busy = false → n.cursorStart op = start op (if op = 2 then j.pos + 1 else j.seek) := fun op h =>
    if_neg (by rw [show n.jrnl.busy = false from h]; simp)
  refine ⟨fun hb => ⟨.of_run (fun n => n.cursorStart 1) rfl (hstart 1 hb), .of_run (fun n => n.cursorStart 2) rfl (hstart 2 hb),
      .of_run (fun n => n.cursorStart 3) rfl (hstart 3 hb), .of_run (fun n => n.cursorStart 4) rfl (hstart 4 hb),
      .of_run Node.cursorDone rfl (if_neg (by rw [show s.node.jrnl.busy = false from hb]; simp))⟩,
    fun hb => ⟨.of_run (fun n => n.cursorStart 1) rfl (cursorStart_busy hb 1), .of_run (fun n => n.cursorStart 2) rfl (cursorStart_busy hb 2),
      .of_run (fun n => n.cursorStart 3) rfl (cursorStart_busy hb 3), .of_run (fun n => n.cursorStart 4) rfl (cursorStart_busy hb 4)⟩,
    fun hb he => .of_run Node.cursorDone rfl (cursorDone_empty hb he), fun hb hne => ⟨fun ho => ?_, fun q hq ho hle => ?_, fun q hq ho hle => ?_⟩,
    .of_run (fun n => n.latchLo _) rfl rfl, .of_run (fun n => n.latchLo _) rfl rfl, .of_run (fun n => n.latchLo _) rfl rfl,
    .of_run (fun n => n.latchLo _) rfl rfl, .of_run (fun n => n.latchLo _) rfl rfl, .of_run (fun n => n.latchLo _) rfl rfl,
    .of_run (fun n => n.latchLo _) rfl rfl, .of_run (fun n => n.latchLo _) rfl rfl, .of_run (fun n => n.latchLo _) rfl rfl⟩
  · have hdone : s.node.cursorDone = _ := cursorDone_find hb hne ho
    have hm : CursorMoved n (n.loadEnded.countBad j.asked) := countBad_moved
    have hload : ∀ q result skipped, n.heldFrom j.asked = some q → q ∈ n.heldNums → (if q = j.asked then 0 else if j.asked < n.oldestHeld then 3 else 1) = result →
        (q != j.asked) = skipped → Gives .cursorLoadDone s (loaded q result skipped) := fun q result skipped hf hq hres hskip => by
      refine .of_run Node.cursorDone rfl ?_
      rw [hdone]
      rw [show (s.node.loadEnded.countBad s.node.jrnl.asked).found s.node.jrnl.asked = _ from found_some hm hf]
      subst hres hskip
      exact loadRecord_loaded hm hq _ _
    refine ⟨fun ha => ?_, fun q hlt hq hle hx => ?_, fun q hlt hq hle => ?_, fun hall => ?_⟩
    · exact hload _ _ _ (heldFrom_some (Nat.le_refl _) ha fun x _ h => h) ha (if_pos rfl) (by simp)
    · obtain ⟨x, hx, hxa⟩ := hx
      refine hload q 1 true (heldFrom_some (Nat.le_of_lt hlt) hq hle) hq ?_ (by simpa using Nat.ne_of_gt hlt)
      rw [if_neg (Nat.ne_of_gt hlt), if_neg (Nat.not_lt.2 (Nat.le_trans (oldestHeld_le hx) (Nat.le_of_lt hxa)))]
    · refine hload q 3 true (heldFrom_some (Nat.le_of_lt hlt) hq fun x hx _ => hle x hx) hq ?_ (by simpa using Nat.ne_of_gt hlt)
      rw [if_neg (Nat.ne_of_gt hlt), if_pos (by rw [oldestHeld_of hq hle]; exact hlt)]
    · refine .of_run Node.cursorDone rfl ?_
      rw [hdone, show (s.node.loadEnded.countBad s.node.jrnl.asked).found s.node.jrnl.asked = _ from found_none hm (heldFrom_none hall)]
      exact ⟨hm.window, hm.pos, .refl _, hm.busy, (Within.mJrnl hm.within).keeps⟩
  · refine .of_run Node.cursorDone rfl ?_
    have ho' : s.node.jrnl.op = 3 := ho
    have hq' : s.node.newestHeld = q := newestHeld_of hq hle
    rw [cursorDone_end hb hne (by rw [ho']; decide), if_pos ho', hq']
    have := loadRecord_loaded loadEnded_moved hq q 0
    rwa [bne_self_eq_false] at this
  · refine .of_run Node.cursorDone rfl ?_
    have ho' : s.node.jrnl.op = 4 := ho
    have hq' : s.node.oldestHeld = q := oldestHeld_of hq hle
    rw [cursorDone_end hb hne (by rw [ho']; decide), if_neg (by rw [ho']; decide), hq']
    have := loadRecord_loaded loadEnded_moved hq q 0
    rwa [bne_self_eq_false] at this

end

section
/-! Records that go to flash (14 R436, R437, R446, 19 R577, R585, R591). -/

namespace Sys2Proof.Machine

variable {α : Type} {d : α}

/-- An entry of a table in its form is what its key reads. -/
theorem tget_of_mem [DecidableEq α] {m : Tab α} {lo k : Nat} {v : α} (h : twfFrom d lo m = true) (hm : (k, v) ∈ m) : tget d m k = v := by
  induction m generalizing lo with
  | nil => cases hm
  | cons e m ih =>
    obtain ⟨j, w⟩ := e
    simp only [twfFrom, Bool.and_eq_true, decide_eq_true_eq] at h
    obtain ⟨-, ht⟩ := h
    rcases List.mem_cons.1 hm with he | hm
    · cases he
      simp [tget]
    · have hlt : j < k := by
        by_contra hle
        have hb : ∀ (m : Tab α) (lo : Nat), twfFrom d lo m = true → (k, v) ∈ m → lo ≤ k := by
          intro m
          induction m with
          | nil => intro lo _ hm; cases hm
          | cons e m ih =>
            intro lo h hm
            simp only [twfFrom, Bool.and_eq_true, decide_eq_true_eq] at h
            rcases List.mem_cons.1 hm with he | hm
            · rw [← he] at h
              exact h.1.1
            · exact Nat.le_of_succ_le (Nat.le_trans (Nat.succ_le_succ h.1.1) (ih _ h.2 hm))
        exact hle (hb m (j + 1) ht hm)
      simp only [tget]
      rw [if_neg (by omega), if_neg (by omega)]
      exact ih ht hm

/-- A table whose entries are changed in place: an entry that stands reads as before. -/
theorem tget_map {m : Tab α} {f : Nat × α → Nat × α} (hf : ∀ e, (f e).1 = e.1) {k : Nat} (hk : ∀ v, (k, v) ∈ m → (f (k, v)).2 = v) :
    tget d (m.map f) k = tget d m k := by
  induction m with
  | nil => rfl
  | cons e m ih =>
    obtain ⟨j, w⟩ := e
    have h1 := hf (j, w)
    rw [List.map_cons, show f (j, w) = (j, (f (j, w)).2) from Prod.ext h1 rfl]
    simp only [tget]
    by_cases hj : k = j
    · rw [if_pos hj, if_pos hj]
      subst hj
      exact hk w (by simp)
    · rw [if_neg hj, if_neg hj, ih fun v hv => hk v (by simp [hv])]

end Sys2Proof.Machine

namespace Sys2Proof.Machine.Node

variable {n m : Node} {k : Nat}

/-- The later SERIAL of two sectors. -/
def newerOf (b : Option (Nat × Sector)) (e : Nat × Sector) : Option (Nat × Sector) :=
  match b with
  | none => some e
  | some x => if x.2.serial < e.2.serial then some e else b

theorem foldl_newerOf_mem {l : List (Nat × Sector)} {b : Option (Nat × Sector)} {x : Nat × Sector} (h : l.foldl newerOf b = some x) :
    x ∈ l ∨ b = some x := by
  induction l generalizing b with
  | nil => exact .inr h
  | cons e l ih =>
    rcases ih h with h | h
    · exact .inl (by simp [h])
    · cases b with
      | none =>
        cases h
        exact .inl (by simp)
      | some y =>
        have h' : (if y.2.serial < e.2.serial then some e else some y) = some x := h
        split at h'
        · cases h'
          exact .inl (by simp)
        · exact .inr h'

/-- The journal's open sector holds data and has a free slot. -/
theorem jrnlOpen_data (hw : twf {} n.stor.sectors = true) (h : n.jrnlOpen = some k) :
    (n.sector k).cls = .data ∧ ∃ v, (k, v) ∈ n.stor.sectors ∧ v.slots.length < slotCap := by
  cases hs : n.newestSector jrnlFirst jrnlLast with
  | none =>
    rw [jrnlOpen, hs] at h
    cases h
  | some e =>
    obtain ⟨i, v⟩ := e
    rw [jrnlOpen, hs] at h
    dsimp only at h
    split at h
    next hlt =>
      cases h
      have hm : (k, v) ∈ n.dataSectors jrnlFirst jrnlLast := (foldl_newerOf_mem hs).resolve_right (by simp)
      obtain ⟨hm, hc⟩ := List.mem_filter.1 hm
      refine ⟨?_, v, hm, hlt⟩
      have hv : n.sector k = v := tget_of_mem hw hm
      rw [hv]
      simp only [Bool.and_eq_true, beq_iff_eq] at hc
      exact hc.2
    · cases h

/-! What stands of a data sector while another one is opened. -/

theorem addOnce_sectors (op : FlashOp) : (n.addOnce op).stor.sectors = n.stor.sectors := by
  unfold addOnce flashAdd
  split
  · rfl
  · dsimp only [mStor]
    split
    · rfl
    · split <;> rfl

theorem sector_congr (h : m.stor.sectors = n.stor.sectors) (k : Nat) : m.sector k = n.sector k := by
  unfold sector
  rw [h]

theorem passRetired_sector (hw : twf {} n.stor.sectors = true) (hk : (n.sector k).cls = .data) (a b : Nat) : (n.passRetired a b).sector k = n.sector k := by
  refine tget_map (fun e => ?_) fun v hv => ?_
  · split <;> rfl
  · have : n.sector k = v := tget_of_mem hw hv
    rw [this] at hk
    rw [if_neg (by simp [hk])]

theorem eraseAhead_sector (hw : twf {} n.stor.sectors = true) (hk : (n.sector k).cls = .data) (a : Nat) : (n.eraseAhead a).sector k = n.sector k := by
  unfold eraseAhead
  dsimp only
  rw [← passRetired_sector hw hk a (n.usableAfter (n.usableAfter (n.usableAfter a)))]
  generalize [n.usableAfter a, n.usableAfter (n.usableAfter a), n.usableAfter (n.usableAfter (n.usableAfter a))] = l
  generalize n.passRetired a _ = m
  induction l generalizing m with
  | nil => rfl
  | cons x l ih =>
    rw [List.foldl_cons, ih]
    split
    · rfl
    · exact sector_congr (addOnce_sectors _) k

theorem openJournal_sector (hw : twf {} n.stor.sectors = true) (hk : (n.sector k).cls = .data) : n.openJournal.sector k = n.sector k := by
  unfold openJournal
  dsimp only
  split
  · rfl
  · split
    next he =>
      have hne : k ≠ n.jrnlNext := fun h => by
        rw [← h, hk] at he
        cases he
      have hu : (n.updSector n.jrnlNext fun s => { s with cls := .data, serial := n.nextSerial jrnlFirst jrnlLast }).sector k = n.sector k :=
        tget_tset_other hw hne _
      rw [eraseAhead_sector (twf_tset hw _ _) (by rw [hu]; exact hk), hu]
    · exact sector_congr (addOnce_sectors _) k

theorem pickNext_sector (hw : twf {} n.stor.sectors = true) (hk : (n.sector k).cls = .data) : n.pickNext.sector k = n.sector k := by
  have ho : (if n.unwritten.isEmpty then n else n.openJournal).sector k = n.sector k := by
    split
    · rfl
    · exact openJournal_sector hw hk
  unfold pickNext
  split
  · rfl
  · dsimp only
    rw [← ho]
    generalize (if n.unwritten.isEmpty then n else n.openJournal) = m
    split
    · rfl
    · split
      · rfl
      · split <;> rfl

/-! A journal page. -/

theorem openJournal_open (h : n.jrnlOpen = some k) : n.openJournal = n := if_pos (by rw [h]; rfl)

/-- The oldest records not in flash, up to the end of the page that holds the first free slot of the sector `k`. -/
def pageOf (n : Node) (k : Nat) : List Record := n.unwritten.take (8 - ((n.sector k).slots.length + 1) % 8)

theorem journalPage_open (h : n.jrnlOpen = some k) : n.journalPage = n.pageOf k := by simp only [journalPage, h, pageOf]

theorem pageOf_nonempty (h : n.unwritten ≠ []) (k : Nat) : (n.pageOf k).isEmpty = false := by
  have hlt : ((n.sector k).slots.length + 1) % 8 < 8 := Nat.mod_lt _ (by decide)
  cases hu : n.unwritten with
  | nil => exact absurd hu h
  | cons x l =>
    obtain ⟨i, hi⟩ := Nat.exists_eq_add_of_le' (show 1 ≤ 8 - ((n.sector k).slots.length + 1) % 8 by omega)
    rw [pageOf, hu, hi]
    rfl

theorem pickNext_page (hs : n.stor.state ≠ 2) (hu : n.unwritten ≠ []) (h : n.jrnlOpen = some k) :
    n.pickNext = n.mStor fun s => { s with cur := some (.jrnl (n.pageOf k)), tries := 0 } := by
  have hsame : (if n.unwritten.isEmpty then n else n.openJournal) = n := by rw [openJournal_open h, ite_self]
  rw [pickNext, if_neg hs, hsame]
  dsimp only
  rw [journalPage_open h, if_pos (by rw [pageOf_nonempty hu]; rfl)]

theorem journalStart_idle (h : n.stor.state = 2 ∨ n.unwritten = []) : n.journalStart = n := by
  refine if_pos ?_
  rcases h with h | h <;> simp [h]

section
variable (hs : n.stor.state ≠ 2) (hu : n.unwritten ≠ [])
include hs hu

theorem journalStart_none (h : n.jrnlOpen = some k) (hc : n.stor.cur = none) :
    n.journalStart = n.mStor fun s => { s with cur := some (.jrnl (n.pageOf k)), tries := 0 } := by
  rw [journalStart, if_neg (by simp [hs, hu]), hc]
  exact pickNext_page hs hu h

theorem journalStart_erase (h : n.jrnlOpen = some k) {c : FlashOp} (hc : n.stor.cur = some c) (he : c.erases.isSome = true) (hn : n.stor.susp = none) :
    n.journalStart = n.mStor fun s => { s with susp := some c, cur := some (.jrnl (n.pageOf k)), tries := 0 } := by
  rw [journalStart, if_neg (by simp [hs, hu]), hc]
  refine (if_pos (by simp [he, hn])).trans ?_
  simp only [openJournal_open h, journalPage_open h, pageOf_nonempty hu]
  rfl

theorem journalStart_program {c : FlashOp} (hc : n.stor.cur = some c) (he : c.erases = none) : n.journalStart = n := by
  rw [journalStart, if_neg (by simp [hs, hu]), hc]
  exact if_neg (by simp [he])

end

/-- The records of a page marked in the RAM ring. -/
def markFlashed (recs : List Record) (r : RamRec) : RamRec := if recs.contains r.item then { r with flashed := true } else r

theorem markFlashed_item (recs : List Record) (r : RamRec) : (markFlashed recs r).item = r.item := by
  unfold markFlashed
  split <;> rfl

theorem markFlashed_of_mem {recs : List Record} {r : RamRec} (h : r.item ∈ recs) : (markFlashed recs r).flashed = true := by
  rw [markFlashed, if_pos (List.contains_iff_mem.2 h)]

theorem journalWritten_open (recs : List Record) (h : n.jrnlOpen = some k) : n.journalWritten recs =
    (n.updSector k fun s => { s with slots := s.slots ++ recs.map some }).mJrnl fun j => { j with ram := j.ram.map (markFlashed recs) } := by
  simp only [journalWritten, h]
  rfl

theorem programDone_journal {recs : List Record} (h : n.stor.cur = some (.jrnl recs)) :
    n.programDone true = ((n.mStor fun s => { s with timeouts := 0 }).journalWritten recs).pickNext := by
  rw [programDone, h]
  rfl

/-- A journal page written: its records join the slots of the open sector and are marked, whatever the store does next. -/
theorem programDone_page {recs : List Record} (h : n.stor.cur = some (.jrnl recs)) (ho : n.jrnlOpen = some k) (hw : twf {} n.stor.sectors = true) :
    ((n.programDone true).sector k).slots = (n.sector k).slots ++ recs.map some ∧ ((n.programDone true).sector k).cls = (n.sector k).cls ∧
      (n.programDone true).jrnl.ram = n.jrnl.ram.map (markFlashed recs) := by
  obtain ⟨hd, -⟩ := jrnlOpen_data hw ho
  have hw' := twf_tset hw k { n.sector k with slots := (n.sector k).slots ++ recs.map some }
  have hopen : (n.mStor fun s => { s with timeouts := 0 }).journalWritten recs = _ := journalWritten_open recs ho
  have hs : ((n.mStor fun s => { s with timeouts := 0 }).journalWritten recs).sector k =
      { n.sector k with slots := (n.sector k).slots ++ recs.map some } := by
    rw [hopen]
    exact tget_tset_same hw k _
  have hj : ((n.mStor fun s => { s with timeouts := 0 }).journalWritten recs).jrnl.ram = n.jrnl.ram.map (markFlashed recs) := by
    rw [hopen]
    rfl
  have hw2 : twf {} ((n.mStor fun s => { s with timeouts := 0 }).journalWritten recs).stor.sectors = true := by
    rw [hopen]
    exact hw'
  rw [programDone_journal h]
  generalize (n.mStor fun s => { s with timeouts := 0 }).journalWritten recs = m at *
  rw [pickNext_sector hw2 (by rw [hs]; exact hd), hs, (Within.pickNext .rfl : Within [.stor] m m.pickNext).part .jrnl]
  exact ⟨.refl _, .refl _, hj⟩

/-! A record lost to an error of the RAM ring. -/

/-- The RAM ring without the record `q`. -/
def ramLost (n : Node) (q : Nat) : Node := (n.mJrnl fun j => { j with ram := j.ram.filter (·.item.seq != q) }).jrnlFlag 2

theorem ramError_of {q : Nat} {r : RamRec} (h : n.jrnl.ram.find? (·.item.seq == q) = some r) : n.ramError q =
    if r.flashed then n.ramLost q
    else
      let m := (n.ramLost q).mJrnl fun j => { j with lost := satInc 0xFF j.lost }
      if n.issuer then m.laterGap ⟨5, q, 1⟩ else m := by
  simp only [ramError, h]
  rfl

end Sys2Proof.Machine.Node

open Sys2Proof Sys2Proof.Machine Sys2Proof.Machine.Node

/-- Settles O44: the page fills the open sector up to a page's end; a data sector stands while the store opens another. -/
theorem recordsToFlash : Obligations.RecordsToFlash := by
  unfold Obligations.RecordsToFlash
  intro s n room page
  have hheld : ∀ f : Node → Node, n.coreHeld = true → n.storeRuns f = n := fun f h => if_pos h
  have hruns : ∀ f : Node → Node, n.coreHeld = false → n.storeRuns f = f n := fun f h => if_neg (by simp [h])
  refine ⟨fun h => ⟨.of_run (fun n => n.storeRuns journalStart) rfl (hheld _ h), .of_run (fun n => n.storeRuns fun n => n.programDone true) rfl (hheld _ h),
      .of_run (fun n => n.storeRuns fun n => n.programDone false) rfl (hheld _ h)⟩, fun h => ?_, fun k hc hs hu ho => ⟨fun h => ?_, fun c h he hn => ?_, fun c h he => ?_⟩,
    fun k recs hc h ho hw => ?_, fun q hq => ?_, fun q r hq => ?_⟩
  · refine .of_run (fun n => n.storeRuns journalStart) rfl ?_
    cases hc : n.coreHeld with
    | true => exact hheld _ hc
    | false => exact (hruns _ hc).trans (journalStart_idle h)
  · exact .of_run (fun n => n.storeRuns journalStart) rfl ((hruns _ hc).trans (journalStart_none hs hu ho h))
  · exact .of_run (fun n => n.storeRuns journalStart) rfl ((hruns _ hc).trans (journalStart_erase hs hu ho h he hn))
  · exact .of_run (fun n => n.storeRuns journalStart) rfl ((hruns _ hc).trans (journalStart_program hs hu h he))
  · refine .of_run (fun n => n.storeRuns fun n => n.programDone true) rfl ?_
    rw [show s.node.storeRuns (fun n => n.programDone true) = _ from hruns _ hc]
    obtain ⟨h1, h2, h3⟩ := programDone_page h ho hw
    have hk : Within [.stor, .jrnl] n (n.programDone true) := by
      rw [programDone_journal h]
      exact .pickNext (.journalWritten (.mStor .rfl))
    refine ⟨h1, fun r hr hm => ?_, ?_, h2, hk.keeps⟩
    · rw [h3] at hr
      obtain ⟨x, -, rfl⟩ := List.mem_map.1 hr
      exact markFlashed_of_mem (by rwa [markFlashed_item] at hm)
    · rw [h3, List.map_map]
      exact List.map_congr_left fun r _ => markFlashed_item recs r
  · refine .of_run (fun n => n.ramError q) rfl ?_
    simp only [ramError, show s.node.jrnl.ram.find? (·.item.seq == q) = none from hq]
    rfl
  · intro gone
    have he := ramError_of hq
    refine ⟨fun hf => .of_run (fun n => n.ramError q) rfl (he.trans (if_pos hf)), fun hf hi => .of_run (fun n => n.ramError q) rfl ?_,
      fun hf hi => .of_run (fun n => n.ramError q) rfl ?_⟩
    · exact (he.trans (if_neg (by simp [hf]))).trans (if_neg (show ¬ n.issuer = true by simp [hi]))
    · exact (he.trans (if_neg (by simp [hf]))).trans (if_pos hi)

end

section
/-! The ring's links (15 R451 to R453, R473, R477, Table 15.7), and what a record said outside a step leaves of the ring and the pair. -/

namespace Sys2Proof.Machine.Node

variable {n m : Node}

/-! Records said outside a step: a frame more to send, and notices held. -/

/-- Of the ring a frame is to be sent, of the pair a notice held; the rest of both stands. -/
structure Noted (n m : Node) : Prop where
  tide : ∃ l, m.tide = { n.tide with tx := n.tide.tx ++ l }
  pair : ∃ l, m.pair = { n.pair with notices := l }

theorem Noted.of_parts (ht : m.tide = n.tide) (hp : m.pair = n.pair) : Noted n m :=
  ⟨⟨[], by rw [ht, List.append_nil]⟩, ⟨_, hp⟩⟩

theorem Noted.rfl : Noted n n := .of_parts (.refl _) (.refl _)

theorem Noted.frame (h : Within (Part.allBut [.tide, .pair]) n m) : Noted n m := .of_parts (h.part .tide) (h.part .pair)

theorem Noted.trans {k : Node} (h : Noted n m) (g : Noted m k) : Noted n k := by
  obtain ⟨⟨a, ha⟩, ⟨b, hb⟩⟩ := h
  obtain ⟨⟨c, hc⟩, ⟨d, hd⟩⟩ := g
  exact ⟨⟨a ++ c, by rw [hc, ha, List.append_assoc]⟩, ⟨d, by rw [hd, hb]⟩⟩

theorem Noted.ite {c : Prop} [Decidable c] {a b : Node} (ha : Noted n a) (hb : Noted n b) : Noted n (if c then a else b) := by
  split <;> assumption

theorem Noted.foldl {β : Type} {f : Node → β → Node} (h : ∀ n x, Noted n (f n x)) (l : List β) (n : Node) : Noted n (l.foldl f n) := by
  induction l generalizing n with
  | nil => exact .rfl
  | cons x l ih => exact (h n x).trans (ih _)

theorem notify_noted (b : RecBody) : Noted n (n.notify b) := by
  unfold notify
  refine .ite .rfl ?_
  split
  · exact .rfl
  · refine .ite ⟨⟨_, .refl _⟩, ⟨_, .refl _⟩⟩ ?_
    dsimp only
    generalize hk : (if n.pair.notices.length ≥ 64 then n.mJrnl fun j => { j with lost := satInc 0xFF j.lost } else n) = k
    have h : Noted n k := hk ▸ .ite (.of_parts (.refl _) (.refl _)) .rfl
    exact h.trans ⟨⟨[], (List.append_nil _).symm ▸ .refl _⟩, ⟨_, .refl _⟩⟩

theorem later_noted (b : RecBody) : Noted n (n.later b) := .ite (.of_parts (.refl _) (.refl _)) (notify_noted b)

theorem ringRecord_noted (a b : Nat) (o v : BitVec 16) (c : Nat) : Noted n (n.ringRecord a b o v c) := .ite (later_noted _) .rfl

theorem ringEvent_noted (a b c : Nat) : Noted n (n.ringEvent a b c) := ringRecord_noted _ _ _ _ _

theorem settleTrust_noted : Noted n n.settleTrust := by
  unfold settleTrust
  dsimp only
  exact .ite .rfl (.trans (m := n.mRtc fun r => { r with trust := n.trustOf }) (.of_parts (.refl _) (.refl _)) (later_noted _))

theorem portMove_noted (p st : Nat) : Noted n (n.portMove p st) := by
  unfold portMove
  dsimp only
  refine .ite .rfl ?_
  generalize hk : Node.setPort n p _ = k
  have h : Noted n k := hk ▸ .frame (.setPort .rfl)
  exact .trans (h.trans (.ite (.frame (.extFlag .rfl)) (.ite (.frame (.extFlag .rfl)) .rfl))) (later_noted _)

theorem portsFollow_noted : Noted n n.portsFollow := by
  unfold portsFollow
  exact .foldl (fun n p => .ite (portMove_noted p _) .rfl) _ _

/-! A demotion. -/

/-- The pair after a demotion. -/
def demotedPair (q : Pair) (cause : Nat) : Pair :=
  { q with
    role := if cause = 4 then 2 else 5
    flags := setBit q.flags 1
    demotes := satInc 0xFF q.demotes
    demoteDue := 0
    copy := none
    commit := none
    handover := false
    finalDue := false
    noMajFirst := none
    foSeq := 0 }

theorem demoteNow_idle {c : Nat} (h : n.pair.role ≠ 4) : n.demoteNow c = n := if_pos h

/-- A demotion under way: its record issued, the pair and the fabric as it leaves them. -/
def demoting (n : Node) (c : Nat) : Node :=
  ((((n.issueDemote c).setRole (if c = 4 then 2 else 5)).pairFlag 1).mPair fun q => { q with
    demotes := satInc 0xFF q.demotes
    demoteDue := 0
    copy := none
    commit := none
    handover := false
    finalDue := false
    noMajFirst := none
    foSeq := 0 }).mFab fun f => { f with queue := [], shownSrc := [] }

theorem demoteNow_eq {c : Nat} (h : n.pair.role = 4) : n.demoteNow c =
    (((n.demoting c).jrnl.firstRecs ++ (n.demoting c).jrnl.due).foldl notify
      ((n.demoting c).mJrnl fun j => { j with due := [], gaps := [], firstRecs := [] })).portsFollow := if_neg (by simp [h])

theorem demoting_pair (c : Nat) : (n.demoting c).pair = demotedPair n.pair c := by
  have hp : (n.issueDemote c).pair = n.pair := (Within.issueDemote .rfl : Within [.jrnl, .ext, .free] n _).part .pair
  rw [← hp]
  rfl

theorem demoting_tide (c : Nat) : (n.demoting c).tide = n.tide := by
  have hi : Within [.jrnl, .ext, .free] n (n.issueDemote c) := .issueDemote .rfl
  unfold demoting
  generalize n.issueDemote c = a at *
  exact hi.part .tide

/-- A demotion that takes place: the pair's fields, and the ring but for a frame to send. -/
theorem demoteNow_took {c : Nat} (h : n.pair.role = 4) :
    (∃ l, (n.demoteNow c).pair = { demotedPair n.pair c with notices := l }) ∧ ∃ l, (n.demoteNow c).tide = { n.tide with tx := n.tide.tx ++ l } := by
  have hk : Noted (n.demoting c) (n.demoteNow c) := by
    rw [demoteNow_eq h]
    refine .trans (.of_parts (m := (n.demoting c).mJrnl fun j => { j with due := [], gaps := [], firstRecs := [] }) (.refl _) (.refl _)) ?_
    exact (Noted.foldl (fun n b => notify_noted b) _ _).trans portsFollow_noted
  obtain ⟨ht, hp⟩ := hk
  rw [demoting_tide] at ht
  rw [demoting_pair] at hp
  exact ⟨hp, ht⟩

theorem demoteNow_tide (c : Nat) : ∃ l, (n.demoteNow c).tide = { n.tide with tx := n.tide.tx ++ l } := by
  by_cases h : n.pair.role = 4
  · exact (demoteNow_took h).2
  · rw [demoteNow_idle h]
    exact ⟨[], by rw [List.append_nil]⟩

theorem demoteNow_role (c : Nat) : (n.demoteNow c).pair.role ≠ 4 := by
  by_cases h : n.pair.role = 4
  · obtain ⟨⟨l, hl⟩, -⟩ := demoteNow_took (c := c) h
    rw [hl]
    dsimp only [demotedPair]
    split <;> decide
  · rw [demoteNow_idle h]
    exact h

/-! The end of a node's part in the ring. -/

/-- The ring after the node left it. -/
def leftTide (t : Tide) (st : RingSt) : Tide :=
  { t with
    st := st
    master := false
    hold := none
    kept := none
    tx := []
    recs := []
    sent := []
    wait := []
    wrapA := false
    wrapB := false
    viewStable := false
    splicePend := none
    restorePend := none
    insertReq := false
    listenRot := 0
    silent := 0
    genSeen := false
    lowerRing := false
    dissolve := false
    claiming := false
    tokenSeen := false
    lastToken := none
    spliceFor := none }

/-- A node that leaves the ring, before its record. -/
def leaving (n : Node) (st : RingSt) : Node :=
  ((n.mTide fun t => leftTide t st).mRtc fun r => { r with reference := false, tracked := false }).settleTrust

theorem leaveRing_eq (st : RingSt) (e : Nat) : n.leaveRing st e =
    if n.inserted then (((n.leaving st).ringEvent 0 e 0).mPair fun q => { q with query := none, takeDue := none }).demoteNow 1
    else n.leaving st := rfl

theorem leaving_left (st : RingSt) : (∃ l, (n.leaving st).tide = { leftTide n.tide st with tx := l }) ∧
    ∃ t, (n.leaving st).rtc = { n.rtc with reference := false, tracked := false, trust := t } := by
  obtain ⟨l, hl⟩ := (settleTrust_noted (n := (n.mTide fun t => leftTide t st).mRtc fun r => { r with reference := false, tracked := false })).tide
  exact ⟨⟨_, hl⟩, settleTrust_rtc (n := (n.mTide fun t => leftTide t st).mRtc fun r => { r with reference := false, tracked := false })⟩

theorem leaveRing_left (st : RingSt) (e : Nat) : (∃ l, (n.leaveRing st e).tide = { leftTide n.tide st with tx := l }) ∧
    ∃ t, (n.leaveRing st e).rtc = { n.rtc with reference := false, tracked := false, trust := t } := by
  obtain ⟨⟨l, hl⟩, ⟨t, ht⟩⟩ := leaving_left (n := n) st
  rw [leaveRing_eq]
  split
  · obtain ⟨l1, h1⟩ := (ringEvent_noted (n := n.leaving st) 0 e 0).tide
    have hr : ((n.leaving st).ringEvent 0 e 0).rtc = (n.leaving st).rtc := (Within.ringEvent .rfl : Within [.jrnl, .tide, .pair] _ _).part .rtc
    generalize hk : Node.mPair _ _ = k
    have hkt : k.tide = ((n.leaving st).ringEvent 0 e 0).tide ∧ k.rtc = ((n.leaving st).ringEvent 0 e 0).rtc := by
      rw [← hk]
      exact ⟨rfl, rfl⟩
    obtain ⟨l2, h2⟩ := demoteNow_tide (n := k) 1
    refine ⟨⟨l ++ l1 ++ l2, ?_⟩, ⟨t, ?_⟩⟩
    · rw [h2, hkt.1, h1, hl]
    · rw [(Within.demoteNow .rfl : Within [.fab, .jrnl, .tide, .pair, .ext, .free] k _).part .rtc, hkt.2, hr, ht]
  · exact ⟨⟨l, hl⟩, ⟨t, ht⟩⟩

/-- A node that was in the ring is no duty after it. -/
theorem leaveRing_role (h : n.inserted = true) (st : RingSt) (e : Nat) : (n.leaveRing st e).pair.role ≠ 4 := by
  rw [leaveRing_eq, if_pos h]
  exact demoteNow_role 1

/-! Links. -/

/-- The other ring port. -/
def farPort : RingPort → RingPort
  | .ta => .tb
  | .tb => .ta

theorem link_congr (h : m.tide = n.tide) (p : RingPort) : m.link p = n.link p := by
  unfold link
  rw [h]

theorem link_said {l : List RingFrame} (h : m.tide = { n.tide with tx := l }) (p : RingPort) : m.link p = n.link p := by
  unfold link
  rw [h]

@[simp] theorem link_setLink (p : RingPort) (l : LinkSt) : (n.setLink p l).link p = l := by cases p <;> rfl
@[simp] theorem link_setLink_far (p : RingPort) (l : LinkSt) : (n.setLink p l).link (farPort p) = n.link (farPort p) := by cases p <;> rfl

theorem link_clearLine (p : RingPort) : n.clearLine.link p = n.link p := by cases p <;> rfl

theorem setLink_st (p : RingPort) (l : LinkSt) : (n.setLink p l).tide.st = n.tide.st ∧ (n.setLink p l).tide.wrapA = n.tide.wrapA ∧
    (n.setLink p l).tide.wrapB = n.tide.wrapB := by
  cases p <;> exact ⟨rfl, rfl, rfl⟩

/-- A link's fields as its loss leaves them. -/
def downLink (l : LinkSt) : LinkSt := { l with rxOk := false, txOk := false, insertReq := false, up := false, wasDown := true, samples := [] }

/-- A link that is down, its loss recorded. -/
def linkGone (n : Node) (p : RingPort) : Node :=
  (((n.setLink p (downLink (n.link p))).tideFlag 0).mTide fun t => { t with
    splicePend := if t.splicePend = some p then none else t.splicePend
    restorePend := if t.restorePend = some p then none else t.restorePend }).ringEvent (portCode p) 1 (n.link p).neighbour

theorem linkFails_down {p : RingPort} (h : (n.link p).up = false) : n.linkFails p = n.setLink p (downLink (n.link p)) := by
  unfold linkFails
  dsimp only
  rw [if_pos (by simp [h])]
  rfl

theorem linkFails_up {p : RingPort} (h : (n.link p).up = true) : n.linkFails p =
    if (n.linkGone p).inserted then
      if !(n.linkGone p).tide.ta.up && !(n.linkGone p).tide.tb.up then (n.linkGone p).leaveRing .listen 7 else (n.linkGone p).wrapPort p
    else n.linkGone p := by
  unfold linkFails
  dsimp only
  rw [if_neg (by simp [h])]
  rfl

/-- The ring with a link lost, its frames to send set aside. -/
structure LinkGone (n : Node) (p : RingPort) (m : Node) : Prop where
  link : m.link p = downLink (n.link p)
  far : m.link (farPort p) = n.link (farPort p)
  st : m.tide.st = n.tide.st
  flag : bit m.tide.flags 0 = true

theorem linkGone_gone (p : RingPort) : LinkGone n p (n.linkGone p) := by
  unfold linkGone
  generalize hk : Node.mTide _ _ = k
  have h : LinkGone n p k := by
    rw [← hk]
    cases p <;> exact ⟨rfl, rfl, rfl, bit_setBit_same n.tide.flags (by decide)⟩
  obtain ⟨l, hl⟩ := (ringEvent_noted (n := k) (portCode p) 1 (n.link p).neighbour).tide
  refine ⟨(link_said hl p).trans h.link, (link_said hl _).trans h.far, ?_, ?_⟩
  · rw [hl]
    exact h.st
  · rw [hl]
    exact h.flag

/-- A port wrapped: its wrap set, the links and the state as they stand. -/
theorem wrapPort_wrapped (p : RingPort) : (n.wrapPort p).wrapped p = true ∧ (∀ q, (n.wrapPort p).link q = n.link q) ∧ (n.wrapPort p).tide.st = n.tide.st ∧
    (bit n.tide.flags 0 = true → bit (n.wrapPort p).tide.flags 0 = true) := by
  unfold wrapPort
  split
  next h => exact ⟨h, fun _ => rfl, rfl, id⟩
  · dsimp only
    generalize hk : Node.mTide (n.setWrap p true) _ = k
    have hkw : (k.tideFlag 1).wrapped p = true ∧ (∀ q, (k.tideFlag 1).link q = n.link q) ∧ (k.tideFlag 1).tide.st = n.tide.st ∧
        bit (k.tideFlag 1).tide.flags 0 = bit n.tide.flags 0 := by
      rw [← hk]
      cases p
      · exact ⟨rfl, fun q => by cases q <;> rfl, rfl, bit_setBit_other n.tide.flags (by decide)⟩
      · exact ⟨rfl, fun q => by cases q <;> rfl, rfl, bit_setBit_other n.tide.flags (by decide)⟩
    obtain ⟨h1, h2, h3, h4⟩ := hkw
    obtain ⟨l, hl⟩ := (ringEvent_noted (n := k.tideFlag 1) (portCode p) 3 (k.link p).neighbour).tide
    refine ⟨?_, fun q => (link_said hl q).trans (h2 q), ?_, fun h => ?_⟩
    · rw [← h1]
      unfold wrapped
      rw [hl]
    · rw [hl]
      exact h3
    · rw [hl]
      exact h4.trans h

/-- A link that was up is lost. -/
theorem linkFails_gone {p : RingPort} (h : (n.link p).up = true) : (n.linkFails p).link p = downLink (n.link p) ∧ bit (n.linkFails p).tide.flags 0 = true := by
  obtain ⟨h1, -, -, h4⟩ := linkGone_gone (n := n) p
  rw [linkFails_up h]
  generalize n.linkGone p = k at *
  split
  · split
    · obtain ⟨⟨l, hl⟩, -⟩ := leaveRing_left (n := k) .listen 7
      refine ⟨?_, ?_⟩
      · rw [← h1]
        unfold link
        rw [hl]
        rfl
      · rw [hl]
        exact h4
    · obtain ⟨-, w2, -, w4⟩ := wrapPort_wrapped (n := k) p
      exact ⟨(w2 p).trans h1, w4 h4⟩
  · exact ⟨h1, h4⟩

theorem bothDown_eq (p : RingPort) : (!n.tide.ta.up && !n.tide.tb.up) = (!(n.link p).up && !(n.link (farPort p)).up) := by
  cases p
  · rfl
  · exact Bool.and_comm _ _

/-- Where both links are lost the node leaves the ring. -/
theorem linkFails_leaves {p : RingPort} (h : (n.link p).up = true) (hi : n.tide.st = .inserted) (hf : (n.link (farPort p)).up = false) :
    (n.linkGone p).inserted = true ∧ n.linkFails p = (n.linkGone p).leaveRing .listen 7 := by
  obtain ⟨h1, h2, h3, -⟩ := linkGone_gone (n := n) p
  have hi' : (n.linkGone p).inserted = true := by
    unfold inserted
    rw [h3, hi]
    rfl
  rw [linkFails_up h, if_pos hi', if_pos (by rw [bothDown_eq p, h1, h2, hf]; rfl)]
  exact ⟨hi', rfl⟩

/-- Where the other link is up the port is wrapped. -/
theorem linkFails_wraps {p : RingPort} (h : (n.link p).up = true) (hi : n.tide.st = .inserted) (hf : (n.link (farPort p)).up = true) :
    n.linkFails p = (n.linkGone p).wrapPort p := by
  obtain ⟨h1, h2, h3, -⟩ := linkGone_gone (n := n) p
  have hi' : (n.linkGone p).inserted = true := by
    unfold inserted
    rw [h3, hi]
    rfl
  rw [linkFails_up h, if_pos hi', if_neg (by rw [bothDown_eq p, h1, h2, hf]; simp)]

theorem linkFails_outside {p : RingPort} (h : (n.link p).up = true) (hi : n.tide.st ≠ .inserted) : n.linkFails p = n.linkGone p := by
  obtain ⟨-, -, h3, -⟩ := linkGone_gone (n := n) p
  rw [linkFails_up h, if_neg (by unfold inserted; rw [h3]; simpa using hi)]

theorem linkGone_within (p : RingPort) : Within [.tide, .jrnl, .pair] n (n.linkGone p) := .ringEvent (.mTide (.tideFlag (.setLink .rfl)))

/-! Beacons. -/

theorem hearRequest_tide (p : RingPort) (a : Bool) : ∃ x, (n.hearRequest p a).tide = { n.tide with splicePend := x } := by
  unfold hearRequest
  split
  · exact ⟨_, rfl⟩
  · split
    · exact ⟨_, rfl⟩
    · cases p with
      | ta => exact ⟨_, rfl⟩
      | tb =>
        dsimp only
        split <;> exact ⟨_, rfl⟩

theorem hearRequest_link (p q : RingPort) (a : Bool) : (n.hearRequest p a).link q = n.link q := by
  obtain ⟨x, hx⟩ := hearRequest_tide (n := n) p a
  unfold link
  rw [hx]

/-- A link's fields as a beacon heard sets them. -/
def heardLink (l : LinkSt) (b : Beacon) : LinkSt :=
  let samples := l.samples ++ [(((b.t4 : Int) - b.t1) - ((b.t3 : Int) - b.t2)) / 2]
  let full := decide (16 ≤ samples.length)
  { l with
    rxOk := true
    txOk := b.rxOk
    neighbour := b.node
    insertReq := b.insertReq
    samples := if full then [] else samples
    delay := if full then delayOf samples else l.delay
    sentAt := b.t3
    gotAt := b.t4
    badRun := 0 }

theorem hearBeacon_eq (p : RingPort) (b : Beacon) : n.hearBeacon p b =
    if (n.link p).up && !b.rxOk then n.linkFails p else (n.setLink p (heardLink (n.link p) b)).hearRequest p b.insertReq := rfl

theorem heardLink_delay {l : LinkSt} (h : l.samples.length < 15) (b : Beacon) : (heardLink l b).delay = l.delay := by
  refine if_neg ?_
  simp only [List.length_append, List.length_singleton, decide_eq_true_eq]
  omega

/-- A bad frame counted at its port. -/
def badCounted (n : Node) (p : RingPort) : Node :=
  (n.setLink p { n.link p with badRun := min 8 ((n.link p).badRun + 1) }).mTide fun t =>
    match p with
    | .ta => { t with crcTa := satInc 0xFF t.crcTa }
    | .tb => { t with crcTb := satInc 0xFF t.crcTb }

theorem badFrame_eq (p : RingPort) : n.badFrame p =
    if (n.link p).up && decide (7 ≤ (n.link p).badRun) then (n.badCounted p).linkFails p else n.badCounted p := rfl

theorem badCounted_link (p : RingPort) : (n.badCounted p).link p = { n.link p with badRun := min 8 ((n.link p).badRun + 1) } ∧
    (n.badCounted p).link (farPort p) = n.link (farPort p) := by
  cases p <;> exact ⟨rfl, rfl⟩

theorem badCounted_crc (p : RingPort) : (n.badCounted p).tide.crcTa = (if p = .ta then satInc 0xFF n.tide.crcTa else n.tide.crcTa) ∧
    (n.badCounted p).tide.crcTb = (if p = .tb then satInc 0xFF n.tide.crcTb else n.tide.crcTb) := by
  cases p <;> exact ⟨rfl, rfl⟩

theorem badCounted_within (p : RingPort) : Within [.tide] n (n.badCounted p) := .mTide (.setLink .rfl)

/-! What the ring's commands do. -/

theorem linkRises_up {p : RingPort} (hr : (n.link p).rxOk = true) (ht : (n.link p).txOk = true) (hu : (n.link p).up = false) :
    n.linkRises p = (n.setLink p { n.link p with up := true }).ringEvent (portCode p) 2 (n.link p).neighbour := if_pos (by simp [hr, ht, hu])

theorem linkRises_idle {p : RingPort} (h : (n.link p).rxOk = false ∨ (n.link p).txOk = false ∨ (n.link p).up = true) : n.linkRises p = n := by
  refine if_neg ?_
  rcases h with h | h | h <;> simp [h]

theorem ringEvent_link (a b c : Nat) (q : RingPort) : (n.ringEvent a b c).link q = n.link q := by
  obtain ⟨l, hl⟩ := (ringEvent_noted (n := n) a b c).tide
  exact link_said hl q

/-- A port of a ring that is left: the node listens. -/
theorem leftTide_listens {t : Tide} {l : List RingFrame} {st : RingSt} (h : m.tide = { leftTide t st with tx := l }) :
    m.tide.st = st ∧ m.tide.hold = none ∧ m.tide.sent = [] ∧ m.tide.kept = none := by
  rw [h]
  exact ⟨rfl, rfl, rfl, rfl⟩

end Sys2Proof.Machine.Node

open Sys2Proof Sys2Proof.Machine Sys2Proof.Machine.Node
/-- Settles O45: a link's loss wraps its port or ends the node's part in the ring, and what follows says no more of either. -/
theorem ringLinks : Obligations.RingLinks := by
  unfold Obligations.RingLinks
  intro s rp b n l far alive
  have hfar : far = farPort rp := by cases rp <;> rfl
  refine ⟨fun h => ?_, fun h => ?_, fun h => ⟨.of_run (fun n => if n.ringHears then n.hearBeacon rp b else n) rfl (if_neg (by rw [show s.node.ringHears = false from h]; simp)),
      .of_run (fun n => if n.ringHears then n.badFrame rp else n) rfl (if_neg (by rw [show s.node.ringHears = false from h]; simp))⟩,
    fun h hb => ?_, fun h hu hb => ?_, fun h hb => ?_, fun h hu hb => ?_, fun hu => ?_, fun hr ht hu => ?_, fun h => ?_, fun hu => ?_,
    fun hp hi hw hu hd => ?_, fun h => ?_⟩
  · obtain ⟨h1, h2, h3, h4⟩ := h
    refine .of_run sendBeacons rfl ?_
    rw [sendBeacons, if_pos (by rw [show s.node.pwr.phase = .done from h1, show s.node.coreRuns = true from h2, show s.node.pwr.parked = false from h3,
      show s.node.txIdle = false from h4]; rfl)]
    exact ⟨⟨_, _, rfl, rfl, rfl, rfl, rfl, rfl, rfl, rfl, rfl⟩, (Within.mTide .rfl).keeps⟩
  · refine .of_run sendBeacons rfl (if_neg fun hc => h ?_)
    simpa [and_assoc] using hc
  · refine .of_run (fun n => if n.ringHears then n.hearBeacon rp b else n) rfl ?_
    rw [if_pos (show s.node.ringHears = true from h), hearBeacon_eq, if_neg (by rcases hb with hb | hb <;> simp [show (s.node.link rp).up = l.up from rfl, hb])]
    have hk : Within [.tide, .free] n ((n.setLink rp (heardLink (n.link rp) b)).hearRequest rp b.insertReq) := .hearRequest (.setLink .rfl)
    rw [hfar]
    simp only [hearRequest_link, link_setLink, link_setLink_far]
    exact ⟨rfl, rfl, rfl, rfl, rfl, rfl, fun hlt => heardLink_delay hlt b, rfl, hk.keeps⟩
  · refine .of_run (fun n => if n.ringHears then n.hearBeacon rp b else n) rfl ?_
    rw [if_pos (show s.node.ringHears = true from h), hearBeacon_eq, if_pos (by rw [show (s.node.link rp).up = true from hu, hb]; rfl)]
    obtain ⟨h1, h2⟩ := linkFails_gone hu
    rw [h1]
    exact ⟨rfl, rfl, h2⟩
  · refine .of_run (fun n => if n.ringHears then n.badFrame rp else n) rfl ?_
    rw [if_pos (show s.node.ringHears = true from h), badFrame_eq, if_neg (by
      rcases hb with hb | hb
      · simp [show (s.node.link rp).up = false from hb]
      · simp [show ¬ 7 ≤ (s.node.link rp).badRun from Nat.not_le.2 hb])]
    rw [hfar]
    exact ⟨(badCounted_link rp).1, (badCounted_link rp).2, (badCounted_crc rp).1, (badCounted_crc rp).2, (badCounted_within rp).keeps⟩
  · refine .of_run (fun n => if n.ringHears then n.badFrame rp else n) rfl ?_
    rw [if_pos (show s.node.ringHears = true from h), badFrame_eq, if_pos (by simp [show (s.node.link rp).up = true from hu, show 7 ≤ (s.node.link rp).badRun from hb])]
    have hl := (badCounted_link (n := s.node) rp).1
    have hu' : ((s.node.badCounted rp).link rp).up = true := by
      rw [hl]
      exact hu
    obtain ⟨h1, h2⟩ := linkFails_gone hu'
    rw [h1]
    exact ⟨rfl, rfl, h2⟩
  · refine .of_run (fun n => n.clearLine.linkFails rp) rfl ?_
    have hl : s.node.clearLine.link rp = l := link_clearLine rp
    rw [linkFails_down (by rw [hl]; exact hu), hl, downLink, ← hu]
  · refine .of_run (fun n => n.linkRises rp) rfl ?_
    rw [show s.node.linkRises rp = _ from linkRises_up hr ht hu, hfar]
    exact ⟨(ringEvent_link _ _ _ rp).trans (link_setLink rp _), (ringEvent_link _ _ _ _).trans (link_setLink_far rp _), (Within.ringEvent (.setLink .rfl)).keeps⟩
  · exact .of_run (fun n => n.linkRises rp) rfl (linkRises_idle h)
  · refine .of_run (fun n => n.clearLine.linkFails rp) rfl ?_
    have hl : s.node.clearLine.link rp = l := link_clearLine rp
    have hlf : s.node.clearLine.link (farPort rp) = n.link far := by rw [hfar]; exact link_clearLine _
    have hu' : (s.node.clearLine.link rp).up = true := by rw [hl]; exact hu
    obtain ⟨h1, h2⟩ := linkFails_gone hu'
    have hc : Within [.tide, .jrnl, .pair] s.node (s.node.clearLine.linkGone rp) := (linkGone_within rp).after (.clearLine .rfl) (by decide)
    refine ⟨by rw [h1]; rfl, by rw [h1]; rfl, by rw [h1]; rfl, by rw [h1]; rfl, h2, fun hi hf => ?_, fun hi hf => ?_, fun hi => ?_⟩
    · rw [linkFails_wraps hu' hi (by rw [hlf]; exact hf)]
      obtain ⟨w1, -, w3, -⟩ := wrapPort_wrapped (n := s.node.clearLine.linkGone rp) rp
      refine ⟨w1, w3.trans ((linkGone_gone rp).st.trans hi), (Within.wrapPort hc).keeps⟩
    · obtain ⟨hin, he⟩ := linkFails_leaves hu' hi (by rw [hlf]; exact hf)
      rw [he]
      obtain ⟨⟨x, hx⟩, ⟨t, ht⟩⟩ := leaveRing_left (n := s.node.clearLine.linkGone rp) .listen 7
      obtain ⟨a, b, c, d⟩ := leftTide_listens hx
      exact ⟨a, b, c, d, by rw [ht], leaveRing_role hin _ _⟩
    · rw [linkFails_outside hu' hi]
      exact ⟨(linkGone_gone rp).st, hc.keeps⟩
  · subst hp
    refine .of_run (fun n => if RingPort.ta = .ta ∧ n.inserted ∧ n.wrapped .ta ∧ n.tide.ta.up ∧ n.tide.ta.wasDown then
      n.mTide fun t => { t with restorePend := some .ta } else n) rfl (if_pos ⟨rfl, ?_, hw, hu, hd⟩)
    rw [inserted, show s.node.tide.st = .inserted from hi]
    rfl
  · refine .of_run (fun n => if rp = .ta ∧ n.inserted ∧ n.wrapped .ta ∧ n.tide.ta.up ∧ n.tide.ta.wasDown then
      n.mTide fun t => { t with restorePend := some .ta } else n) rfl (if_neg fun hc => ?_)
    obtain ⟨h1, h2, h3, h4, h5⟩ := hc
    have h2' : n.tide.st = .inserted := by simpa [inserted] using h2
    have h3' : n.tide.wrapA = true := h3
    rcases h with h | h | h | h | h
    · rw [h1] at h
      cases h
    · exact h h2'
    · rw [h3'] at h
      cases h
    · rw [show n.tide.ta.up = true from h4] at h
      cases h
    · rw [show n.tide.ta.wasDown = true from h5] at h
      cases h

end

section
/-! The token (15 R457, R462, R469, R476), and what of the ring stands when frames that waited are passed on. -/

namespace Sys2Proof.Machine.Node

variable {n m : Node}

/-! What frames passed on, a view taken and frames sent leave of the ring. -/

/-- Of the ring what is sent and kept for others has changed, and its flags; its state, token, view, wraps, links and counts stand. -/
def TideRest (n m : Node) : Prop := ∃ tx sent peers issuers ref flags fseq budget recs line wait, m.tide = { n.tide with
  tx := tx, sent := sent, peers := peers, issuers := issuers, refNode := ref, flags := flags, fseq := fseq, budget := budget, recs := recs,
  line := line, wait := wait }

theorem TideRest.of_tide (h : m.tide = n.tide) : TideRest n m := ⟨_, _, _, _, _, _, _, _, _, _, _, h⟩

theorem TideRest.rfl : TideRest n n := .of_tide (.refl _)

theorem TideRest.trans {k : Node} (h : TideRest n m) (g : TideRest m k) : TideRest n k := by
  obtain ⟨_, _, _, _, _, _, _, _, _, _, _, h⟩ := h
  obtain ⟨a, b, c, d, e, f, i, j, o, p, q, g⟩ := g
  exact ⟨a, b, c, d, e, f, i, j, o, p, q, by rw [g, h]⟩

theorem TideRest.frame (h : Within (Part.allBut [.tide]) n m) : TideRest n m := .of_tide (h.part .tide)

theorem TideRest.ite {c : Prop} [Decidable c] {a b : Node} (ha : TideRest n a) (hb : TideRest n b) : TideRest n (if c then a else b) := by
  split <;> assumption

theorem TideRest.foldl {β : Type} {f : Node → β → Node} (h : ∀ n x, TideRest n (f n x)) (l : List β) (n : Node) : TideRest n (l.foldl f n) := by
  induction l generalizing n with
  | nil => exact .rfl
  | cons x l ih => exact (h n x).trans (ih _)

theorem Noted.rest (h : Noted n m) : TideRest n m := by
  obtain ⟨l, hl⟩ := h.tide
  exact ⟨_, _, _, _, _, _, _, _, _, _, _, hl⟩

theorem sendFrame_rest (d : BitVec 16) (l : RingLoad) : TideRest n (n.sendFrame d l) := ⟨_, _, _, _, _, _, _, _, _, _, _, rfl⟩
theorem setPeer_rest (k : Nat) (p : Peer) : TideRest n (n.setPeer k p) := ⟨_, _, _, _, _, _, _, _, _, _, _, rfl⟩
theorem tideFlag_rest (i : Nat) : TideRest n (n.tideFlag i) := ⟨_, _, _, _, _, _, _, _, _, _, _, rfl⟩

theorem ringOut_eq (l : List RingFrame) : n.ringOut l = { n with tide := { n.tide with
    line := if n.txIdle then n.tide.line else n.tide.line ++ l
    wait := if n.txIdle then n.tide.wait ++ l else n.tide.wait } } := by
  unfold ringOut mTide
  cases n.txIdle <;> rfl

theorem ringOut_tide (l : List RingFrame) : (n.ringOut l).tide = { n.tide with
    line := if n.txIdle then n.tide.line else n.tide.line ++ l
    wait := if n.txIdle then n.tide.wait ++ l else n.tide.wait } := by
  unfold ringOut mTide
  cases n.txIdle <;> rfl

theorem ringOut_rest (l : List RingFrame) : TideRest n (n.ringOut l) := ⟨_, _, _, _, _, _, _, _, _, _, _, ringOut_tide l⟩

theorem putFrame_rest (f : RingFrame) : TideRest n (n.putFrame f) := by
  unfold putFrame
  dsimp only
  generalize hk : Node.mTide n _ = k
  have h : TideRest n k := by
    rw [← hk]
    exact ⟨_, _, _, _, _, _, _, _, _, _, _, rfl⟩
  exact h.trans (ringOut_rest _)

theorem pumpFrames_rest (f : Nat) : TideRest n (pumpFrames f n) := by
  induction f generalizing n with
  | zero => exact .rfl
  | succ f ih =>
    unfold pumpFrames
    dsimp only
    refine .ite (.ite .rfl ?_) ?_
    · refine .trans ?_ ih
      exact .trans (m := n.mTide fun t => { t with recs := t.recs.drop (recordsFit n.tide.budget n.tide.recs.length) })
        ⟨_, _, _, _, _, _, _, _, _, _, _, rfl⟩ (putFrame_rest _)
    · split
      · exact .rfl
      next g _ =>
        refine .ite (.trans ?_ ih) .rfl
        exact .trans (m := n.mTide fun t => { t with tx := t.tx.erase g }) ⟨_, _, _, _, _, _, _, _, _, _, _, rfl⟩ (putFrame_rest _)

theorem pump_rest : TideRest n n.pump := .ite (pumpFrames_rest _) .rfl

/-! Frames of a sender that are passed on. -/

theorem queryStart_rest (c : Nat) : TideRest n (n.queryStart c) := by
  unfold queryStart
  dsimp only
  refine .ite .rfl ?_
  generalize hk : Node.mPair n _ = k
  have h : TideRest n k := by
    rw [← hk]
    exact .of_tide rfl
  exact (h.trans (sendFrame_rest _ _)).trans (.frame (.queryCheck .rfl))

theorem partnerDemoted_rest : TideRest n n.partnerDemoted := .ite (queryStart_rest 2) .rfl

theorem noteIssuer_rest (r : Record) : TideRest n (n.noteIssuer r) := by
  unfold noteIssuer
  dsimp only
  exact .ite ⟨_, _, _, _, _, _, _, _, _, _, _, rfl⟩ .rfl

theorem ownSpaceRecord_rest (r : Record) : TideRest n (n.ownSpaceRecord r) := by
  unfold ownSpaceRecord
  dsimp only
  generalize hk : (if r.type = 0x10 ∧ r.old = 2 then _ else _) = k
  have h : TideRest n k := hk ▸ .frame (.ite (.mSec (.ite (.mPair (.mJrnl (.pushRam .rfl))) (.mJrnl (.pushRam .rfl))))
    (.ite (.mPair (.mJrnl (.pushRam .rfl))) (.mJrnl (.pushRam .rfl))))
  exact .ite (h.trans partnerDemoted_rest) h

theorem hearRecord_rest (r : Record) : TideRest n (n.hearRecord r) := by
  unfold hearRecord
  dsimp only
  generalize hk : Node.mJrnl (n.noteIssuer r) _ = k
  have h : TideRest n k := by
    rw [← hk]
    exact (noteIssuer_rest r).trans (.frame (.mJrnl .rfl))
  exact .ite (h.trans (ownSpaceRecord_rest r)) h

theorem hearRecords_rest (l : List Record) : TideRest n (n.hearRecords l) := by
  unfold hearRecords
  exact (TideRest.foldl (fun n r => hearRecord_rest r) _ n).trans (.frame (.writeThrough (.extTake .rfl)))

theorem sendAck_rest (r t : Nat) : TideRest n (n.sendAck r t) := by
  unfold sendAck
  split
  · exact .rfl
  · exact (sendFrame_rest _ _).trans (.frame (.mSec .rfl))

theorem takeNotice_rest (h : BitVec 256) (b : Nat) : TideRest n (n.takeNotice h b) := by
  unfold takeNotice
  dsimp only
  generalize hk : Node.mSec n _ = k
  have hr : TideRest n k := by
    rw [← hk]
    exact .of_tide rfl
  refine .ite (hr.trans (sendAck_rest _ _)) ?_
  split
  · exact .ite (hr.trans (sendAck_rest _ _)) hr
  · exact hr

theorem hearCommand_rest (k : Nat) (c : CommandLoad) : TideRest n (n.hearCommand k c) := by
  unfold hearCommand
  refine .ite .rfl ?_
  split
  · exact .ite (.frame (.arrive .rfl)) .rfl
  · exact .ite (takeNotice_rest _ _) .rfl
  · exact .of_tide rfl
  · exact .ite (.frame (.noticeIn .rfl)) .rfl

theorem sendCopy_rest (a b : Bool) : TideRest n (n.sendCopy a b) := by
  unfold sendCopy
  split
  · exact .rfl
  · dsimp only
    generalize hk : List.foldl _ n _ = k
    have h : TideRest n k := hk ▸ .foldl (fun n _ => sendFrame_rest _ _) _ n
    exact (h.trans (sendFrame_rest _ _)).trans (.frame (.mPair .rfl))

theorem copyEnds_rest : TideRest n n.copyEnds := by
  unfold copyEnds
  exact .ite (.trans (.frame (.mPair .rfl)) (sendCopy_rest _ _)) (.frame (.mPwr .rfl))

theorem copyMissed_rest : TideRest n n.copyMissed := by
  unfold copyMissed
  dsimp only
  refine .ite .rfl ?_
  generalize hk : Node.pairFlag _ 2 = k
  have h : TideRest n k := by
    rw [← hk]
    exact ⟨_, _, _, _, _, _, _, _, _, _, _, rfl⟩
  exact h.trans copyEnds_rest

/-- The confirmation that a partner's answer carries. -/
def confirmTaken (n : Node) (confirm : BitVec 32) : Node :=
  match n.sec.act with
  | none => n
  | some a =>
    if confirm.toNat ≠ 0 ∧ confirm.toNat = (n.bankOf a.bank).hash.toNat % 2 ^ 32 then
      n.mSec fun s => { s with act := some { a with confirmed := true } }
    else n

/-- The answer to a copy, the confirmation taken. -/
def copyAnswered (n : Node) (result tag : Nat) : Node :=
  match n.pair.copy with
  | none => n
  | some c =>
    if c.tag ≠ tag then n
    else if result ≠ 0 then n.copyMissed
    else (n.mPair fun q => { q with
      copy := none
      tag := c.tag
      last := c.last
      demoteDue := if c.handover then 4 else q.demoteDue }).copyEnds

theorem copyAck_eq (r t : Nat) (c : BitVec 32) : n.copyAck r t c = (n.confirmTaken c).copyAnswered r t := rfl

theorem confirmTaken_within (c : BitVec 32) : Within [.sec] n (n.confirmTaken c) := by
  unfold confirmTaken
  split
  · exact .rfl
  · exact .ite (.mSec .rfl) .rfl

theorem copyAnswered_rest (r t : Nat) : TideRest n (n.copyAnswered r t) := by
  unfold copyAnswered
  split
  · exact .rfl
  · exact .ite .rfl (.ite copyMissed_rest (.trans (.frame (.mPair .rfl)) copyEnds_rest))

theorem copyAck_rest (r t : Nat) (c : BitVec 32) : TideRest n (n.copyAck r t c) :=
  .trans (.of_tide ((confirmTaken_within c).part .tide)) (copyAnswered_rest r t)

theorem takeCommit_rest (f : Bool) (t c : Nat) (a b : BitVec 32) (l o : Nat) : TideRest n (n.takeCommit f t c a b l o) := by
  unfold takeCommit
  dsimp only
  refine .ite .rfl (.ite (sendAck_rest _ _) (.ite .rfl ?_))
  generalize hk : Node.mPair n _ = k
  have h : TideRest n k := by
    rw [← hk]
    exact .of_tide rfl
  refine .ite (h.trans (sendAck_rest _ _)) (.trans ?_ (sendAck_rest _ _))
  exact h.trans (.frame (.mRtc (.mPair (.voidOwn (.commitEntries (.loadState .rfl))))))

theorem deliver_rest (k : Nat) (l : RingLoad) : TideRest n (n.deliver k l) := by
  unfold deliver
  split
  · exact hearRecords_rest _
  · exact hearCommand_rest _ _
  · exact .ite (.frame (.takeChunk .rfl)) .rfl
  · exact .ite (takeCommit_rest _ _ _ _ _ _ _) .rfl
  · exact .ite (copyAck_rest _ _ _) .rfl
  · exact .rfl

theorem drain_rest (k : Nat) : TideRest n (n.drain k) := by
  unfold drain
  exact (setPeer_rest _ _).trans (.foldl (fun n h => deliver_rest _ _) _ _)

theorem passHeld_rest (k : Nat) : TideRest n (n.passHeld k) := (setPeer_rest _ _).trans (drain_rest k)

/-! A view taken. -/

/-- The master's choice of the reference. -/
theorem chooseRef_rest : TideRest n n.chooseRef := by
  unfold chooseRef
  split
  · exact .trans (.frame (.mRtc .rfl)) settleTrust_noted.rest
  next k _ =>
    dsimp only
    generalize hk : Node.mRtc _ _ = j
    have h : TideRest n j := by
      rw [← hk]
      exact ⟨_, _, _, _, _, _, _, _, _, _, _, rfl⟩
    exact h.trans settleTrust_noted.rest

theorem roleMoves_rest : TideRest n n.roleMoves := by
  unfold roleMoves
  refine .ite .rfl ?_
  split
  · exact .ite .rfl (.ite (.frame (.mPair (.setRole .rfl))) (.ite (queryStart_rest 0) .rfl))
  · exact .ite (.frame (.pairFlag (.setRole .rfl))) (.ite (queryStart_rest 1) .rfl)
  · exact .ite (.frame (.pairFlag (.setRole .rfl))) (.ite (queryStart_rest 1) .rfl)
  · exact .ite (.frame (.setRole .rfl)) .rfl
  · exact .ite (queryStart_rest 1) (.ite (.frame (.mPair (.setRole .rfl))) .rfl)
  · exact .rfl

theorem purgePeers_rest (o v : BitVec 16) : TideRest n (n.purgePeers o v passHeld) :=
  .foldl (fun _ k => .ite ((passHeld_rest k).trans (setPeer_rest _ _)) .rfl) _ _

/-- A token's view noted, before what it changes. -/
def viewNoted (n : Node) (tk : TokenFrame) : Node :=
  n.mTide fun t => { t with
    lastToken := some (tk.gen, tk.boundary)
    view := tk.view
    viewStable := !n.tide.lastToken.isNone && tk.view == n.tide.view }

/-- What follows of a view taken. -/
def viewFollows (n : Node) (o v : BitVec 16) : Node :=
  let n := (n.mPair fun q => { q with absent := if n.inView then 0 else q.absent + 1 }).viewMajority
  let n := if n.inserted && v != o then n.tideFlag 4 else n
  let n := if n.inserted && v != o && bit o n.sys.node then n.ringRecord 0 8 o v 0 else n
  ((n.purgePeers o v passHeld).chooseRef).roleMoves

theorem takeView_eq (tk : TokenFrame) : n.takeView tk passHeld = (n.viewNoted tk).viewFollows n.tide.view tk.view := rfl

theorem viewFollows_rest (o v : BitVec 16) : TideRest n (n.viewFollows o v) := by
  unfold viewFollows
  dsimp only
  generalize ha : Node.viewMajority _ = a
  have h1 : TideRest n a := by
    rw [← ha]
    exact .frame (.viewMajority (.mPair .rfl))
  generalize hb : (if (a.inserted && v != o) = true then a.tideFlag 4 else a) = b
  have h2 : TideRest n b := by
    rw [← hb]
    exact h1.trans (.ite (tideFlag_rest 4) .rfl)
  have h3 := h2.trans (.ite (c := (b.inserted && v != o && bit o b.sys.node) = true) (ringRecord_noted 0 8 o v 0).rest .rfl)
  exact ((h3.trans (purgePeers_rest o v)).trans chooseRef_rest).trans roleMoves_rest

/-- A view taken from a token: its fields, and what follows leaves the token as it stands. -/
theorem takeView_rest (tk : TokenFrame) : TideRest (n.viewNoted tk) (n.takeView tk passHeld) := viewFollows_rest _ _

theorem takeView_sys (tk : TokenFrame) : (n.takeView tk passHeld).sys = n.sys :=
  (Within.takeView .rfl (fun _ _ => .passHeld .rfl) :
    Within [.pwr, .rtc, .lane, .fab, .call, .solv, .jrnl, .tide, .pair, .ext, .stor, .sec, .free] n (n.takeView tk passHeld)).part .sys

/-! A hold. -/

theorem holdStart_rest (tk : TokenFrame) :
    TideRest (n.mTide fun t => { t with hold := some { tk with visited := tk.visited ||| n.ownBit } }) (n.holdStart tk) := by
  unfold holdStart
  dsimp only
  exact .trans ⟨_, _, _, _, _, _, _, _, _, _, _, rfl⟩ pump_rest

/-! A token's arrival. -/

/-- Of the ring the wraps, their count and a frame to send have changed, and its flags. -/
def Wraps (n m : Node) : Prop := ∃ a b w f x, m.tide = { n.tide with wrapA := a, wrapB := b, wraps := w, flags := f, tx := x }

theorem Wraps.rfl : Wraps n n := ⟨_, _, _, _, _, Eq.refl _⟩

theorem Wraps.trans {k : Node} (h : Wraps n m) (g : Wraps m k) : Wraps n k := by
  obtain ⟨_, _, _, _, _, h⟩ := h
  obtain ⟨a, b, w, f, x, g⟩ := g
  exact ⟨a, b, w, f, x, by rw [g, h]⟩

theorem Wraps.ite {c : Prop} [Decidable c] {a b : Node} (ha : Wraps n a) (hb : Wraps n b) : Wraps n (if c then a else b) := by
  split <;> assumption

theorem Wraps.noted (h : Noted n m) : Wraps n m := by
  obtain ⟨l, hl⟩ := h.tide
  exact ⟨_, _, _, _, _, hl⟩

theorem wrapPort_wraps (p : RingPort) : Wraps n (n.wrapPort p) := by
  unfold wrapPort
  dsimp only
  refine .ite .rfl ?_
  generalize hk : Node.tideFlag _ 1 = k
  have h : Wraps n k := by
    rw [← hk]
    cases p <;> exact ⟨_, _, _, _, _, rfl⟩
  exact h.trans (.noted (ringEvent_noted _ _ _))

/-- The first visit after the splice: the node's part in the ring begins, its ports wrapped where their links are down. -/
theorem becomeInserted_tide : ∃ a b w f x, n.becomeInserted.tide = { n.tide with
    st := .inserted, insertReq := false, listenRot := 0, silent := 0, wrapA := a, wrapB := b, wraps := w, flags := f, tx := x } := by
  unfold becomeInserted
  dsimp only
  generalize hk : Node.mTide n _ = k
  have hkt : k.tide = { n.tide with st := .inserted, insertReq := false, listenRot := 0, silent := 0, wrapA := false, wrapB := false } := by
    rw [← hk]
    rfl
  generalize hu : (if k.tide.ta.up = true then k else k.wrapPort .ta) = u
  have h1 : Wraps k u := hu ▸ .ite .rfl (wrapPort_wraps _)
  have h2 : Wraps k (if u.tide.tb.up = true then u else u.wrapPort .tb) := h1.trans (.ite .rfl (wrapPort_wraps _))
  obtain ⟨a, b, w, f, x, h⟩ := h2.trans (.noted (ringEvent_noted 0 6 0))
  exact ⟨a, b, w, f, x, by rw [h, hkt]⟩

/-- A token heard: what the node keeps of it before anything else. -/
def tokenHeard (n : Node) (tk : TokenFrame) : Node :=
  n.mTide fun t => { t with tokenSeen := true, gen := tk.gen, genSeen := true, masterNode := tk.master, claiming := false }

/-- The first visit after a splice. -/
def firstVisit (n : Node) (tk : TokenFrame) : Bool :=
  n.tide.st == .request && tk.spliced && !bit tk.visited n.sys.node && (n.tide.spliceFor.isNone || n.tide.spliceFor == some n.sys.node)

/-- The view of a token taken, once. -/
def viewOnce (n : Node) (tk : TokenFrame) : Node := if n.tide.lastToken = some (tk.gen, tk.boundary) then n else n.takeView tk passHeld

/-- The token held, or kept by the master. -/
def tokenTaken (n : Node) (tk : TokenFrame) : Node :=
  if !n.inserted then n
  else if !bit tk.visited n.sys.node then n.holdStart tk
  else if tk.master = n.sys.node then n.mTide fun t => { t with master := true, kept := some tk }
  else n.mTide fun t => { t with master := false }

theorem tokenIn_off (tk : TokenFrame) (h : n.ringOn = false) : n.tokenIn tk passHeld = n := if_pos (by simp [h])

section
variable {tk : TokenFrame} (hon : n.ringOn = true) (hring : n.otherRing tk = false)
include hon hring

theorem tokenIn_old (hold : n.olderGen tk.gen = true) : n.tokenIn tk passHeld = n := by
  rw [tokenIn, if_neg (by simp [hon]), if_neg (by simp [hring]), if_pos hold]

variable (hnew : n.olderGen tk.gen = false)
include hnew

theorem tokenIn_current : n.tokenIn tk passHeld =
    if (n.tide.st == .listen || n.tide.st == .request) && bit tk.view n.sys.node then (n.tokenHeard tk).refuseRing
    else ((if n.firstVisit tk then (n.tokenHeard tk).becomeInserted else n.tokenHeard tk).viewOnce tk).tokenTaken tk := by
  rw [tokenIn, if_neg (by simp [hon]), if_neg (by simp [hring]), if_neg (by simp [hnew])]
  rfl

theorem tokenIn_refused (hl : n.tide.st = .listen ∨ n.tide.st = .request) (hv : bit tk.view n.sys.node = true) :
    n.tokenIn tk passHeld = (n.tokenHeard tk).refuseRing := by
  rw [tokenIn_current hon hring hnew, if_pos (by rcases hl with hl | hl <;> simp [hl, hv])]

theorem tokenIn_inserted (hi : n.tide.st = .inserted) : n.tokenIn tk passHeld = ((n.tokenHeard tk).viewOnce tk).tokenTaken tk := by
  rw [tokenIn_current hon hring hnew, if_neg (by simp [hi]), if_neg (by simp [firstVisit, hi])]

theorem tokenIn_visit (hr : n.tide.st = .request) (hv : bit tk.view n.sys.node = false) (hs : tk.spliced = true) (hb : bit tk.visited n.sys.node = false)
    (hf : n.tide.spliceFor = none) : n.tokenIn tk passHeld = ((n.tokenHeard tk).becomeInserted.viewOnce tk).tokenTaken tk := by
  rw [tokenIn_current hon hring hnew, if_neg (by simp [hv]), if_pos (by simp [firstVisit, hr, hs, hb, hf])]

end

/-- A view taken once leaves all of the ring but the view, and what is said and kept for others. -/
theorem viewOnce_tide (tk : TokenFrame) : ∃ l v w k, k.tide = { n.tide with lastToken := l, view := v, viewStable := w } ∧ TideRest k (n.viewOnce tk) ∧
    (n.tide.lastToken ≠ some (tk.gen, tk.boundary) → v = tk.view) := by
  unfold viewOnce
  split
  next h => exact ⟨_, _, _, n, rfl, .rfl, fun hne => absurd h hne⟩
  · exact ⟨_, _, _, n.viewNoted tk, rfl, takeView_rest tk, fun _ => rfl⟩

theorem viewOnce_sys (tk : TokenFrame) : (n.viewOnce tk).sys = n.sys := by
  unfold viewOnce
  split
  · rfl
  · exact takeView_sys tk

/-- What a token heard leaves, whatever follows. -/
structure TokenSeen (tk : TokenFrame) (m : Node) : Prop where
  gen : m.tide.gen = tk.gen
  genSeen : m.tide.genSeen = true
  master : m.tide.masterNode = tk.master
  seen : m.tide.tokenSeen = true
  claim : m.tide.claiming = false

theorem TokenSeen.rest {tk : TokenFrame} {k : Node} (h : TokenSeen tk k) (hr : TideRest k m) : TokenSeen tk m := by
  obtain ⟨_, _, _, _, _, _, _, _, _, _, _, hm⟩ := hr
  obtain ⟨h1, h2, h3, h4, h5⟩ := h
  constructor <;> (rw [hm]; assumption)

/-- A token taken by a node in the ring. -/
theorem tokenTaken_visit {tk : TokenFrame} (hi : n.inserted = true) (hb : bit tk.visited n.sys.node = false) : n.tokenTaken tk = n.holdStart tk := by
  rw [tokenTaken, if_neg (by simp [hi]), if_pos (by simp [hb])]

theorem tokenTaken_back {tk : TokenFrame} (hi : n.inserted = true) (hb : bit tk.visited n.sys.node = true) (hm : tk.master = n.sys.node) :
    n.tokenTaken tk = n.mTide fun t => { t with master := true, kept := some tk } := by
  rw [tokenTaken, if_neg (by simp [hi]), if_neg (by simp [hb]), if_pos hm]

/-- A visit, after whatever led to it: the token held, and its view where it was new. -/
theorem visit_held {tk : TokenFrame} (hs : TokenSeen tk n) (hi : n.tide.st = .inserted) (hb : bit tk.visited n.sys.node = false) :
    TokenSeen tk ((n.viewOnce tk).tokenTaken tk) ∧ ((n.viewOnce tk).tokenTaken tk).tide.hold = some { tk with visited := tk.visited ||| n.ownBit } ∧
      ((n.viewOnce tk).tokenTaken tk).tide.st = .inserted ∧ ((n.viewOnce tk).tokenTaken tk).tide.insertReq = n.tide.insertReq ∧
      (n.tide.lastToken ≠ some (tk.gen, tk.boundary) → ((n.viewOnce tk).tokenTaken tk).tide.view = tk.view) := by
  obtain ⟨l, v, w, k, hk, hr, hv⟩ := viewOnce_tide (n := n) tk
  have hsys := viewOnce_sys (n := n) tk
  generalize n.viewOnce tk = u at *
  obtain ⟨_, _, _, _, _, _, _, _, _, _, _, hu⟩ := hr
  have hu' : u.tide.st = .inserted ∧ u.tide.insertReq = n.tide.insertReq ∧ u.tide.view = v := by
    rw [hu, hk]
    exact ⟨hi, rfl, rfl⟩
  have hsk : TokenSeen tk u := by
    obtain ⟨h1, h2, h3, h4, h5⟩ := hs
    constructor <;> (rw [hu, hk]; assumption)
  have hui : u.inserted = true := by
    unfold inserted
    rw [hu'.1]
    rfl
  have hown : u.ownBit = n.ownBit := by
    unfold ownBit
    rw [hsys]
  rw [tokenTaken_visit hui (by rw [hsys]; exact hb)]
  have ht := holdStart_rest (n := u) tk
  rw [hown] at ht
  refine ⟨TokenSeen.rest (k := u.mTide fun t => { t with hold := some { tk with visited := tk.visited ||| n.ownBit } }) ⟨hsk.1, hsk.2, hsk.3, hsk.4, hsk.5⟩ ht, ?_⟩
  obtain ⟨_, _, _, _, _, _, _, _, _, _, _, hh⟩ := ht
  rw [hh]
  exact ⟨rfl, hu'.1, hu'.2.1, fun hne => hu'.2.2.trans (hv hne)⟩

/-- Back at its master the token is kept. -/
theorem visit_kept {tk : TokenFrame} (hs : TokenSeen tk n) (hi : n.tide.st = .inserted) (hb : bit tk.visited n.sys.node = true) (hm : tk.master = n.sys.node) :
    TokenSeen tk ((n.viewOnce tk).tokenTaken tk) ∧ ((n.viewOnce tk).tokenTaken tk).tide.kept = some tk ∧
      ((n.viewOnce tk).tokenTaken tk).tide.master = true ∧ ((n.viewOnce tk).tokenTaken tk).tide.hold = n.tide.hold := by
  obtain ⟨l, v, w, k, hk, hr, -⟩ := viewOnce_tide (n := n) tk
  have hsys := viewOnce_sys (n := n) tk
  generalize n.viewOnce tk = u at *
  obtain ⟨_, _, _, _, _, _, _, _, _, _, _, hu⟩ := hr
  have hsk : TokenSeen tk u := by
    obtain ⟨h1, h2, h3, h4, h5⟩ := hs
    constructor <;> (rw [hu, hk]; assumption)
  have hui : u.inserted = true := by
    unfold inserted
    rw [hu, hk]
    exact beq_iff_eq.2 hi
  rw [tokenTaken_back hui (by rw [hsys]; exact hb) (by rw [hsys]; exact hm)]
  refine ⟨⟨hsk.1, hsk.2, hsk.3, hsk.4, hsk.5⟩, rfl, rfl, ?_⟩
  change u.tide.hold = n.tide.hold
  rw [hu, hk]

theorem tokenHeard_seen (tk : TokenFrame) : TokenSeen tk (n.tokenHeard tk) := ⟨rfl, rfl, rfl, rfl, rfl⟩

/-- A node refused for its number being taken. -/
theorem refuseRing_tide : ∃ l, n.refuseRing.tide = { n.tide with st := .refused, insertReq := false, flags := setBit n.tide.flags 5, tx := l } := by
  unfold refuseRing
  dsimp only
  generalize hk : Node.tideFlag _ 5 = k
  have hkt : k.tide = { n.tide with st := .refused, insertReq := false, flags := setBit n.tide.flags 5 } := by
    rw [← hk]
    rfl
  obtain ⟨l, hl⟩ := (ringEvent_noted (n := k) 0 12 n.sys.node).tide
  rw [hkt] at hl
  exact ⟨_, hl⟩

/-- The token is seen all the same. -/
theorem refuseRing_refused {tk : TokenFrame} (h : TokenSeen tk n) : TokenSeen tk n.refuseRing ∧ n.refuseRing.tide.st = .refused ∧
    bit n.refuseRing.tide.flags 5 = true ∧ n.refuseRing.tide.hold = n.tide.hold := by
  obtain ⟨l, hl⟩ := refuseRing_tide (n := n)
  obtain ⟨h1, h2, h3, h4, h5⟩ := h
  refine ⟨by constructor <;> (rw [hl]; assumption), ?_⟩
  rw [hl]
  exact ⟨rfl, bit_setBit_same n.tide.flags (by decide), rfl⟩

/-! The boundary. -/

theorem lowestOf_spec {v : BitVec 16} {i : Nat} (h : bit v i = true) (hi : i < 16) (d : Nat) :
    bit v ((lowestOf v).getD d) = true ∧ (lowestOf v).getD d ≤ i := by
  cases hl : lowestOf v with
  | none =>
    have := List.find?_eq_none.1 hl i (List.mem_range.2 hi)
    exact absurd h this
  | some k =>
    refine ⟨List.find?_some (p := fun k => bit v k) hl, ?_⟩
    by_contra hlt
    obtain ⟨hk, as, bs, he, hall⟩ := List.find?_eq_some_iff_append.1 hl
    have hm : i ∈ as := by
      have hi' : i ∈ List.range 16 := List.mem_range.2 hi
      have hs : (as ++ k :: bs).Pairwise (· < ·) := he ▸ List.pairwise_lt_range
      rw [he] at hi'
      rcases List.mem_append.1 hi' with hm | hm
      · exact hm
      · rcases List.mem_cons.1 hm with rfl | hm
        · simp at hlt
        · have := (List.pairwise_cons.1 (List.pairwise_append.1 hs).2.1).1 i hm
          simp only [Option.getD_some] at hlt
          omega
    have := hall i hm
    simp [h] at this

/-- A boundary's time taken. -/
def boundarySet (n : Node) : Node := (n.setNow n.nextRotation).mTide fun t => { t with lastRot := some n.nextRotation }

/-- A boundary noted, its counts taken. -/
def boundaryNoted (n : Node) : Node := n.boundarySet.countRotation

theorem rotation_off (h : n.ringOn = false) : n.rotation passHeld = n := if_pos (by simp [h])

theorem rotation_on (h : n.ringOn = true) (hd : n.tide.dissolve = false) : n.rotation passHeld = n.boundaryNoted.release passHeld := by
  have hb : n.boundarySet.tide.dissolve = false := hd
  have he : n.boundarySet.dissolveNow = n.boundarySet := if_neg (by simp [hb])
  rw [rotation, if_neg (by simp [h])]
  exact congrArg (fun k => k.countRotation.release passHeld) he

theorem countRotation_tide : ∃ a b, n.countRotation.tide = { n.tide with
    silent := if n.tide.tokenSeen then 0 else satInc 3 n.tide.silent, listenRot := a, noTime := b, tokenSeen := false, spliceFor := none } := by
  unfold countRotation
  dsimp only
  have hm : Within [.pair] n (n.countMajority (n.tide.tokenSeen && n.majority)) := .countMajority .rfl
  have hk : (n.countMajority (n.tide.tokenSeen && n.majority)).tide = n.tide := hm.part .tide
  generalize n.countMajority (n.tide.tokenSeen && n.majority) = k at *
  rw [← hk]
  exact ⟨_, _, rfl⟩

/-- The ring as a boundary's counts leave it. -/
theorem boundaryNoted_tide : ∃ a b, n.boundaryNoted.tide = { n.tide with
    lastRot := some n.nextRotation, silent := if n.tide.tokenSeen then 0 else satInc 3 n.tide.silent, listenRot := a, noTime := b, tokenSeen := false,
    spliceFor := none } := countRotation_tide (n := n.boundarySet)

theorem boundaryNoted_within : Within [.tide, .rtc, .pair] n n.boundaryNoted := .countRotation (.mTide (.setNow .rfl))

theorem le_nextRotation : n.now ≤ n.nextRotation := by
  unfold nextRotation
  dsimp only
  split
  · split <;> omega
  · omega

theorem boundaryNoted_now : n.boundaryNoted.now = n.nextRotation := by
  have h : Within [.tide, .pair] n.boundarySet n.boundaryNoted := .countRotation .rfl
  have hr : n.boundaryNoted.rtc = n.boundarySet.rtc := h.part .rtc
  unfold now
  rw [hr]
  exact Nat.max_eq_right le_nextRotation

theorem release_none (h : n.tide.kept = none) : n.release passHeld = n := by simp only [release, h]

/-- The token that a master releases. -/
def releasedToken (n : Node) (k : TokenFrame) : TokenFrame :=
  ⟨(lowestOf k.visited).getD n.sys.node, false, n.tide.lowerRing || (List.range 16).any fun i => bit k.visited i && (n.peerStatus i).any (·.lowerRing),
    n.tide.gen, k.visited, 0, n.now⟩

/-- The master as it releases its token. -/
def releasing (n : Node) (k : TokenFrame) : Node :=
  n.mTide fun t => { t with kept := none, tokenSeen := true, masterNode := (n.releasedToken k).master, genSeen := true }

theorem release_kept {k : TokenFrame} (h : n.tide.kept = some k) (hi : n.inserted = true) : n.release passHeld =
    ((n.releasing k).takeView (n.releasedToken k) passHeld).holdStart (n.releasedToken k) := by
  simp only [release, h]
  exact if_neg (by simp [hi])

/-- A token released: held with its master's own bit, its view that of the token kept. -/
theorem release_held {k : TokenFrame} (h : n.tide.kept = some k) (hi : n.inserted = true) :
    (n.release passHeld).tide.lastRot = n.tide.lastRot ∧ (n.release passHeld).tide.kept = none ∧ (n.release passHeld).tide.view = k.visited ∧
      (n.release passHeld).tide.hold = some { n.releasedToken k with visited := n.ownBit } := by
  have hv : TideRest ((n.releasing k).viewNoted (n.releasedToken k)) ((n.releasing k).takeView (n.releasedToken k) passHeld) := takeView_rest _
  have hsys : ((n.releasing k).takeView (n.releasedToken k) passHeld).sys = n.sys := takeView_sys (n := n.releasing k) (n.releasedToken k)
  rw [release_kept h hi]
  generalize Node.takeView _ _ _ = u at *
  obtain ⟨_, _, _, _, _, _, _, _, _, _, _, hu⟩ := hv
  have ht := holdStart_rest (n := u) (n.releasedToken k)
  have hown : (n.releasedToken k).visited ||| u.ownBit = n.ownBit := by
    unfold ownBit
    rw [hsys]
    exact BitVec.zero_or
  rw [hown] at ht
  obtain ⟨_, _, _, _, _, _, _, _, _, _, _, hh⟩ := ht
  rw [hh]
  refine ⟨?_, ?_, ?_, rfl⟩
  · change u.tide.lastRot = _
    rw [hu]
    rfl
  · change u.tide.kept = _
    rw [hu]
    rfl
  · change u.tide.view = _
    rw [hu]
    rfl

/-! The end of a hold. -/

/-- The token passed on, after what the hold ends with. -/
def tokenPassed (n : Node) (tk : TokenFrame) (spliced : Bool) : Node :=
  (n.mTide fun t => { t with
    hold := none
    budget := 0
    dissolve := t.dissolve || tk.dissolve
    kept := if t.wrapA && t.wrapB then some { tk with spliced := spliced } else t.kept }).ringOut [⟨0, 0, 0, .token { tk with spliced := spliced }⟩]

theorem holdEnds_none (h : n.tide.hold = none) : n.holdEnds = n := by simp only [holdEnds, h]

theorem holdEnds_plain {tk : TokenFrame} (h : n.tide.hold = some tk) (hs : n.spliceAt tk = none) : n.holdEnds = n.tokenPassed tk tk.spliced := by
  simp only [holdEnds, h, hs, Option.isSome_none, Bool.or_false]
  rfl

theorem holdEnds_splice {tk : TokenFrame} {p : RingPort} {j : Bool} (h : n.tide.hold = some tk) (hs : n.spliceAt tk = some (p, j)) :
    n.holdEnds = (n.spliceNow p j).tokenPassed tk true := by
  simp only [holdEnds, h, hs, Option.isSome_some, Bool.or_true]
  rfl

/-- What goes out of the ring's frames: the line, or what waits while the transmitters hold idle. -/
def goesOut (n : Node) (idle : Bool) : List RingFrame := if idle then n.tide.wait else n.tide.line

theorem ringOut_goesOut (l : List RingFrame) : (n.ringOut l).goesOut n.txIdle = n.goesOut n.txIdle ++ l := by
  unfold goesOut
  rw [ringOut_tide]
  cases n.txIdle <;> rfl

theorem Noted.goesOut (h : Noted n m) (i : Bool) : m.goesOut i = n.goesOut i := by
  obtain ⟨l, hl⟩ := h.tide
  unfold Node.goesOut
  rw [hl]

theorem Noted.wrapped (h : Noted n m) (p : RingPort) : m.wrapped p = n.wrapped p := by
  obtain ⟨l, hl⟩ := h.tide
  unfold Node.wrapped
  rw [hl]

/-- A frame put on the ring stands in what goes out. -/
theorem putFrame_goesOut {f : RingFrame} : ∃ g ∈ (n.putFrame f).goesOut n.txIdle, g.load = f.load := by
  unfold putFrame
  dsimp only
  generalize hk : Node.mTide n _ = k
  have hi : k.txIdle = n.txIdle := by
    rw [← hk]
    rfl
  rw [← hi, ringOut_goesOut]
  exact ⟨_, List.mem_append_right _ (List.mem_singleton.2 rfl), rfl⟩

theorem unwrapPort_out (p : RingPort) : (n.unwrapPort p).wrapped p = false ∧ ∀ i, (n.unwrapPort p).goesOut i = n.goesOut i := by
  unfold unwrapPort
  split
  · have he := ringEvent_noted (n := n.setWrap p false) (portCode p) 4 (n.link p).neighbour
    refine ⟨(he.wrapped p).trans ?_, fun i => (he.goesOut i).trans ?_⟩ <;> cases p <;> rfl
  next h => exact ⟨by simpa using h, fun _ => rfl⟩

/-- SPLICE sent: it stands in what goes out, and its port is no longer wrapped. -/
theorem spliceNow_out (p : RingPort) (j : Bool) : (n.spliceNow p j).wrapped p = false ∧
    ∃ f ∈ (n.spliceNow p j).goesOut n.txIdle, f.load = .splice n.sys.node (if j then (n.link p).neighbour else 0xFF) := by
  obtain ⟨g, hg, hl⟩ := putFrame_goesOut (n := n) (f := ⟨0, 0, allNodes, .splice n.sys.node (if j then (n.link p).neighbour else 0xFF)⟩)
  unfold spliceNow
  dsimp only
  generalize n.putFrame _ = u at *
  generalize RingLoad.splice n.sys.node (if j then (n.link p).neighbour else 0xFF) = c at *
  split
  · generalize hk : Node.mTide (u.setWrap p false) _ = k
    have he := ringEvent_noted (n := k) (portCode p) 5 (n.link p).neighbour
    refine ⟨(he.wrapped p).trans ?_, g, ?_, hl⟩
    · rw [← hk]
      cases p <;> rfl
    · rw [he.goesOut, ← hk]
      cases p <;> exact hg
  · generalize hk : Node.mTide (u.setLink p _) _ = k
    obtain ⟨h1, h2⟩ := unwrapPort_out (n := k) p
    refine ⟨h1, g, ?_, hl⟩
    rw [h2, ← hk]
    cases p <;> exact hg

theorem spliceNow_within (p : RingPort) (j : Bool) : Within [.jrnl, .tide, .pair] n (n.spliceNow p j) := .spliceNow .rfl

theorem spliceNow_idle (p : RingPort) (j : Bool) : (n.spliceNow p j).txIdle = n.txIdle := by
  have h := spliceNow_within (n := n) p j
  unfold txIdle coreHeld bridges
  rw [h.part .clk, h.part .pwr]

/-- The token goes out last; what went before it still stands, and the wraps. -/
theorem tokenPassed_out (tk : TokenFrame) (b : Bool) : (n.tokenPassed tk b).tide.hold = none ∧ (∀ p, (n.tokenPassed tk b).wrapped p = n.wrapped p) ∧
    (n.tokenPassed tk b).goesOut n.txIdle = n.goesOut n.txIdle ++ [⟨0, 0, 0, .token { tk with spliced := b }⟩] := by
  unfold tokenPassed
  generalize hk : Node.mTide n _ = k
  have hi : k.txIdle = n.txIdle ∧ k.goesOut n.txIdle = n.goesOut n.txIdle ∧ k.tide.hold = none ∧ ∀ p, k.wrapped p = n.wrapped p := by
    rw [← hk]
    exact ⟨rfl, rfl, rfl, fun p => by cases p <;> rfl⟩
  obtain ⟨h1, h2, h3, h4⟩ := hi
  refine ⟨?_, fun p => ?_, ?_⟩
  · rw [ringOut_tide]
    exact h3
  · rw [← h4]
    unfold wrapped
    rw [ringOut_tide]
  · rw [← h1, ringOut_goesOut, h1, h2]

end Sys2Proof.Machine.Node

open Sys2Proof Sys2Proof.Machine Sys2Proof.Machine.Node
/-- Settles O46: what passed on and taken with a view leaves the token as it stands, and a hold ends with it in what goes out. -/
theorem tokenRound : Obligations.TokenRound := by
  unfold Obligations.TokenRound
  intro s tk n c current seen
  have hseen : ∀ m, TokenSeen tk m → seen m := fun m h => ⟨h.1, h.2, h.3, h.4, h.5⟩
  have hheard : ∀ st, n.tide.st = st → (c.tokenHeard tk).tide.st = st := fun _ h => h
  refine ⟨fun h => ?_, fun hon hr hold => ?_, fun hc hi hb => ?_, fun hc hi hb hm => ?_, fun hc hr hv hs hb hf => ?_, fun hc hl hv => ?_, fun h => ?_,
    fun k hon hi hd hk => ?_, fun hon hd hk => ?_, fun h => ?_, fun h hh hs => ?_, fun h p j hh hs => ?_⟩
  · exact .of_run (fun n => n.clearLine.tokenIn tk passHeld) rfl (tokenIn_off tk h)
  · exact .of_run (fun n => n.clearLine.tokenIn tk passHeld) rfl (tokenIn_old hon hr hold)
  · obtain ⟨hon, hr, hn⟩ := hc
    refine .of_run (fun n => n.clearLine.tokenIn tk passHeld) rfl ?_
    rw [show s.node.clearLine.tokenIn tk passHeld = _ from tokenIn_inserted (n := c) hon hr hn hi]
    obtain ⟨h1, h2, h3, -, h5⟩ := visit_held (n := c.tokenHeard tk) (tokenHeard_seen tk) (hheard _ hi) hb
    exact ⟨hseen _ h1, h2, h3, h5⟩
  · obtain ⟨hon, hr, hn⟩ := hc
    refine .of_run (fun n => n.clearLine.tokenIn tk passHeld) rfl ?_
    rw [show s.node.clearLine.tokenIn tk passHeld = _ from tokenIn_inserted (n := c) hon hr hn hi]
    obtain ⟨h1, h2, h3, h4⟩ := visit_kept (n := c.tokenHeard tk) (tokenHeard_seen tk) (hheard _ hi) hb hm
    exact ⟨hseen _ h1, h2, h3, h4⟩
  · obtain ⟨hon, hring, hn⟩ := hc
    refine .of_run (fun n => n.clearLine.tokenIn tk passHeld) rfl ?_
    rw [show s.node.clearLine.tokenIn tk passHeld = _ from tokenIn_visit (n := c) hon hring hn hr hv hs hb hf]
    obtain ⟨x, hx⟩ : ∃ x, x = (c.tokenHeard tk).becomeInserted := ⟨_, rfl⟩
    obtain ⟨a, b, w, f, l, ht⟩ := becomeInserted_tide (n := c.tokenHeard tk)
    have hsys : (c.tokenHeard tk).becomeInserted.sys = n.sys :=
      (Within.becomeInserted .rfl : Within [.jrnl, .tide, .pair] (c.tokenHeard tk) _).part .sys
    rw [← hx] at ht hsys ⊢
    have hown : x.ownBit = n.ownBit := by
      unfold ownBit
      rw [hsys]
    have hsx : TokenSeen tk x := by constructor <;> (rw [ht]; rfl)
    obtain ⟨h1, h2, h3, h4, -⟩ := visit_held hsx (by rw [ht]) (by rw [hsys]; exact hb)
    exact ⟨hseen _ h1, h3, h4.trans (by rw [ht]), by rw [← hown]; exact h2⟩
  · obtain ⟨hon, hring, hn⟩ := hc
    have hl' : n.tide.st = .listen ∨ n.tide.st = .request := by simpa using hl
    refine .of_run (fun n => n.clearLine.tokenIn tk passHeld) rfl ?_
    rw [show s.node.clearLine.tokenIn tk passHeld = _ from tokenIn_refused (n := c) hon hring hn hl' hv]
    obtain ⟨h1, h2, h3, h4⟩ := refuseRing_refused (n := c.tokenHeard tk) (tokenHeard_seen tk)
    exact ⟨hseen _ h1, h2, h3, h4, (Within.refuseRing (.mTide (.clearLine .rfl))).keeps⟩
  · exact .of_run (fun n => n.clearLine.rotation passHeld) rfl (rotation_off h)
  · refine .of_run (fun n => n.clearLine.rotation passHeld) rfl ?_
    rw [show s.node.clearLine.rotation passHeld = _ from rotation_on (n := c) hon hd]
    obtain ⟨a, b, ht⟩ := boundaryNoted_tide (n := c)
    have hnow := boundaryNoted_now (n := c)
    have hsys : c.boundaryNoted.sys = n.sys := (boundaryNoted_within (n := c)).part .sys
    generalize c.boundaryNoted = x at *
    have hxk : x.tide.kept = some k := by
      rw [ht]
      exact hk
    have hxi : x.inserted = true := by
      unfold inserted
      rw [ht]
      exact beq_iff_eq.2 hi
    obtain ⟨h1, h2, h3, h4⟩ := release_held hxk hxi
    have hown : x.ownBit = n.ownBit := by
      unfold ownBit
      rw [hsys]
    refine ⟨h1.trans (by rw [ht]; rfl), h2, h3, _, h4, rfl, hown, ?_, hnow, rfl, fun i hb hi => lowestOf_spec hb hi _⟩
    change x.tide.gen = n.tide.gen
    rw [ht]
    rfl
  · refine .of_run (fun n => n.clearLine.rotation passHeld) rfl ?_
    rw [show s.node.clearLine.rotation passHeld = _ from rotation_on (n := c) hon hd]
    obtain ⟨a, b, ht⟩ := boundaryNoted_tide (n := c)
    have hw : Within [.tide, .rtc, .pair] s.node c.boundaryNoted := (boundaryNoted_within (n := c)).after (.clearLine .rfl) (by decide)
    rw [release_none (by rw [ht]; exact hk), ht]
    exact ⟨rfl, rfl, rfl, rfl, hw.keeps⟩
  · exact .of_run (fun n => n.clearLine.holdEnds) rfl (holdEnds_none h)
  · refine .of_run (fun n => n.clearLine.holdEnds) rfl ?_
    rw [show s.node.clearLine.holdEnds = _ from holdEnds_plain (n := c) hh hs]
    exact ringOut_eq _
  · refine .of_run (fun n => n.clearLine.holdEnds) rfl ?_
    rw [show s.node.clearLine.holdEnds = _ from holdEnds_splice (n := c) hh hs]
    obtain ⟨h1, g, hg, hl⟩ := spliceNow_out (n := c) p j
    obtain ⟨p1, p2, p3⟩ := tokenPassed_out (n := c.spliceNow p j) h true
    rw [spliceNow_idle] at p3
    have hw : Within [.tide, .jrnl, .pair] s.node ((c.spliceNow p j).tokenPassed h true) := .ringOut (.mTide (.spliceNow (.clearLine .rfl)))
    have hout : (if n.txIdle then ((c.spliceNow p j).tokenPassed h true).tide.wait else ((c.spliceNow p j).tokenPassed h true).tide.line) = _ := p3
    refine ⟨p1, (p2 p).trans h1, ?_, ⟨g, ?_, hl.trans ?_⟩, hw.keeps⟩
    · rw [hout]
      exact List.getLast?_concat
    · rw [hout]
      exact List.mem_append_left _ hg
    · rw [show c.link p = n.link p from link_clearLine p]
      rfl

end

section
/-! Claims, silence, insertion requests, LEAVE and JOIN (15 R467, R475, Tables 15.3 and 15.7). -/

namespace Sys2Proof.Machine.Node

variable {n m : Node}

/-! A node outside the ring sends nothing of what it says. -/

/-- Outside the ring the ring's fields stand. -/
def Outside (n m : Node) : Prop := n.tide.st ≠ .inserted → m.tide = n.tide

theorem Outside.of_tide (h : m.tide = n.tide) : Outside n m := fun _ => h

theorem Outside.trans {k : Node} (h : Outside n m) (g : Outside m k) : Outside n k := fun hs => by
  have hm := h hs
  exact (g (by rw [hm]; exact hs)).trans hm

theorem Outside.frame (h : Within (Part.allBut [.tide]) n m) : Outside n m := .of_tide (h.part .tide)

theorem Outside.ite {c : Prop} [Decidable c] {a b : Node} (ha : Outside n a) (hb : Outside n b) : Outside n (if c then a else b) := by
  split <;> assumption

theorem Outside.foldl {β : Type} {f : Node → β → Node} (h : ∀ n x, Outside n (f n x)) (l : List β) (n : Node) : Outside n (l.foldl f n) := by
  induction l generalizing n with
  | nil => exact .of_tide rfl
  | cons x l ih => exact (h n x).trans (ih _)

theorem notify_outside (b : RecBody) : Outside n (n.notify b) := fun hs => by
  unfold notify
  split
  · rfl
  · split
    · rfl
    · rw [if_neg (by simp [hs])]
      dsimp only
      split <;> rfl

theorem later_outside (b : RecBody) : Outside n (n.later b) := .ite (.of_tide rfl) (notify_outside b)

theorem ringEvent_outside (a b c : Nat) : Outside n (n.ringEvent a b c) := .ite (later_outside _) (.of_tide rfl)

theorem settleTrust_outside : Outside n n.settleTrust := by
  unfold settleTrust
  dsimp only
  exact .ite (.of_tide rfl) (.trans (m := n.mRtc fun r => { r with trust := n.trustOf }) (.of_tide rfl) (later_outside _))

theorem portMove_outside (p st : Nat) : Outside n (n.portMove p st) := by
  unfold portMove
  dsimp only
  refine .ite (.of_tide rfl) ?_
  generalize hk : Node.setPort n p _ = k
  have h : Outside n k := hk ▸ .frame (.setPort .rfl)
  exact .trans (h.trans (.ite (.frame (.extFlag .rfl)) (.ite (.frame (.extFlag .rfl)) (.of_tide rfl)))) (later_outside _)

theorem demoteNow_outside (c : Nat) : Outside n (n.demoteNow c) := by
  by_cases h : n.pair.role = 4
  · rw [demoteNow_eq h]
    refine .trans (m := (n.demoting c).mJrnl fun j => { j with due := [], gaps := [], firstRecs := [] }) (.of_tide (demoting_tide c)) ?_
    exact .trans (.foldl (fun n b => notify_outside b) _ _) (.foldl (fun n p => .ite (portMove_outside p _) (.of_tide rfl)) _ _)
  · rw [demoteNow_idle h]
    exact .of_tide rfl

/-- A node that leaves the ring keeps nothing to send. -/
theorem leaveRing_tide {st : RingSt} (hs : st ≠ .inserted) (e : Nat) : (n.leaveRing st e).tide = leftTide n.tide st := by
  have h0 : Outside (n.mTide fun t => leftTide t st) (n.leaveRing st e) := by
    have hl : Outside (n.mTide fun t => leftTide t st) (n.leaving st) :=
      .trans (m := (n.mTide fun t => leftTide t st).mRtc fun r => { r with reference := false, tracked := false }) (.of_tide rfl) settleTrust_outside
    rw [leaveRing_eq]
    exact .ite ((hl.trans (ringEvent_outside 0 e 0)).trans (.trans (.frame (.mPair .rfl)) (demoteNow_outside 1))) hl
  exact h0 hs

/-! Claims. -/

theorem claimIn_outside {k : Nat} (h : ¬ (n.ringOn = true ∧ n.tide.st = .inserted)) : n.claimIn k = n := by
  refine if_pos ?_
  by_cases hr : n.ringOn = true
  · simp [inserted, show ¬ n.tide.st = .inserted from fun hs => h ⟨hr, hs⟩]
  · simp [hr]

section
variable {k : Nat} (hr : n.ringOn = true) (hi : n.tide.st = .inserted)
include hr hi

theorem claimIn_inside : n.claimIn k =
    if k = n.sys.node then (if n.tide.claiming then n.regenerate else n)
    else if k < n.sys.node then n.ringOut [⟨0, 0, allNodes, .claim k⟩] else n := if_neg (by simp [hr, inserted, hi])

theorem claimIn_higher (h : n.sys.node < k) : n.claimIn k = n := by
  rw [claimIn_inside hr hi, if_neg (by omega), if_neg (by omega)]

theorem claimIn_lower (h : k < n.sys.node) : n.claimIn k = n.ringOut [⟨0, 0, allNodes, .claim k⟩] := by
  rw [claimIn_inside hr hi, if_neg (by omega), if_pos h]

theorem claimIn_own (h : k = n.sys.node) : n.claimIn k = if n.tide.claiming then n.regenerate else n := by
  rw [claimIn_inside hr hi, if_pos h]

theorem tokenSilence_claims (hs : 2 ≤ n.tide.silent) (ht : n.tide.tokenSeen = false) :
    n.tokenSilence = (n.mTide fun t => { t with claiming := true }).ringOut [⟨0, 0, allNodes, .claim n.sys.node⟩] :=
  if_pos (by simp [hr, inserted, hi, hs, ht])

end

theorem tokenSilence_idle (h : ¬ (n.ringOn = true ∧ n.tide.st = .inserted) ∨ n.tide.silent < 2 ∨ n.tide.tokenSeen = true) : n.tokenSilence = n := by
  refine if_neg fun hc => ?_
  simp only [Bool.and_eq_true, inserted, beq_iff_eq, decide_eq_true_eq, Bool.not_eq_true'] at hc
  obtain ⟨⟨⟨h1, h2⟩, h3⟩, h4⟩ := hc
  rcases h with h | h | h
  · exact h ⟨h1, h2⟩
  · omega
  · simp [h4] at h

/-- A token of the next GEN, kept for the next boundary. -/
theorem regenerate_tide : ∃ l, n.regenerate.tide = { n.tide with
    gen := (n.tide.gen + 1) % 65536, genSeen := true, master := true, masterNode := n.sys.node, claiming := false, regens := satInc 0xFF n.tide.regens,
    kept := some ⟨n.sys.node, false, false, (n.tide.gen + 1) % 65536, n.tide.view, n.tide.view ||| n.ownBit, n.now⟩,
    flags := setBit n.tide.flags 2, tx := l } := by
  unfold regenerate
  dsimp only
  generalize hk : Node.tideFlag _ 2 = k
  obtain ⟨l, hl⟩ := (ringEvent_noted (n := k) 0 9 0).tide
  exact ⟨n.tide.tx ++ l, by rw [hl, ← hk]; rfl⟩

/-! A ring of one node. -/

/-- A wrapped port leaves the other one's wrap. -/
theorem wrapPort_far (p : RingPort) : (n.wrapPort p).wrapped (farPort p) = n.wrapped (farPort p) := by
  unfold wrapPort
  split
  · rfl
  · dsimp only
    generalize hk : Node.tideFlag _ 1 = k
    have h : k.wrapped (farPort p) = n.wrapped (farPort p) := by
      rw [← hk]
      cases p <;> rfl
    exact ((ringEvent_noted _ _ _).wrapped _).trans h

theorem bothWrapped : ((n.wrapPort .ta).wrapPort .tb).tide.wrapA = true ∧ ((n.wrapPort .ta).wrapPort .tb).tide.wrapB = true :=
  ⟨(wrapPort_far (n := n.wrapPort .ta) .tb).trans (wrapPort_wrapped .ta).1, (wrapPort_wrapped .tb).1⟩

theorem formRing_alone (hr : n.ringOn = true) (hl : n.tide.st = .listen) (hs : 3 ≤ n.tide.silent) : ∃ (k : Tide) (l : List RingFrame), n.formRing.tide = { k with
    st := .inserted, master := true, masterNode := n.sys.node, gen := 1, genSeen := true, silent := 0, listenRot := 0,
    kept := some ⟨n.sys.node, false, false, 1, 0, n.ownBit, n.now⟩, tx := l } ∧ k.wrapA = true ∧ k.wrapB = true := by
  rw [formRing, if_pos (by simp [hr, hl, hs])]
  dsimp only
  have hw : Within [.tide, .jrnl, .pair] n ((n.wrapPort .ta).wrapPort .tb) := .wrapPort (.wrapPort .rfl)
  have hb := bothWrapped (n := n)
  generalize (n.wrapPort .ta).wrapPort .tb = u at *
  have hs : u.sys = n.sys := hw.part .sys
  have ho : u.ownBit = n.ownBit ∧ u.now = n.now := by
    unfold ownBit now
    rw [hs, hw.part .rtc]
    exact ⟨rfl, rfl⟩
  rw [← hs, ← ho.1, ← ho.2]
  generalize hk : Node.mTide u _ = k
  obtain ⟨l, hl⟩ := (ringEvent_noted (n := k) 0 6 0).tide
  exact ⟨u.tide, u.tide.tx ++ l, by rw [hl, ← hk]; rfl, hb.1, hb.2⟩

theorem formRing_idle (h : n.ringOn = false ∨ n.tide.st ≠ .listen ∨ n.tide.silent < 3) : n.formRing = n := by
  refine if_neg fun hc => ?_
  simp only [Bool.and_eq_true, beq_iff_eq, decide_eq_true_eq] at hc
  obtain ⟨⟨h1, h2⟩, h3⟩ := hc
  rcases h with h | h | h
  · simp [h1] at h
  · exact h h2
  · omega

/-- What a request to be let in needs. -/
def insertReady (n : Node) : Prop := n.ringOn = true ∧ n.tide.st = .listen ∧ 3 ≤ n.tide.listenRot ∧ (n.tide.ta.up = true ∨ n.tide.tb.up = true) ∧
  n.rtc.tracked = true ∧ -10 ≤ n.rtc.offset ∧ n.rtc.offset ≤ 10 ∧ n.img.isSome = true

theorem requestInsert_iff : n.requestInsert = if n.ringOn && n.tide.st == .listen && decide (3 ≤ n.tide.listenRot) && (n.tide.ta.up || n.tide.tb.up) &&
    n.rtc.tracked && decide (-10 ≤ n.rtc.offset) && decide (n.rtc.offset ≤ 10) && n.img.isSome
    then n.mTide fun t => { t with st := .request, insertReq := true } else n := rfl

theorem requestInsert_ready (h : n.insertReady) : n.requestInsert = n.mTide fun t => { t with st := .request, insertReq := true } := by
  obtain ⟨h1, h2, h3, h4, h5, h6, h7, h8⟩ := h
  rw [requestInsert_iff]
  exact if_pos (by simpa [h1, h2, h3, h5, h6, h7, h8] using h4)

theorem requestInsert_not (h : ¬ n.insertReady) : n.requestInsert = n := by
  rw [requestInsert_iff]
  refine if_neg fun hc => h ?_
  simp only [Bool.and_eq_true, Bool.or_eq_true, beq_iff_eq, decide_eq_true_eq] at hc
  obtain ⟨⟨⟨⟨⟨⟨⟨h1, h2⟩, h3⟩, h4⟩, h5⟩, h6⟩, h7⟩, h8⟩ := hc
  exact ⟨h1, h2, h3, h4, h5, h6, h7, h8⟩

/-! LEAVE and JOIN. -/

theorem tideCommand_refused {op c : Nat} (h : n.tideRefusal op = c) (hc : c ≠ 0) : n.tideCommand op =
    { n with tide := { n.tide with cmdResult := c, flags := setBit n.tide.flags 7 } } := by
  rw [tideCommand, h]
  exact if_pos hc

theorem tideCommand_leave (h : n.tideRefusal 1 = 0) : n.tideCommand 1 = (n.mTide fun t => { t with cmdResult := 0 }).leaveRing .heldOut 7 := by
  rw [tideCommand, h]
  rfl

theorem tideCommand_join (h : n.tideRefusal 2 = 0) : n.tideCommand 2 = { n with tide := { n.tide with
    cmdResult := 0, st := .listen, listenRot := 0, silent := 0, lastToken := none, genSeen := false } } := by
  rw [tideCommand, h]
  rfl

theorem tideRefusal_leave : n.tideRefusal 1 = if !n.sec.maint then 1 else if n.tide.st ≠ .inserted then 3 else 0 := by
  simp [tideRefusal]

theorem tideRefusal_join : n.tideRefusal 2 = if !n.sec.maint then 1 else if n.tide.st ≠ .heldOut ∧ n.tide.st ≠ .refused then 3 else 0 := by
  simp [tideRefusal]

end Sys2Proof.Machine.Node

open Sys2Proof Sys2Proof.Machine Sys2Proof.Machine.Node

/-- Settles O47: a node outside the ring keeps nothing of what it says to send, so LEAVE leaves its queue empty. -/
theorem claimsAndRingStates : Obligations.ClaimsAndRingStates := by
  unfold Obligations.ClaimsAndRingStates
  intro s k n c t gen inRing ready turned puts
  refine ⟨fun h => ?_, fun hi hk => ?_, fun hi hk hc => ?_, fun hi hs ht => ?_, fun h => ?_, fun hr hl hs => ?_, fun h => ?_, fun h => ?_, fun h => ?_,
    fun hm => ⟨?_, ?_⟩, fun hm hs => ?_, fun hm hs1 hs2 => ?_, fun hm hs => ?_, fun hm hs => ?_⟩
  · refine .of_run (fun n => n.clearLine.claimIn k.val) rfl ?_
    by_cases hi : c.ringOn = true ∧ c.tide.st = .inserted
    · obtain ⟨hr, hi⟩ := hi
      rcases h with h | h | ⟨h, hc⟩
      · exact absurd ⟨hr, hi⟩ h
      · exact claimIn_higher (n := c) hr hi h
      · exact (claimIn_own (n := c) hr hi h).trans (if_neg (by simp [show c.tide.claiming = false from hc]))
    · exact claimIn_outside (n := c) hi
  · exact .of_run (fun n => n.clearLine.claimIn k.val) rfl ((claimIn_lower (n := c) hi.1 hi.2 hk).trans (ringOut_eq _))
  · refine .of_run (fun n => n.clearLine.claimIn k.val) rfl ?_
    rw [show s.node.clearLine.claimIn k.val = c.regenerate from (claimIn_own (n := c) hi.1 hi.2 hk).trans (if_pos hc)]
    obtain ⟨l, hl⟩ := regenerate_tide (n := c)
    have hw : Within [.tide, .jrnl, .pair] s.node c.regenerate := .regenerate (.clearLine .rfl)
    rw [hl]
    exact ⟨rfl, rfl, rfl, rfl, rfl, bit_setBit_same t.flags (by decide), rfl, hw.keeps⟩
  · exact .of_run (fun n => n.clearLine.tokenSilence) rfl ((tokenSilence_claims (n := c) hi.1 hi.2 hs ht).trans (ringOut_eq _))
  · exact .of_run (fun n => n.clearLine.tokenSilence) rfl (tokenSilence_idle (n := c) h)
  · refine .of_run formRing rfl ?_
    obtain ⟨a, l, he, ha, hb⟩ := formRing_alone hr hl hs
    have hw : Within [.tide, .jrnl, .pair] s.node s.node.formRing := .formRing .rfl
    rw [he]
    exact ⟨rfl, rfl, rfl, ha, hb, rfl, rfl, hw.keeps⟩
  · exact .of_run formRing rfl (formRing_idle h)
  · exact .of_run requestInsert rfl (requestInsert_ready h)
  · exact .of_run requestInsert rfl (requestInsert_not h)
  · exact .of_run (fun n => n.tideCommand 1) rfl (tideCommand_refused (tideRefusal_leave.trans (if_pos (by simp [show s.node.sec.maint = false from hm]))) (by decide))
  · exact .of_run (fun n => n.tideCommand 2) rfl (tideCommand_refused (tideRefusal_join.trans (if_pos (by simp [show s.node.sec.maint = false from hm]))) (by decide))
  · refine .of_run (fun n => n.tideCommand 1) rfl (tideCommand_refused (c := 3) ?_ (by decide))
    rw [tideRefusal_leave, if_neg (by simp [show s.node.sec.maint = true from hm]), if_pos hs]
  · refine .of_run (fun n => n.tideCommand 2) rfl (tideCommand_refused (c := 3) ?_ (by decide))
    rw [tideRefusal_join, if_neg (by simp [show s.node.sec.maint = true from hm]), if_pos ⟨hs1, hs2⟩]
  · refine .of_run (fun n => n.tideCommand 1) rfl ?_
    have h0 : s.node.tideRefusal 1 = 0 := by
      rw [tideRefusal_leave, if_neg (by simp [show s.node.sec.maint = true from hm]), if_neg (not_not.2 hs)]
    rw [tideCommand_leave h0]
    obtain ⟨-, ⟨x, hx⟩⟩ := leaveRing_left (n := s.node.mTide fun t => { t with cmdResult := 0 }) .heldOut 7
    have hrole := leaveRing_role (n := s.node.mTide fun t => { t with cmdResult := 0 }) (beq_iff_eq.2 hs) .heldOut 7
    rw [leaveRing_tide (by decide), hx]
    exact ⟨rfl, rfl, rfl, rfl, rfl, rfl, rfl, rfl, rfl, hrole⟩
  · refine .of_run (fun n => n.tideCommand 2) rfl (tideCommand_join ?_)
    have hs' : s.node.tide.st = .heldOut ∨ s.node.tide.st = .refused := by simpa using hs
    rw [tideRefusal_join, if_neg (by simp [show s.node.sec.maint = true from hm]), if_neg]
    rcases hs' with hs' | hs' <;> simp [hs']

end

section
/-! Frames of one sender in their order (15 R461, R468, 14 R440), and what a record of the own space leaves. -/

namespace Sys2Proof.Machine

variable {α : Type} [DecidableEq α] {d : α}

/-- The second value set at a key is what counts. -/
theorem tset_tset {m : Tab α} {lo k : Nat} (h : twfFrom d lo m = true) (v w : α) : tset d (tset d m k v) k w = tset d m k w := by
  have below : ∀ (m : Tab α), twfFrom d (k + 1) m = true → ∀ w, tset d m k w = if w = d then m else (k, w) :: m := by
    intro m hm w
    cases m with
    | nil => rfl
    | cons e m =>
      simp only [twfFrom, Bool.and_eq_true, decide_eq_true_eq] at hm
      simp only [tset, if_pos (show k < e.1 by omega)]
  induction m generalizing lo with
  | nil =>
    simp only [tset]
    by_cases hv : v = d
    · simp only [if_pos hv, tset]
    · simp only [if_neg hv, tset, Nat.lt_irrefl, if_false, if_true]
  | cons e m ih =>
    obtain ⟨j, u⟩ := e
    simp only [twfFrom, Bool.and_eq_true, decide_eq_true_eq] at h
    obtain ⟨-, hm⟩ := h
    rcases Nat.lt_trichotomy k j with hk | hk | hk
    · by_cases hv : v = d
      · simp only [tset, if_pos hk, if_pos hv]
      · simp only [tset, if_pos hk, if_neg hv, Nat.lt_irrefl, if_false, if_true]
    · subst hk
      by_cases hv : v = d
      · simp only [tset, Nat.lt_irrefl, if_false, if_true, if_pos hv, below m hm]
      · simp only [tset, Nat.lt_irrefl, if_false, if_true, if_neg hv]
    · simp only [tset, if_neg (Nat.lt_asymm hk), if_neg (Nat.ne_of_gt hk), ih hm]

end Sys2Proof.Machine

namespace Sys2Proof.Machine.Node

variable {n m : Node} {src : Nat}

theorem peer_setPeer (hw : twf {} n.tide.peers = true) (k : Nat) (p : Peer) : (n.setPeer k p).peer k = p := tget_tset_same hw k p

theorem twf_setPeer (hw : twf {} n.tide.peers = true) (k : Nat) (p : Peer) : twf {} (n.setPeer k p).tide.peers = true := twf_tset hw k p

theorem setPeer_setPeer (hw : twf {} n.tide.peers = true) (k : Nat) (p q : Peer) : (n.setPeer k p).setPeer k q = n.setPeer k q :=
  congrArg (fun x => n.mTide fun t => { t with peers := x }) (tset_tset hw p q)

/-! The order of the frames held. -/

/-- A frame held that waits for none that is missing. -/
def heldReady (p : Peer) (h : Nat × RingLoad) : Bool := p.missing.all fun m => !fseqBefore m h.1

/-- The key of a frame held in the order of FSEQ, from the highest one back. -/
def heldKey (p : Peer) (h : Nat × RingLoad) : Nat := 65536 - (p.high.getD 0 + 65536 - h.1) % 65536

theorem drain_eq (src : Nat) : n.drain src = (sortBy (heldKey (n.peer src)) ((n.peer src).held.filter (heldReady (n.peer src)))).foldl
    (fun n h => n.deliver src h.2) (n.setPeer src { n.peer src with held := (n.peer src).held.filter (! heldReady (n.peer src) ·) }) := rfl

/-- What a sender's frames do once its fields are `p`. -/
theorem drain_setPeer (hw : twf {} n.tide.peers = true) (p : Peer) : (n.setPeer src p).drain src = (sortBy (heldKey p) (p.held.filter (heldReady p))).foldl
    (fun n h => n.deliver src h.2) (n.setPeer src { p with held := p.held.filter (! heldReady p ·) }) := by
  rw [drain_eq, peer_setPeer hw, setPeer_setPeer hw]

theorem filter_ready_all {p : Peer} (h : p.missing = []) : p.held.filter (heldReady p) = p.held ∧ p.held.filter (! heldReady p ·) = [] := by
  have hr : ∀ x, heldReady p x = true := fun x => by rw [heldReady, h]; rfl
  refine ⟨List.filter_eq_self.2 fun x _ => hr x, List.filter_eq_nil_iff.2 fun x _ => ?_⟩
  simp [hr]

/-- With none missing all that is held is delivered. -/
theorem drain_all (hw : twf {} n.tide.peers = true) {p : Peer} (h : p.missing = []) : (n.setPeer src p).drain src =
    (sortBy (heldKey p) p.held).foldl (fun n h => n.deliver src h.2) (n.setPeer src { p with held := [] }) := by
  rw [drain_setPeer hw, (filter_ready_all h).1, (filter_ready_all h).2]

/-- Behind a missing frame the one held waits. -/
theorem drain_waits (hw : twf {} n.tide.peers = true) {p : Peer} {q f : Nat} {l : RingLoad} (hm : p.missing = [q]) (hh : p.held = [(f, l)])
    (hb : fseqBefore q f = true) : (n.setPeer src p).drain src = n.setPeer src p := by
  have hr : heldReady p (f, l) = false := by
    rw [heldReady, hm]
    simp [hb]
  have h1 : p.held.filter (heldReady p) = [] := by rw [hh]; simp [hr]
  have h2 : p.held.filter (! heldReady p ·) = p.held := by rw [hh]; simp [hr]
  rw [drain_setPeer hw, h1, h2]
  rfl

/-! A frame heard. -/

theorem hearFseq_deaf (h : n.ringHears = false ∨ src = n.sys.node) (f : Nat) (l : Option RingLoad) : n.hearFseq src f l = none := by
  refine if_pos ?_
  rcases h with h | h <;> simp [h]

section
variable (hr : n.ringHears = true) (hs : src ≠ n.sys.node)
include hr hs

/-- A frame heard from a sender of which the frame `h` is the newest. -/
theorem hearFseq_known {h : Nat} (hh : (n.peer src).high = some h) (f : Nat) (l : Option RingLoad) : n.hearFseq src f l =
    if (f + 65536 - h) % 65536 = 0 ∨ 32768 ≤ (f + 65536 - h) % 65536 then
      if (n.peer src).missing.contains f then
        some ((n.setPeer src { n.peer src with missing := (n.peer src).missing.filter (· != f), held := (n.peer src).held ++ (l.map fun l => (f, l)).toList }).drain src)
      else none
    else some ((n.setPeer src { n.peer src with
      high := some f
      missing := (n.peer src).missing ++ (List.range ((f + 65536 - h) % 65536 - 1)).map fun i => (h + 1 + i) % 65536
      held := (n.peer src).held ++ (l.map fun l => (f, l)).toList }).drain src) := by
  rw [hearFseq, if_neg (by simp [hs, hr])]
  dsimp only
  rw [hh]

variable {h : Nat} (hh : (n.peer src).high = some h)
include hh

theorem hearFseq_again {f : Nat} (hf : (f + 65536 - h) % 65536 = 0 ∨ 32768 ≤ (f + 65536 - h) % 65536) (hm : f ∉ (n.peer src).missing)
    (l : Option RingLoad) : n.hearFseq src f l = none := by
  rw [hearFseq_known hr hs hh, if_pos hf, if_neg (by simpa using hm)]

variable (h16 : h < 65536)
include h16

theorem hearFseq_next {f : Nat} (hf : f = (h + 1) % 65536) (l : Option RingLoad) : n.hearFseq src f l = some ((n.setPeer src { n.peer src with
    high := some f, held := (n.peer src).held ++ (l.map fun l => (f, l)).toList }).drain src) := by
  have hd : (f + 65536 - h) % 65536 = 1 := by omega
  rw [hearFseq_known hr hs hh, if_neg (by omega), hd]
  simp only [Nat.sub_self, List.range_zero, List.map_nil, List.append_nil]

theorem hearFseq_gap {f : Nat} (hf : f = (h + 2) % 65536) (hm : (n.peer src).missing = []) (l : Option RingLoad) :
    n.hearFseq src f l = some ((n.setPeer src { n.peer src with
      high := some f, missing := [(h + 1) % 65536], held := (n.peer src).held ++ (l.map fun l => (f, l)).toList }).drain src) := by
  have hd : (f + 65536 - h) % 65536 = 2 := by omega
  rw [hearFseq_known hr hs hh, if_neg (by omega), hd, hm]
  rfl

theorem hearFseq_missing {q : Nat} (hq : h = (q + 1) % 65536) (hq16 : q < 65536) (hm : (n.peer src).missing = [q]) (l : Option RingLoad) :
    n.hearFseq src q l = some ((n.setPeer src { n.peer src with missing := [], held := (n.peer src).held ++ (l.map fun l => (q, l)).toList }).drain src) := by
  have hd : 32768 ≤ (q + 65536 - h) % 65536 := by omega
  rw [hearFseq_known hr hs hh, if_pos (.inr hd), hm]
  simp

end

/-! The next frame, and the one missing. -/

section
variable {h : Nat} (hr : n.ringHears = true) (hs : src ≠ n.sys.node) (hw : twf {} n.tide.peers = true) (hh : (n.peer src).high = some h) (h16 : h < 65536)
include hr hs hw hh h16

/-- The next frame of a sender of which none is missing is delivered at once. -/
theorem hearOrdered_next {f : Nat} (hf : f = (h + 1) % 65536) (hm : (n.peer src).missing = []) (hd : (n.peer src).held = []) (l : RingLoad) :
    n.hearOrdered src f l = (n.setPeer src { n.peer src with high := some f, missing := [], held := [] }).deliver src l := by
  have hp : ({ n.peer src with high := some f, held := [(f, l)] } : Peer).missing = [] := hm
  rw [hearOrdered, hearFseq_next hr hs hh h16 hf, hd, Option.getD_some]
  refine (drain_all hw hp).trans ?_
  rw [← hm]
  rfl

/-- A frame that only acts as it arrives, next of its sender. -/
theorem hearNow_next {f : Nat} (hf : f = (h + 1) % 65536) (hm : (n.peer src).missing = []) (hd : (n.peer src).held = []) (g : Node → Node) :
    n.hearNow src f g = g (n.setPeer src { n.peer src with high := some f }) := by
  have hn := hearFseq_next hr hs hh h16 hf (none : Option RingLoad)
  have hp : ({ n.peer src with high := some f, held := [] } : Peer).missing = [] := hm
  rw [hd] at hn
  have he : n.hearFseq src f none = some (n.setPeer src { n.peer src with high := some f }) :=
    hn.trans (congrArg some ((drain_all hw hp).trans (by
      change n.setPeer src { n.peer src with high := some f, held := [] } = _
      rw [← hd])))
  simp only [hearNow, he]

end

theorem fseqBefore_next {q h : Nat} (hq : h = (q + 1) % 65536) : fseqBefore q h = true := by
  simp only [fseqBefore, Bool.and_eq_true, bne_iff_ne, decide_eq_true_eq]
  omega

theorem frameLost_none {q : Nat} (h : q ∉ (n.peer src).missing) : n.frameLost src q = n := if_neg (by simpa using h)

/-- A frame no longer waited for passes the one behind it on. -/
theorem frameLost_passes {q : Nat} {x : Nat × RingLoad} (hw : twf {} n.tide.peers = true) (hm : (n.peer src).missing = [q]) (hd : (n.peer src).held = [x]) :
    n.frameLost src q = (n.setPeer src { n.peer src with missing := [], held := [] }).deliver src x.2 := by
  have hf : (n.peer src).missing.filter (· != q) = [] := by rw [hm]; simp
  refine (if_pos (by rw [hm]; simp)).trans ?_
  rw [hf, drain_all hw rfl, hd]
  rfl

section
variable {h q : Nat} {b : RingLoad} (hr : n.ringHears = true) (hs : src ≠ n.sys.node) (hw : twf {} n.tide.peers = true) (hh : (n.peer src).high = some h)
  (h16 : h < 65536) (hm : (n.peer src).missing = [q]) (hd : (n.peer src).held = [(h, b)]) (hq : h = (q + 1) % 65536)
include hr hs hw hh h16 hm hd hq

/-- The missing frame goes first, and then the one that waited behind it. -/
theorem hearOrdered_missing (hq16 : q < 65536) (l : RingLoad) : n.hearOrdered src q l =
    ((n.setPeer src { n.peer src with missing := [], held := [] }).deliver src l).deliver src b := by
  have hkey : heldKey { n.peer src with missing := [], held := [(h, b), (q, l)] } (q, l) <
      heldKey { n.peer src with missing := [], held := [(h, b), (q, l)] } (h, b) := by
    simp only [heldKey, hh, Option.getD_some]
    omega
  have hsort : sortBy (heldKey { n.peer src with missing := [], held := [(h, b), (q, l)] }) [(h, b), (q, l)] = [(q, l), (h, b)] := by
    simp only [sortBy, List.foldl_cons, List.foldl_nil, insertBy]
    exact if_pos hkey
  rw [hearOrdered, hearFseq_missing hr hs hh h16 hq hq16 hm, hd, Option.getD_some]
  refine (drain_all hw rfl).trans ?_
  exact (congrArg (List.foldl _ _) hsort).trans rfl

/-- A frame that names the missing one as lost passes the one behind it on. -/
theorem hearNow_frameLost {f : Nat} (hf : f = (h + 1) % 65536) : (n.hearNow src f fun n => n.frameLost src q) =
    (n.setPeer src { n.peer src with high := some f, missing := [], held := [] }).deliver src b := by
  have hn := hearFseq_next hr hs hh h16 hf (none : Option RingLoad)
  have hp : ({ n.peer src with high := some f, held := (n.peer src).held ++ ((none : Option RingLoad).map fun l => (f, l)).toList } : Peer) =
      { n.peer src with high := some f } := congrArg (fun x => ({ n.peer src with high := some f, held := x } : Peer)) (List.append_nil _)
  rw [hp] at hn
  have hwait : (n.setPeer src { n.peer src with high := some f }).drain src = n.setPeer src { n.peer src with high := some f } :=
    drain_waits hw hm hd (fseqBefore_next hq)
  rw [hwait] at hn
  simp only [hearNow, hn]
  have hpeer := peer_setPeer hw src { n.peer src with high := some f }
  rw [frameLost_passes (twf_setPeer hw _ _) (by rw [hpeer]; exact hm) (by rw [hpeer]; exact hd), hpeer, setPeer_setPeer hw]

end

/-! A record of the own space at a member without duty. -/

/-- The record in the RAM ring, and the numbers that count from it. -/
def recordPushed (n : Node) (r : Record) : Node := (n.pushRam r false).mJrnl fun j => { j with last := max j.last r.seq }

theorem recordPushed_jrnl (r : Record) : ∃ l f x g, (n.recordPushed r).jrnl = { n.jrnl with
    ram := l ++ [⟨r, false⟩], flags := f, lost := x, gaps := g, last := max n.jrnl.last r.seq } := ⟨_, _, _, _, rfl⟩

/-- What a record of the own space does beside the journal. -/
def recordNoted (n : Node) (r : Record) : Node :=
  let n := if r.type = 0x40 then n.mPair fun q => { q with fo := r.seq } else n
  let n := if r.type = 0x10 ∧ r.old = 2 then n.mSec fun s => { s with act := none, notice := none, confirmDue := false } else n
  if r.type = 0x41 ∧ n.partner = some r.node then n.partnerDemoted else n

theorem ownSpaceRecord_eq (r : Record) : n.ownSpaceRecord r = (n.recordPushed r).recordNoted r := rfl

theorem recordNoted_within (r : Record) : Within [.sec, .tide, .pair] n (n.recordNoted r) := by
  unfold recordNoted
  exact .iteThen (.iteThen (.iteThen .rfl (.mPair .rfl)) (.mSec .rfl)) (.partnerDemoted .rfl)

/-- A record heard of the own space: the newest of the RAM ring, and the last number. -/
theorem hearRecord_own {r : Record} (hs : r.space = n.space) (hp : n.paired = true) (hr : n.pair.role ≠ 4) :
    ∃ l f x g t, (n.hearRecord r).jrnl = { n.jrnl with
      ram := l ++ [⟨r, false⟩], flags := f, lost := x, gaps := g, last := max n.jrnl.last r.seq, heard := t } := by
  unfold hearRecord
  dsimp only
  have hk : Within [.jrnl, .tide] n ((n.noteIssuer r).mJrnl fun j => { j with heard := tset 0 j.heard r.space (max (tget 0 j.heard r.space) r.seq) }) :=
    .mJrnl (.noteIssuer .rfl)
  have hj : ((n.noteIssuer r).mJrnl fun j => { j with heard := tset 0 j.heard r.space (max (tget 0 j.heard r.space) r.seq) }).jrnl =
      { n.jrnl with heard := tset 0 n.jrnl.heard r.space (max (tget 0 n.jrnl.heard r.space) r.seq) } := by
    have hi : (n.noteIssuer r).jrnl = n.jrnl := (Within.noteIssuer .rfl : Within [.tide] n _).part .jrnl
    rw [← hi]
    rfl
  generalize Node.mJrnl (n.noteIssuer r) _ = k at *
  have hsame : k.space = n.space ∧ k.paired = n.paired ∧ k.pair.role = n.pair.role := by
    have hc : k.partner = n.partner := partner_of (hk.part .img) (hk.part .sys)
    unfold space paired
    rw [hc, hk.part .sys, hk.part .pair]
    exact ⟨rfl, rfl, rfl⟩
  rw [if_pos ⟨by rw [hsame.1]; exact hs, by rw [hsame.2.1]; exact hp, by rw [hsame.2.2]; exact hr⟩, ownSpaceRecord_eq,
    (recordNoted_within r).part .jrnl]
  obtain ⟨l, f, x, g, h⟩ := recordPushed_jrnl (n := k) r
  exact ⟨l, f, x, g, _, by rw [h, hj]⟩

/-- One record of the own space at a member without duty: in the RAM ring last, not yet in flash unless records are written through. -/
theorem hearRecords_own {r : Record} (hs : r.space = n.space) (hp : n.paired = true) (hr : n.pair.role ≠ 4) (hv : n.recordVoid r = false) :
    (∃ x, (n.hearRecords [r]).jrnl.ram.getLast? = some x ∧ x.item = r ∧ (n.jrnl.writeThrough = false → x.flashed = false)) ∧
      (n.hearRecords [r]).jrnl.last = max n.jrnl.last r.seq := by
  have hown : (!(r.space == n.space && n.ownDuty) && !n.recordVoid r) = true := by simp [ownDuty, hp, hr, hv]
  have he : n.hearRecords [r] = ((n.hearRecord r).extTake [r]).writeThrough := by
    have hf : [r].filter (fun r => !(r.space == n.space && n.ownDuty) && !n.recordVoid r) = [r] := by simp only [List.filter_cons, hown, if_true, List.filter_nil]
    unfold hearRecords
    dsimp only
    rw [hf]
    rfl
  obtain ⟨l, f, x, g, t, hj⟩ := hearRecord_own hs hp hr
  have hx : ((n.hearRecord r).extTake [r]).jrnl = (n.hearRecord r).jrnl := (Within.extTake .rfl : Within [.ext, .free] _ _).part .jrnl
  rw [← hx] at hj
  rw [he]
  generalize (n.hearRecord r).extTake [r] = k at *
  obtain ⟨m, hm, hmap⟩ := writeThrough_marked (n := k)
  refine ⟨?_, by rw [hm, hj]⟩
  rw [hj, List.map_append, List.map_singleton] at hmap
  have hlast : (m.map (·.item)).getLast? = some r := by rw [hmap, List.getLast?_concat]
  rw [List.getLast?_map] at hlast
  obtain ⟨y, hy, hyr⟩ := Option.map_eq_some_iff.1 hlast
  refine ⟨y, by rw [hm]; exact hy, hyr, fun hw => ?_⟩
  have hsame : k.writeThrough = k := if_neg (by
    rw [hj, hw]
    simp)
  rw [hsame, hj] at hm
  have hl : m = l ++ [⟨r, false⟩] := (congrArg Jrnl.ram hm :).symm
  rw [hl, List.getLast?_concat] at hy
  cases hy
  rfl

end Sys2Proof.Machine.Node

open Sys2Proof Sys2Proof.Machine Sys2Proof.Machine.Node

/-- Settles O48: a sender's fields set twice are as set once, so what each frame does is what the frames held ready do. -/
theorem framesInOrder : Obligations.FramesInOrder := by
  unfold Obligations.FramesInOrder
  intro s src f q h recs behind load n p heard clean known nextOne waits at'
  have hhigh : ∀ h, p.high = some h → s.node.setPeer src.val { s.node.peer src.val with missing := [], held := [] } = at' h := fun h hp =>
    congrArg (fun x => s.node.setPeer src.val { s.node.peer src.val with high := x, missing := [], held := [] }) hp
  refine ⟨fun hx => ?_, fun hn hc => ?_, fun hh hc hp hf => ?_, fun hh hw => ?_, fun hn hw => ?_, fun hx => ?_, fun hh hi hw => ?_,
    fun r hn hc hpair hrole hs hv => ?_, fun lanes b hn hc hi => ?_⟩
  · have hnone : ∀ l, s.node.hearFseq src.val f.toNat l = none := fun l => by
      by_cases hd : n.ringHears = false ∨ src.val = n.sys.node
      · exact hearFseq_deaf hd _ _
      · rw [not_or] at hd
        obtain ⟨hh, hf, hm⟩ := (hx.resolve_left hd.1).resolve_left hd.2
        exact hearFseq_again (by simpa using hd.1) hd.2 hh hf hm l
    have hord : ∀ l, s.node.hearOrdered src.val f.toNat l = s.node := fun l => by rw [hearOrdered, hnone]; rfl
    have hnow : ∀ g, s.node.hearNow src.val f.toNat g = s.node := fun g => by simp only [hearNow, hnone]
    exact ⟨.of_run (fun n => n.hearOrdered src.val f.toNat (.records recs)) rfl (hord _), .of_run (fun n => n.hearOrdered src.val f.toNat (.command load)) rfl (hord _),
      .of_run (fun n => n.hearNow src.val f.toNat fun n => n.frameLost src.val q.toNat) rfl (hnow _),
      fun x y => .of_run (fun n => n.spliceIn src.val f.toNat x.toNat y.toNat) rfl (hnow _), fun rp t x y => .of_run (fun n => n.timeIn src.val f.toNat rp t x y) rfl (hnow _)⟩
  · obtain ⟨⟨hr, hsrc, hwf, h16⟩, hp, hf⟩ := hn
    exact ⟨.of_run (fun n => n.hearOrdered src.val f.toNat (.records recs)) rfl (hearOrdered_next hr hsrc hwf hp h16 hf hc.1 hc.2 _),
      .of_run (fun n => n.hearOrdered src.val f.toNat (.command load)) rfl (hearOrdered_next hr hsrc hwf hp h16 hf hc.1 hc.2 _)⟩
  · obtain ⟨hr, hsrc, hwf, h16⟩ := hh
    refine .of_run (fun n => n.hearOrdered src.val f.toNat (.records recs)) rfl ?_
    rw [hearOrdered, hearFseq_gap hr hsrc hp h16 hf hc.1, Option.getD_some, show (s.node.peer src.val).held = [] from hc.2]
    exact drain_waits hwf rfl rfl (fseqBefore_next (by omega))
  · obtain ⟨hr, hsrc, hwf, h16⟩ := hh
    obtain ⟨hp, hm, hd, hq⟩ := hw
    have hq16 : q.toNat < 65536 := q.isLt
    refine .of_run (fun n => n.hearOrdered src.val q.toNat (.records recs)) rfl ?_
    refine (hearOrdered_missing hr hsrc hwf hp h16 hm hd hq hq16 _).trans ?_
    rw [hhigh h hp]
    rfl
  · obtain ⟨⟨hr, hsrc, hwf, h16⟩, hp, hf⟩ := hn
    obtain ⟨-, hm, hd, hq⟩ := hw
    exact .of_run (fun n => n.hearNow src.val f.toNat fun n => n.frameLost src.val q.toNat) rfl (hearNow_frameLost hr hsrc hwf hp h16 hm hd hq hf)
  · refine .of_run (fun n => if n.inserted then n else n.frameLost src.val f.toNat) rfl ?_
    by_cases hi : s.node.inserted = true
    · exact if_pos hi
    · exact (if_neg hi).trans (frameLost_none (hx.resolve_left fun h => hi (beq_iff_eq.2 h)))
  · obtain ⟨hr, hsrc, hwf, h16⟩ := hh
    obtain ⟨hp, hm, hd, hq⟩ := hw
    refine .of_run (fun n => if n.inserted then n else n.frameLost src.val q.toNat) rfl ((if_neg fun h => hi (beq_iff_eq.1 h)).trans ?_)
    refine (frameLost_passes hwf hm hd).trans ?_
    rw [hhigh h hp]
    rfl
  · obtain ⟨⟨hr, hsrc, hwf, h16⟩, hp, hf⟩ := hn
    refine .of_run (fun n => n.hearOrdered src.val f.toNat (.records [r])) rfl ?_
    rw [hearOrdered_next hr hsrc hwf hp h16 hf hc.1 hc.2]
    have hrec := hearRecords_own (n := at' f.toNat) (r := r) hs hpair hrole hv
    have hk : Within [.jrnl, .tide, .pair, .ext, .stor, .sec, .free] s.node ((at' f.toNat).hearRecords [r]) := .hearRecords (.setPeer .rfl)
    exact ⟨hrec.1, hrec.2, hk.part .fab, hk.part .call⟩
  · obtain ⟨⟨hr, hsrc, hwf, h16⟩, hp, hf⟩ := hn
    refine .of_run (fun n => n.hearOrdered src.val f.toNat (.command (.laneSync lanes b))) rfl ?_
    rw [hearOrdered_next hr hsrc hwf hp h16 hf hc.1 hc.2]
    have hin : (at' f.toNat).inserted = true := beq_iff_eq.2 hi
    exact if_neg (show ¬ (!(at' f.toNat).inserted) = true by simp [hin])

end

section
/-! STATUS, TIME and SPLICE as heard, and frames that return (15 R460, R464 to R466, R469, R477, 05 Table 5.2). -/

namespace Sys2Proof.Machine.Node

variable {n m : Node} {src : Nat}

/-! What a STATUS leaves of the ring. -/

/-- Of the ring a frame to send and the reference have changed at most. -/
def Reported (n m : Node) : Prop := ∃ x r, m.tide = { n.tide with tx := x, refNode := r }

theorem Reported.of_tide (h : m.tide = n.tide) : Reported n m := ⟨_, _, h⟩

theorem Reported.trans {k : Node} (h : Reported n m) (g : Reported m k) : Reported n k := by
  obtain ⟨_, _, h⟩ := h
  obtain ⟨x, r, g⟩ := g
  exact ⟨x, r, by rw [g, h]⟩

theorem Reported.frame (h : Within (Part.allBut [.tide]) n m) : Reported n m := .of_tide (h.part .tide)

theorem Reported.ite {c : Prop} [Decidable c] {a b : Node} (ha : Reported n a) (hb : Reported n b) : Reported n (if c then a else b) := by
  split <;> assumption

theorem Reported.foldl {β : Type} {f : Node → β → Node} (h : ∀ n x, Reported n (f n x)) (l : List β) (n : Node) : Reported n (l.foldl f n) := by
  induction l generalizing n with
  | nil => exact .of_tide rfl
  | cons x l ih => exact (h n x).trans (ih _)

theorem Noted.reported (h : Noted n m) : Reported n m := by
  obtain ⟨l, hl⟩ := h.tide
  exact ⟨_, _, hl⟩

theorem sendFrame_reported (d : BitVec 16) (l : RingLoad) : Reported n (n.sendFrame d l) := ⟨_, _, rfl⟩

theorem chooseRef_reported : Reported n n.chooseRef := by
  unfold chooseRef
  split
  · exact .trans (.frame (.mRtc .rfl)) settleTrust_noted.reported
  next k _ =>
    dsimp only
    generalize hk : Node.mRtc _ _ = j
    have h : Reported n j := by
      rw [← hk]
      exact ⟨_, _, rfl⟩
    exact h.trans settleTrust_noted.reported

theorem queryStart_reported (c : Nat) : Reported n (n.queryStart c) := by
  unfold queryStart
  dsimp only
  refine .ite (.of_tide rfl) ?_
  generalize hk : Node.mPair n _ = k
  have h : Reported n k := by
    rw [← hk]
    exact .of_tide rfl
  exact (h.trans (sendFrame_reported _ _)).trans (.frame (.queryCheck .rfl))

theorem roleMoves_reported : Reported n n.roleMoves := by
  unfold roleMoves
  refine .ite (.of_tide rfl) ?_
  split
  · exact .ite (.of_tide rfl) (.ite (.frame (.mPair (.setRole .rfl))) (.ite (queryStart_reported 0) (.of_tide rfl)))
  · exact .ite (.frame (.pairFlag (.setRole .rfl))) (.ite (queryStart_reported 1) (.of_tide rfl))
  · exact .ite (.frame (.pairFlag (.setRole .rfl))) (.ite (queryStart_reported 1) (.of_tide rfl))
  · exact .ite (.frame (.setRole .rfl)) (.of_tide rfl)
  · exact .ite (queryStart_reported 1) (.ite (.frame (.mPair (.setRole .rfl))) (.of_tide rfl))
  · exact .of_tide rfl

theorem sendNotices_reported : Reported n n.sendNotices := by
  unfold sendNotices
  split
  · split
    · exact .of_tide rfl
    · exact .trans (.frame (.mPair .rfl)) (.foldl (fun n _ => sendFrame_reported _ _) _ _)
  · exact .of_tide rfl

/-- A STATUS taken for its sender. -/
def statusTaken (n : Node) (src : Nat) (x : StatusFrame) : Node :=
  ((n.setPeer src { n.peer src with status := some x }).chooseRef.roleMoves).sendNotices

theorem statusTaken_tide (x : StatusFrame) : ∃ t r, (n.statusTaken src x).tide = { n.tide with
    peers := tset {} n.tide.peers src { n.peer src with status := some x }, tx := t, refNode := r } := by
  obtain ⟨t, r, h⟩ := (chooseRef_reported.trans roleMoves_reported).trans sendNotices_reported (n := n.setPeer src { n.peer src with status := some x })
  exact ⟨t, r, h⟩

theorem statusIn_own (hs : src = n.sys.node) (f : Nat) (x : StatusFrame) : n.statusIn src f x =
    if n.ringOn && (n.tide.st == .listen || n.tide.st == .request) then n.refuseRing else n := if_pos hs

theorem statusIn_refused (hs : src = n.sys.node) (hr : n.ringOn = true) (hl : n.tide.st = .listen ∨ n.tide.st = .request) (f : Nat) (x : StatusFrame) :
    n.statusIn src f x = n.refuseRing := by
  rw [statusIn_own hs, if_pos (by rcases hl with hl | hl <;> simp [hr, hl])]

theorem statusIn_idle (hs : src = n.sys.node) (h : n.ringOn = false ∨ ¬ (n.tide.st = .listen ∨ n.tide.st = .request)) (f : Nat) (x : StatusFrame) :
    n.statusIn src f x = n := by
  rw [statusIn_own hs]
  refine if_neg fun hc => ?_
  simp only [Bool.and_eq_true, Bool.or_eq_true, beq_iff_eq] at hc
  rcases h with h | h
  · simp [h] at hc
  · exact h hc.2

theorem statusIn_other (hs : src ≠ n.sys.node) (f : Nat) (x : StatusFrame) : n.statusIn src f x = n.hearNow src f fun n => n.statusTaken src x := if_neg hs

/-! TIME of the reference. -/

theorem reachTracking_noted : Noted n n.reachTracking := by
  unfold reachTracking
  dsimp only
  exact .trans (.ite (.frame (.mRtc .rfl)) .rfl) settleTrust_noted

theorem correct_noted (d : Int) : Noted n (n.correct d) := by
  unfold correct
  dsimp only
  refine .trans (.frame ?_) reachTracking_noted
  exact .ite (.retime .rfl) (.ite (.retime .rfl) (.ite (.retime .rfl) (.ite (.retime .rfl) (.mRtc (.retime .rfl)))))

/-- The offset measured against TIME. -/
def timeMeasured (n : Node) (d : Int) (f : TimeFrame) : Node :=
  n.mRtc fun r => { r with offset := d, tracked := true, leapPend := if f.leapCnt = r.leap then r.leapPend else some f.leapCnt }

theorem timeFrom_eq (d : Int) (f : TimeFrame) : n.timeFrom d f =
    if f.stepPending && n.rtc.stepPend.isNone && decide (0 < f.step) then
      ((n.timeMeasured d f).retime fun r => { r with stepPend := some (f.step, epochAfter r.now 1), slewRem := 0, slewing := 0 }).settleTrust
    else if n.rtc.stepPend.isSome then n.timeMeasured d f
    else if -10 ≤ d ∧ d ≤ 10 then ((n.timeMeasured d f).correct d).retrim
    else (n.timeMeasured d f).correct d := rfl

theorem timeFrom_noted (d : Int) (f : TimeFrame) : Noted n (n.timeFrom d f) := by
  have h : Noted n (n.timeMeasured d f) := .frame (.mRtc .rfl)
  rw [timeFrom_eq]
  exact .ite ((h.trans (.frame (.retime .rfl))).trans settleTrust_noted)
    (.ite h (.ite ((h.trans (correct_noted d)).trans (.frame (.retrim .rfl))) (h.trans (correct_noted d))))

/-- What a measure leaves of the RTC, whatever it begins. -/
def Measured (n : Node) (d : Int) (f : TimeFrame) (m : Node) : Prop :=
  m.rtc.offset = d ∧ m.rtc.tracked = true ∧ m.rtc.now = n.rtc.now ∧ m.rtc.leapPend = if f.leapCnt = n.rtc.leap then n.rtc.leapPend else some f.leapCnt

theorem correct_measured (d : Int) (f : TimeFrame) : Measured n d f ((n.timeMeasured d f).correct d) := by
  obtain ⟨k, rem, sp, ⟨t, o, x, -, h⟩, -⟩ := correct_corrected (n := n.timeMeasured d f) d
  refine ⟨?_, ?_, ?_, ?_⟩ <;> (rw [h]; rfl)

theorem retrim_rtc : ∃ t, n.retrim.rtc = { n.rtc with trim := t } := ⟨_, rfl⟩

theorem timeFrom_measured (d : Int) (f : TimeFrame) : Measured n d f (n.timeFrom d f) := by
  rw [timeFrom_eq]
  split
  · obtain ⟨t, h⟩ := settleTrust_rtc (n := (n.timeMeasured d f).retime fun r => { r with stepPend := some (f.step, epochAfter r.now 1), slewRem := 0, slewing := 0 })
    refine ⟨?_, ?_, ?_, ?_⟩ <;> (rw [h]; rfl)
  · split
    · exact ⟨rfl, rfl, rfl, rfl⟩
    · split
      · obtain ⟨t, h⟩ := retrim_rtc (n := (n.timeMeasured d f).correct d)
        obtain ⟨c1, c2, c3, c4⟩ := correct_measured (n := n) d f
        refine ⟨?_, ?_, ?_, ?_⟩ <;> (rw [h]; assumption)
      · exact correct_measured d f

section
variable {d : Int} {f : TimeFrame} (hp : n.rtc.stepPend = none)
include hp

/-- A step that TIME announces waits for the next epoch boundary. -/
theorem timeFrom_step (hs : f.stepPending = true) (h0 : 0 < f.step) : ∃ t, (n.timeFrom d f).rtc.stepPend = some (f.step, t) := by
  rw [timeFrom_eq, if_pos (by simp [hs, hp, h0])]
  obtain ⟨t, h⟩ := settleTrust_rtc (n := (n.timeMeasured d f).retime fun r => { r with stepPend := some (f.step, epochAfter r.now 1), slewRem := 0, slewing := 0 })
  exact ⟨_, by rw [h]; rfl⟩

variable (hs : f.stepPending = false)
include hs

theorem timeFrom_tracked (h1 : -10 ≤ d) (h2 : d ≤ 10) : (n.timeFrom d f).rtc.slewing = 0 ∧ (n.timeFrom d f).rtc.slewRem = 0 := by
  rw [timeFrom_eq, if_neg (by simp [hs]), if_neg (by simp [hp]), if_pos ⟨h1, h2⟩]
  obtain ⟨t, h⟩ := retrim_rtc (n := (n.timeMeasured d f).correct d)
  obtain ⟨k, rem, sp, ⟨t, o, x, -, hc⟩, hcase, -⟩ := correct_corrected (n := n.timeMeasured d f) d
  obtain ⟨hk, hrem, -⟩ := hcase h1 h2
  rw [h, hc]
  exact ⟨hk, hrem⟩

theorem timeFrom_slewed (h1 : 10 < d) (h2 : d ≤ 1000) : (n.timeFrom d f).rtc.slewing = 1 ∧ (n.timeFrom d f).rtc.slewRem = d := by
  rw [timeFrom_eq, if_neg (by simp [hs]), if_neg (by simp [hp]), if_neg (by omega)]
  obtain ⟨k, rem, sp, ⟨t, o, x, -, hc⟩, -, hcase, -⟩ := correct_corrected (n := n.timeMeasured d f) d
  obtain ⟨hk, hrem, -⟩ := hcase (by omega) h2 (.inr h1)
  rw [hc]
  exact ⟨hk, hrem⟩

end

/-- TIME of the reference, taken. -/
def timeTaken (n : Node) (d : Int) (f : TimeFrame) : Node :=
  let n := (n.mTide fun t => { t with noTime := 0 }).timeFrom d f
  if n.tide.st == .request && (decide (d < -10) || decide (10 < d)) then
    n.mTide fun t => { t with st := .listen, insertReq := false }
  else n

/-- The offset that a TIME frame shows, in µs to the nearest. -/
def timeOffset (n : Node) (p : RingPort) (f : TimeFrame) (rx rxNs : Nat) : Int :=
  ((((f.tx : Int) - rx) * 1000 + f.txNs - rxNs + f.corr + (n.link p).delay * 10) + 500) / 1000

theorem timeIn_eq (src f : Nat) (p : RingPort) (x : TimeFrame) (a b : Nat) : n.timeIn src f p x a b =
    n.hearNow src f fun n => if src ≠ n.tide.refNode ∨ n.rtc.reference then n else n.timeTaken (n.timeOffset p x a b) x := rfl

theorem timeTaken_rtc (d : Int) (f : TimeFrame) : (n.timeTaken d f).rtc = ((n.mTide fun t => { t with noTime := 0 }).timeFrom d f).rtc := by
  unfold timeTaken
  dsimp only
  split <;> rfl

theorem timeTaken_tide (d : Int) (f : TimeFrame) : (n.timeTaken d f).tide.noTime = 0 ∧ (n.tide.st = .request → 10 < d → (n.timeTaken d f).tide.st = .listen) := by
  obtain ⟨l, hl⟩ := (timeFrom_noted (n := n.mTide fun t => { t with noTime := 0 }) d f).tide
  unfold timeTaken
  dsimp only
  generalize Node.timeFrom _ d f = k at *
  refine ⟨?_, fun hs hd => ?_⟩
  · split
    · change k.tide.noTime = 0
      rw [hl]
      rfl
    · rw [hl]
      rfl
  · have hst : k.tide.st = .request := by
      rw [hl]
      exact hs
    rw [if_pos (by simp [hst, hd])]
    rfl

theorem timeTaken_within (d : Int) (f : TimeFrame) : Within [.tide, .rtc, .jrnl, .pair, .free] n (n.timeTaken d f) := by
  have h : Within [.tide, .rtc, .jrnl, .pair, .free] n ((n.mTide fun t => { t with noTime := 0 }).timeFrom d f) := .timeFrom (.mTide .rfl)
  exact .iteThen h (.mTide .rfl)

/-! SPLICE. -/

/-- SPLICE heard. -/
def spliceTaken (n : Node) (facing joining : Nat) : Node :=
  let n := n.mTide fun t => { t with spliceFor := some joining }
  let at' (p : RingPort) : Bool := n.wrapped p && (n.link p).up && (n.link p).neighbour == facing
  if !n.inserted then n
  else if at' .ta then n.unwrapPort .ta
  else if at' .tb then n.unwrapPort .tb
  else n

theorem spliceIn_eq (src f x y : Nat) : n.spliceIn src f x y = n.hearNow src f fun n => n.spliceTaken (if y = 0xFF then x else y) y := rfl

theorem spliceTaken_outside (hi : n.tide.st ≠ .inserted) (x y : Nat) : n.spliceTaken x y = n.mTide fun t => { t with spliceFor := some y } := by
  have h : n.inserted = false := by simpa [inserted] using hi
  exact if_pos (show (!n.inserted) = true by simp [h])

theorem spliceTaken_unwraps (hi : n.tide.st = .inserted) (hw : n.tide.wrapA = true) (hu : n.tide.ta.up = true) {x : Nat} (hx : n.tide.ta.neighbour = x)
    (y : Nat) : n.spliceTaken x y = (n.mTide fun t => { t with spliceFor := some y }).unwrapPort .ta := by
  generalize hk : (n.mTide fun t => { t with spliceFor := some y }) = k
  have h : k.inserted = true ∧ k.wrapped .ta = true ∧ (k.link .ta).up = true ∧ (k.link .ta).neighbour = x := by
    rw [← hk]
    exact ⟨beq_iff_eq.2 hi, hw, hu, hx⟩
  unfold spliceTaken
  rw [hk]
  dsimp only
  rw [if_neg (by simp [h.1]), if_pos (by simp [h.2])]

theorem unwrapPort_ta (hw : n.tide.wrapA = true) : ∃ l, (n.unwrapPort .ta).tide = { n.tide with wrapA := false, tx := l } := by
  unfold unwrapPort
  rw [if_pos (show n.wrapped .ta = true from hw)]
  obtain ⟨l, hl⟩ := (ringEvent_noted (n := n.setWrap .ta false) (portCode .ta) 4 (n.link .ta).neighbour).tide
  exact ⟨_, hl⟩

/-! Frames that return. -/

theorem ringEvent_waits (a b c : Nat) : RecordWaits n (n.ringEvent a b c) := .ite (later_waits _) (.of_jrnl rfl)

theorem pump_idle (h : n.tide.hold = none) : n.pump = n := if_neg (by simp [h])

/-- A frame back, and no longer waited for. -/
def frameTaken (n : Node) (f : Nat) : Node := n.mTide fun t => { t with sent := t.sent.filter (·.fseq != f) }

theorem frameBack_none {f : Nat} (h : n.tide.sent.find? (·.fseq == f) = none) (c : BitVec 16) : n.frameBack f c = n := by simp only [frameBack, h]

/-- The load of a frame that goes again: TIME is measured anew. -/
def loadAgain (n : Node) (l : RingLoad) : RingLoad :=
  match l with
  | .time x => RingLoad.time { x with tx := n.now }
  | l => l

theorem loadAgain_other {l : RingLoad} (h : ∀ t, l ≠ .time t) : n.loadAgain l = l := by
  cases l with
  | time t => exact absurd rfl (h t)
  | _ => rfl

/-- A frame lost for good. -/
def frameGone (n : Node) (x : RingFrame) : Node :=
  ((((n.mTide fun t => { t with lost := satInc 0xFFFF t.lost }).tideFlag 3).loseLoad x.load).ringEvent 0 10 0).sendFrame allNodes (.drop x.fseq)

theorem loseLoad_within (l : RingLoad) : Within [.jrnl] n (n.loseLoad l) := .loseLoad .rfl

/-- A frame lost: the ring but for what it counts and sends, and the records lost with it named in GAPs. -/
theorem frameGone_tide (x : RingFrame) : ∃ l, (n.frameGone x).tide = { n.tide with
    lost := satInc 0xFFFF n.tide.lost, flags := setBit n.tide.flags 3, tx := l ++ [⟨0, 0, allNodes, .drop x.fseq⟩] } := by
  unfold frameGone
  have h1 := (loseLoad_within (n := (n.mTide fun t => { t with lost := satInc 0xFFFF t.lost }).tideFlag 3) x.load).part .tide
  generalize Node.loseLoad _ _ = k at *
  obtain ⟨l, hl⟩ := (ringEvent_noted (n := k) 0 10 0).tide
  generalize k.ringEvent 0 10 0 = u at *
  refine ⟨u.tide.tx, ?_⟩
  have hs : (u.sendFrame allNodes (.drop x.fseq)).tide = { u.tide with tx := u.tide.tx ++ [⟨0, 0, allNodes, .drop x.fseq⟩] } := rfl
  rw [hs, hl, h1]
  rfl

section
variable {f : Nat} {x : RingFrame} (hx : n.tide.sent.find? (·.fseq == f) = some x) {c : BitVec 16}
include hx

theorem frameBack_eq : n.frameBack f c =
    if n.required x &&& ~~~c = 0 then n.frameTaken f
    else if x.retry < 3 then
      ((n.frameTaken f).mTide fun t => { t with
        tx := { x with retry := x.retry + 1, load := (n.frameTaken f).loadAgain x.load } :: t.tx
        retx := satInc 0xFFFF t.retx }).pump
    else ((n.frameTaken f).frameGone x).pump := by
  simp only [frameBack, hx]
  rfl

theorem frameBack_done (h : n.required x &&& ~~~c = 0) : n.frameBack f c = n.frameTaken f := by rw [frameBack_eq hx, if_pos h]

variable (h : n.required x &&& ~~~c ≠ 0) (hh : n.tide.hold = none)
include h hh

theorem frameBack_again (hr : x.retry < 3) : n.frameBack f c = (n.frameTaken f).mTide fun t => { t with
    tx := { x with retry := x.retry + 1, load := (n.frameTaken f).loadAgain x.load } :: t.tx
    retx := satInc 0xFFFF t.retx } := by
  rw [frameBack_eq hx, if_neg h, if_pos hr]
  exact pump_idle hh

theorem frameBack_lost (hr : 3 ≤ x.retry) : n.frameBack f c = (n.frameTaken f).frameGone x := by
  rw [frameBack_eq hx, if_neg h, if_neg (by omega)]
  obtain ⟨l, hl⟩ := frameGone_tide (n := n.frameTaken f) x
  exact pump_idle (by rw [hl]; exact hh)

end

theorem loseLoad_one {r : Record} (hi : n.issuer = true) (hg : n.jrnl.gaps = []) : (n.loseLoad (.records [r])).jrnl.gaps = [⟨3, r.seq, 1⟩] := by
  have h : n.loseLoad (.records [r]) = n.laterGap ⟨3, r.seq, 1⟩ := if_pos hi
  rw [h]
  change addGap _ n.jrnl.gaps = _
  rw [hg]
  rfl

theorem frameGone_gaps {x : RingFrame} {l : List Record} (hx : x.load = .records l) (hi : n.issuer = true) (hg : n.jrnl.gaps = []) (hl : l.length = 1) :
    (n.frameGone x).jrnl.gaps = l.map fun r => ⟨3, r.seq, 1⟩ := by
  obtain ⟨r, rfl⟩ := List.length_eq_one_iff.1 hl
  unfold frameGone
  rw [hx]
  have h1 := loseLoad_one (n := (n.mTide fun t => { t with lost := satInc 0xFFFF t.lost }).tideFlag 3) (r := r) hi hg
  generalize Node.loseLoad _ _ = k at *
  obtain ⟨d, y, hw⟩ := ringEvent_waits (n := k) 0 10 0
  change (k.ringEvent 0 10 0).jrnl.gaps = _
  rw [hw]
  exact h1

theorem frameGone_within (x : RingFrame) : Within [.tide, .jrnl, .pair] n (n.frameGone x) := .sendFrame (.ringEvent (.loseLoad (.tideFlag (.mTide .rfl))))

end Sys2Proof.Machine.Node

open Sys2Proof Sys2Proof.Machine Sys2Proof.Machine.Node

/-- Settles O49: each frame is next of its sender, and what it begins leaves the ring but for what is said. -/
theorem reportsAndReturns : Obligations.ReportsAndReturns := by
  unfold Obligations.ReportsAndReturns
  refine ⟨?_, ?_⟩
  · intro s src f h n p nextOne now
    have hnext : nextOne → ∀ g : Node → Node, n.hearNow src.val f.toNat g = g now := fun hn g => by
      obtain ⟨hr, hs, hw, h16, hh, hf, hm, hd⟩ := hn
      exact hearNow_next hr hs hw hh h16 hf hm hd g
    refine ⟨fun x hn => ?_, fun x hs hr hl => ?_, fun x hs hx => ?_, fun rp x a b hn hx => ?_, fun rp x a b hn hs hr => ?_, fun x y hn hi => ?_,
      fun x y hn hi hw hu hx => ?_⟩
    · have hw : twf {} n.tide.peers = true := hn.2.2.1
      refine .of_run (fun n => n.statusIn src.val f.toNat x) rfl ?_
      rw [statusIn_other hn.2.1, show s.node.hearNow src.val f.toNat _ = _ from hnext hn _]
      have hp : now.peer src.val = { p with high := some f.toNat } := peer_setPeer hw _ _
      obtain ⟨t, r, ht⟩ := statusTaken_tide (n := now) (src := src.val) x
      have hpeer : (now.statusTaken src.val x).peer src.val = { now.peer src.val with status := some x } := by
        unfold peer
        rw [ht]
        exact tget_tset_same (twf_setPeer hw _ _) _ _
      refine ⟨by rw [hpeer], by rw [hpeer, hp], ?_, ?_⟩
      · rw [ht]
        rfl
      · rw [ht]
        rfl
    · have hl' : n.tide.st = .listen ∨ n.tide.st = .request := by simpa using hl
      refine .of_run (fun n => n.statusIn src.val f.toNat x) rfl ?_
      rw [statusIn_refused hs hr hl']
      obtain ⟨l, ht⟩ := refuseRing_tide (n := s.node)
      refine ⟨by rw [ht], ?_, (Within.refuseRing .rfl).keeps⟩
      rw [ht]
      exact bit_setBit_same n.tide.flags (by decide)
    · exact .of_run (fun n => n.statusIn src.val f.toNat x) rfl (statusIn_idle hs (hx.imp id fun h hl => h (by simpa using hl)) _ _)
    · refine .of_run (fun n => n.timeIn src.val f.toNat rp x a b) rfl ?_
      rw [timeIn_eq, show s.node.hearNow src.val f.toNat _ = _ from hnext hn _]
      exact if_pos hx
    · intro ns d
      refine .of_run (fun n => n.timeIn src.val f.toNat rp x a b) rfl ?_
      rw [timeIn_eq, show s.node.hearNow src.val f.toNat _ = _ from hnext hn _]
      have hd : now.timeOffset rp x a b = d := by cases rp <;> rfl
      have hk : Within [.tide, .rtc, .jrnl, .pair, .free] n (now.timeTaken d x) := (timeTaken_within d x).after (.setPeer .rfl) (by decide)
      rw [if_neg (show ¬ (src.val ≠ now.tide.refNode ∨ now.rtc.reference = true) by
        rintro (h | h)
        · exact h hs
        · rw [show now.rtc.reference = false from hr] at h
          cases h), hd]
      obtain ⟨t1, t2⟩ := timeTaken_tide (n := now) d x
      obtain ⟨m1, m2, m3, m4⟩ := timeFrom_measured (n := now.mTide fun t => { t with noTime := 0 }) d x
      have hrtc := timeTaken_rtc (n := now) d x
      rw [hrtc]
      refine ⟨t1, m1, m2, m3, fun hl => ?_, fun hp hs h0 => timeFrom_step (n := now.mTide fun t => { t with noTime := 0 }) hp hs h0,
        fun hp hs h1 h2 => timeFrom_tracked (n := now.mTide fun t => { t with noTime := 0 }) hp hs h1 h2,
        fun hp hs h1 h2 => timeFrom_slewed (n := now.mTide fun t => { t with noTime := 0 }) hp hs h1 h2, t2, hk.keeps⟩
      rw [m4]
      exact if_neg hl
    · refine .of_run (fun n => n.spliceIn src.val f.toNat x.toNat y.toNat) rfl ?_
      rw [spliceIn_eq, show s.node.hearNow src.val f.toNat _ = _ from hnext hn _]
      exact spliceTaken_outside (n := now) hi _ _
    · refine .of_run (fun n => n.spliceIn src.val f.toNat x.toNat y.toNat) rfl ?_
      have hy : (if y.toNat = 0xFF then x.toNat else y.toNat) = if y = 0xFF then x.toNat else y.toNat := by
        by_cases h : y = 0xFF
        · rw [if_pos h, if_pos (by rw [h]; rfl)]
        · rw [if_neg h, if_neg (show ¬ y.toNat = 255 from fun he => h (BitVec.eq_of_toNat_eq he))]
      rw [spliceIn_eq, show s.node.hearNow src.val f.toNat _ = _ from hnext hn _, hy, spliceTaken_unwraps (n := now) hi hw hu hx]
      obtain ⟨l, ht⟩ := unwrapPort_ta (n := now.mTide fun t => { t with spliceFor := some y.toNat }) hw
      have hk : Within [.tide, .jrnl, .pair] s.node ((now.mTide fun t => { t with spliceFor := some y.toNat }).unwrapPort .ta) :=
        .unwrapPort (.mTide (.setPeer .rfl))
      rw [ht]
      exact ⟨rfl, rfl, rfl, hk.keeps⟩
  · intro s f copied n c left
    refine ⟨fun hx => ?_, fun x hx => ⟨fun hd => ?_, fun hd hr hh => ?_, fun hd hr hh => ?_⟩⟩
    · exact .of_run (fun n => n.clearLine.frameBack f.toNat copied) rfl (frameBack_none (n := c) hx copied)
    · exact .of_run (fun n => n.clearLine.frameBack f.toNat copied) rfl (frameBack_done (n := c) hx hd)
    · refine .of_run (fun n => n.clearLine.frameBack f.toNat copied) rfl ?_
      rw [show s.node.clearLine.frameBack f.toNat copied = _ from frameBack_again (n := c) hx hd hh hr]
      have hk : Within [.tide] s.node (c.frameTaken f.toNat) := .mTide (.clearLine .rfl)
      exact ⟨rfl, rfl, ⟨_, rfl, rfl, rfl, rfl, fun h => loadAgain_other h⟩, (Within.mTide hk).keeps⟩
    · refine .of_run (fun n => n.clearLine.frameBack f.toNat copied) rfl ?_
      rw [show s.node.clearLine.frameBack f.toNat copied = _ from frameBack_lost (n := c) hx hd hh hr]
      obtain ⟨l, hl⟩ := frameGone_tide (n := c.frameTaken f.toNat) x
      have hk : Within [.tide, .jrnl, .pair] s.node ((c.frameTaken f.toNat).frameGone x) := (frameGone_within x).after (.mTide (.clearLine .rfl)) (by decide)
      rw [hl]
      refine ⟨rfl, bit_setBit_same n.tide.flags (by decide), rfl, List.getLast?_concat, fun r hr hi hg hlen => ?_, hk.keeps⟩
      exact frameGone_gaps (n := c.frameTaken f.toNat) hr hi hg hlen

end

section
/-! The copy of the epoch state at the partner and at the duty (16 R489, R491 to R493). -/

namespace Sys2Proof.Machine.Node

variable {n m : Node} {src : Nat}

/-- The next frame of a sender of which none is missing, its number noted. -/
theorem hearOrdered_clean {h f : Nat} (hr : n.ringHears = true) (hs : src ≠ n.sys.node) (hw : twf {} n.tide.peers = true) (hh : (n.peer src).high = some h)
    (h16 : h < 65536) (hf : f = (h + 1) % 65536) (hm : (n.peer src).missing = []) (hd : (n.peer src).held = []) (l : RingLoad) :
    n.hearOrdered src f l = (n.setPeer src { n.peer src with high := some f }).deliver src l := by
  have hp : ({ n.peer src with high := some f, missing := [], held := [] } : Peer) = { n.peer src with high := some f } := by
    rw [← hm]
    exact congrArg (fun x => ({ n.peer src with high := some f, held := x } : Peer)) hd.symm
  rw [hearOrdered_next hr hs hw hh h16 hf hm hd, hp]

/-! The partner's side. -/

theorem takeChunk_taken {tag idx : Nat} {l : List Byte} (hr : n.pair.role = 2 ∨ n.pair.role = 3) (hq : n.pair.query = none) : n.takeChunk tag idx l =
    { n with pair := { n.pair with
      chunkTag := some tag
      chunks := (if n.pair.chunkTag = some tag then n.pair.chunks.filter (·.1 != idx) else []) ++ [(idx, l)] } } := by
  have hc : (if n.pair.chunkTag = some tag then n.pair.chunks else []).filter (·.1 != idx) =
      if n.pair.chunkTag = some tag then n.pair.chunks.filter (·.1 != idx) else [] := by split <;> rfl
  rw [takeChunk, if_pos ⟨hr, by rw [hq]; rfl⟩, ← hc]
  rfl

theorem takeChunk_idle {tag idx : Nat} {l : List Byte} (h : ¬ (n.pair.role = 2 ∨ n.pair.role = 3) ∨ n.pair.query ≠ none) : n.takeChunk tag idx l = n := by
  refine if_neg fun hc => ?_
  rcases h with h | h
  · exact h hc.1
  · exact h (Option.isNone_iff_eq_none.1 hc.2)

/-- An answer to the partner: one frame to send, and what the answer confirms. -/
theorem sendAck_replies {p : Nat} (hp : n.partner = some p) (code tag : Nat) :
    ∃ x, (n.sendAck code tag).tide = { n.tide with tx := n.tide.tx ++ [⟨0, 0, 1#16 <<< p, .epochAck code tag x⟩] } := by
  unfold sendAck
  rw [hp]
  exact ⟨_, rfl⟩

theorem sendAck_within (code tag : Nat) : Within [.tide, .sec] n (n.sendAck code tag) := .sendAck .rfl

/-- The inactive buffer emptied. -/
def bufferDropped (n : Node) : Node := n.mPair fun q => { q with chunks := [], chunkTag := none }

/-- The committed state loaded, its entries and voids. -/
def stateLoaded (n : Node) (l : List Byte) (fo : Nat) : Node := ((n.bufferDropped.loadState l).commitEntries n.bufferDropped).voidOwn fo

/-- A commit taken over: the committed state in one step. -/
def commitKept (n : Node) (final : Bool) (tag last fo : Nat) (l : List Byte) : Node :=
  (n.stateLoaded l fo).mPair fun q => { q with
    role := if n.roleHeld then n.pair.role else 3
    commit := some ⟨tag, last, l⟩
    tag := tag
    last := last
    finalHeld := final
    fo := if fo = 0 then q.fo else fo }

/-- The steps that the committed state had not yet seen. -/
def committed (n : Node) (final : Bool) (tag last fo : Nat) (l : List Byte) : Node :=
  (n.commitKept final tag last fo l).mRtc fun r => { r with
    steps := r.steps.filter fun x => decide ((n.commitKept final tag last fo l).fullTick tag * 50000 < x.1 + x.2) }

section
variable {final : Bool} {tag count last fo : Nat} {crc hashTag : BitVec 32}

theorem takeCommit_idle (h : ¬ (n.pair.role = 2 ∨ n.pair.role = 3 ∨ n.pair.role = 6) ∨ ¬ (n.pair.query = none ∧ n.pair.takeDue = none)) :
    n.takeCommit final tag count crc hashTag last fo = n := by
  unfold takeCommit
  dsimp only
  by_cases ho : n.pair.query = none ∧ n.pair.takeDue = none
  · have hr := h.resolve_right (not_not.2 ho)
    rw [if_neg (by simp [ho.1, ho.2]), if_neg (by omega), if_pos (by omega)]
  · refine if_pos ?_
    cases hq : n.pair.query
    · cases ht : n.pair.takeDue
      · exact absurd ⟨hq, ht⟩ ho
      · rfl
    · rfl

variable (hq : n.pair.query = none) (ht : n.pair.takeDue = none)
include hq ht

theorem takeCommit_six (hr : n.pair.role = 6) : n.takeCommit final tag count crc hashTag last fo = n.sendAck 3 tag := by
  unfold takeCommit
  dsimp only
  rw [if_neg (by simp [hq, ht]), if_pos hr]

variable (hr : n.pair.role = 2 ∨ n.pair.role = 3)
include hr

theorem takeCommit_refused {code : Nat} (hc : n.commitResult final tag count crc hashTag = code) (h0 : code ≠ 0) :
    n.takeCommit final tag count crc hashTag last fo = n.bufferDropped.sendAck code tag := by
  unfold takeCommit
  dsimp only
  rw [if_neg (by simp [hq, ht]), if_neg (by omega), if_neg (by omega), hc, if_pos h0]
  rfl

theorem takeCommit_taken {l : List Byte} (hc : n.commitResult final tag count crc hashTag = 0) (hl : n.wholeBuffer tag count = some l) :
    n.takeCommit final tag count crc hashTag last fo = (n.committed final tag last fo l).sendAck 0 tag := by
  unfold takeCommit
  dsimp only
  rw [if_neg (by simp [hq, ht]), if_neg (by omega), if_neg (by omega), hc, if_neg (by simp), hl]
  rfl

end

/-! What a commit is judged by. -/

section
variable {final : Bool} {tag count : Nat} {crc hashTag : BitVec 32}

theorem commitResult_late (hf : final = false) (ht : n.fullTick tag * 50000 / 1000000 ≠ n.now / 1000000) :
    n.commitResult final tag count crc hashTag = 4 := if_pos (by simp [hf, ht])

variable (h : final = true ∨ n.fullTick tag * 50000 / 1000000 = n.now / 1000000)
include h

theorem commitResult_missing (hl : n.wholeBuffer tag count = none) : n.commitResult final tag count crc hashTag = 2 := by
  rw [commitResult, if_neg (by rcases h with h | h <;> simp [h]), hl]

variable {l : List Byte} (hl : n.wholeBuffer tag count = some l)
include hl

theorem commitResult_whole : n.commitResult final tag count crc hashTag =
    if crc.toNat ≠ crc32 l then 1 else if hashTag.toNat ≠ n.hashTag ∨ n.pair.role = 6 then 3 else 0 := by
  rw [commitResult, if_neg (by rcases h with h | h <;> simp [h]), hl]

end

/-! What a state loaded leaves. -/

theorem setLadder_duty (k : Nat) (x : LadderSt) : (n.setLadder k x).call.duty = n.call.duty := rfl

theorem loadLadders_duty (l : List Byte) (o : Nat) : (n.loadLadders l o).call.duty = n.call.duty := by
  unfold loadLadders
  generalize n.ladders.zipIdx = z
  induction z generalizing n with
  | nil => rfl
  | cons x z ih => exact ih.trans (setLadder_duty _ _)

/-- The roster and the watch as an epoch state gives them. -/
def rosterLoaded (n : Node) (l : List Byte) : Node :=
  (n.mCall fun c => { c with duty := rd l 10 1, present := BitVec.ofNat 8 (rd l 11 1), dmState := rd l 12 1, dmTimer := rd l 13 3 }).mFab fun f =>
    { f with tick := rd l 16 4 }

/-- The cells and the ladders as an epoch state gives them. -/
def cellsLoaded (n : Node) (l : List Byte) : Node :=
  (((n.rosterLoaded l).loadPoints l 32).loadGroups l (32 + 16 * n.points.length)).loadLadders l (32 + 16 * n.points.length + 8 * n.groups.length)

theorem cellsLoaded_duty (l : List Byte) : (n.cellsLoaded l).call.duty = rd l 10 1 := by
  have h : Within [.fab] (n.rosterLoaded l) (((n.rosterLoaded l).loadPoints l 32).loadGroups l (32 + 16 * n.points.length)) := .loadGroups (.loadPoints .rfl)
  rw [cellsLoaded, loadLadders_duty, h.part .call]
  rfl

theorem loadState_duty (l : List Byte) : (n.loadState l).call.duty = rd l 10 1 := by
  have hd := cellsLoaded_duty (n := n) l
  unfold cellsLoaded rosterLoaded at hd
  unfold loadState
  dsimp only
  generalize Node.loadLadders _ _ _ = k at *
  have h : ∀ a b c, Within [.fab, .solv] k ((k.loadTunes l a).loadTmpls l b c) := fun _ _ _ => .loadTmpls (.loadTunes .rfl)
  rw [← hd]
  exact congrArg Call.duty ((h _ _ _).part .call)

/-! A commit taken over. -/

theorem voidOwn_pair (fo : Nat) : ∃ v, (n.voidOwn fo).pair = { n.pair with voided := v } := by
  unfold voidOwn
  dsimp only
  split
  · exact ⟨_, rfl⟩
  · split <;> exact ⟨_, rfl⟩

/-- The state loaded: the pair but for what it voided, and the roster. -/
theorem stateLoaded_pair (l : List Byte) (fo : Nat) : (∃ v, (n.stateLoaded l fo).pair = { n.pair with chunks := [], chunkTag := none, voided := v }) ∧
    (n.stateLoaded l fo).call.duty = rd l 10 1 ∧ (n.stateLoaded l fo).tide = n.tide := by
  have hl : Within [.fab, .call, .solv, .stor] n.bufferDropped ((n.bufferDropped.loadState l).commitEntries n.bufferDropped) := .commitEntries (.loadState .rfl)
  have hc : Within [.stor] (n.bufferDropped.loadState l) ((n.bufferDropped.loadState l).commitEntries n.bufferDropped) := .commitEntries .rfl
  have hd : ((n.bufferDropped.loadState l).commitEntries n.bufferDropped).call.duty = rd l 10 1 := by
    rw [hc.part .call]
    exact loadState_duty l
  unfold stateLoaded
  generalize (n.bufferDropped.loadState l).commitEntries n.bufferDropped = k at *
  obtain ⟨v, hv⟩ := voidOwn_pair (n := k) fo
  have hw : Within [.jrnl, .pair] k (k.voidOwn fo) := .voidOwn .rfl
  refine ⟨⟨v, ?_⟩, ?_, ?_⟩
  · rw [hv, hl.part .pair]
    rfl
  · rw [hw.part .call]
    exact hd
  · rw [hw.part .tide, hl.part .tide]
    rfl

theorem committed_within (final : Bool) (tag last fo : Nat) (l : List Byte) :
    Within [.pair, .fab, .call, .solv, .stor, .jrnl, .rtc] n (n.committed final tag last fo l) :=
  .mRtc (.mPair (.voidOwn (.commitEntries (.loadState (.mPair .rfl)))))

/-- The committed state in one step: the role, the tag and the bytes, and the ring as it stood. -/
theorem committed_pair (final : Bool) (tag last fo : Nat) (l : List Byte) : ∃ v f, (n.committed final tag last fo l).pair = { n.pair with
      chunks := [], chunkTag := none, voided := v, role := if n.roleHeld then n.pair.role else 3, commit := some ⟨tag, last, l⟩, tag := tag, last := last,
      finalHeld := final, fo := f } := by
  obtain ⟨⟨v, hv⟩, -, -⟩ := stateLoaded_pair (n := n) l fo
  have hs : (n.committed final tag last fo l).pair = { (n.stateLoaded l fo).pair with
      role := if n.roleHeld then n.pair.role else 3, commit := some ⟨tag, last, l⟩, tag := tag, last := last, finalHeld := final,
      fo := if fo = 0 then (n.stateLoaded l fo).pair.fo else fo } := rfl
  exact ⟨v, if fo = 0 then (n.stateLoaded l fo).pair.fo else fo, by rw [hs, hv]⟩

theorem committed_rest (final : Bool) (tag last fo : Nat) (l : List Byte) : (n.committed final tag last fo l).tide = n.tide ∧
    (n.committed final tag last fo l).call.duty = rd l 10 1 := by
  obtain ⟨-, hd, ht⟩ := stateLoaded_pair (n := n) l fo
  exact ⟨ht, hd⟩

/-! The duty's side. -/

theorem copyEnds_plain (h : n.pair.finalDue = false) : n.copyEnds = { n with pwr := { n.pwr with step := if n.pwr.step = 3 then 0 else n.pwr.step } } := by
  rw [copyEnds, if_neg (by simp [h])]
  by_cases h3 : n.pwr.step = 3 <;> simp [mPwr, h3]

/-- A copy abandoned: its frames are not sent, and it is counted. -/
def copyDropped (n : Node) : Node :=
  ((n.mTide fun t => { t with tx := t.tx.filter (! isCopyFrame ·.load), sent := t.sent.filter (! isCopyFrame ·.load) }).mPair fun q =>
    { q with copy := none, missed := satInc 0xFF q.missed }).pairFlag 2

theorem copyMissed_dropped (hc : n.pair.copy ≠ none) (hf : n.pair.finalDue = false) : n.copyMissed.pair.copy = none ∧
    n.copyMissed.pair.missed = satInc 0xFF n.pair.missed ∧ bit n.copyMissed.pair.flags 2 = true ∧
    (∀ x ∈ n.copyMissed.tide.tx, isCopyFrame x.load = false) ∧ n.copyMissed.pair.role = n.pair.role := by
  have he : n.copyMissed = n.copyDropped.copyEnds := if_neg (by simpa [Option.isNone_iff_eq_none] using hc)
  rw [he, copyEnds_plain (n := n.copyDropped) hf]
  refine ⟨rfl, rfl, bit_setBit_same n.pair.flags (by decide), fun x hx => ?_, rfl⟩
  have hx' : x ∈ n.tide.tx.filter (! isCopyFrame ·.load) := hx
  simpa using (List.mem_filter.1 hx').2

theorem copyMissed_within : Within [.tide, .pair, .pwr] n n.copyMissed := .copyMissed .rfl

theorem copyMissed_idle (h : n.pair.copy = none) : n.copyMissed = n := if_pos (by rw [h]; rfl)

theorem confirmTaken_none {c : BitVec 32} (h : c = 0) : n.confirmTaken c = n := by
  unfold confirmTaken
  split
  · rfl
  · exact if_neg (by simp [h])

theorem confirmTaken_some {c : BitVec 32} {a : ActPend} (ha : n.sec.act = some a) (h0 : c ≠ 0) (hc : c.toNat = (n.bankOf a.bank).hash.toNat % 2 ^ 32) :
    n.confirmTaken c = { n with sec := { n.sec with act := some { a with confirmed := true } } } := by
  unfold confirmTaken
  rw [ha]
  exact if_pos ⟨fun h => h0 (BitVec.eq_of_toNat_eq h), hc⟩

theorem copyAnswered_none (h : n.pair.copy = none) (r t : Nat) : n.copyAnswered r t = n := by simp only [copyAnswered, h]

section
variable {c : CopySt} (h : n.pair.copy = some c)
include h

theorem copyAnswered_other {t : Nat} (ht : c.tag ≠ t) (r : Nat) : n.copyAnswered r t = n := by
  simp only [copyAnswered, h]
  exact if_pos ht

theorem copyAnswered_missed {t r : Nat} (ht : c.tag = t) (hr : r ≠ 0) : n.copyAnswered r t = n.copyMissed := by
  simp only [copyAnswered, h]
  rw [if_neg (not_not.2 ht), if_pos hr]

theorem copyAnswered_done {t : Nat} (ht : c.tag = t) (hf : n.pair.finalDue = false) : n.copyAnswered 0 t = { n with
    pair := { n.pair with copy := none, tag := t, last := c.last, demoteDue := if c.handover then 4 else n.pair.demoteDue }
    pwr := { n.pwr with step := if n.pwr.step = 3 then 0 else n.pwr.step } } := by
  simp only [copyAnswered, h]
  rw [if_neg (not_not.2 ht), if_neg (by simp), ← ht]
  exact copyEnds_plain (n := n.mPair fun q =>
    { q with copy := none, tag := c.tag, last := c.last, demoteDue := if c.handover then 4 else q.demoteDue }) hf

end

end Sys2Proof.Machine.Node

open Sys2Proof Sys2Proof.Machine Sys2Proof.Machine.Node

/-- Settles O50: at the partner by the code of a commit, at the duty by the answer's code. -/
theorem epochCopies : Obligations.EpochCopies := by
  unfold Obligations.EpochCopies
  refine ⟨?_, ?_⟩
  · intro s src f h final handover tag idx count last fo bytes crc hashTag n p nextOne now data commit open' inTime replies discards
    have hgo : nextOne → ∀ l, n.hearOrdered src.val f.toNat l = now.deliver src.val l := fun hn l => by
      obtain ⟨hr, hs, hw, h16, hh, hf, hm, hd⟩ := hn
      exact hearOrdered_clean hr hs hw hh h16 hf hm hd l
    have h23 : n.pair.role ∈ [2, 3] ↔ n.pair.role = 2 ∨ n.pair.role = 3 := by simp
    have h236 : n.pair.role ∈ [2, 3, 6] ↔ n.pair.role = 2 ∨ n.pair.role = 3 ∨ n.pair.role = 6 := by simp
    refine ⟨fun hn ho => ⟨?_, ?_⟩, fun hn hp hi => ?_⟩
    · refine .of_run (fun n => n.hearOrdered src.val f.toNat _) rfl ((hgo hn _).trans (if_neg fun hc => ?_))
      exact ho.elim (fun h => h hc.1) fun h => h (beq_iff_eq.1 hc.2)
    · refine .of_run (fun n => n.hearOrdered src.val f.toNat _) rfl ((hgo hn _).trans (if_neg fun hc => ?_))
      exact ho.elim (fun h => h hc.1) fun h => h (beq_iff_eq.1 hc.2)
    have hdata : Answers data s (now.takeChunk tag idx bytes) :=
      .of_run (fun n => n.hearOrdered src.val f.toNat _) rfl ((hgo hn _).trans (if_pos ⟨hp, beq_iff_eq.2 hi⟩))
    have hcommit : s.node.hearOrdered src.val f.toNat (.epochCommit final handover tag count crc hashTag last fo) =
        now.takeCommit final tag count crc hashTag last fo := (hgo hn _).trans (if_pos ⟨hp, beq_iff_eq.2 hi⟩)
    have hrep : ∀ (k : Node) code, k.partner = some src.val → k.tide.tx = n.tide.tx → replies code (k.sendAck code tag) := fun k code hk ht => by
      obtain ⟨x, hx⟩ := sendAck_replies hk code tag
      exact ⟨x, by rw [hx, ← ht]⟩
    refine ⟨fun hr hq => ?_, fun hx => ?_, fun hx => ?_, fun hr ho => ?_, fun hr ho => ?_⟩
    · rw [takeChunk_taken (n := now) (h23.1 hr) hq] at hdata
      exact hdata
    · rw [takeChunk_idle (n := now) (hx.imp (fun h hc => h (h23.2 hc)) id)] at hdata
      exact hdata
    · exact .of_run (fun n => n.hearOrdered src.val f.toNat _) rfl (hcommit.trans (takeCommit_idle (n := now) (hx.imp (fun h hc => h (h236.2 hc)) id)))
    · refine .of_run (fun n => n.hearOrdered src.val f.toNat _) rfl ?_
      rw [hcommit, takeCommit_six (n := now) ho.1 ho.2 hr]
      have hk : Within [.tide, .sec] n (now.sendAck 3 tag) := (sendAck_within 3 tag).after (.setPeer .rfl) (by decide)
      exact ⟨hrep now 3 hp rfl, hk.part .pair, hk.keeps⟩
    · have hr' : now.pair.role = 2 ∨ now.pair.role = 3 := by
        have : n.pair.role = 2 ∨ n.pair.role = 3 := by simpa using hr
        exact this
      have hdisc : ∀ code, now.commitResult final tag count crc hashTag = code → code ≠ 0 → discards code := fun code hc h0 => by
        refine .of_run (fun n => n.hearOrdered src.val f.toNat _) rfl ?_
        rw [hcommit, takeCommit_refused (n := now) ho.1 ho.2 hr' hc h0]
        have hk : Within [.tide, .pair, .sec] n (now.bufferDropped.sendAck code tag) := .sendAck (.mPair (.setPeer .rfl))
        have hq : (now.bufferDropped.sendAck code tag).pair = now.bufferDropped.pair := (sendAck_within (n := now.bufferDropped) code tag).part .pair
        refine ⟨hrep now.bufferDropped code hp rfl, ?_⟩
        rw [hq]
        exact ⟨rfl, rfl, rfl, rfl, hk.keeps⟩
      refine ⟨fun ht => ?_, fun ht => ⟨fun hl => ?_, fun l hl => ⟨fun hcrc => ?_, fun hcrc hh => ?_, fun hcrc hh => ?_⟩⟩⟩
      · have ht' : ¬ final = true ∧ ¬ now.fullTick tag * 50000 / 1000000 = now.now / 1000000 := not_or.1 ht
        exact hdisc 4 (commitResult_late (by simpa using ht'.1) ht'.2) (by decide)
      · exact hdisc 2 (commitResult_missing (n := now) ht hl) (by decide)
      · exact hdisc 1 ((commitResult_whole (n := now) ht hl).trans (if_pos hcrc)) (by decide)
      · exact hdisc 3 ((commitResult_whole (n := now) ht hl).trans ((if_neg (not_not.2 hcrc)).trans (if_pos (.inl hh)))) (by decide)
      · have hc : now.commitResult final tag count crc hashTag = 0 := (commitResult_whole (n := now) ht hl).trans
          ((if_neg (not_not.2 hcrc)).trans (if_neg (by rintro (h | h); exacts [h hh, by omega])))
        refine .of_run (fun n => n.hearOrdered src.val f.toNat _) rfl ?_
        rw [hcommit, takeCommit_taken (n := now) ho.1 ho.2 hr' hc hl]
        obtain ⟨v, g, hpair⟩ := committed_pair (n := now) final tag last fo l
        obtain ⟨htide, hduty⟩ := committed_rest (n := now) final tag last fo l
        have hw := committed_within (n := now) final tag last fo l
        have hwn : Within [.tide, .pair, .sec, .fab, .call, .solv, .stor, .jrnl, .rtc] n (now.committed final tag last fo l) := hw.after (.setPeer .rfl) (by decide)
        have hcp : (now.committed final tag last fo l).partner = some src.val := (partner_of (hw.part .img) (hw.part .sys)).trans hp
        generalize now.committed final tag last fo l = k at *
        have hs := sendAck_within (n := k) 0 tag
        have hk : Within [.tide, .pair, .sec, .fab, .call, .solv, .stor, .jrnl, .rtc] n (k.sendAck 0 tag) := hs.after hwn (by decide)
        have hheld : (if now.roleHeld then now.pair.role else 3) = if n.pwr.mode = .holdup then n.pair.role else 3 := by
          have : now.roleHeld = (n.pwr.mode == .holdup && n.pair.role != 4) := rfl
          have h4 : n.pair.role ≠ 4 := by rcases hr' with h | h <;> (have : n.pair.role = _ := h; omega)
          rw [this]
          by_cases hm : n.pwr.mode = .holdup <;> simp [hm, h4]
          rfl
        refine ⟨hrep k 0 hcp (by rw [htide]; rfl), ?_⟩
        rw [hs.part .pair, hs.part .call, hpair]
        exact ⟨hheld, rfl, rfl, rfl, rfl, rfl, hduty, hk.keeps⟩
  · intro s src f h result tag confirm n p nextOne now ack dropped
    have hgo : nextOne → n.hearOrdered src.val f.toNat (.epochAck result tag confirm) = (now.confirmTaken confirm).copyAnswered result tag := fun hn => by
      obtain ⟨hr, hs, hw, h16, hh, hf, hm, hd, hp, hi⟩ := hn
      exact (hearOrdered_clean hr hs hw hh h16 hf hm hd _).trans (if_pos ⟨hp, beq_iff_eq.2 hi⟩)
    refine ⟨fun hn hc h0 => ?_, fun c hn hc ht h0 => ?_, fun c hn hc ht h0 hf => ⟨fun hr => ?_, fun hr => ?_⟩, fun a hn ha h0 hcf hc => ?_, fun hc => ?_, fun hc hf => ?_⟩
    · refine .of_run (fun n => n.hearOrdered src.val f.toNat _) rfl ((hgo hn).trans ?_)
      rw [confirmTaken_none h0, copyAnswered_none (n := now) hc]
    · refine .of_run (fun n => n.hearOrdered src.val f.toNat _) rfl ((hgo hn).trans ?_)
      rw [confirmTaken_none h0, copyAnswered_other (n := now) hc ht]
    · refine .of_run (fun n => n.hearOrdered src.val f.toNat _) rfl ((hgo hn).trans ?_)
      rw [confirmTaken_none h0, hr, copyAnswered_done (n := now) hc ht hf]
      rfl
    · refine .of_run (fun n => n.hearOrdered src.val f.toNat _) rfl ?_
      rw [show s.node.hearOrdered src.val f.toNat _ = _ from hgo hn, confirmTaken_none h0, copyAnswered_missed (n := now) hc ht hr]
      obtain ⟨d1, d2, d3, d4, d5⟩ := copyMissed_dropped (n := now) (by rw [show now.pair.copy = some c from hc]; simp) hf
      have hk : Within [.tide, .pair, .pwr] n now.copyMissed := copyMissed_within.after (.setPeer .rfl) (by decide)
      exact ⟨d1, d2, d3, d4, d5, hk.keeps⟩
    · refine .of_run (fun n => n.hearOrdered src.val f.toNat _) rfl ((hgo hn).trans ?_)
      rw [confirmTaken_some (n := now) ha h0 hcf, copyAnswered_none (by exact hc)]
      rfl
    · exact .of_run copyMissed rfl (copyMissed_idle hc)
    · refine .of_run copyMissed rfl ?_
      obtain ⟨d1, d2, d3, d4, d5⟩ := copyMissed_dropped hc hf
      exact ⟨d1, d2, d3, d4, d5, copyMissed_within.keeps⟩

end

section
/-! HIGH_QUERY and what settles the number that a takeover starts from (16 R487, R495). -/

namespace Sys2Proof.Machine.Node

variable {n m : Node} {src : Nat}

/-- The greatest of a list and a start: it bounds both and is one of them. -/
theorem foldl_max_spec (l : List Nat) (a : Nat) : a ≤ l.foldl max a ∧ (∀ x ∈ l, x ≤ l.foldl max a) ∧ (l.foldl max a = a ∨ l.foldl max a ∈ l) := by
  induction l generalizing a with
  | nil => exact ⟨Nat.le_refl a, fun x hx => (by cases hx), .inl rfl⟩
  | cons y l ih =>
    obtain ⟨h1, h2, h3⟩ := ih (max a y)
    refine ⟨Nat.le_trans (Nat.le_max_left a y) h1, fun x hx => ?_, ?_⟩
    · rcases List.mem_cons.1 hx with rfl | hx
      · exact Nat.le_trans (Nat.le_max_right a x) h1
      · exact h2 x hx
    · rcases h3 with h3 | h3
      · rcases Nat.le_total a y with hle | hle
        · exact .inr (List.mem_cons.2 (.inl (h3.trans (Nat.max_eq_right hle))))
        · exact .inl (h3.trans (Nat.max_eq_left hle))
      · exact .inr (List.mem_cons.2 (.inr h3))

theorem queryHigh_spec (q : Query) : n.jrnl.last ≤ n.queryHigh q ∧ tget 0 n.jrnl.heard n.space ≤ n.queryHigh q ∧ (∀ r ∈ q.replies, r.2 ≤ n.queryHigh q) ∧
    (n.queryHigh q = n.jrnl.last ∨ n.queryHigh q = tget 0 n.jrnl.heard n.space ∨ ∃ r ∈ q.replies, r.2 = n.queryHigh q) := by
  obtain ⟨h1, h2, h3⟩ := foldl_max_spec (q.replies.map (·.2)) (max n.jrnl.last (tget 0 n.jrnl.heard n.space))
  refine ⟨Nat.le_trans (Nat.le_max_left _ _) h1, Nat.le_trans (Nat.le_max_right _ _) h1, fun r hr => h2 r.2 (List.mem_map_of_mem hr), ?_⟩
  rcases h3 with h3 | h3
  · rcases Nat.le_total n.jrnl.last (tget 0 n.jrnl.heard n.space) with hle | hle
    · exact .inr (.inl (h3.trans (Nat.max_eq_right hle)))
    · exact .inl (h3.trans (Nat.max_eq_left hle))
  · obtain ⟨r, hr, he⟩ := List.mem_map.1 h3
    exact .inr (.inr ⟨r, hr, he⟩)

theorem queryEnd_none (h : n.pair.query = none) : n.queryEnd = n := by simp only [queryEnd, h]

theorem queryEnd_some {q : Query} (h : n.pair.query = some q) : n.queryEnd = n.mPair fun p => { p with query := none, takeDue := some (n.queryHigh q, q.cause) } := by
  simp only [queryEnd, h]

/-- A reply kept with a query. -/
def replyKept (q : Query) (src high : Nat) : Query := { q with replies := (q.replies.filter (·.1 != src)) ++ [(src, high)] }

/-- Every other node in VIEW has replied. -/
def allReplied (n : Node) (q : Query) : Bool := (List.range 16).all fun k => !bit n.tide.view k || k == n.sys.node || q.replies.any (·.1 == k)

theorem allReplied_iff (q : Query) : n.allReplied q = true ↔ ∀ k, k < 16 → bit n.tide.view k = true → k ≠ n.sys.node → ∃ r ∈ q.replies, r.1 = k := by
  simp only [allReplied, List.all_eq_true, List.mem_range, Bool.or_eq_true, Bool.not_eq_true', beq_iff_eq, List.any_eq_true]
  refine forall_congr' fun k => ⟨fun h hk hb hn => ?_, fun h hk => ?_⟩
  · rcases h hk with (h | h) | h
    · simp [hb] at h
    · exact absurd h hn
    · exact h
  · by_cases hb : bit n.tide.view k = true
    · by_cases hn : k = n.sys.node
      · exact .inl (.inr hn)
      · exact .inr (h hk hb hn)
    · exact .inl (.inl (by simpa using hb))

theorem queryReply_other {sp high : Nat} (h : n.pair.query = none ∨ sp ≠ n.space) : n.queryReply src sp high = n := by
  unfold queryReply
  split
  · rfl
  next q hq => exact if_neg (h.resolve_left (by simp [hq]))

theorem queryReply_own {q : Query} {high : Nat} (h : n.pair.query = some q) : n.queryReply src n.space high =
    (n.mPair fun p => { p with query := some (replyKept q src high) }).queryCheck := by
  simp only [queryReply, h, if_true]
  rfl

theorem queryCheck_some {q : Query} (h : n.pair.query = some q) : n.queryCheck = if n.allReplied q then n.queryEnd else n := by
  simp only [queryCheck, h]
  rfl

end Sys2Proof.Machine.Node

open Sys2Proof Sys2Proof.Machine Sys2Proof.Machine.Node

/-- Settles O51: a query is settled by the greatest of the last number, the heard one and the replies. -/
theorem highNumberQuery : Obligations.HighNumberQuery := by
  unfold Obligations.HighNumberQuery
  intro s src sp f h high n p nextOne now reply with' all settles
  have hnext : nextOne → ∀ g : Node → Node, n.hearNow src.val f.toNat g = g now := fun hn g => by
    obtain ⟨hr, hs, hw, h16, hh, hf, hm, hd⟩ := hn
    exact hearNow_next hr hs hw hh h16 hf hm hd g
  have hsettle : ∀ (k : Node) (q : Query) (cause : Nat), Within [.tide, .pair] n k → k.jrnl = n.jrnl → k.space = n.space → k.pair.query = some q →
      settles q.replies q.cause k.queryEnd := fun k q cause hk hj hs hq => by
    rw [queryEnd_some hq]
    obtain ⟨h1, h2, h3, h4⟩ := queryHigh_spec (n := k) q
    rw [hj] at h1
    rw [hj, hs] at h2 h4
    exact ⟨rfl, ⟨k.queryHigh q, rfl, h1, h2, h3, h4⟩, (Within.mPair hk).keeps⟩
  refine ⟨fun hn hi => ?_, fun hn hi => ?_, fun hn hx => ?_, fun q hn hq hs ha => ?_, fun q hn hq hs ha => ?_, fun hq => ?_, fun q hq => ?_⟩
  · exact .of_run (fun n => n.hearNow src.val f.toNat fun n =>
      if n.inserted then n.sendFrame (1#16 <<< src.val) (.highReply sp.val (tget 0 n.jrnl.heard sp.val)) else n) rfl ((hnext hn _).trans (if_pos (beq_iff_eq.2 hi)))
  · exact .of_run (fun n => n.hearNow src.val f.toNat fun n =>
      if n.inserted then n.sendFrame (1#16 <<< src.val) (.highReply sp.val (tget 0 n.jrnl.heard sp.val)) else n) rfl
        ((hnext hn _).trans (if_neg fun hc => hi (beq_iff_eq.1 hc)))
  · exact .of_run (fun n => n.hearNow src.val f.toNat fun n => n.queryReply src.val sp.val high) rfl ((hnext hn _).trans (queryReply_other (n := now) hx))
  · refine .of_run (fun n => n.hearNow src.val f.toNat fun n => n.queryReply src.val sp.val high) rfl ((hnext hn _).trans ?_)
    rw [hs]
    refine (queryReply_own (n := now) hq).trans ?_
    refine (queryCheck_some (q := replyKept q src.val high) rfl).trans (if_neg fun hc => ha ?_)
    exact (allReplied_iff (n := now) (replyKept q src.val high)).1 hc
  · refine .of_run (fun n => n.hearNow src.val f.toNat fun n => n.queryReply src.val sp.val high) rfl ?_
    rw [show s.node.hearNow src.val f.toNat _ = _ from hnext hn _, hs, show now.queryReply src.val n.space high = _ from queryReply_own (n := now) hq,
      queryCheck_some (q := replyKept q src.val high) rfl]
    refine (congrArg (settles (with' q) q.cause) (if_pos ((allReplied_iff (n := now) (replyKept q src.val high)).2 ha))).mpr ?_
    exact hsettle (now.mPair fun p => { p with query := some (replyKept q src.val high) }) (replyKept q src.val high) q.cause (.mPair (.setPeer .rfl)) rfl rfl rfl
  · exact .of_run queryEnd rfl (queryEnd_none hq)
  · exact .of_run queryEnd rfl (hsettle s.node q q.cause .rfl rfl rfl hq)

end

section
open Sys2Proof Sys2Proof.Machine Sys2Proof.Machine.Node

/-- An image whose one point alarms at once while input 0 is off, and which wakes on an alarm. -/
def sleepersImage : Image :=
  ⟨⟨⟨[], [], []⟩, ⟨0, 0xFFFFFFFF, 0xFFFFFFFF, 0⟩, ⟨true, true, true, 0, 0, 0⟩, [], [], [],
    [.point ⟨1, .dioIn 0, .on0, 0, 0, 0, 0, 0, 0, false, none, none, false, false, .hold, 0, 0, 0⟩, .order [.point 1]],
    [], [], [], [], []⟩, 0, 0, 0⟩

/-- A takeover due in Sleep while the clock of CORE is off: its first tick wakes the node, and the clock that it asks for comes
up clamped. -/
def takingAsleep : Node :=
  { img := some sleepersImage
    pwr := { phase := .done, mode := .sleep }
    clk := { pll := .failed }
    pair := { takeDue := some (9, 0) }
    rtc := { now := 2000000, lastTick := some 2000000 }
    tide := { st := .inserted } }

theorem takingAsleep_evaluates :
    takingAsleep.timed = true ∧ takingAsleep.coreHeld = false ∧ takingAsleep.nextMultiple 50000 % 1000000 ≠ 0 := by
  decide +kernel

theorem takingAsleep_takesDuty : takingAsleep.takesDuty (takingAsleep.nextMultiple tickLen) = true := by decide +kernel

theorem tick_takingAsleep_role : takingAsleep.tick.pair.role = 5 := by decide +kernel

theorem node_of_takeDuty {n : Node} {t : State} (h : n.takesDuty (n.nextMultiple tickLen) = true)
    (he : exec .takeDuty ⟨n, []⟩ = .next t) : t.node = n.tick := by
  have hrun : exec .takeDuty ⟨n, []⟩ = .next ⟨if n.takesDuty (n.nextMultiple tickLen) then n.tick else n, []⟩ := rfl
  rw [hrun, if_pos h] at he
  injection he with ht
  rw [← ht]

/-- Refutes O52: the duty taken is given up within the same tick, where its wake from Sleep clamps CORE. -/
theorem not_dutyTakenAndGivenUp : ¬ Obligations.DutyTakenAndGivenUp := by
  unfold Obligations.DutyTakenAndGivenUp
  intro h
  obtain ⟨ht, hh, hb⟩ := takingAsleep_evaluates
  obtain ⟨-, htake, -⟩ := h.2 ⟨takingAsleep, []⟩
  obtain ⟨t, he, -, hrole, -⟩ := htake 9 0 ⟨ht, hh, rfl, rfl, rfl⟩ rfl hb (by decide) (by decide)
  rw [node_of_takeDuty takingAsleep_takesDuty he, tick_takingAsleep_role] at hrole
  exact absurd hrole (by decide)

end

section
/-! The boundaries of the tick (01 Tables 1.1 and 1.2). -/

namespace Sys2Proof.Machine.Node

variable {n m k : Node}

theorem foldl_rel {β : Type} {R : Node → Node → Prop} {f : Node → β → Node} (hr : ∀ n, R n n) (ht : ∀ {n m k}, R n m → R m k → R n k)
    (hf : ∀ n x, R n (f n x)) (l : List β) (n : Node) : R n (l.foldl f n) := by
  induction l generalizing n with
  | nil => exact hr n
  | cons x l ih => exact ht (hf n x) (ih _)

/-! Changes of the fabric's cells alone. -/

/-- Of the fabric the cells change, and the changes noted for the host; the rest stands. -/
def CellsChange (n m : Node) : Prop := ∃ c g, m.fab = { n.fab with cells := c, chg := g }

theorem CellsChange.of_fab (h : m.fab = n.fab) : CellsChange n m := ⟨_, _, h⟩

theorem CellsChange.trans (h : CellsChange n m) (g : CellsChange m k) : CellsChange n k := by
  obtain ⟨_, _, h⟩ := h
  obtain ⟨c, d, g⟩ := g
  exact ⟨c, d, by rw [g, h]⟩

theorem CellsChange.frame (h : Within (Part.allBut [.fab]) n m) : CellsChange n m := .of_fab (h.part .fab)

theorem CellsChange.ite {c : Prop} [Decidable c] {a b : Node} (ha : CellsChange n a) (hb : CellsChange n b) :
    CellsChange n (if c then a else b) := by
  split <;> assumption

theorem CellsChange.foldl {β : Type} {f : Node → β → Node} (h : ∀ n x, CellsChange n (f n x)) (l : List β) (n : Node) :
    CellsChange n (l.foldl f n) := foldl_rel (fun _ => .of_fab rfl) .trans h l n

theorem setPoint_cells (p : Nat) (v : PointSt) : CellsChange n (n.setPoint p v) := ⟨_, _, rfl⟩

theorem setGrp_cells (g : Nat) (v : GrpSt) : CellsChange n (n.setGrp g v) := ⟨_, _, rfl⟩

theorem setCond_cells (c : Nat) (v : CondSt) : CellsChange n (n.setCond c v) := ⟨_, _, rfl⟩

theorem clockEntry_cells (p : Nat) (a b : PointSt) : CellsChange n (n.clockEntry p a b) := .frame (.clockEntry .rfl)

theorem evalCell_cells (x : CellRef) : CellsChange n (n.evalCell x) := by
  unfold evalCell
  cases x with
  | cond c =>
    dsimp only
    split
    · exact setCond_cells _ _
    · exact .of_fab rfl
  | point p =>
    dsimp only
    split
    · exact .trans (setPoint_cells _ _) (clockEntry_cells _ _ _)
    · exact .of_fab rfl
  | group g => exact setGrp_cells _ _

theorem evalCells_cells : CellsChange n n.evalCells := .foldl (fun _ => evalCell_cells) _ _

theorem ackMembers_cells (l : List PointCfg) : CellsChange n (n.ackMembers l).1 := by
  unfold ackMembers
  generalize hb : false = b
  clear hb
  induction l generalizing n b with
  | nil => exact .of_fab rfl
  | cons c l ih =>
    rw [List.foldl_cons]
    dsimp only
    split
    · exact .trans (setPoint_cells _ _) (ih _)
    · exact ih _

theorem applyFab_cells (c : QCmd) : CellsChange n (n.applyFab c) := by
  have hissue {m k : Node} (b : RecBody) (h : CellsChange m k) : CellsChange m (k.issueNow b) := h.trans (.frame (.issueNow .rfl))
  unfold applyFab
  refine .ite (hissue _ (.of_fab rfl)) (.ite (.ite (hissue _ (.of_fab rfl)) (hissue _ (ackMembers_cells _)))
    (.ite (.ite (hissue _ (setGrp_cells _ _)) (hissue _ (.of_fab rfl))) ?_))
  split
  · exact hissue _ (.of_fab rfl)
  · next p _ =>
    dsimp only
    refine hissue _ (.trans (setPoint_cells c.target _) (.ite (.frame (.ckpt .rfl)) (.frame (.markEntries .rfl))))

theorem applyCommands_cells : CellsChange (n.mFab fun f => { f with queue := [] }) n.applyCommands :=
  .foldl (fun _ _ => .ite (applyFab_cells _) (.frame (.applyCall .rfl))) _ _

theorem pointRecord_cells (c : PointCfg) : CellsChange n (n.pointRecord c) := by
  unfold pointRecord
  dsimp only
  generalize ha : (if (n.pointSt c.num).st != (n.pointSt c.num).prev || (n.pointSt c.num).mustRecord then
    n.issueNow (alarmBody c (n.pointSt c.num)) else n) = a
  have h : CellsChange n a := by
    rw [← ha]
    exact .frame (.iteThen .rfl (.issueNow .rfl))
  refine .trans (h.trans ?_) (setPoint_cells _ _)
  exact .ite ⟨_, _, rfl⟩ (.of_fab rfl)

theorem recordCell_cells (x : CellRef) : CellsChange n (n.recordCell x) := by
  unfold recordCell
  cases x with
  | cond c => exact .of_fab rfl
  | point p =>
    dsimp only
    split
    · exact pointRecord_cells _
    · exact .of_fab rfl
  | group g => exact .frame (.groupRecord .rfl)

theorem autoRearm_cells : CellsChange n n.autoRearm := .foldl (fun _ _ => .ite (setGrp_cells _ _) (.of_fab rfl)) _ _

/-! The tick's own facts, kept through its steps. -/

/-- The time of the tick under way, the phase of the start and the count of ticks stand. -/
structure TickKept (n m : Node) : Prop where
  time : m.rtc.lastTick = n.rtc.lastTick
  phase : m.pwr.phase = n.pwr.phase
  count : m.fab.tick = n.fab.tick

namespace TickKept

theorem rfl : TickKept n n := ⟨Eq.refl _, Eq.refl _, Eq.refl _⟩

theorem trans (h : TickKept n m) (g : TickKept m k) : TickKept n k :=
  ⟨g.time.trans h.time, g.phase.trans h.phase, g.count.trans h.count⟩

theorem frame (h : Within (Part.allBut [.rtc, .pwr, .fab]) n m) : TickKept n m := ⟨by rw [h.part .rtc], by rw [h.part .pwr], by rw [h.part .fab]⟩

theorem of_count (hc : m.fab.tick = n.fab.tick) (h : Within (Part.allBut [.rtc, .pwr]) n m) : TickKept n m :=
  ⟨by rw [h.part .rtc], by rw [h.part .pwr], hc⟩

theorem of_cells (hc : CellsChange n m) (h : Within (Part.allBut [.rtc, .pwr]) n m) : TickKept n m := by
  obtain ⟨_, _, hc⟩ := hc
  exact .of_count (by rw [hc]) h

theorem ite {c : Prop} [Decidable c] {a b : Node} (ha : TickKept n a) (hb : TickKept n b) : TickKept n (if c then a else b) := by
  split <;> assumption

theorem foldl {β : Type} {f : Node → β → Node} (h : ∀ n x, TickKept n (f n x)) (l : List β) (n : Node) : TickKept n (l.foldl f n) :=
  foldl_rel (fun _ => rfl) trans h l n

end TickKept

theorem fabDemoted_gates : Gates FabDemoted where
  refl _ := .of_fab rfl
  trans := .trans
  setDom _ _ _ := .of_fab (setDom_fab _ _)
  mask _ _ _ := .of_fab rfl
  coreClamped _ := coreClamped_fabDemoted
  fieldStops _ := .frame (.fieldStops .rfl)
  stopEngine _ := .frame (.stopEngine .rfl)
  syncCauses _ := .frame (.syncCauses .rfl)
  engine _ := .frame (.engine .rfl)
  coastChange _ _ := .frame (.coastChange .rfl)

theorem Drained.phase (h : Drained n m) : m.pwr.phase = n.pwr.phase := by
  rcases h with h | ⟨-, h⟩ <;> rw [h]

theorem applyDomains_tickKept : TickKept n n.applyDomains := by
  obtain ⟨_, _, _, -, h⟩ := fabDemoted_gates.applyDomains n
  exact ⟨applyDomains_refLost.lastTick, applyDomains_drained.phase, by rw [h]⟩

theorem setRole_tickKept (r : Nat) : TickKept n (n.setRole r) := .of_count rfl (.setRole .rfl)

theorem keepCells_tickKept (o : Node) : TickKept n (n.keepCells o) := by
  refine .of_count ?_ (.keepCells .rfl)
  unfold keepCells
  dsimp only
  refine foldl_rel (R := fun n m => m.fab.tick = n.fab.tick) (fun _ => rfl) (fun h g => g.trans h) (fun m x => ?_) _ _
  split <;> rfl

theorem keepRole_tickKept (o : Node) : TickKept n (n.keepRole o) := .ite .rfl (.ite (setRole_tickKept 1) (setRole_tickKept 0))

theorem applyImage_tickKept (i : Image) : TickKept n (n.applyImage i) := by
  unfold applyImage
  dsimp only
  have ho : TickKept n (n.endAoForces.endDioForces.sweepAbort n.dio.sweepBank 7) :=
    .frame (.sweepAbort (.endDioForces (.endAoForces .rfl)))
  generalize n.endAoForces.endDioForces.sweepAbort n.dio.sweepBank 7 = o at *
  have hi : TickKept n { o with img := some i } := ho.trans (.frame (.setImg .rfl))
  generalize { o with img := some i } = a at *
  have hc : TickKept n (a.keepCells o) := hi.trans (keepCells_tickKept o)
  generalize a.keepCells o = b at *
  refine .trans (.trans (.trans (hc.trans (.frame ?_)) (keepRole_tickKept o)) (.frame (.keptEntries .rfl))) applyDomains_tickKept
  exact .iteElse (.keepPins (.keepLoops (.keepLanes (.keepChans (.keepInputs (.keepTmpls (.keepRoster (.keepCalls .rfl))))))))
    (.remapPorts .rfl)

theorem takeImage_tickKept (b : Bool) (h : n.img.isSome = true) : TickKept n (n.takeImage b) := by
  rw [takeImage, if_pos h]
  exact applyImage_tickKept _

theorem discardTunes_tickKept : TickKept n n.discardTunes := by
  unfold discardTunes
  exact .ite .rfl (.of_count rfl (.mFab .rfl))

theorem bankTaken_tickKept (b : Bool) : TickKept n (n.bankTaken b) := by
  unfold bankTaken
  dsimp only
  have h : TickKept n (n.updBank b fun s => { s with state := 5, gen := n.nextGen }) := .frame (.updBank .rfl)
  generalize n.updBank b _ = a at *
  exact .trans (.trans (h.trans (.frame (.demoteBank (.appendBank .rfl)))) discardTunes_tickKept) (.frame (.mSec (.activationEnds .rfl)))

theorem bankTaken_within {b : Bool} : Within (Part.allBut [.img]) n (n.bankTaken b) := by
  unfold bankTaken
  exact .mSec (.activationEnds (.discardTunes (.demoteBank (.appendBank (.updBank .rfl)))))

theorem bankTaken_img (b : Bool) : (n.bankTaken b).img = n.img :=
  bankTaken_within.part .img

theorem activated_tickKept (b : Bool) (h : n.img.isSome = true) : TickKept n (n.activated b) := by
  obtain ⟨old, l, he⟩ := n.activated_eq b
  rw [he]
  refine .trans (.trans ((bankTaken_tickKept b).trans (.frame (.retagAll .rfl))) (takeImage_tickKept b ?_)) (.frame (.firstOf .rfl))
  rw [(Within.retagAll .rfl : Within [.jrnl, .pair] _ _).part .img, bankTaken_img, h]

theorem activationDue_tickKept (t : Nat) (ok : Bool) (h : n.img.isSome = true) : TickKept n (n.activationDue t ok) := by
  have hrefused {m k : Node} (c : Nat) (h : TickKept m k) : TickKept m (k.activationRefused c) := h.trans (.frame (.activationRefused .rfl))
  unfold activationDue
  dsimp only
  generalize hk : (if n.sec.notice.any fun x => decide (x.2 ≤ t) && n.sec.act.isNone then
    n.mSec fun s => { s with notice := none, confirmDue := false } else n) = a
  have ha : TickKept n a := by
    rw [← hk]
    exact .ite (.frame (.mSec .rfl)) .rfl
  have hi : a.img.isSome = true := by
    rw [← hk]
    split <;> exact h
  split
  · exact ha
  · refine .ite (hrefused _ ha) (.ite ?_ ha)
    unfold activateNow
    exact .ite (ha.trans (activated_tickKept _ hi)) (hrefused _ (ha.trans (.frame (.updBank .rfl))))

theorem applyTune_tickKept (x : TunePend) : TickKept n (n.applyTune x) := by
  unfold applyTune
  dsimp only
  refine .trans (.trans ?_ (.frame (.stepOne .rfl))) (.frame (.ckpt .rfl))
  have hset {m : Node} (p : Nat) (v : PointSt) : TickKept m (m.setPoint p v) := .of_cells (setPoint_cells p v) (.setPoint .rfl)
  refine .trans (m := ite _ _ _) (.ite (hset _ _) .rfl) (.of_count rfl (.mFab .rfl))

theorem applyTunes_tickKept : TickKept n n.applyTunes := by
  unfold applyTunes
  exact .ite .rfl (.trans (.foldl (fun _ => applyTune_tickKept) _ _) (.of_count rfl (.mFab .rfl)))

theorem stepFirst_tickKept (t : Nat) (h : n.img.isSome = true) : TickKept n (n.stepFirst t) := by
  have hi : n.issueStart.img.isSome = true := by rwa [(Within.issueStart .rfl : Within [.jrnl] n _).part .img]
  unfold stepFirst
  dsimp only
  refine .trans (.trans (m := n.issueStart) (.frame (.issueStart .rfl)) ?_) (.frame (.issueFirst .rfl))
  exact .ite ((activationDue_tickKept t true hi).trans applyTunes_tickKept) .rfl

theorem slackTimers_tickKept : TickKept n n.slackTimers := by
  unfold slackTimers
  exact .trans (.foldl (fun m c => .of_cells (setPoint_cells _ _) (.setPoint .rfl)) _ _) (.frame (.later .rfl))

/-! The panel pins: a command of each takes its place in the queue. -/

theorem pushCmd_tickKept (c : QCmd) : TickKept n (n.pushCmd c) := .of_count rfl (.pushCmd .rfl)

theorem arrive_tickKept (c : QCmd) (code : Nat) : TickKept n (n.arrive c code) := by
  unfold arrive
  refine .trans ?_ (pushCmd_tickKept _)
  exact .ite (.of_count rfl (.mFab .rfl)) .rfl

theorem callNet_tickKept (o : Option Nat) (op target arg path : Nat) : TickKept n (n.callNet o op target arg path) := by
  have hid : TickKept n n.takeCmdId.2 := .of_count rfl (.takeCmdId .rfl)
  unfold callNet
  split
  · exact .rfl
  · exact hid.trans (arrive_tickKept _ _)
  · split
    · exact .rfl
    · exact hid.trans (.frame (.sendFrame .rfl))

theorem panelEdges_tickKept (l : List Nat) : TickKept n (n.panelEdges l) :=
  .foldl (fun _ _ => .trans (.foldl (fun _ _ => .ite (callNet_tickKept _ _ _ _ _) .rfl) _ _)
    (.foldl (fun _ _ => .ite (callNet_tickKept _ _ _ _ _) .rfl) _ _)) _ _

/-! What the tick closes with: its queue is empty and its cells are shown. -/

/-- The queue is empty, the cells are those shown, and the ticks count to `k`. -/
structure TickShown (k : Nat) (n : Node) : Prop where
  count : n.fab.tick = k
  queue : n.fab.queue = []
  shown : n.fab.shown = n.fab.cells

theorem recordCells_shown (h : n.fab.queue = []) : TickShown ((n.fab.tick + 1) % 2 ^ 32) n.recordCells := by
  have hc : CellsChange n (n.evalOrder.foldl recordCell n).autoRearm :=
    .trans (.foldl (fun _ => recordCell_cells) _ _) autoRearm_cells
  obtain ⟨_, _, hc⟩ := hc
  unfold recordCells
  dsimp only
  generalize (n.evalOrder.foldl recordCell n).autoRearm = m at *
  exact ⟨by rw [← (congrArg Fab.tick hc :)]; rfl, (congrArg Fab.queue hc :).trans h, rfl⟩

theorem TickShown.demoted {c : Nat} (h : TickShown c n) (g : FabDemoted n m) : TickShown c m := by
  obtain ⟨q, _, _, hq, g⟩ := g
  have hq' : q = [] := by
    rcases hq with rfl | rfl
    · exact h.queue
    · rfl
  rw [hq'] at g
  exact ⟨(congrArg Fab.tick g :).trans h.count, (congrArg Fab.queue g :),
    (congrArg Fab.shown g :).trans (h.shown.trans (congrArg Fab.cells g :).symm)⟩

theorem showSources_fabDemoted : FabDemoted n n.showSources := ⟨_, _, _, .inl rfl, rfl⟩

/-- The time of the tick under way, the phase of the start and the step of the call stand, and of the fabric what a demotion leaves. -/
structure TickClosed (n m : Node) : Prop where
  time : m.rtc.lastTick = n.rtc.lastTick
  phase : m.pwr.phase = n.pwr.phase
  fab : FabDemoted n m
  call : m.call = n.call

namespace TickClosed

theorem rfl : TickClosed n n := ⟨Eq.refl _, Eq.refl _, .of_fab (Eq.refl _), Eq.refl _⟩

theorem trans (h : TickClosed n m) (g : TickClosed m k) : TickClosed n k :=
  ⟨g.time.trans h.time, g.phase.trans h.phase, h.fab.trans g.fab, g.call.trans h.call⟩

theorem frame (h : Within (Part.allBut [.rtc, .pwr, .fab, .call]) n m) : TickClosed n m :=
  ⟨by rw [h.part .rtc], by rw [h.part .pwr], .of_fab (h.part .fab), h.part .call⟩

theorem of_phase (hp : m.pwr.phase = n.pwr.phase) (h : Within (Part.allBut [.rtc, .fab, .call]) n m) : TickClosed n m :=
  ⟨by rw [h.part .rtc], hp, .of_fab (h.part .fab), h.part .call⟩

theorem ite {c : Prop} [Decidable c] {a b : Node} (ha : TickClosed n a) (hb : TickClosed n b) : TickClosed n (if c then a else b) := by
  split <;> assumption

end TickClosed

theorem applyDomains_tickClosed : TickClosed n n.applyDomains :=
  ⟨applyDomains_refLost.lastTick, applyDomains_drained.phase, fabDemoted_gates.applyDomains n,
    (Within.applyDomains .rfl : Within (Part.allBut [.call]) n _).part .call⟩

theorem wakeNow_tickClosed : TickClosed n n.wakeNow := by
  unfold wakeNow toRun
  dsimp only
  generalize hk : irqEvent _ _ = a
  have ha : TickClosed n a := by
    rw [← hk]
    exact .of_phase rfl (.irqEvent (.mPwr .rfl))
  have hh : TickClosed n a.holdMasks := ha.trans (.frame (.holdMasks .rfl))
  generalize a.holdMasks = b at *
  exact .trans (.trans (.trans hh (.of_phase (m := b.mPwr _) rfl (.mPwr .rfl))) applyDomains_tickClosed) (.frame (.syncCauses .rfl))

theorem invokeAll_tickClosed (l : List (TemplateCfg × List (Option (B64 × Bool)))) : TickClosed n (n.invokeAll l) := by
  unfold invokeAll
  have h : TickClosed n (l.foldl (fun n x => n.invokeOne x.1 x.2) n) := .frame (.foldl _ .rfl fun _ _ => .invokeOne .rfl)
  exact h.trans (.of_phase engine_drained.phase (.engine .rfl))

theorem copyEnds_phase : n.copyEnds.pwr.phase = n.pwr.phase := by
  unfold copyEnds
  split
  · rw [(Within.sendCopy (.mPair .rfl) : Within (Part.allBut [.pwr]) n _).part .pwr]
  · dsimp only [mPwr]
    split <;> rfl

theorem boundaryCopy_tickClosed : TickClosed n n.boundaryCopy := by
  have hm : TickClosed n n.copyMissed := by
    refine .of_phase ?_ (.copyMissed .rfl)
    unfold copyMissed
    split
    · rfl
    · exact copyEnds_phase
  unfold boundaryCopy
  dsimp only
  exact hm.trans (.frame (.mPair (.iteThen .rfl (.sendCopy .rfl))))

theorem startEnds_done (h : n.pwr.phase ∈ [.f, .done]) : n.startEnds.pwr.phase = .done := by
  unfold startEnds
  split
  · rfl
  · next hf =>
    simp only [List.mem_cons, List.not_mem_nil, or_false] at h
    exact h.resolve_left hf

theorem tickEnds_done (h : n.pwr.phase ∈ [.f, .done]) : n.tickEnds.pwr.phase = .done := by
  unfold tickEnds
  dsimp only
  generalize hk : eachDom _ _ = a
  have ha : a.pwr = n.pwr := by
    rw [← hk]
    exact (Within.eachDom (.mDio (.foldl _ (.foldl _ (.refreshDue .rfl) fun _ _ => .updPort .rfl) fun _ _ => .tickCheck .rfl))
      fun _ _ => .releaseDom .rfl : Within (Part.allBut [.pwr]) n _).part .pwr
  exact startEnds_done (ha ▸ h)

/-! The whole tick of the node that issues. -/

/-- Step 1 of the tick, with the pins of the panels: what comes before the commands of the queue. -/
def tickOpens (n : Node) (t : Nat) : Node :=
  let n := (if n.clk.slackEnd then n.slackTimers.slackOver else n).stepFirst t |>.snapshot
  (n.panelEdges n.risingPins).mCall fun c => { c with inPrev := n.dio.inp }

theorem tickOpens_tickKept (t : Nat) (h : n.img.isSome = true) : TickKept n (n.tickOpens t) := by
  unfold tickOpens
  dsimp only
  generalize hk : (if n.clk.slackEnd then n.slackTimers.slackOver else n) = a
  have ha : TickKept n a := by
    rw [← hk]
    exact .ite (slackTimers_tickKept.trans (.frame (.slackOver .rfl))) .rfl
  have hi : a.img.isSome = true := by
    rw [← hk]
    split
    · rwa [(Within.slackOver (.slackTimers .rfl) : Within (Part.allBut [.img]) n _).part .img]
    · exact h
  have hs : TickKept n (a.stepFirst t).snapshot := (ha.trans (stepFirst_tickKept t hi)).trans (.frame (.snapshot .rfl))
  exact (hs.trans (panelEdges_tickKept _)).trans (.frame (.mCall .rfl))

theorem evalCells_queue : (n.applyCommands.evalCells).fab.queue = [] := by
  obtain ⟨_, _, h⟩ := CellsChange.trans (applyCommands_cells (n := n)) evalCells_cells
  exact (congrArg Fab.queue h :)

theorem evalCells_tickKept : TickKept n n.applyCommands.evalCells := by
  obtain ⟨_, _, h⟩ := CellsChange.trans (applyCommands_cells (n := n)) evalCells_cells
  exact .of_count (congrArg Fab.tick h :) (.evalCells (.applyCommands .rfl))

/-- The records of the cells and the step of the call, after the cells are evaluated. -/
theorem callStep_shown (cells : Cells) (entered edges : List Nat) (held : Nat) (hq : n.fab.queue = []) :
    let m := n.recordCells.showSources.callStep cells entered edges held
    m.rtc.lastTick = n.rtc.lastTick ∧ m.pwr.phase = n.pwr.phase ∧ TickShown ((n.fab.tick + 1) % 2 ^ 32) m ∧ m.call.fresh = false := by
  have hw : Within (Part.allBut [.rtc, .pwr]) n (n.recordCells.showSources.callStep cells entered edges held) :=
    .callStep (.showSources (.recordCells .rfl))
  have hs : TickShown ((n.fab.tick + 1) % 2 ^ 32) n.recordCells.showSources := (recordCells_shown hq).demoted showSources_fabDemoted
  exact ⟨by rw [hw.part .rtc], by rw [hw.part .pwr], hs.demoted (.frame (.callStep .rfl)), rfl⟩

/-- What follows the step of the call: the records of the tick go out and the outputs are commanded. -/
def tickHands (n : Node) (t : Nat) (ins : List (TemplateCfg × List (Option (B64 × Bool)))) (wakes : Bool) : Node :=
  let n := if wakes then n.later (n.modeBody .run) else n
  let n := (n.issueLate.commandAll.invokeAll ins).handOver.idleAlerts
  if t % epochLen = 0 then n.shelfEntries.boundaryCopy else n

theorem tickHands_tickClosed (t : Nat) (ins : List (TemplateCfg × List (Option (B64 × Bool)))) (wakes : Bool) :
    TickClosed n (n.tickHands t ins wakes) := by
  have h1 : TickClosed n (if wakes then n.later (n.modeBody .run) else n) := .frame (.iteThen .rfl (.later .rfl))
  unfold tickHands
  dsimp only
  generalize (if wakes then n.later (n.modeBody .run) else n) = a at *
  have h2 : TickClosed n (a.issueLate.commandAll.invokeAll ins) :=
    (h1.trans (.frame (.commandAll (.issueLate .rfl)))).trans (invokeAll_tickClosed ins)
  generalize a.issueLate.commandAll.invokeAll ins = b at *
  have h3 : TickClosed n b.handOver.idleAlerts := h2.trans (.frame (.idleAlerts (.handOver .rfl)))
  exact .ite (h3.trans (.trans (.frame (.shelfEntries .rfl)) boundaryCopy_tickClosed)) h3

/-- The end of the tick, and the wake of a node that an alarm wakes. -/
def tickCloses (n : Node) (wakes : Bool) : Node := if wakes then n.tickEnds.wakeNow else n.tickEnds

theorem tickCloses_spec (wakes : Bool) (hp : n.pwr.phase ∈ [.f, .done]) :
    let m := n.tickCloses wakes
    m.rtc.lastTick = n.rtc.lastTick ∧ FabDemoted n m ∧ m.call = n.call ∧ m.pwr.phase = .done := by
  have he : Within (Part.allBut [.rtc, .fab, .call]) n n.tickEnds := .tickEnds .rfl
  have ht : n.tickEnds.rtc.lastTick = n.rtc.lastTick := by rw [he.part .rtc]
  have hd := tickEnds_done hp
  have hf : FabDemoted n n.tickEnds := .of_fab (he.part .fab)
  unfold tickCloses
  split
  · have hw := wakeNow_tickClosed (n := n.tickEnds)
    exact ⟨hw.time.trans ht, hf.trans hw.fab, hw.call.trans (he.part .call), hw.phase.trans hd⟩
  · exact ⟨ht, hf, he.part .call, hd⟩

theorem dutyTick_eq (t : Nat) : ∃ cells entered edges held ins wakes, n.dutyTick t =
    (((n.tickOpens t).applyCommands.evalCells.recordCells.showSources.callStep cells entered edges held).tickHands t ins wakes).tickCloses
      wakes := ⟨_, _, _, _, _, _, rfl⟩

theorem dutyTick_closes (t : Nat) (h : n.img.isSome = true) (hp : n.pwr.phase ∈ [.f, .done]) :
    let m := n.dutyTick t
    m.rtc.lastTick = n.rtc.lastTick ∧ TickShown ((n.fab.tick + 1) % 2 ^ 32) m ∧ m.call.fresh = false ∧ m.pwr.phase = .done := by
  obtain ⟨cells, entered, edges, held, ins, wakes, he⟩ := n.dutyTick_eq t
  have ho : TickKept n (n.tickOpens t).applyCommands.evalCells := (tickOpens_tickKept t h).trans evalCells_tickKept
  obtain ⟨ht, hph, hs, hf⟩ := callStep_shown cells entered edges held (evalCells_queue (n := n.tickOpens t))
  generalize Node.callStep _ cells entered edges held = a at *
  have hh : TickClosed a (a.tickHands t ins wakes) := tickHands_tickClosed t ins wakes
  obtain ⟨hct, hcf, hcc, hcp⟩ := tickCloses_spec wakes (n := a.tickHands t ins wakes) (by rwa [hh.phase, hph, ho.phase])
  dsimp only
  rw [he, ← ho.count]
  exact ⟨hct.trans (hh.time.trans (ht.trans ho.time)), (hs.demoted hh.fab).demoted hcf, by rw [hcc, hh.call, hf], hcp⟩

/-- The time that the tick begins with. -/
def tickBegun (n : Node) (t : Nat) : Node := (n.setNow t).mRtc fun r => { r with lastTick := some t }

theorem tick_eq (h : n.timed = true) :
    n.tick = (((n.tickBegun (n.nextMultiple tickLen)).firstImage (n.nextMultiple tickLen)).tickWork (n.nextMultiple tickLen)).writeThrough := by
  rw [tick, if_pos h]
  rfl

theorem tick_untimed (h : n.timed = false) : n.tick = n := by
  rw [tick, if_neg (by simp [h])]

theorem activationDue_idle (ha : n.sec.act = none) (hn : n.sec.notice = none) (t : Nat) (ok : Bool) : n.activationDue t ok = n := by
  unfold activationDue
  simp [ha, hn]

theorem firstImage_held (h : n.coreHeld = true) (t : Nat) : n.firstImage t = n := by
  simp [firstImage, coreRuns, h]

theorem firstImage_some (h : n.img.isSome = true) (t : Nat) : n.firstImage t = n := by
  rw [← Option.not_isNone, Bool.not_eq_true'] at h
  simp [firstImage, h]

theorem firstImage_idle (ha : n.sec.act = none) (hn : n.sec.notice = none) (t : Nat) : n.firstImage t = n := by
  rw [firstImage, activationDue_idle ha hn, ite_self]

theorem tickWork_held (h : n.coreHeld = true) (t : Nat) : n.tickWork t = n.mClk fun c => { c with held := c.held + 1 } := by
  rw [tickWork, if_pos h]

theorem tickWork_idle (h : n.coreHeld = false) (hp : n.pwr.parked = true ∨ n.img = none) (t : Nat) : n.tickWork t = n := by
  rw [tickWork, if_neg (by simp [h]), if_pos]
  rcases hp with hp | hp <;> simp [hp]

theorem writeThrough_held (h : n.coreHeld = true) : n.writeThrough = n := by
  simp [writeThrough, h]

theorem writeThrough_off (h : n.jrnl.writeThrough = false) : n.writeThrough = n := by
  simp [writeThrough, h]

/-- The tick of a node that issues and stays in its role is the tick of the duty. -/
theorem tickWork_duty (hh : n.coreHeld = false) (hp : n.pwr.parked = false) (hi : n.img.isSome = true) (hf : n.pwr.phase ∈ [.f, .done])
    (ho : n.ownDuty = true) (hd : n.demoteCause = 0) (ht : n.pair.takeDue = none) (t : Nat) :
    n.tickWork t = (n.mPwr fun p => { p with solvWake := false }).dutyTick t := by
  have hm : (n.mPwr fun p => { p with solvWake := false }).demoteCause = 0 := hd
  have hk : (n.mPwr fun p => { p with solvWake := false }).takeoverAt t = n.mPwr fun p => { p with solvWake := false } := by
    have h : (n.mPwr fun p => { p with solvWake := false }).pair.takeDue = none := ht
    rw [takeoverAt, h]
  have hn : (n.mPwr fun p => { p with solvWake := false }).ownDuty = true := ho
  have hq : n.img.isNone = false := by rwa [← Option.not_isSome, Bool.not_eq_false']
  rw [tickWork, if_neg (by simp [hh]), if_neg]
  · dsimp only
    rw [if_neg (not_not.2 hm), hk, if_pos hn]
  · rw [hp, hq]
    simp only [List.mem_cons, List.not_mem_nil, or_false] at hf
    rcases hf with hf | hf <;> simp [hf]

/-! The epoch boundary. -/

/-- The time of the next sync of the lanes, and who it is for, stand. -/
def SyncsStand (n m : Node) : Prop := m.lane.syncPend = n.lane.syncPend

theorem SyncsStand.trans (h : SyncsStand n m) (g : SyncsStand m k) : SyncsStand n k := Eq.trans g h

theorem SyncsStand.frame (h : Within (Part.allBut [.lane]) n m) : SyncsStand n m := by rw [SyncsStand, h.part .lane]

theorem SyncsStand.ite {c : Prop} [Decidable c] {a b : Node} (ha : SyncsStand n a) (hb : SyncsStand n b) :
    SyncsStand n (if c then a else b) := by
  split <;> assumption

theorem SyncsStand.foldl {β : Type} {f : Node → β → Node} (h : ∀ n x, SyncsStand n (f n x)) (l : List β) (n : Node) :
    SyncsStand n (l.foldl f n) := foldl_rel (R := SyncsStand) (fun _ => rfl) .trans h l n

theorem updLane_syncs (l : Nat) (f : LaneSt → LaneSt) : SyncsStand n (n.updLane l f) := rfl

theorem resetChannel_syncs (c : Nat) : SyncsStand n (n.resetChannel c) := rfl

theorem laneReset_syncs (l t : Nat) : SyncsStand n (n.laneReset l t) := by
  by_cases h : (n.laneSt l).resetAt = some t
  · rw [laneReset_again h]
    exact updLane_syncs _ _
  · rw [laneReset_eq h]
    have hb : SyncsStand n (n.laneBegun l t) := by
      unfold laneBegun
      exact .trans (updLane_syncs _ _) (.foldl (fun _ _ => resetChannel_syncs _) _ _)
    cases n.soleInput l with
    | none => exact hb
    | some i =>
      exact hb.trans (.ite (.frame (.takenOff .rfl)) (updLane_syncs _ _))

theorem syncsDue_syncs (t : Nat) : (n.syncsDue t).lane.syncPend = n.lane.syncPend.filter fun x => decide (t < x.boundary) := by
  unfold syncsDue
  dsimp only
  refine (SyncsStand.foldl (fun m l => ?_) _ _).trans rfl
  refine .ite (.trans (.ite ?_ (laneReset_syncs l t)) (.frame (.laneRecord .rfl))) rfl
  unfold syncCause
  exact .ite (updLane_syncs _ _) rfl

/-- The start of an epoch boundary: node time, the calendar read, the results closed and the syncs that are due. -/
def epochOpens (n : Node) (t : Nat) : Node :=
  let n := n.setNow t
  let n := if n.rtc.halt || n.coreHeld then n else n.loadRtc
  n.closeResults.baselineEntries.syncsDue t

/-- The end of an epoch boundary: the submissions counted anew, and the crystal's clean epoch. -/
def epochCloses (n : Node) : Node :=
  let n := n.mSolv fun s => { s with tmpl := s.tmpl.map fun e => (e.1, { e.2 with hostUsed := 0 }) }
  let n := n.mSolv fun s => { s with tmpl := s.tmpl.filter fun e => e.2 != {} }
  let n := n.mClk fun c => { c with due := c.clean && c.xtal == .ready, clean := c.xtal == .ready }
  n.mPwr fun p => { p with solvHold := false }

theorem epoch_eq (h : n.timed = true) : n.epoch = (n.epochOpens (n.nextMultiple epochLen)).epochCloses := by
  rw [epoch, if_pos h]
  rfl

theorem epoch_untimed (h : n.timed = false) : n.epoch = n := by
  rw [epoch, if_neg (by simp [h])]

theorem epochOpens_within (t : Nat) : Within [.rtc, .afe, .stor, .lane, .jrnl, .tide, .pair] n (n.epochOpens t) := by
  unfold epochOpens
  dsimp only
  exact .syncsDue (.baselineEntries (.closeResults (.iteElse (.setNow .rfl) (.loadRtc .rfl))))

theorem epochOpens_now (t : Nat) : (n.epochOpens t).rtc.now = max n.rtc.now t := by
  unfold epochOpens
  dsimp only
  rw [(Within.syncsDue (.baselineEntries (.closeResults .rfl)) : Within (Part.allBut [.rtc]) _ _).part .rtc]
  split <;> rfl

theorem epochOpens_syncs (t : Nat) : (n.epochOpens t).lane.syncPend = n.lane.syncPend.filter fun x => decide (t < x.boundary) := by
  unfold epochOpens
  dsimp only
  rw [syncsDue_syncs]
  rw [(Within.baselineEntries (.closeResults (.iteElse (.setNow .rfl) (.loadRtc .rfl))) : Within (Part.allBut [.lane]) n _).part .lane]

theorem epochCloses_used : ∀ e ∈ n.epochCloses.solv.tmpl, e.2.hostUsed = 0 := by
  intro e he
  obtain ⟨x, -, rfl⟩ := List.mem_map.1 (List.mem_of_mem_filter he)
  rfl

end Sys2Proof.Machine.Node

open Sys2Proof Sys2Proof.Machine Sys2Proof.Machine.Node

/-- Settles O6: the tick's time, count and queue through each step of an issuing node's tick, and the quiet ticks by their tests. -/
theorem tickBoundary : Obligations.TickBoundary := by
  unfold Obligations.TickBoundary
  intro s n t
  refine ⟨fun h => .of_run tick rfl (tick_untimed h), fun h hh => .of_run tick rfl ?_, fun h hh hq hw => .of_run tick rfl ?_,
    fun h hh hp hi hf ho hd ht => .of_run tick rfl ?_⟩
  · have hb : (n.tickBegun t).coreHeld = true := hh
    have hc : ((n.tickBegun t).mClk fun c => { c with held := c.held + 1 }).coreHeld = true := hh
    rw [tick_eq h]
    change ((n.tickBegun t).firstImage t |>.tickWork t).writeThrough = _
    rw [firstImage_held hb, tickWork_held hb, writeThrough_held hc]
    rfl
  · have hb : (n.tickBegun t).coreHeld = false := hh
    have hv : (n.tickBegun t).jrnl.writeThrough = false := hw
    have hfi : (n.tickBegun t).firstImage t = n.tickBegun t := by
      rcases hq with ⟨-, hi⟩ | ⟨-, ha, hn⟩
      · exact firstImage_some (n := n.tickBegun t) hi t
      · exact firstImage_idle (n := n.tickBegun t) ha hn t
    rw [tick_eq h]
    change ((n.tickBegun t).firstImage t |>.tickWork t).writeThrough = _
    rw [hfi, tickWork_idle hb (hq.imp And.left And.left), writeThrough_off hv]
    rfl
  · rw [tick_eq h]
    change (fun m : Node => m.rtc.lastTick = some t ∧ m.fab.tick = (n.fab.tick + 1) % 2 ^ 32 ∧ m.fab.queue = [] ∧
      m.fab.shown = m.fab.cells ∧ m.call.fresh = false ∧ m.pwr.phase = .done) ((n.tickBegun t).firstImage t |>.tickWork t).writeThrough
    rw [firstImage_some (n := n.tickBegun t) hi, tickWork_duty (n := n.tickBegun t) hh hp hi hf ho hd ht]
    obtain ⟨hti, ⟨hco, hqu, hsh⟩, hfr, hph⟩ :=
      dutyTick_closes (n := (n.tickBegun t).mPwr fun p => { p with solvWake := false }) t hi hf
    generalize Node.dutyTick _ t = m at *
    have hw : Within [.jrnl, .stor] m m.writeThrough := .writeThrough .rfl
    rw [hw.part .rtc, hw.part .fab, hw.part .call, hw.part .pwr]
    exact ⟨hti, hco, hqu, hsh, hfr, hph⟩

/-- Settles O7: the boundary's start moves node time and the syncs, its end counts the submissions anew. -/
theorem epochBoundary : Obligations.EpochBoundary := by
  unfold Obligations.EpochBoundary
  intro s n t
  refine ⟨fun h => .of_run epoch rfl (epoch_untimed h), fun h => .of_run epoch rfl ?_⟩
  change (fun m : Node => m.rtc.now = max n.rtc.now t ∧ m.pwr.solvHold = false ∧
    m.clk.due = (n.clk.clean && decide (n.clk.xtal = .ready)) ∧ m.clk.clean = decide (n.clk.xtal = .ready) ∧
    m.lane.syncPend = n.lane.syncPend.filter (fun x => decide (t < x.boundary)) ∧ (∀ e ∈ m.solv.tmpl, e.2.hostUsed = 0) ∧
    m.fab = n.fab ∧ m.call = n.call ∧ m.dio = n.dio) n.epoch
  rw [epoch_eq h, show n.nextMultiple epochLen = t from rfl]
  have hw : Within [.rtc, .afe, .stor, .lane, .jrnl, .tide, .pair] n (n.epochOpens t) := epochOpens_within t
  have hn : (n.epochOpens t).rtc.now = max n.rtc.now t := epochOpens_now t
  have hs : (n.epochOpens t).lane.syncPend = n.lane.syncPend.filter fun x => decide (t < x.boundary) := epochOpens_syncs t
  generalize n.epochOpens t = m at *
  rw [← hw.part .clk]
  exact ⟨hn, rfl, rfl, rfl, hs, epochCloses_used, hw.part .fab, hw.part .call, hw.part .dio⟩

end

section
/-! The ports of the external interface (17 Port states), and acknowledgements from networks (17 R527, R528, Table 17.5). -/

namespace Sys2Proof.Machine.Node

variable {n m : Node} {p : Nat}

/-! The table of the ports. -/

/-- The node with a table of ports in the place of its own. -/
def withPorts (n : Node) (t : Tab PortSt) : Node := n.mExt fun e => { e with ports := t }

theorem portSt_setPort (hw : twf {} n.ext.ports = true) (p : Nat) (v : PortSt) : (n.setPort p v).portSt p = v := tget_tset_same hw p v

theorem portSt_setPort_other (hw : twf {} n.ext.ports = true) {i : Nat} (hi : i ≠ p) (v : PortSt) : (n.setPort p v).portSt i = n.portSt i :=
  tget_tset_other hw hi v

theorem twf_setPort (hw : twf {} n.ext.ports = true) (p : Nat) (v : PortSt) : twf {} (n.setPort p v).ext.ports = true := twf_tset hw p v

theorem portSt_updPort (hw : twf {} n.ext.ports = true) (p : Nat) (f : PortSt → PortSt) : (n.updPort p f).portSt p = f (n.portSt p) :=
  portSt_setPort hw p _

theorem portSt_updPort_other (hw : twf {} n.ext.ports = true) {i : Nat} (hi : i ≠ p) (f : PortSt → PortSt) :
    (n.updPort p f).portSt i = n.portSt i := portSt_setPort_other hw hi _

theorem twf_updPort (hw : twf {} n.ext.ports = true) (p : Nat) (f : PortSt → PortSt) : twf {} (n.updPort p f).ext.ports = true :=
  twf_setPort hw p _

/-- The ports of a list change, each as given, and nothing else. -/
structure PortsStep (n : Node) (l : List Nat) (f : PortSt → PortSt) (m : Node) : Prop where
  eq : m = n.withPorts m.ext.ports
  wf : twf {} m.ext.ports = true
  get : ∀ i, m.portSt i = if i ∈ l then f (n.portSt i) else n.portSt i

theorem updPort_step (hw : twf {} n.ext.ports = true) (p : Nat) (f : PortSt → PortSt) : PortsStep n [p] f (n.updPort p f) := by
  refine ⟨rfl, twf_updPort hw p f, fun i => ?_⟩
  by_cases h : i = p
  · subst h
    rw [portSt_updPort hw, if_pos (List.mem_singleton.2 rfl)]
  · rw [portSt_updPort_other hw h, if_neg (by simpa using h)]

theorem PortsStep.none (hw : Machine.twf {} n.ext.ports = true) (f : PortSt → PortSt) : PortsStep n [] f n := ⟨rfl, hw, fun _ => rfl⟩

theorem PortsStep.cons {k : Node} {l : List Nat} {f : PortSt → PortSt} (hp : p ∉ l) (h : PortsStep n [p] f m) (g : PortsStep m l f k) :
    PortsStep n (p :: l) f k := by
  refine ⟨?_, g.wf, fun i => ?_⟩
  · rw [g.eq, h.eq]
    rfl
  · rw [g.get, h.get]
    by_cases hi : i = p
    · subst hi
      simp [hp]
    · simp [hi]

/-- Each port of a list is updated once. -/
theorem foldl_updPort (f : PortSt → PortSt) {l : List Nat} (hl : l.Nodup) (hw : twf {} n.ext.ports = true) :
    PortsStep n l f (l.foldl (fun n p => n.updPort p f) n) := by
  induction l generalizing n with
  | nil => exact .none hw f
  | cons p l ih =>
    obtain ⟨hp, hl⟩ := List.nodup_cons.1 hl
    exact .cons hp (updPort_step hw p f) (ih hl (twf_updPort hw p f))

/-! A step begins with nothing on the lines. -/

/-- The port with nothing on its line. -/
def quietPort (x : PortSt) : PortSt := { x with line := [] }

/-- The node at the start of the step: its own, with nothing on the lines of its ports. -/
def Cleared (n c : Node) : Prop := ∃ t, c = n.withPorts t ∧ twf {} t = true ∧ ∀ i < 6, tget {} t i = quietPort (n.portSt i)

theorem clearLines_cleared (hw : twf {} n.ext.ports = true) : Cleared n n.clearLines := by
  obtain ⟨he, ht, hi⟩ := foldl_updPort quietPort (by decide : (List.range 6).Nodup) hw
  exact ⟨_, he, ht, fun i h => (hi i).trans (if_pos (List.mem_range.2 h))⟩

namespace Cleared

variable {c : Node} (h : Cleared n c)
include h

theorem twf : twf {} c.ext.ports = true := by
  obtain ⟨_, rfl, ht, -⟩ := h
  exact ht

theorem portSt_eq {i : Nat} (hi : i < 6) : c.portSt i = quietPort (n.portSt i) := by
  obtain ⟨_, rfl, -, hq⟩ := h
  exact hq i hi

theorem dest_eq (o : Option Nat) : c.dest o = n.dest o := by
  obtain ⟨_, rfl, -, -⟩ := h
  rfl

theorem keeps : Keeps [.ext] n c := by
  obtain ⟨_, rfl, -, -⟩ := h
  exact (show Within [.ext] n _ from .mExt .rfl).keeps

end Cleared

/-! A datagram to each port that sends of those that share it. -/

/-- The port that a message goes out on, or waits at while the transmitters hold idle. -/
def sentOn (idle : Bool) (x : NetMsg) (s : PortSt) : PortSt :=
  if idle then { s with queue := s.queue ++ [⟨.state, noAlert, x⟩] }
  else { s with line := s.line ++ [x], sent := (s.sent + 1) % 2 ^ 32 }

/-- A port of the state given sends. -/
def sendsAs (n : Node) (s : PortSt) : Bool := s.state == portUp && n.ownDuty && !n.coreHeld

/-- The port that a message goes out on where it sends. -/
def sentTo (n : Node) (x : NetMsg) (s : PortSt) : PortSt := if n.sendsAs s then sentOn n.txIdle x s else s

theorem sentTo_withPorts (t : Tab PortSt) (x : NetMsg) : (n.withPorts t).sentTo x = n.sentTo x := rfl

theorem sends_step (hw : twf {} n.ext.ports = true) (p : Nat) (x : NetMsg) :
    PortsStep n [p] (n.sentTo x) (if n.sends p then n.sendOn p x else n) := by
  by_cases h : n.sends p = true
  · rw [if_pos h]
    have hs : n.sentTo x (n.portSt p) = sentOn n.txIdle x (n.portSt p) := if_pos h
    obtain ⟨he, ht, hg⟩ := updPort_step hw p (sentOn n.txIdle x)
    refine ⟨he, ht, fun i => (hg i).trans ?_⟩
    by_cases hi : i = p
    · subst hi
      simp [hs]
    · simp [hi]
  · rw [if_neg h]
    have hs : n.sentTo x (n.portSt p) = n.portSt p := if_neg h
    refine ⟨rfl, hw, fun i => ?_⟩
    by_cases hi : i = p
    · subst hi
      simp [hs]
    · simp [hi]

theorem foldl_sends (x : NetMsg) {l : List Nat} (hl : l.Nodup) (hw : twf {} n.ext.ports = true) :
    PortsStep n l (n.sentTo x) (l.foldl (fun n p => if n.sends p then n.sendOn p x else n) n) := by
  induction l generalizing n with
  | nil => exact .none hw _
  | cons p l ih =>
    obtain ⟨hp, hl⟩ := List.nodup_cons.1 hl
    have h := sends_step hw p x
    rw [List.foldl_cons]
    generalize (if n.sends p then n.sendOn p x else n) = m at *
    have hm : m.sentTo x = n.sentTo x := by
      rw [h.eq]
      rfl
    exact .cons hp h (hm ▸ ih hl h.wf)

theorem twins_nodup (p : Nat) : (n.twins p).Nodup := by
  unfold twins
  split <;> simp

/-- A message of a port that is no serial one goes to each port that shares it and sends. -/
theorem emit_step (hw : twf {} n.ext.ports = true) (hs : (n.port p).any (·.serial) = false) (kind : QKind) (alert : Nat) (x : NetMsg) :
    PortsStep n (n.twins p) (n.sentTo x) (n.emit p kind alert x) := by
  rw [emit, if_neg (by simp [hs])]
  exact foldl_sends x (twins_nodup p) hw

/-! What an acknowledgement leaves. -/

/-- One port changes, from a node with nothing on its lines; the alerts stand. -/
def OnePort (n : Node) (p : Nat) (v : PortSt) (m : Node) : Prop :=
  m.portSt p = v ∧ (∀ i, i ≠ p → i < 6 → m.portSt i = quietPort (n.portSt i)) ∧ m.ext.alerts = n.ext.alerts

/-- An acknowledgement rejected is counted, and shown to the host. -/
def AckRejected (n : Node) (p : Nat) (m : Node) : Prop :=
  OnePort n p { quietPort (n.portSt p) with rejected := satInc 0xFFFF (quietPort (n.portSt p)).rejected } m ∧
    m.ext.flags = setBit n.ext.flags 3 ∧ Keeps [.ext] n m

/-- An acknowledgement taken is counted, and queues the command of its alert at the owner. -/
def AckTaken (n : Node) (k : Nat) (a : AlertCfg) (m : Node) : Prop :=
  let y := quietPort (n.portSt k)
  (m.portSt k).accepted = satInc 0xFFFF y.accepted ∧ (m.portSt k).cmds = y.cmds + 1 ∧ (m.portSt k).rejected = y.rejected ∧
    (n.dest (some a.owner) = .unreachable → m.fab = n.fab ∧ m.tide = n.tide) ∧
    (n.dest (some a.owner) = .own → ∃ q, m.fab.queue = n.fab.queue ++ [q] ∧ q.path = 2 ∧
      (match a.item with | .point i => q.op = 1 ∧ q.target = i | .ladder i => q.op = 0x11 ∧ q.target = i)) ∧
    Keeps [.ext, .fab, .tide] n m

theorem Cleared.onePort (h : Cleared n m) (v : PortSt) : OnePort n p v (m.setPort p v) := by
  refine ⟨portSt_setPort h.twf p v, fun i hi h6 => (portSt_setPort_other h.twf hi v).trans (h.portSt_eq h6), ?_⟩
  obtain ⟨_, rfl, -, -⟩ := h
  rfl

theorem Cleared.rejected (h : Cleared n m) (hp : p < 6) : AckRejected n p (m.rejected p) := by
  have ho := h.onePort (p := p) { quietPort (n.portSt p) with rejected := satInc 0xFFFF (quietPort (n.portSt p)).rejected }
  rw [← h.portSt_eq hp] at ho
  refine ⟨?_, ?_, h.keeps.trans (show Within [.ext] m _ from .rejected .rfl).keeps⟩
  · rw [← h.portSt_eq hp]
    exact ho
  · obtain ⟨_, rfl, -, -⟩ := h
    rfl

theorem takeAck_refused {num : Nat} (h : n.takesAck p = false ∨ n.byAlr p num = none) : n.takeAck p num = n.rejected p := by
  rw [takeAck]
  rcases h with h | h <;> simp [h]

/-- The acknowledgement of an alert that the port maps, while it still takes commands in this tick. -/
theorem takeAck_of {num i : Nat} {a : AlertCfg} (ht : n.takesAck p = true) (hb : n.byAlr p num = some (i, a)) :
    n.takeAck p num = if n.mayQueue p then ((n.acceptedOn p).countCmd p).ackItem a else n.rejected p := by
  rw [takeAck, hb]
  simp [ht]

theorem ackItem_unreachable {a : AlertCfg} (h : n.dest (some a.owner) = .unreachable) : n.ackItem a = n := by
  unfold ackItem
  split
  · simp only [fabNet, h]
  · simp only [callNet, h]

theorem arrive_queue (c : QCmd) (code : Nat) : (n.arrive c code).fab.queue = n.fab.queue ++ [{ c with reason := code }] := by
  unfold arrive
  generalize hk : (if code = (if c.op < 0x10 then 4 else 5) then n.mFab fun f => { f with flags := setBit f.flags 3 } else n) = m
  have hm : m.fab.queue = n.fab.queue := by
    rw [← hk]
    by_cases hc : code = (if c.op < 0x10 then 4 else 5)
    · rw [if_pos hc]
      rfl
    · rw [if_neg hc]
  rw [← hm]
  rfl

theorem ackItem_own {a : AlertCfg} (h : n.dest (some a.owner) = .own) : ∃ q, (n.ackItem a).fab.queue = n.fab.queue ++ [q] ∧ q.path = 2 ∧
    (match a.item with | .point i => q.op = 1 ∧ q.target = i | .ladder i => q.op = 0x11 ∧ q.target = i) := by
  unfold ackItem
  cases a.item with
  | point k =>
    simp only [fabNet, h]
    exact ⟨_, arrive_queue _ _, rfl, rfl, rfl⟩
  | ladder l =>
    simp only [callNet, h]
    exact ⟨_, arrive_queue _ _, rfl, rfl, rfl⟩

theorem Cleared.taken (h : Cleared n m) (hp : p < 6) (a : AlertCfg) : AckTaken n p a (((m.acceptedOn p).countCmd p).ackItem a) := by
  have hs : ((m.acceptedOn p).countCmd p).portSt p =
      { quietPort (n.portSt p) with accepted := satInc 0xFFFF (n.portSt p).accepted, cmds := (n.portSt p).cmds + 1 } := by
    rw [countCmd, portSt_updPort (n := m.acceptedOn p) (twf_updPort h.twf _ _), acceptedOn, portSt_updPort h.twf, h.portSt_eq hp]
    rfl
  have hc : Within [.ext] m ((m.acceptedOn p).countCmd p) := .countCmd (.acceptedOn .rfl)
  have hd : ((m.acceptedOn p).countCmd p).dest (some a.owner) = n.dest (some a.owner) := by
    rw [← h.dest_eq]
    rfl
  have hk := h.keeps.trans hc.keeps
  generalize (m.acceptedOn p).countCmd p = k at *
  have ha : Within [.fab, .tide] k (k.ackItem a) := .ackItem .rfl
  have hsa : (k.ackItem a).portSt p = k.portSt p := by rw [portSt, portSt, ha.part .ext]
  refine ⟨by rw [hsa, hs]; rfl, by rw [hsa, hs]; rfl, by rw [hsa, hs], fun h => ?_, fun h => ?_, ?_⟩
  · rw [ackItem_unreachable (hd.trans h)]
    exact ⟨hk.part .fab (by decide), hk.part .tide (by decide)⟩
  · rw [← (hk.part .fab (by decide) :)]
    exact ackItem_own (hd.trans h)
  · exact (hk.mono (by decide)).trans (ha.keeps.mono (by decide))

theorem Cleared.ackRefused_own {a : AlertCfg} (h : Cleared n m) (hd : n.dest (some a.owner) = .own) (hf : n.queueFull = false) :
    m.ackRefused a = false := by
  have hq : m.queueFull = false := by
    obtain ⟨_, rfl, -, -⟩ := h
    exact hf
  simp only [ackRefused, h.dest_eq, hd, hq]

/-! ACN, which also asks, takes over and silences. -/

theorem takeAcn_refused {ident inst cmd : Nat} (h : n.takesAcn p = false ∨ n.byIdent p ident inst = none) :
    n.takeAcn p ident inst cmd = n.rejected p := by
  rw [takeAcn]
  rcases h with h | h <;> simp [h]

section Acn

variable {ident inst i : Nat} {a : AlertCfg} (ht : n.takesAcn p = true) (hb : n.byIdent p ident inst = some (i, a))
include ht hb

theorem takeAcn_full (hq : n.mayQueue p = false) : n.takeAcn p ident inst 0 = n.rejected p := by
  rw [takeAcn, hb]
  simp [ht, hq, acnQ, acnO, acnS]

theorem takeAcn_ack (hq : n.mayQueue p = true) (hr : n.ackRefused a = false) :
    n.takeAcn p ident inst 0 = ((n.acceptedOn p).countCmd p).ackItem a := by
  rw [takeAcn, hb]
  simp [ht, hq, hr, acnQ, acnO, acnS]

theorem takeAcn_unheard {cmd : Nat} (h0 : cmd ≠ 0) (h3 : cmd < 4) (hs : (n.acceptedOn p).speaks p = false) :
    n.takeAcn p ident inst cmd = n.acceptedOn p := by
  have h : cmd = acnQ ∨ cmd = acnO ∨ cmd = acnS := by
    simp only [acnQ, acnO, acnS]
    omega
  rw [takeAcn, hb]
  rcases h with rfl | rfl | rfl <;> simp [ht, hs, acnQ, acnO, acnS]

theorem takeAcn_answered {cmd : Nat} (h2 : 2 ≤ cmd) (h3 : cmd < 4) (hs : (n.acceptedOn p).speaks p = true) :
    n.takeAcn p ident inst cmd = (n.acceptedOn p).emit p .arc noAlert (n.say p (.arc ident inst cmd)) := by
  have h : cmd = acnO ∨ cmd = acnS := by
    simp only [acnO, acnS]
    omega
  rw [takeAcn, hb]
  rcases h with rfl | rfl <;> simp only [ht, hs, acnQ, acnO, acnS] <;> rfl

end Acn

theorem PortsStep.sends {l : List Nat} {f : PortSt → PortSt} (h : PortsStep n l f m) (hf : ∀ s, (f s).state = s.state) (i : Nat) :
    m.sends i = n.sends i := by
  have hs : (m.portSt i).state = (n.portSt i).state := by
    rw [h.get]
    split
    · exact hf _
    · rfl
  have ho : m.ownDuty = n.ownDuty := by
    rw [h.eq]
    rfl
  have hc : m.coreHeld = n.coreHeld := by
    rw [h.eq]
    rfl
  rw [Node.sends, Node.sends, hs, ho, hc]

theorem acceptedOn_step (hw : twf {} n.ext.ports = true) :
    PortsStep n [p] (fun s => { s with accepted := satInc 0xFFFF s.accepted }) (n.acceptedOn p) := updPort_step hw p _

theorem acceptedOn_sends (hw : twf {} n.ext.ports = true) (i : Nat) : (n.acceptedOn p).sends i = n.sends i :=
  (acceptedOn_step hw).sends (fun _ => rfl) i

theorem Cleared.sends_eq (h : Cleared n m) {i : Nat} (hi : i < 6) : m.sends i = n.sends i := by
  have hs := h.portSt_eq hi
  obtain ⟨_, rfl, -, -⟩ := h
  rw [sends, sends, hs]
  rfl

theorem mem_twins {i : Nat} (hp : p < 6) (h : i ∈ n.twins p) : i < 6 := by
  unfold twins at h
  split at h <;> simp at h <;> omega

/-- A port speaks as it did before a sentence came in on it. -/
theorem Cleared.speaks_acceptedOn (h : Cleared n m) (hp : p < 6) : (m.acceptedOn p).speaks p = n.speaks p := by
  have ht : (m.acceptedOn p).twins p = n.twins p := by
    obtain ⟨_, rfl, -, -⟩ := h
    rfl
  rw [speaks, speaks, ht]
  rw [Bool.eq_iff_iff, List.any_eq_true, List.any_eq_true]
  refine exists_congr fun i => and_congr_right fun hi => ?_
  rw [acceptedOn_sends h.twf, h.sends_eq (mem_twins hp hi)]

theorem Cleared.accepted (h : Cleared n m) (hp : p < 6) :
    OnePort n p { quietPort (n.portSt p) with accepted := satInc 0xFFFF (quietPort (n.portSt p)).accepted } (m.acceptedOn p) := by
  rw [← h.portSt_eq hp]
  exact h.onePort _

/-- The port that a sentence came in on, and the others, before the answer to it. -/
def heardOn (n : Node) (p i : Nat) : PortSt := { n.portSt i with
  line := []
  accepted := if i = p then satInc 0xFFFF (n.portSt i).accepted else (n.portSt i).accepted }

theorem OnePort.heardOn {i : Nat}
    (h : OnePort n p { quietPort (n.portSt p) with accepted := satInc 0xFFFF (quietPort (n.portSt p)).accepted } m) (hi : i < 6) :
    m.portSt i = n.heardOn p i := by
  obtain ⟨h1, h2, -⟩ := h
  unfold Node.heardOn
  by_cases hip : i = p
  · subst hip
    rw [h1, if_pos rfl]
    rfl
  · rw [h2 i hip hi, if_neg hip]
    rfl

/-- The answer to a sentence goes out on each port that shares the one it came in on. -/
theorem Cleared.answers (h : Cleared n m) (hp : p < 6) (hs : (n.port p).any (·.serial) = false) (x : NetMsg) {i : Nat} (hi : i < 6) :
    ((m.acceptedOn p).emit p .arc noAlert x).portSt i =
      if (n.twins p).contains i && n.sends i then sentOn n.txIdle x (n.heardOn p i) else n.heardOn p i := by
  have hx : (m.acceptedOn p).portSt i = n.heardOn p i := (h.accepted hp).heardOn hi
  have hk : (m.acceptedOn p).sends i = n.sends i := (acceptedOn_sends h.twf i).trans (h.sends_eq hi)
  have hs' : ((m.acceptedOn p).port p).any (·.serial) = false := by
    obtain ⟨_, rfl, -, -⟩ := h
    exact hs
  have ht : (m.acceptedOn p).twins p = n.twins p := by
    obtain ⟨_, rfl, -, -⟩ := h
    rfl
  have he := emit_step (acceptedOn_step h.twf).wf hs' .arc noAlert x
  rw [ht] at he
  have hi : (m.acceptedOn p).txIdle = n.txIdle := by
    obtain ⟨_, rfl, -, -⟩ := h
    rfl
  rw [he.get, hx]
  by_cases hm : i ∈ n.twins p
  · have hc : (m.acceptedOn p).sentTo x (n.heardOn p i) = if (m.acceptedOn p).sends i then sentOn (m.acceptedOn p).txIdle x (n.heardOn p i) else n.heardOn p i := by
      rw [sends, hx]
      rfl
    simp [hm, hc, hk, hi]
  · simp [hm]

theorem Cleared.port_eq (h : Cleared n m) (i : Nat) : m.port i = n.port i := by
  obtain ⟨_, rfl, -, -⟩ := h
  rfl

theorem Cleared.say_eq (h : Cleared n m) (x : Sentence) : m.say p x = n.say p x := by
  obtain ⟨_, rfl, -, -⟩ := h
  rfl

theorem Cleared.answers_alerts (h : Cleared n m) (hs : (n.port p).any (·.serial) = false) (x : NetMsg) :
    ((m.acceptedOn p).emit p .arc noAlert x).ext.alerts = n.ext.alerts := by
  have hs' : ((m.acceptedOn p).port p).any (·.serial) = false := by
    obtain ⟨_, rfl, -, -⟩ := h
    exact hs
  rw [(emit_step (acceptedOn_step h.twf).wf hs' .arc noAlert x).eq]
  obtain ⟨_, rfl, -, -⟩ := h
  rfl

/-! A datagram, each of whose sentences is taken or rejected. -/

theorem rejected_portSt (hw : twf {} n.ext.ports = true) :
    (n.rejected p).portSt p = { n.portSt p with rejected := satInc 0xFFFF (n.portSt p).rejected } :=
  portSt_updPort hw p fun s => { s with rejected := satInc 0xFFFF s.rejected }

theorem twf_rejected (hw : twf {} n.ext.ports = true) : twf {} (n.rejected p).ext.ports = true :=
  twf_updPort hw p fun s => { s with rejected := satInc 0xFFFF s.rejected }

theorem foldl_rejected (hw : twf {} n.ext.ports = true) (l : List RxSentence) :
    ((l.foldl (fun n _ => n.rejected p) n).portSt p).rejected = l.foldl (fun r _ => satInc 0xFFFF r) (n.portSt p).rejected ∧
      ((l.foldl (fun n _ => n.rejected p) n).portSt p).cmds = (n.portSt p).cmds := by
  induction l generalizing n with
  | nil => exact ⟨rfl, rfl⟩
  | cons x l ih =>
    have h := ih (n := n.rejected p) (twf_rejected hw)
    rw [rejected_portSt hw] at h
    exact h

theorem takeDatagram_unheard {sfi : Nat} (h : (n.hears p && (n.port p).any fun k => k.service 0 && k.sfis.contains sfi) = false)
    (l : List RxSentence) : n.takeDatagram p sfi l = l.foldl (fun n _ => n.rejected p) n := by
  rw [takeDatagram, h]
  rfl

theorem takeDatagram_heard {sfi : Nat} (h : (n.hears p && (n.port p).any fun k => k.service 0 && k.sfis.contains sfi) = true) :
    n.takeDatagram p sfi [] = n ∧ n.takeDatagram p sfi [.other] = n.rejected p ∧
      (∀ num, n.takeDatagram p sfi [.ack num] = n.takeAck p num) ∧
      ∀ ident inst cmd, n.takeDatagram p sfi [.acn ident inst cmd] = n.takeAcn p ident inst cmd := by
  refine ⟨rfl, ?_, fun _ => ?_, fun _ _ _ => ?_⟩ <;> rw [takeDatagram, h] <;> rfl

theorem exec_udpbc_ack {s : State} {port : Fin 6} {sfi num : Nat}
    (h : s.node.clearLines.takeDatagram port.val sfi [.ack num] = s.node.clearLines.takeAck port.val num) :
    exec (.udpbcDatagram port sfi [.ack num]) s = exec (.ackSentence port num) s := by
  change s.run (fun n => n.clearLines.takeDatagram port.val sfi [.ack num]) = s.run fun n => n.clearLines.takeAck port.val num
  rw [State.run, State.run, h]

theorem exec_udpbc_acn {s : State} {port : Fin 6} {sfi ident inst : Nat} {l : Fin 4}
    (h : s.node.clearLines.takeDatagram port.val sfi [.acn ident inst l.val] = s.node.clearLines.takeAcn port.val ident inst l.val) :
    exec (.udpbcDatagram port sfi [.acn ident inst l.val]) s = exec (.acnSentence port ident inst l) s := by
  change s.run (fun n => n.clearLines.takeDatagram port.val sfi [.acn ident inst l.val]) =
    s.run fun n => n.clearLines.takeAcn port.val ident inst l.val
  rw [State.run, State.run, h]

/-- The response of NMEA 2000 to an alert, on the CAN port. -/
def takeResponse (n : Node) (ident occ cmd : Nat) : Node :=
  if cmd ≠ 0 ∨ !n.hears 3 ∨ !(n.port 3).any (fun k => k.kind == 4 && k.ackAccept) then n
  else match (n.portAlerts 3).find? fun e => e.2.n2kIdent == ident && e.2.n2kOcc == occ with
    | none => n.rejected 3
    | some (_, c) => if n.mayQueue 3 then ((n.acceptedOn 3).countCmd 3).ackItem c else n.rejected 3

theorem takeResponse_other {ident occ cmd : Nat} (h : cmd ≠ 0) : n.takeResponse ident occ cmd = n := if_pos (.inl h)

theorem takeResponse_ack {ident occ : Nat} {e : Nat × AlertCfg} (hh : n.hears 3 = true)
    (hk : (n.port 3).any (fun k => k.kind == 4 && k.ackAccept) = true)
    (hf : (n.portAlerts 3).find? (fun e => e.2.n2kIdent == ident && e.2.n2kOcc == occ) = some e) (hq : n.mayQueue 3 = true) :
    n.takeResponse ident occ 0 = ((n.acceptedOn 3).countCmd 3).ackItem e.2 := by
  rw [takeResponse, if_neg (by simp [hh, hk]), hf]
  exact if_pos hq

end Sys2Proof.Machine.Node

open Sys2Proof Sys2Proof.Machine Sys2Proof.Machine.Node

section Given

variable {s : State} (hw : twf {} s.node.ext.ports = true) (port : Fin 6)
include hw

theorem mayQueue_clearLines : s.node.clearLines.mayQueue port.val = decide ((s.node.portSt port.val).cmds < 16) := by
  rw [mayQueue, (clearLines_cleared hw).portSt_eq port.isLt]
  rfl

theorem ackSentence_gives (num : Nat) :
    (s.node.clearLines.takesAck port.val = false ∨ s.node.clearLines.byAlr port.val num = none →
      Gives (.ackSentence port num) s (AckRejected s.node port.val)) ∧
    ∀ i a, s.node.clearLines.takesAck port.val = true → s.node.clearLines.byAlr port.val num = some (i, a) →
      (16 ≤ (s.node.portSt port.val).cmds → Gives (.ackSentence port num) s (AckRejected s.node port.val)) ∧
      ((s.node.portSt port.val).cmds < 16 → Gives (.ackSentence port num) s (AckTaken s.node port.val a)) := by
  have h := clearLines_cleared hw
  have hrun (q : Node → Prop) (hq : q (s.node.clearLines.takeAck port.val num)) : Gives (.ackSentence port num) s q :=
    .of_run (fun n => n.clearLines.takeAck port.val num) rfl hq
  have hx := mayQueue_clearLines hw port
  refine ⟨fun hr => hrun _ ?_, fun i a ht hb => ⟨fun hq => hrun _ ?_, fun hq => hrun _ ?_⟩⟩
  · rw [takeAck_refused hr]
    exact h.rejected port.isLt
  · rw [takeAck_of ht hb, hx, if_neg (by simpa using hq)]
    exact h.rejected port.isLt
  · rw [takeAck_of ht hb, hx, if_pos (decide_eq_true hq)]
    exact h.taken port.isLt a

theorem acnSentence_refused {ident inst : Nat} (l : Fin 4)
    (hr : s.node.clearLines.takesAcn port.val = false ∨ s.node.clearLines.byIdent port.val ident inst = none) :
    Gives (.acnSentence port ident inst l) s (AckRejected s.node port.val) := by
  refine .of_run (fun n => n.clearLines.takeAcn port.val ident inst l.val) rfl ?_
  rw [takeAcn_refused hr]
  exact (clearLines_cleared hw).rejected port.isLt

section Mapped

variable {ident inst i : Nat} {a : AlertCfg} (ht : s.node.clearLines.takesAcn port.val = true)
  (hb : s.node.clearLines.byIdent port.val ident inst = some (i, a))
include ht hb

theorem acnSentence_gives :
    (s.node.dest (some a.owner) = .own → s.node.queueFull = false → (s.node.portSt port.val).cmds < 16 →
      Gives (.acnSentence port ident inst 0) s (AckTaken s.node port.val a)) ∧
    (16 ≤ (s.node.portSt port.val).cmds → Gives (.acnSentence port ident inst 0) s (AckRejected s.node port.val)) := by
  have h := clearLines_cleared hw
  have hrun (q : Node → Prop) (hq : q (s.node.clearLines.takeAcn port.val ident inst 0)) : Gives (.acnSentence port ident inst 0) s q :=
    .of_run (fun n => n.clearLines.takeAcn port.val ident inst 0) rfl hq
  have hx := mayQueue_clearLines hw port
  refine ⟨fun hd hf hq => hrun _ ?_, fun hq => hrun _ ?_⟩
  · rw [takeAcn_ack ht hb (hx.trans (decide_eq_true hq)) (h.ackRefused_own hd hf)]
    exact h.taken port.isLt a
  · rw [takeAcn_full ht hb (hx.trans (decide_eq_false (by omega)))]
    exact h.rejected port.isLt

theorem acnSentence_unheard {l : Fin 4} (hl : l ≠ 0) (hs : s.node.speaks port.val = false) :
    Gives (.acnSentence port ident inst l) s fun m => OnePort s.node port.val { quietPort (s.node.portSt port.val) with
      accepted := satInc 0xFFFF (quietPort (s.node.portSt port.val)).accepted } m ∧ Keeps [.ext] s.node m := by
  have h := clearLines_cleared hw
  refine .of_run (fun n => n.clearLines.takeAcn port.val ident inst l.val) rfl ?_
  rw [takeAcn_unheard ht hb (by omega) l.isLt ((h.speaks_acceptedOn port.isLt).trans hs)]
  exact ⟨h.accepted port.isLt, h.keeps.trans (show Within [.ext] _ _ from .acceptedOn .rfl).keeps⟩

theorem acnSentence_answered {l : Fin 4} (hl : 2 ≤ l.val) (hs : s.node.speaks port.val = true)
    (hk : (s.node.port port.val).any (·.serial) = false) :
    Gives (.acnSentence port ident inst l) s fun m =>
      (∀ i, i < 6 → m.portSt i = if (s.node.twins port.val).contains i && s.node.sends i then
        sentOn s.node.txIdle (s.node.say port.val (.arc ident inst l.val)) (s.node.heardOn port.val i) else s.node.heardOn port.val i) ∧
      m.ext.alerts = s.node.ext.alerts ∧ Keeps [.ext] s.node m := by
  have h := clearLines_cleared hw
  refine .of_run (fun n => n.clearLines.takeAcn port.val ident inst l.val) rfl ?_
  rw [takeAcn_answered ht hb hl l.isLt ((h.speaks_acceptedOn port.isLt).trans hs), h.say_eq]
  exact ⟨fun i hi => h.answers port.isLt hk _ hi, h.answers_alerts hk _,
    h.keeps.trans (show Within [.ext] _ _ from .emit (.acceptedOn .rfl)).keeps⟩

end Mapped

theorem udpbc_unheard {sfi : Nat} (l : List RxSentence)
    (hu : (s.node.clearLines.hears port.val && (s.node.port port.val).any fun k => k.service 0 && k.sfis.contains sfi) = false) :
    Gives (.udpbcDatagram port sfi l) s fun m =>
      (m.portSt port.val).rejected = l.foldl (fun r _ => satInc 0xFFFF r) (s.node.portSt port.val).rejected ∧
        (m.portSt port.val).cmds = (s.node.portSt port.val).cmds ∧ Keeps [.ext] s.node m := by
  have h := clearLines_cleared hw
  obtain ⟨hr, hc⟩ := foldl_rejected (p := port.val) h.twf l
  rw [h.portSt_eq port.isLt] at hr hc
  rw [← h.port_eq] at hu
  refine .of_run (fun n => n.clearLines.takeDatagram port.val sfi l) rfl ?_
  rw [takeDatagram_unheard hu]
  exact ⟨hr, hc, h.keeps.trans (show Within [.ext] _ _ from .foldl _ .rfl fun _ _ => .rejected .rfl).keeps⟩

theorem udpbc_gives {sfi : Nat} (num ident inst : Nat)
    (hu : (s.node.clearLines.hears port.val && (s.node.port port.val).any fun k => k.service 0 && k.sfis.contains sfi) = true) :
    Answers (.udpbcDatagram port sfi []) s s.node.clearLines ∧ Gives (.udpbcDatagram port sfi [.other]) s (AckRejected s.node port.val) ∧
      exec (.udpbcDatagram port sfi [.ack num]) s = exec (.ackSentence port num) s ∧
      ∀ l : Fin 4, exec (.udpbcDatagram port sfi [.acn ident inst l.val]) s = exec (.acnSentence port ident inst l) s := by
  have h := clearLines_cleared hw
  rw [← h.port_eq] at hu
  obtain ⟨h0, h1, h2, h3⟩ := takeDatagram_heard hu
  refine ⟨.of_run (fun n => n.clearLines.takeDatagram port.val sfi []) rfl h0,
    .of_run (fun n => n.clearLines.takeDatagram port.val sfi [.other]) rfl ?_, exec_udpbc_ack (h2 num), fun l => exec_udpbc_acn (h3 _ _ _)⟩
  rw [h1]
  exact h.rejected port.isLt

theorem alertResponse_gives {ident occ : Nat} {e : Nat × AlertCfg} (hh : s.node.clearLines.hears 3 = true)
    (hk : (s.node.port 3).any (fun k => k.kind == 4 && k.ackAccept) = true)
    (hf : (s.node.clearLines.portAlerts 3).find? (fun e => e.2.n2kIdent == ident && e.2.n2kOcc == occ) = some e)
    (hq : (s.node.portSt 3).cmds < 16) : Gives (.alertResponse ident occ 0) s (AckTaken s.node 3 e.2) := by
  have h := clearLines_cleared hw
  refine .of_run (fun n => n.clearLines.takeResponse ident occ 0) rfl ?_
  rw [← h.port_eq] at hk
  rw [takeResponse_ack hh hk hf ((mayQueue_clearLines hw 3).trans (decide_eq_true hq))]
  exact h.taken (by decide) e.2

end Given

/-- Settles O53: each sentence on the node with nothing on its lines is rejected, taken, or answered. -/
theorem networkAcknowledgements : Obligations.NetworkAcknowledgements := by
  unfold Obligations.NetworkAcknowledgements
  intro s port num ident inst occ cmd n c p x one rejects takes hw
  refine ⟨(ackSentence_gives hw port num).1, (ackSentence_gives hw port num).2, fun l => acnSentence_refused hw port l,
    fun i a ht hb => ⟨(acnSentence_gives hw port ht hb).1, (acnSentence_gives hw port ht hb).2,
      fun l hl hs => acnSentence_unheard hw port ht hb hl hs, fun l hl hs hk => acnSentence_answered hw port ht hb hl hs hk⟩,
    fun sfi l hu => udpbc_unheard hw port l hu, fun sfi hu => udpbc_gives hw port num ident inst hu,
    fun h0 => .of_run (fun n => n.clearLines.takeResponse ident occ cmd) rfl (takeResponse_other h0),
    fun e hh hk hf hq => alertResponse_gives hw hh hk hf hq⟩

end

section
/-! The repeats of the alerts on the ports, and the serial ports' sentences (17 R525, R526, Table 17.4). -/

namespace Sys2Proof.Machine.Node

variable {n m : Node} {p k : Nat}

/-- A count kept through a list of steps, each of which adds to it or not. -/
theorem foldl_count {β : Type} {R : Nat → Node → Prop} {f : Node → β → Node} (g : β → Bool)
    (h : ∀ k m x, R k m → R (if g x then k + 1 else k) (f m x)) (l : List β) {k : Nat} {m : Node} (hm : R k m) :
    R (k + (l.filter g).length) (l.foldl f m) := by
  induction l generalizing k m with
  | nil => exact hm
  | cons x l ih =>
    rw [List.foldl_cons, List.filter_cons]
    have hx := ih (h k m x hm)
    split at hx
    · next hg => rwa [if_pos hg, List.length_cons, Nat.add_comm _ 1, ← Nat.add_assoc]
    · next hg => rwa [if_neg hg]

theorem chunks_length {α : Type} {f : Nat} {l : List α} (hf : l.length ≤ f) : (chunks 4 f l).length = (l.length + 3) / 4 := by
  induction f generalizing l with
  | zero =>
    rw [List.length_eq_zero_iff.1 (Nat.le_zero.1 hf)]
    simp [chunks]
  | succ f ih =>
    cases l with
    | nil => simp [chunks]
    | cons x l =>
      have hd : ((x :: l).drop 4).length ≤ f := by
        rw [List.length_drop]
        simp only [List.length_cons] at hf ⊢
        omega
      rw [chunks, if_neg (by simp), List.length_cons, ih hd, List.length_drop]
      simp only [List.length_cons]
      omega

theorem filterMap_ite_length {α β : Type} (f : α → β) (g : α → Bool) (l : List α) :
    (l.filterMap fun x => if g x then some (f x) else none).length = (l.filter g).length := by
  induction l with
  | nil => rfl
  | cons x l ih =>
    rw [List.filterMap_cons, List.filter_cons]
    cases g x <;> simp [ih]

/-! What a port sends of a repeat. -/

/-- A port from which `k` messages went out, or wait while the transmitters hold idle. -/
def OutBy (idle : Bool) (y : PortSt) (k : Nat) (z : PortSt) : Prop := z.state = y.state ∧
  if idle then z.line = y.line ∧ z.queue.length = y.queue.length + k ∧ z.sent = y.sent
  else z.line.length = y.line.length + k ∧ z.queue = y.queue ∧ z.sent = (y.sent + k) % 2 ^ 32

theorem OutBy.zero {idle : Bool} {y : PortSt} (h : y.sent < 2 ^ 32) : OutBy idle y 0 y := by
  refine ⟨rfl, ?_⟩
  split
  · exact ⟨rfl, rfl, rfl⟩
  · exact ⟨rfl, rfl, (Nat.mod_eq_of_lt h).symm⟩

theorem OutBy.sentOn {idle : Bool} {y z : PortSt} (h : OutBy idle y k z) (x : NetMsg) : OutBy idle y (k + 1) (sentOn idle x z) := by
  obtain ⟨hs, h⟩ := h
  cases idle with
  | true =>
    obtain ⟨hl, hq, ht⟩ := h
    exact ⟨hs, hl, by simp [Node.sentOn, hq, Nat.add_assoc], ht⟩
  | false =>
    obtain ⟨hl, hq, ht⟩ := h
    exact ⟨hs, by simp [Node.sentOn, hl, Nat.add_assoc], hq, by simp [Node.sentOn, ht]; omega⟩

/-- Only the ports changed, and `k` messages went out on the one named. -/
structure SentBy (n : Node) (p k : Nat) (m : Node) : Prop where
  eq : m = n.withPorts m.ext.ports
  wf : twf {} m.ext.ports = true
  out : OutBy n.txIdle (n.portSt p) k (m.portSt p)

theorem mem_twins_self : p ∈ n.twins p := by
  unfold twins
  split
  · next h =>
    obtain ⟨h | h, -⟩ := h <;> simp [h]
  · simp

theorem SentBy.emit (h : SentBy n p k m) (hs : (n.port p).any (·.serial) = false) (hp : n.sends p = true) (kind : QKind) (alert : Nat)
    (x : NetMsg) : SentBy n p (k + 1) (m.emit p kind alert x) := by
  obtain ⟨he, hw, ho⟩ := h
  have hs' : (m.port p).any (·.serial) = false := by
    rw [he]
    exact hs
  obtain ⟨ge, gw, gg⟩ := emit_step hw hs' kind alert x
  have hst : m.sentTo x (m.portSt p) = sentOn n.txIdle x (m.portSt p) := by
    have hi : m.txIdle = n.txIdle := by
      rw [he]
      rfl
    have hd : m.sendsAs (m.portSt p) = true := by
      rw [sendsAs, ho.1]
      rw [he]
      exact hp
    rw [sentTo, if_pos hd, hi]
  refine ⟨?_, gw, ?_⟩
  · rw [ge, he]
    rfl
  · rw [gg, if_pos mem_twins_self, hst]
    exact ho.sentOn x

/-- The count of the messages of a port goes on. -/
theorem SentBy.msgId (h : SentBy n p k m) (q : Nat) : SentBy n p k (m.updPort q fun s => { s with msgId := (s.msgId + 1) % 10 }) := by
  obtain ⟨he, hw, ho⟩ := h
  obtain ⟨ge, gw, gg⟩ := updPort_step hw q fun s => { s with msgId := (s.msgId + 1) % 10 }
  refine ⟨?_, gw, ?_⟩
  · rw [ge, he]
    rfl
  · rw [gg]
    split
    · exact ho
    · exact ho

section Repeats

variable (hw : twf {} n.ext.ports = true) (hs : (n.port p).any (·.serial) = false) (hp : n.sends p = true)
  (ht : (n.portSt p).sent < 2 ^ 32)

theorem SentBy.zero (hw : twf {} n.ext.ports = true) (ht : (n.portSt p).sent < 2 ^ 32) : SentBy n p 0 n := ⟨rfl, hw, .zero ht⟩

theorem SentBy.alertSt_eq (h : SentBy n p k m) (i : Nat) : m.alertSt i = n.alertSt i := by
  rw [h.eq]
  rfl

include hs hp

theorem SentBy.emitAlf (h : SentBy n p k m) (kind : QKind) (i : Nat) (c : AlertCfg) : SentBy n p (k + 1) (m.emitAlf p kind i c) :=
  (h.emit hs hp kind i _).msgId _

include hw ht

/-- ALF goes to each alert that shows. -/
theorem repeatAlf_sent (hr : (n.speaks p && n.alertPort p == p && (n.port p).any (fun k => k.sentences && k.alf)) = true) :
    SentBy n p ((n.portAlerts p).filter fun e => (n.alertSt e.1).shown).length (n.repeatAlf p) := by
  rw [repeatAlf, if_pos hr]
  have h := foldl_count (R := SentBy n p) (fun e : Nat × AlertCfg => (n.alertSt e.1).shown)
    (f := fun m e => if (m.alertSt e.1).shown then m.emitAlf p .rep e.1 e.2 else m) (fun k m e h => ?_) (n.portAlerts p) (.zero hw ht)
  · rwa [Nat.zero_add] at h
  · rw [h.alertSt_eq]
    cases (n.alertSt e.1).shown
    · exact h
    · exact h.emitAlf hs hp .rep e.1 e.2

/-- ALR goes to each alert that shows and has a number of its own. -/
theorem repeatAlr_sent (hr : (n.speaks p && n.alertPort p == p && (n.port p).any (fun k => k.sentences && k.legacy)) = true) :
    SentBy n p ((n.portAlerts p).filter fun e => e.2.alrNum.isSome && (n.alertSt e.1).shown).length (n.repeatAlr p) := by
  rw [repeatAlr, if_pos hr]
  have h := foldl_count (R := SentBy n p) (fun e : Nat × AlertCfg => e.2.alrNum.isSome && (n.alertSt e.1).shown)
    (f := fun m e => if (m.alertSt e.1).shown then m.emitAlr p .rep e.1 e.2 else m) (fun k m e h => ?_) (n.portAlerts p) (.zero hw ht)
  · rwa [Nat.zero_add] at h
  · rw [h.alertSt_eq, emitAlr]
    cases (n.alertSt e.1).shown
    · rwa [Bool.and_false]
    · cases e.2.alrNum
      · exact h
      · exact h.emit hs hp .rep e.1 _

/-- The cyclic list names four alerts to a sentence, and goes out empty where none shows. -/
theorem emitAlc_sent : SentBy n p (max 1 ((((n.portAlerts p).filter fun e => (n.alertSt e.1).shown).length + 3) / 4)) (n.emitAlc p) := by
  unfold emitAlc
  dsimp only
  generalize hl : List.filterMap _ _ = l
  have hlen : l.length = ((n.portAlerts p).filter fun e => (n.alertSt e.1).shown).length := by
    rw [← hl]
    exact filterMap_ite_length _ (fun e : Nat × AlertCfg => (n.alertSt e.1).shown) _
  have hgroups : (if l.isEmpty then [[]] else chunks 4 l.length l).length = max 1 ((l.length + 3) / 4) := by
    cases l with
    | nil => rfl
    | cons x l =>
      rw [if_neg (by simp), chunks_length (Nat.le_refl _), List.length_cons]
      omega
  rw [← hlen, ← hgroups]
  have h := foldl_count (R := SentBy n p) (fun _ => true) (f := fun m g => m.emit p .rep noAlert (m.say p (.alc g)))
    (fun k m g h => h.emit hs hp .rep noAlert _) (if l.isEmpty then [[]] else chunks 4 l.length l) (.zero hw ht)
  rwa [Nat.zero_add, List.filter_true] at h

theorem cycleAlc_sent (hr : (n.speaks p && n.alertPort p == p && (n.port p).any (fun k => k.sentences && k.alf)) = true) :
    SentBy n p (max 1 ((((n.portAlerts p).filter fun e => (n.alertSt e.1).shown).length + 3) / 4)) (n.cycleAlc p) := by
  rw [cycleAlc, if_pos hr]
  exact emitAlc_sent hw hs hp ht

end Repeats

/-! A serial port sends one sentence at a time, from 64 at most. -/

/-- Only the ports changed, and the queue of the one named stays within 64 messages. -/
structure RoomBy (n : Node) (p : Nat) (m : Node) : Prop where
  eq : m = n.withPorts m.ext.ports
  wf : twf {} m.ext.ports = true
  room : (n.portSt p).queue.length ≤ 64 → (m.portSt p).queue.length ≤ 64

theorem RoomBy.step {l : List Nat} {f : PortSt → PortSt} {a : Node} (h : RoomBy n p m) (g : PortsStep m l f a)
    (hf : ∀ s : PortSt, s.queue.length ≤ 64 → (f s).queue.length ≤ 64) : RoomBy n p a := by
  obtain ⟨he, hw, hq⟩ := h
  refine ⟨?_, g.wf, ?_⟩
  · rw [g.eq, he]
    rfl
  · rw [g.get]
    split
    · exact fun h => hf _ (hq h)
    · exact hq

theorem RoomBy.msgId (h : RoomBy n p m) (q : Nat) : RoomBy n p (m.updPort q fun s => { s with msgId := (s.msgId + 1) % 10 }) :=
  h.step (updPort_step h.wf _ _) fun _ hs => hs

theorem RoomBy.startSentence (h : RoomBy n p m) : RoomBy n p (m.startSentence p) := by
  unfold Node.startSentence
  dsimp only
  split
  · exact h
  · split
    · exact h
    · next q _ =>
      refine ⟨?_, twf_setPort h.wf _ _, ?_⟩
      · rw [h.eq]
        rfl
      · rw [portSt_setPort h.wf]
        exact fun hq => Nat.le_trans List.length_erase_le (h.room hq)

theorem RoomBy.emit (h : RoomBy n p m) (hs : (n.port p).any (·.serial) = true) (alert : Nat) (x : NetMsg) :
    RoomBy n p (m.emit p .rep alert x) := by
  have hs' : (m.port p).any (·.serial) = true := by
    rw [h.eq]
    exact hs
  rw [Node.emit, if_pos hs']
  refine RoomBy.startSentence ?_
  rw [if_neg (by decide)]
  split
  · next hl =>
    obtain ⟨ge, gw, gg⟩ := updPort_step h.wf p fun s => { s with queue := s.queue ++ [⟨.rep, alert, x⟩] }
    refine ⟨?_, gw, ?_⟩
    · rw [ge, h.eq]
      rfl
    · rw [gg, if_pos (List.mem_singleton.2 rfl), List.length_append]
      exact fun _ => hl
  · exact h

section Serial

variable (hw : twf {} n.ext.ports = true) (hs : (n.port p).any (·.serial) = true)
include hw hs

theorem repeatAlf_room : RoomBy n p (n.repeatAlf p) := by
  have h0 : RoomBy n p n := ⟨rfl, hw, id⟩
  unfold repeatAlf
  split
  · refine List.foldlRecOn _ _ h0 fun m h e _ => ?_
    obtain ⟨i, c⟩ := e
    dsimp only
    split
    · exact (h.emit hs i _).msgId _
    · exact h
  · exact h0

theorem repeatAlr_room : RoomBy n p (n.repeatAlr p) := by
  have h0 : RoomBy n p n := ⟨rfl, hw, id⟩
  unfold repeatAlr
  split
  · refine List.foldlRecOn _ _ h0 fun m h e _ => ?_
    obtain ⟨i, c⟩ := e
    dsimp only
    split
    · unfold emitAlr
      split
      · exact h.emit hs i _
      · exact h
    · exact h
  · exact h0

theorem cycleAlc_room : RoomBy n p (n.cycleAlc p) := by
  have h0 : RoomBy n p n := ⟨rfl, hw, id⟩
  unfold cycleAlc
  split
  · exact List.foldlRecOn _ _ h0 fun m h e _ => h.emit hs noAlert _
  · exact h0

end Serial

/-! The end of a sentence. -/

theorem sentenceEnds_idle (h : (n.portSt p).cur = none ∨ n.coreHeld = true) : n.sentenceEnds p = n := by
  unfold sentenceEnds
  refine if_pos ?_
  rcases h with h | h <;> simp [h]

/-- The port when a sentence has gone out, before the next one. -/
def lineFree (y : PortSt) : PortSt := { y with cur := none, sent := (y.sent + 1) % 2 ^ 32 }

theorem refreshIfRoom_idle (h : (n.portSt p).refresh = false) : n.refreshIfRoom p = n := by
  unfold refreshIfRoom
  refine if_neg ?_
  simp [h]

section Ends

variable (hw : twf {} n.ext.ports = true) (hc : (n.portSt p).cur.isSome = true) (hh : n.coreHeld = false)
  (hr : (n.portSt p).refresh = false)
include hw hc hh hr

theorem sentenceEnds_free (h : nextSentence (n.portSt p).queue = none ∨ n.txIdle = true) :
    n.sentenceEnds p = n.setPort p (lineFree (n.portSt p)) := by
  have hp : (n.setPort p (lineFree (n.portSt p))).portSt p = lineFree (n.portSt p) := portSt_setPort hw p _
  have hs : (n.setPort p (lineFree (n.portSt p))).startSentence p = n.setPort p (lineFree (n.portSt p)) := by
    have hi : (n.setPort p (lineFree (n.portSt p))).txIdle = n.txIdle := rfl
    unfold startSentence
    dsimp only
    rw [hp, hi]
    rcases h with h | h
    · simp [lineFree, h]
    · simp [lineFree, h]
  unfold sentenceEnds
  dsimp only
  rw [if_neg (by simp [hh, Option.isNone_iff_eq_none, Option.ne_none_iff_isSome, hc])]
  exact (congrArg (refreshIfRoom · p) hs).trans (refreshIfRoom_idle (by rw [hp]; exact hr))

theorem sentenceEnds_next {q : QMsg} (h : nextSentence (n.portSt p).queue = some q) (hi : n.txIdle = false) :
    n.sentenceEnds p = (n.setPort p (lineFree (n.portSt p))).setPort p { lineFree (n.portSt p) with
      cur := some q, queue := (n.portSt p).queue.erase q, line := (n.portSt p).line ++ [q.msg] } := by
  have hp : (n.setPort p (lineFree (n.portSt p))).portSt p = lineFree (n.portSt p) := portSt_setPort hw p _
  have hs : (n.setPort p (lineFree (n.portSt p))).startSentence p = (n.setPort p (lineFree (n.portSt p))).setPort p { lineFree (n.portSt p) with
      cur := some q, queue := (n.portSt p).queue.erase q, line := (n.portSt p).line ++ [q.msg] } := by
    have hi' : (n.setPort p (lineFree (n.portSt p))).txIdle = n.txIdle := rfl
    have hq : nextSentence (lineFree (n.portSt p)).queue = some q := h
    unfold startSentence
    dsimp only
    rw [hp, hi', hi, if_neg (by simp [lineFree])]
    simp only [hq]
    rfl
  have hg := portSt_setPort (twf_setPort hw p (lineFree (n.portSt p))) p { lineFree (n.portSt p) with
      cur := some q, queue := (n.portSt p).queue.erase q, line := (n.portSt p).line ++ [q.msg] }
  unfold sentenceEnds
  dsimp only
  rw [if_neg (by simp [hh, Option.isNone_iff_eq_none, Option.ne_none_iff_isSome, hc])]
  exact (congrArg (refreshIfRoom · p) hs).trans (refreshIfRoom_idle (by rw [hg]; exact hr))

end Ends

/-! The repeats of a step, which begins with nothing on the lines. -/

/-- The alerts stand, and all but the ports. -/
def AlertsStand (n m : Node) : Prop := m.ext.alerts = n.ext.alerts ∧ Keeps [.ext] n m

/-- `k` messages go out on a port that had nothing on its line, or wait while the transmitters hold idle. -/
def SaidBy (n : Node) (p k : Nat) (m : Node) : Prop :=
  let x := quietPort (n.portSt p)
  if n.txIdle then (m.portSt p).line = [] ∧ (m.portSt p).queue.length = x.queue.length + k ∧ (m.portSt p).sent = x.sent
  else (m.portSt p).line.length = k ∧ (m.portSt p).queue = x.queue ∧ (m.portSt p).sent = (x.sent + k) % 2 ^ 32

section Cleared

variable {c : Node} (h : Cleared n c)
include h

theorem Cleared.alertsStand (hm : m = c.withPorts m.ext.ports) : AlertsStand n m := by
  rw [hm]
  obtain ⟨_, rfl, -, -⟩ := h
  exact ⟨rfl, (show Within [.ext] n _ from .mExt (.mExt .rfl)).keeps⟩

theorem Cleared.said (hp : p < 6) (hm : SentBy c p k m) : SaidBy n p k m ∧ AlertsStand n m := by
  refine ⟨?_, h.alertsStand hm.eq⟩
  have hi : c.txIdle = n.txIdle := by
    obtain ⟨_, rfl, -, -⟩ := h
    rfl
  obtain ⟨-, ho⟩ := hm.out
  rw [h.portSt_eq hp, hi] at ho
  unfold SaidBy
  cases hx : n.txIdle
  · rw [hx] at ho
    simpa [quietPort] using ho
  · rw [hx] at ho
    simpa [quietPort] using ho

theorem Cleared.roomStands (hp : p < 6) (hm : RoomBy c p m) :
    ((quietPort (n.portSt p)).queue.length ≤ 64 → (m.portSt p).queue.length ≤ 64) ∧ AlertsStand n m := by
  refine ⟨?_, h.alertsStand hm.eq⟩
  rw [← h.portSt_eq hp]
  exact hm.room

theorem Cleared.shown_eq : (c.portAlerts p).filter (fun e => (c.alertSt e.1).shown) = (n.portAlerts p).filter fun e => (n.alertSt e.1).shown := by
  obtain ⟨_, rfl, -, -⟩ := h
  rfl

theorem Cleared.legacy_eq : (c.portAlerts p).filter (fun e => e.2.alrNum.isSome && (c.alertSt e.1).shown) =
    ((n.portAlerts p).filter fun e => (n.alertSt e.1).shown).filter fun e => e.2.alrNum.isSome := by
  obtain ⟨_, rfl, -, -⟩ := h
  exact (List.filter_filter ..).symm

theorem Cleared.speaks_eq (hp : p < 6) : c.speaks p = n.speaks p := by
  have ht : c.twins p = n.twins p := by
    obtain ⟨_, rfl, -, -⟩ := h
    rfl
  rw [speaks, speaks, ht, Bool.eq_iff_iff, List.any_eq_true, List.any_eq_true]
  exact exists_congr fun i => and_congr_right fun hi => by rw [h.sends_eq (mem_twins hp hi)]

theorem Cleared.coreHeld_eq : c.coreHeld = n.coreHeld := by
  obtain ⟨_, rfl, -, -⟩ := h
  rfl

theorem Cleared.txIdle_eq : c.txIdle = n.txIdle := by
  obtain ⟨_, rfl, -, -⟩ := h
  rfl

theorem Cleared.alertPort_eq : c.alertPort p = n.alertPort p := by
  obtain ⟨_, rfl, -, -⟩ := h
  rfl

end Cleared

theorem speaks_of_sends (h : n.sends p = true) : n.speaks p = true := List.any_eq_true.2 ⟨p, mem_twins_self, h⟩

theorem repeats_idle (h : n.speaks p = false ∨ n.port p = none ∨ n.alertPort p ≠ p) :
    n.repeatAlf p = n ∧ n.repeatAlr p = n ∧ n.cycleAlc p = n := by
  have hc (f : PortCfg → Bool) : ¬ (n.speaks p && n.alertPort p == p && (n.port p).any f) = true := by
    rcases h with h | h | h <;> simp [h]
  exact ⟨if_neg (hc _), if_neg (hc _), if_neg (hc _)⟩

theorem repeats_without {k : PortCfg} (hk : n.port p = some k) :
    (k.alf = false → n.repeatAlf p = n ∧ n.cycleAlc p = n) ∧ (k.legacy = false → n.repeatAlr p = n) := by
  refine ⟨fun h => ?_, fun h => ?_⟩
  · have hc : ¬ (n.speaks p && n.alertPort p == p && (n.port p).any fun k => k.sentences && k.alf) = true := by simp [hk, h]
    exact ⟨if_neg hc, if_neg hc⟩
  · exact if_neg (by simp [hk, h])

end Sys2Proof.Machine.Node

open Sys2Proof Sys2Proof.Machine Sys2Proof.Machine.Node

section Given

variable {s : State} (hw : twf {} s.node.ext.ports = true) (port : Fin 6)
include hw

section Sends

variable {k : PortCfg} (hk : s.node.port port.val = some k) (hs : s.node.sends port.val = true) (ha : s.node.alertPort port.val = port.val)
include hk hs ha

theorem repeats_said (h5 : k.kind = 5) (hsen : k.sentences = true) (hx : (s.node.portSt port.val).sent < 2 ^ 32) :
    let shown := (s.node.portAlerts port.val).filter fun e => (s.node.alertSt e.1).shown
    (k.alf = true → Gives (.alfRepeat port) s (fun m => SaidBy s.node port.val shown.length m ∧ AlertsStand s.node m) ∧
      Gives (.alcCycle port) s (fun m => SaidBy s.node port.val (max 1 ((shown.length + 3) / 4)) m ∧ AlertsStand s.node m)) ∧
    (k.legacy = true → Gives (.alrRepeat port) s fun m =>
      SaidBy s.node port.val (shown.filter fun e => e.2.alrNum.isSome).length m ∧ AlertsStand s.node m) := by
  have h := clearLines_cleared hw
  have hser : (s.node.clearLines.port port.val).any (·.serial) = false := by
    rw [h.port_eq, hk]
    simp [PortCfg.serial, h5]
  have hse : s.node.clearLines.sends port.val = true := (h.sends_eq port.isLt).trans hs
  have hx' : (s.node.clearLines.portSt port.val).sent < 2 ^ 32 := by
    rw [h.portSt_eq port.isLt]
    exact hx
  have hc (f : PortCfg → Bool) (hf : f k = true) : (s.node.clearLines.speaks port.val && s.node.clearLines.alertPort port.val == port.val &&
      (s.node.clearLines.port port.val).any f) = true := by
    rw [speaks_of_sends hse, h.alertPort_eq, h.port_eq, hk, ha]
    simp [hf]
  refine ⟨fun hal => ⟨.of_run (fun n => n.clearLines.repeatAlf port.val) rfl ?_, .of_run (fun n => n.clearLines.cycleAlc port.val) rfl ?_⟩,
    fun hle => .of_run (fun n => n.clearLines.repeatAlr port.val) rfl ?_⟩
  · rw [← h.shown_eq]
    exact h.said port.isLt (repeatAlf_sent h.twf hser hse hx' (hc _ (by simp [hsen, hal])))
  · rw [← h.shown_eq]
    exact h.said port.isLt (cycleAlc_sent h.twf hser hse hx' (hc _ (by simp [hsen, hal])))
  · rw [← h.legacy_eq]
    exact h.said port.isLt (repeatAlr_sent h.twf hser hse hx' (hc _ (by simp [hsen, hle])))

end Sends

theorem repeats_roomy (hser : (s.node.port port.val).any (·.serial) = true) :
    let room (m : Node) := ((quietPort (s.node.portSt port.val)).queue.length ≤ 64 → (m.portSt port.val).queue.length ≤ 64) ∧
      AlertsStand s.node m
    Gives (.alfRepeat port) s room ∧ Gives (.alcCycle port) s room ∧ Gives (.alrRepeat port) s room := by
  have h := clearLines_cleared hw
  rw [← h.port_eq] at hser
  exact ⟨.of_run (fun n => n.clearLines.repeatAlf port.val) rfl (h.roomStands port.isLt (repeatAlf_room h.twf hser)),
    .of_run (fun n => n.clearLines.cycleAlc port.val) rfl (h.roomStands port.isLt (cycleAlc_room h.twf hser)),
    .of_run (fun n => n.clearLines.repeatAlr port.val) rfl (h.roomStands port.isLt (repeatAlr_room h.twf hser))⟩

theorem repeats_quiet (hq : s.node.speaks port.val = false ∨ s.node.port port.val = none ∨ s.node.alertPort port.val ≠ port.val) :
    Answers (.alfRepeat port) s s.node.clearLines ∧ Answers (.alrRepeat port) s s.node.clearLines ∧
      Answers (.alcCycle port) s s.node.clearLines := by
  have h := clearLines_cleared hw
  rw [← h.speaks_eq port.isLt, ← h.port_eq, ← h.alertPort_eq] at hq
  obtain ⟨h1, h2, h3⟩ := repeats_idle hq
  exact ⟨.of_run (fun n => n.clearLines.repeatAlf port.val) rfl h1, .of_run (fun n => n.clearLines.repeatAlr port.val) rfl h2,
    .of_run (fun n => n.clearLines.cycleAlc port.val) rfl h3⟩

theorem repeats_unmapped {k : PortCfg} (hk : s.node.port port.val = some k) :
    (k.alf = false → Answers (.alfRepeat port) s s.node.clearLines ∧ Answers (.alcCycle port) s s.node.clearLines) ∧
      (k.legacy = false → Answers (.alrRepeat port) s s.node.clearLines) := by
  have h := clearLines_cleared hw
  rw [← h.port_eq] at hk
  obtain ⟨h1, h2⟩ := repeats_without hk
  exact ⟨fun hf => ⟨.of_run (fun n => n.clearLines.repeatAlf port.val) rfl (h1 hf).1,
    .of_run (fun n => n.clearLines.cycleAlc port.val) rfl (h1 hf).2⟩, fun hf => .of_run (fun n => n.clearLines.repeatAlr port.val) rfl (h2 hf)⟩

theorem sentenceSent_idle (hc : (quietPort (s.node.portSt port.val)).cur = none ∨ s.node.coreHeld = true) :
    Answers (.sentenceSent port) s s.node.clearLines := by
  have h := clearLines_cleared hw
  have hh : s.node.clearLines.coreHeld = s.node.coreHeld := h.coreHeld_eq
  rw [← h.portSt_eq port.isLt, ← hh] at hc
  exact .of_run (fun n => n.clearLines.sentenceEnds port.val) rfl (sentenceEnds_idle hc)

theorem sentenceSent_gives (hc : (quietPort (s.node.portSt port.val)).cur.isSome = true) (hh : s.node.coreHeld = false)
    (hr : (quietPort (s.node.portSt port.val)).refresh = false) : Gives (.sentenceSent port) s fun m =>
      AlertsStand s.node m ∧
      (nextSentence (quietPort (s.node.portSt port.val)).queue = none ∨ s.node.txIdle = true →
        m.portSt port.val = lineFree (quietPort (s.node.portSt port.val))) ∧
      ∀ q, nextSentence (quietPort (s.node.portSt port.val)).queue = some q → s.node.txIdle = false →
        m.portSt port.val = { lineFree (quietPort (s.node.portSt port.val)) with
          cur := some q, queue := (quietPort (s.node.portSt port.val)).queue.erase q, line := [q.msg] } := by
  have h := clearLines_cleared hw
  rw [← h.portSt_eq port.isLt] at hc hr ⊢
  rw [← h.coreHeld_eq] at hh
  rw [← h.txIdle_eq]
  refine .of_run (fun n => n.clearLines.sentenceEnds port.val) rfl ⟨?_, fun hq => ?_, fun q hq hi => ?_⟩
  · cases hi : s.node.clearLines.txIdle
    · cases hq : nextSentence (s.node.clearLines.portSt port.val).queue with
      | none => exact h.alertsStand (by rw [sentenceEnds_free h.twf hc hh hr (.inl hq)]; rfl)
      | some q => exact h.alertsStand (by rw [sentenceEnds_next h.twf hc hh hr hq hi]; rfl)
    · exact h.alertsStand (by rw [sentenceEnds_free h.twf hc hh hr (.inr hi)]; rfl)
  · rw [sentenceEnds_free h.twf hc hh hr hq, portSt_setPort h.twf]
  · rw [sentenceEnds_next h.twf hc hh hr hq hi, portSt_setPort (twf_setPort h.twf _ _)]
    have hl : (s.node.clearLines.portSt port.val).line = [] := by
      rw [h.portSt_eq port.isLt]
      rfl
    rw [hl]
    rfl

end Given

/-- Settles O54: each repeat is one message for each alert that shows, each of which the port sends or lets wait. -/
theorem sentenceRepeats : Obligations.SentenceRepeats := by
  unfold Obligations.SentenceRepeats
  intro s port n c p x shown legacy still room out hw
  refine ⟨repeats_quiet hw port, fun k hk _ hs ha => ⟨(repeats_unmapped hw port hk).1, (repeats_unmapped hw port hk).2,
    fun h5 hsen hal hx => (repeats_said hw port hk hs ha h5 hsen hx).1 hal,
    fun h5 hsen hle hx => (repeats_said hw port hk hs ha h5 hsen hx).2 hle,
    fun hser _ => ?_, fun hser _ => ?_⟩, sentenceSent_idle hw port, sentenceSent_gives hw port⟩
  · have hser' : (s.node.port port.val).any (·.serial) = true := by
      rw [show s.node.port port.val = some k from hk]
      exact hser
    obtain ⟨h1, h2, -⟩ := repeats_roomy hw port hser'
    exact ⟨h1, h2⟩
  · have hser' : (s.node.port port.val).any (·.serial) = true := by
      rw [show s.node.port port.val = some k from hk]
      exact hser
    exact (repeats_roomy hw port hser').2.2

end

section
/-! The CAN port's address, ISO Requests and periodic groups, and ARP and ICMP (17 R529 to R532). -/

namespace Sys2Proof.Machine.Node

variable {n m c : Node} {p : Nat}

/-! One answer of a step. -/

/-- The port that an answer goes out on, or waits at while the transmitters hold idle. -/
def answerOf (idle : Bool) (x : NetMsg) (s : PortSt) : PortSt :=
  if idle then { s with queue := s.queue ++ [⟨.answer, noAlert, x⟩] } else { s with line := s.line ++ [x] }

/-- A node of the step, with nothing on the lines of its ports: what it knows of the CAN address may change. -/
structure NoLines (n c : Node) : Prop where
  wf : twf {} c.ext.ports = true
  port : ∀ i < 6, c.portSt i = quietPort (n.portSt i)
  alerts : c.ext.alerts = n.ext.alerts
  flags : c.ext.flags = n.ext.flags
  keeps : Keeps [.ext] n c

theorem Cleared.portAlerts_eq (h : Cleared n c) : c.portAlerts p = n.portAlerts p := by
  obtain ⟨_, rfl, -, -⟩ := h
  rfl

theorem Cleared.alertSt_eq (h : Cleared n c) (i : Nat) : c.alertSt i = n.alertSt i := by
  obtain ⟨_, rfl, -, -⟩ := h
  rfl

theorem Cleared.noLines (h : Cleared n c) : NoLines n c := by
  have hp := fun i hi => h.portSt_eq (i := i) hi
  have hw := h.twf
  have hk := h.keeps
  obtain ⟨_, rfl, -, -⟩ := h
  exact ⟨hw, hp, rfl, rfl, hk⟩

theorem Cleared.address_eq (h : Cleared n c) :
    c.ext.claimed = n.ext.claimed ∧ c.ext.n2kAddr = n.ext.n2kAddr ∧ c.ext.tried = n.ext.tried := by
  obtain ⟨_, rfl, -, -⟩ := h
  exact ⟨rfl, rfl, rfl⟩

/-- The node with another address on the CAN port. -/
def addressed (n : Node) (a t : Nat) : Node := n.mExt fun e => { e with n2kAddr := a, claimed := a != 0xFE, tried := t }

theorem NoLines.addressed (h : NoLines n c) (a t : Nat) : NoLines n (c.addressed a t) :=
  ⟨h.wf, h.port, h.alerts, h.flags, h.keeps.trans (show Within [.ext] c _ from .mExt .rfl).keeps⟩

/-- One port changes in a step; the alerts and the flags stand. -/
def OnPort (n : Node) (p : Nat) (v : PortSt) (m : Node) : Prop :=
  m.portSt p = v ∧ (∀ i, i ≠ p → i < 6 → m.portSt i = quietPort (n.portSt i)) ∧ m.ext.alerts = n.ext.alerts ∧ m.ext.flags = n.ext.flags ∧
    Keeps [.ext] n m

theorem NoLines.onPort (h : NoLines n c) (hp : p < 6) (f : PortSt → PortSt) : OnPort n p (f (quietPort (n.portSt p))) (c.updPort p f) := by
  refine ⟨?_, fun i hi h6 => ?_, h.alerts, h.flags, h.keeps.trans (show Within [.ext] c _ from .updPort .rfl).keeps⟩
  · rw [portSt_updPort h.wf, h.port p hp]
  · rw [portSt_updPort_other h.wf hi, h.port i h6]

theorem NoLines.answerOn (h : NoLines n c) (hi : c.txIdle = n.txIdle) (hp : p < 6) (x : NetMsg) :
    OnPort n p (answerOf n.txIdle x (quietPort (n.portSt p))) (c.answerOn p x) := by
  rw [← hi]
  exact h.onPort hp (answerOf c.txIdle x)

theorem NoLines.sendOn (h : NoLines n c) (hi : c.txIdle = n.txIdle) (hp : p < 6) (x : NetMsg) :
    OnPort n p (sentOn n.txIdle x (quietPort (n.portSt p))) (c.sendOn p x) := by
  rw [← hi]
  exact h.onPort hp (sentOn c.txIdle x)

/-! Address claims. -/

theorem takeClaim_uncontested {addr name : Nat} (h : n.port 3 = none ∨ ¬ (n.hears 3 = true ∧ n.ext.claimed = true ∧ n.ext.n2kAddr = addr)) :
    n.takeClaim addr name = n := by
  unfold takeClaim
  split
  · rfl
  · next k hk =>
    refine if_pos ?_
    have h := h.resolve_left (by simp [hk])
    rw [not_and_or, not_and_or, Bool.not_eq_true, Bool.not_eq_true] at h
    rcases h with h | h | h
    · simp [h]
    · simp [h]
    · exact .inr (.inr (.inr h))

section Contested

variable {k : PortCfg} {addr name : Nat} (hk : n.port 3 = some k) (h4 : k.kind = 4)
  (hc : n.hears 3 = true ∧ n.ext.claimed = true ∧ n.ext.n2kAddr = addr)
include hk h4 hc

theorem takeClaim_eq : n.takeClaim addr name = if k.name.toNat < name then n.answerOn 3 (.n2kClaim addr)
    else if n.ext.tried < 252 then (n.mExt fun e => { e with tried := e.tried + 1 }).claimAddr ((addr + 1) % 252)
    else n.claimAddr 0xFE := by
  obtain ⟨hh, hcl, ha⟩ := hc
  simp [takeClaim, hk, h4, hh, hcl, ha]

theorem takeClaim_held (hn : k.name.toNat < name) : n.takeClaim addr name = n.answerOn 3 (.n2kClaim addr) := by
  rw [takeClaim_eq hk h4 hc, if_pos hn]

theorem takeClaim_next (hn : name ≤ k.name.toNat) (ht : n.ext.tried < 252) :
    n.takeClaim addr name = (n.addressed ((addr + 1) % 252) (n.ext.tried + 1)).answerOn 3 (.n2kClaim ((addr + 1) % 252)) := by
  rw [takeClaim_eq hk h4 hc, if_neg (Nat.not_lt.2 hn), if_pos ht]
  rfl

theorem takeClaim_none (hn : name ≤ k.name.toNat) (ht : 252 ≤ n.ext.tried) :
    n.takeClaim addr name = (n.addressed 0xFE n.ext.tried).answerOn 3 (.n2kClaim 0xFE) := by
  rw [takeClaim_eq hk h4 hc, if_neg (Nat.not_lt.2 hn), if_neg (Nat.not_lt.2 ht)]
  rfl

end Contested

/-! ISO Requests and the periodic groups. -/

theorem foldl_said {β : Type} {R : List NetMsg → Node → Prop} {f : Node → β → Node} (g : β → Bool) (x : β → NetMsg)
    (h : ∀ l m b, R l m → R (if g b then l ++ [x b] else l) (f m b)) (r : List β) {l : List NetMsg} {m : Node} (hm : R l m) :
    R (l ++ (r.filter g).map x) (r.foldl f m) := by
  induction r generalizing l m with
  | nil => simpa using hm
  | cons b r ih =>
    rw [List.foldl_cons, List.filter_cons]
    have hx := ih (h l m b hm)
    cases hg : g b
    · rw [hg] at hx
      exact hx
    · rw [hg, if_pos rfl, List.append_assoc] at hx
      exact hx

/-- The messages went out on a port one after another, or wait. -/
def SaidAll (idle : Bool) (y : PortSt) (l : List NetMsg) (z : PortSt) : Prop :=
  if idle then z = { y with queue := y.queue ++ l.map fun x => ⟨.state, noAlert, x⟩ } else z.line = y.line ++ l ∧ z.queue = y.queue

theorem SaidAll.sentOn {idle : Bool} {y z : PortSt} {l : List NetMsg} (h : SaidAll idle y l z) (x : NetMsg) :
    SaidAll idle y (l ++ [x]) (sentOn idle x z) := by
  cases idle with
  | true =>
    have hz : z = { y with queue := y.queue ++ l.map fun x => ⟨.state, noAlert, x⟩ } := h
    subst hz
    simp [SaidAll, Node.sentOn]
  | false =>
    obtain ⟨hl, hq⟩ : z.line = y.line ++ l ∧ z.queue = y.queue := h
    simp [SaidAll, Node.sentOn, hl, hq]

/-- Only the ports changed, and the messages went out on the one named. -/
structure SaidOn (n : Node) (p : Nat) (l : List NetMsg) (m : Node) : Prop where
  eq : m = n.withPorts m.ext.ports
  wf : twf {} m.ext.ports = true
  out : SaidAll n.txIdle (n.portSt p) l (m.portSt p)

theorem SaidOn.nil (hw : twf {} n.ext.ports = true) : SaidOn n p [] n := by
  refine ⟨rfl, hw, ?_⟩
  unfold SaidAll
  split
  · simp
  · simp

theorem SaidOn.sendOn {l : List NetMsg} (h : SaidOn n p l m) (x : NetMsg) : SaidOn n p (l ++ [x]) (m.sendOn p x) := by
  have hi : m.txIdle = n.txIdle := by
    rw [h.eq]
    rfl
  obtain ⟨ge, gw, gg⟩ := updPort_step h.wf p (Node.sentOn m.txIdle x)
  refine ⟨?_, gw, ?_⟩
  · rw [h.eq] at ge ⊢
    exact ge
  · have hg : (m.sendOn p x).portSt p = Node.sentOn n.txIdle x (m.portSt p) := by
      rw [← hi]
      exact (gg p).trans (if_pos (List.mem_singleton.2 rfl))
    rw [hg]
    exact h.out.sentOn x

theorem isoAnswer_unheard {pgn : Nat} (h : n.hears 3 = false ∨ (n.port 3).any (·.kind == 4) = false) : n.isoAnswer pgn = n := by
  refine if_pos ?_
  rcases h with h | h <;> simp [h]

section Heard

variable (hh : n.hears 3 = true) (h4 : (n.port 3).any (·.kind == 4) = true)
include hh h4

theorem isoAnswer_eq (pgn : Nat) : n.isoAnswer pgn = if !n.ext.claimed && n.ext.tried != 0 then n
    else if pgn = 60928 then n.answerOn 3 (.n2kClaim n.ext.n2kAddr)
    else if !n.ext.claimed then n
    else if pgn = 126996 then n.sendOn 3 .n2kProduct
    else if pgn = 126985 then (n.portAlerts 3).foldl (fun n (_, c) => n.sendOn 3 (.n2kText c.n2kIdent c.n2kOcc c.text)) n
    else n := by
  refine if_neg ?_
  simp [hh, h4]

theorem isoAnswer_claim (h : n.ext.claimed = true ∨ n.ext.tried = 0) : n.isoAnswer 60928 = n.answerOn 3 (.n2kClaim n.ext.n2kAddr) := by
  rw [isoAnswer_eq hh h4, if_neg (by rcases h with h | h <;> simp [h]), if_pos rfl]

theorem isoAnswer_no_address {pgn : Nat} (h : n.ext.claimed = false) (ht : n.ext.tried ≠ 0) : n.isoAnswer pgn = n := by
  rw [isoAnswer_eq hh h4, if_pos (by simp [h, ht])]

theorem isoAnswer_unclaimed {pgn : Nat} (h : n.ext.claimed = false) (hp : pgn ≠ 60928) : n.isoAnswer pgn = n := by
  rw [isoAnswer_eq hh h4, if_neg hp, if_pos (by simp [h] : (!n.ext.claimed) = true), ite_self]

theorem isoAnswer_product (h : n.ext.claimed = true) : n.isoAnswer 126996 = n.sendOn 3 .n2kProduct := by
  rw [isoAnswer_eq hh h4]
  simp [h]

theorem isoAnswer_texts (h : n.ext.claimed = true) :
    n.isoAnswer 126985 = (n.portAlerts 3).foldl (fun n (_, c) => n.sendOn 3 (.n2kText c.n2kIdent c.n2kOcc c.text)) n := by
  rw [isoAnswer_eq hh h4]
  simp [h]

theorem isoAnswer_other {pgn : Nat} (h : pgn ∉ [60928, 126996, 126985]) : n.isoAnswer pgn = n := by
  simp only [List.mem_cons, List.not_mem_nil, or_false, not_or] at h
  obtain ⟨h1, h2, h3⟩ := h
  simp [isoAnswer_eq hh h4, h1, h2, h3]

end Heard

theorem isoTexts_said (hw : twf {} n.ext.ports = true) (l : List (Nat × AlertCfg)) :
    SaidOn n 3 (l.map fun e => .n2kText e.2.n2kIdent e.2.n2kOcc e.2.text)
      (l.foldl (fun n (_, c) => n.sendOn 3 (.n2kText c.n2kIdent c.n2kOcc c.text)) n) := by
  have h := foldl_said (R := SaidOn n 3) (fun _ : Nat × AlertCfg => true) (fun e => .n2kText e.2.n2kIdent e.2.n2kOcc e.2.text)
    (f := fun (n : Node) (e : Nat × AlertCfg) => n.sendOn 3 (.n2kText e.2.n2kIdent e.2.n2kOcc e.2.text)) (fun l m e h => ?_) l (.nil hw)
  · rwa [List.nil_append, List.filter_true] at h
  · rw [if_pos rfl]
    exact h.sendOn _

/-- The alerts that show go out one by one in the group of alerts. -/
theorem alertRepeat_said (hw : twf {} n.ext.ports = true) (hc : n.ext.claimed = true) (l : List (Nat × AlertCfg)) :
    SaidOn n 3 ((l.filter fun e => (n.alertSt e.1).shown).map fun e =>
        .n2kAlert 1 e.2.n2kIdent e.2.n2kOcc (n2kType (n.alertSt e.1).prio) (n2kState (n.alertSt e.1).state))
      (l.foldl (fun n (i, c) => if (n.alertSt i).shown then n.emitN2k 3 i c false else n) n) := by
  refine foldl_said (R := SaidOn n 3) (fun e : Nat × AlertCfg => (n.alertSt e.1).shown)
    (fun e => .n2kAlert 1 e.2.n2kIdent e.2.n2kOcc (n2kType (n.alertSt e.1).prio) (n2kState (n.alertSt e.1).state))
    (f := fun n e => if (n.alertSt e.1).shown then n.emitN2k 3 e.1 e.2 false else n) (fun l m e h => ?_) l (.nil hw)
  have ha : m.alertSt e.1 = n.alertSt e.1 := by
    rw [h.eq]
    rfl
  have hm : m.ext.claimed = true := by
    rw [h.eq]
    exact hc
  rw [ha]
  cases (n.alertSt e.1).shown
  · exact h
  · have he : m.emitN2k 3 e.1 e.2 false = m.sendOn 3
        (.n2kAlert 1 e.2.n2kIdent e.2.n2kOcc (n2kType (n.alertSt e.1).prio) (n2kState (n.alertSt e.1).state)) := by
      rw [← ha]
      simp [emitN2k, hm]
    rw [if_pos rfl, if_pos rfl, he]
    exact h.sendOn _

theorem Cleared.saidAll (h : Cleared n c) {l : List NetMsg} (hp : p < 6) (hm : SaidOn c p l m) :
    (if n.txIdle then m.portSt p = { quietPort (n.portSt p) with
        queue := (quietPort (n.portSt p)).queue ++ l.map fun x => ⟨.state, noAlert, x⟩ }
      else (m.portSt p).line = l ∧ (m.portSt p).queue = (quietPort (n.portSt p)).queue) ∧ AlertsStand n m := by
  refine ⟨?_, h.alertsStand hm.eq⟩
  have ho := hm.out
  rw [h.txIdle_eq, h.portSt_eq hp] at ho
  exact ho

end Sys2Proof.Machine.Node

open Sys2Proof Sys2Proof.Machine Sys2Proof.Machine.Node

section Given

variable {s : State} (hw : twf {} s.node.ext.ports = true)
include hw

theorem addressClaim_gives {addr : BitVec 8} {name : BitVec 64} {k : PortCfg} (hk : s.node.port 3 = some k) (h4 : k.kind = 4)
    (hc : s.node.clearLines.hears 3 = true ∧ s.node.ext.claimed = true ∧ s.node.ext.n2kAddr = addr.toNat) :
    let answers (x : NetMsg) (m : Node) := OnPort s.node 3 (answerOf s.node.txIdle x (quietPort (s.node.portSt 3))) m
    (k.name.toNat < name.toNat → Gives (.addressClaim addr name) s fun m => answers (.n2kClaim addr.toNat) m ∧
      m.ext.n2kAddr = addr.toNat ∧ m.ext.claimed = true ∧ m.ext.tried = s.node.ext.tried) ∧
    (name.toNat ≤ k.name.toNat → s.node.ext.tried < 252 → Gives (.addressClaim addr name) s fun m =>
      answers (.n2kClaim ((addr.toNat + 1) % 252)) m ∧ m.ext.n2kAddr = (addr.toNat + 1) % 252 ∧ m.ext.claimed = true ∧
        m.ext.tried = s.node.ext.tried + 1) ∧
    (name.toNat ≤ k.name.toNat → 252 ≤ s.node.ext.tried → Gives (.addressClaim addr name) s fun m =>
      answers (.n2kClaim 0xFE) m ∧ m.ext.n2kAddr = 0xFE ∧ m.ext.claimed = false) := by
  intro answers
  have h := clearLines_cleared hw
  have hrun (q : Node → Prop) (hq : q (s.node.clearLines.takeClaim addr.toNat name.toNat)) : Gives (.addressClaim addr name) s q :=
    .of_run (fun n => n.clearLines.takeClaim addr.toNat name.toNat) rfl hq
  obtain ⟨hh, hcl, ha⟩ := hc
  generalize s.node.clearLines = c at *
  rw [← h.port_eq] at hk
  obtain ⟨e1, e2, e3⟩ := h.address_eq
  have hc' := And.intro hh (And.intro (e1.trans hcl) (e2.trans ha))
  have hlt : (addr.toNat + 1) % 252 ≠ 0xFE := by omega
  refine ⟨fun hn => hrun _ ?_, fun hn ht => hrun _ ?_, fun hn ht => hrun _ ?_⟩
  · rw [takeClaim_held hk h4 hc' hn]
    exact ⟨h.noLines.answerOn h.txIdle_eq (by decide) _, e2.trans ha, e1.trans hcl, e3⟩
  · rw [takeClaim_next hk h4 hc' hn (e3 ▸ ht), e3]
    exact ⟨(h.noLines.addressed _ _).answerOn h.txIdle_eq (by decide) _, rfl, bne_iff_ne.2 hlt, rfl⟩
  · rw [takeClaim_none hk h4 hc' hn (e3 ▸ ht)]
    exact ⟨(h.noLines.addressed _ _).answerOn h.txIdle_eq (by decide) _, rfl, rfl⟩

theorem isoRequest_gives (hh : s.node.clearLines.hears 3 = true) (h4 : (s.node.port 3).any (·.kind == 4) = true) (pgn : Nat) :
    let x := quietPort (s.node.portSt 3)
    (s.node.ext.claimed = true ∨ s.node.ext.tried = 0 → Gives (.isoRequest 60928) s
      (OnPort s.node 3 (answerOf s.node.txIdle (.n2kClaim s.node.ext.n2kAddr) x))) ∧
    (s.node.ext.claimed = false → s.node.ext.tried ≠ 0 → Answers (.isoRequest pgn) s s.node.clearLines) ∧
    (s.node.ext.claimed = true → Gives (.isoRequest 126996) s (fun m => OnPort s.node 3 (sentOn s.node.txIdle .n2kProduct x) m ∧
        m.ext.n2kAddr = s.node.ext.n2kAddr) ∧
      Gives (.isoRequest 126985) s fun m => if s.node.txIdle then m.portSt 3 = { x with queue := x.queue ++
          ((s.node.portAlerts 3).map fun e => .n2kText e.2.n2kIdent e.2.n2kOcc e.2.text).map fun x => ⟨.state, noAlert, x⟩ }
        else (m.portSt 3).line = (s.node.portAlerts 3).map (fun e => .n2kText e.2.n2kIdent e.2.n2kOcc e.2.text) ∧
          (m.portSt 3).queue = x.queue) ∧
    (pgn ≠ 60928 → s.node.ext.claimed = false → Answers (.isoRequest pgn) s s.node.clearLines) ∧
    (pgn ∉ [60928, 126996, 126985] → Answers (.isoRequest pgn) s s.node.clearLines) := by
  intro x
  have h := clearLines_cleared hw
  have hrun (pgn : Nat) (q : Node → Prop) (hq : q (s.node.clearLines.isoAnswer pgn)) : Gives (.isoRequest pgn) s q :=
    .of_run (fun n => n.clearLines.isoAnswer pgn) rfl hq
  have hstay (pgn : Nat) (hq : s.node.clearLines.isoAnswer pgn = s.node.clearLines) : Answers (.isoRequest pgn) s s.node.clearLines :=
    .of_run (fun n => n.clearLines.isoAnswer pgn) rfl hq
  generalize s.node.clearLines = c at *
  obtain ⟨e1, e2, e3⟩ := h.address_eq
  rw [← h.port_eq] at h4
  rw [← e1, ← e3]
  refine ⟨fun hc => hrun _ _ ?_, fun hc ht => hstay _ (isoAnswer_no_address hh h4 hc ht), fun hc => ⟨hrun _ _ ?_, hrun _ _ ?_⟩,
    fun hp hc => hstay _ (isoAnswer_unclaimed hh h4 hc hp), fun hp => hstay _ (isoAnswer_other hh h4 hp)⟩
  · rw [isoAnswer_claim hh h4 hc, ← e2]
    exact h.noLines.answerOn h.txIdle_eq (by decide) _
  · rw [isoAnswer_product hh h4 hc, ← e2]
    exact ⟨h.noLines.sendOn h.txIdle_eq (by decide) _, rfl⟩
  · rw [isoAnswer_texts hh h4 hc, ← h.portAlerts_eq]
    exact (h.saidAll (by decide) (isoTexts_said h.twf _)).1

omit hw in
theorem periodic_idle (hc : s.node.clearLines.canSends = false) : Answers .heartbeat s s.node.clearLines ∧
    Answers .alertRepeat s s.node.clearLines ∧ Answers .engineRapidUpdate s s.node.clearLines ∧
      Answers .engineDynamic s s.node.clearLines := by
  have hf : ¬ s.node.clearLines.canSends = true := by simp [hc]
  exact ⟨.of_run (fun n => if n.clearLines.canSends then n.clearLines.sendOn 3 .n2kHeartbeat else n.clearLines) rfl (if_neg hf),
    .of_run (fun n => if n.clearLines.canSends then (n.clearLines.portAlerts 3).foldl
      (fun n (i, c) => if (n.alertSt i).shown then n.emitN2k 3 i c false else n) n.clearLines else n.clearLines) rfl (if_neg hf),
    .of_run (fun n => n.clearLines.sendEngine 127488) rfl (if_neg hf), .of_run (fun n => n.clearLines.sendEngine 127489) rfl (if_neg hf)⟩

theorem periodic_gives (hc : s.node.clearLines.canSends = true) :
    let x := quietPort (s.node.portSt 3)
    let sends (l : NetMsg) (m : Node) := OnPort s.node 3 (sentOn s.node.txIdle l x) m ∧ m.ext.n2kAddr = s.node.ext.n2kAddr
    let engine (p : Nat) : NetMsg := .n2kEngine p ((s.node.port 3).elim 0 (·.engineInst))
      ((s.node.clearLines.engineFields.filter (·.pgn == p)).map s.node.clearLines.engineValue)
    Gives .heartbeat s (sends .n2kHeartbeat) ∧ Gives .engineRapidUpdate s (sends (engine 127488)) ∧
      Gives .engineDynamic s (sends (engine 127489)) ∧ Gives .alertRepeat s fun m =>
        (let l := ((s.node.portAlerts 3).filter fun e => (s.node.alertSt e.1).shown).map fun e =>
            .n2kAlert 1 e.2.n2kIdent e.2.n2kOcc (n2kType (s.node.alertSt e.1).prio) (n2kState (s.node.alertSt e.1).state)
          if s.node.txIdle then m.portSt 3 = { x with queue := x.queue ++ l.map fun x => ⟨.state, noAlert, x⟩ }
          else (m.portSt 3).line = l ∧ (m.portSt 3).queue = x.queue) ∧ AlertsStand s.node m := by
  intro x sends engine
  have h := clearLines_cleared hw
  have hb (q : Node → Prop) (hq : q (s.node.clearLines.sendOn 3 .n2kHeartbeat)) : Gives .heartbeat s q :=
    .of_run (fun n => if n.clearLines.canSends then n.clearLines.sendOn 3 .n2kHeartbeat else n.clearLines) rfl (by rwa [if_pos hc])
  have hr (q : Node → Prop) (hq : q (s.node.clearLines.sendEngine 127488)) : Gives .engineRapidUpdate s q :=
    .of_run (fun n => n.clearLines.sendEngine 127488) rfl hq
  have hd (q : Node → Prop) (hq : q (s.node.clearLines.sendEngine 127489)) : Gives .engineDynamic s q :=
    .of_run (fun n => n.clearLines.sendEngine 127489) rfl hq
  have ha (q : Node → Prop) (hq : q ((s.node.clearLines.portAlerts 3).foldl
      (fun n (i, c) => if (n.alertSt i).shown then n.emitN2k 3 i c false else n) s.node.clearLines)) : Gives .alertRepeat s q :=
    .of_run (fun n => if n.clearLines.canSends then (n.clearLines.portAlerts 3).foldl
      (fun n (i, c) => if (n.alertSt i).shown then n.emitN2k 3 i c false else n) n.clearLines else n.clearLines) rfl (by rwa [if_pos hc])
  have hs (y : NetMsg) : sends y (s.node.clearLines.sendOn 3 y) := by
    refine ⟨h.noLines.sendOn h.txIdle_eq (by decide) _, ?_⟩
    generalize s.node.clearLines = c at *
    exact h.address_eq.2.1
  have he (p : Nat) : sends (engine p) (s.node.clearLines.sendEngine p) := by
    rw [sendEngine, if_pos hc, h.port_eq]
    exact hs _
  refine ⟨hb _ (hs _), hr _ (he _), hd _ (he _), ha _ ?_⟩
  have hcl : s.node.clearLines.ext.claimed = true := by
    rw [canSends, Bool.and_eq_true] at hc
    exact hc.2
  have hx := h.saidAll (by decide) (alertRepeat_said h.twf hcl (s.node.clearLines.portAlerts 3))
  rw [h.shown_eq] at hx
  simp only [h.alertSt_eq] at hx
  exact hx

omit hw in
theorem addressClaim_idle {addr : BitVec 8} (name : BitVec 64) (h : s.node.clearLines.port 3 = none ∨ ¬ (s.node.clearLines.hears 3 = true ∧
    s.node.clearLines.ext.claimed = true ∧ s.node.clearLines.ext.n2kAddr = addr.toNat)) :
    Answers (.addressClaim addr name) s s.node.clearLines :=
  .of_run (fun n => n.clearLines.takeClaim addr.toNat name.toNat) rfl (takeClaim_uncontested h)

omit hw in
theorem isoRequest_idle (pgn : Nat) (h : s.node.clearLines.hears 3 = false ∨ (s.node.clearLines.port 3).any (·.kind == 4) = false) :
    Answers (.isoRequest pgn) s s.node.clearLines := .of_run (fun n => n.clearLines.isoAnswer pgn) rfl (isoAnswer_unheard h)

theorem arpIcmp_gives (port : Fin 6) (arp : Bool) :
    ((s.node.clearLines.hears port.val && (s.node.port port.val).any (·.ethernet)) = false → Answers (.arpIcmp port arp) s s.node.clearLines) ∧
    ((s.node.clearLines.hears port.val && (s.node.port port.val).any (·.ethernet)) = true → Gives (.arpIcmp port arp) s fun m =>
      m.portSt port.val = answerOf s.node.txIdle (if arp then .arpReply else .icmpReply) (quietPort (s.node.portSt port.val)) ∧
        Keeps [.ext] s.node m) := by
  have h := clearLines_cleared hw
  have hrun (q : Node → Prop) (hq : q (if s.node.clearLines.hears port.val && (s.node.clearLines.port port.val).any (·.ethernet) then
      s.node.clearLines.answerOn port.val (if arp then .arpReply else .icmpReply) else s.node.clearLines)) : Gives (.arpIcmp port arp) s q :=
    .of_run (fun n => if n.clearLines.hears port.val && (n.clearLines.port port.val).any (·.ethernet) then
      n.clearLines.answerOn port.val (if arp then .arpReply else .icmpReply) else n.clearLines) rfl hq
  rw [← h.port_eq]
  refine ⟨fun hf => .of_run (fun n => if n.clearLines.hears port.val && (n.clearLines.port port.val).any (·.ethernet) then
      n.clearLines.answerOn port.val (if arp then .arpReply else .icmpReply) else n.clearLines) rfl (if_neg (by simp [hf])),
    fun ht => hrun _ ?_⟩
  rw [if_pos ht]
  obtain ⟨hp, -, -, -, hk⟩ := h.noLines.answerOn h.txIdle_eq port.isLt (if arp then .arpReply else .icmpReply)
  exact ⟨hp, hk⟩

end Given

/-- Settles O55: what each CAN command answers or sends on port 3, and the answers of an Ethernet port. -/
theorem canAndNetworkLayer : Obligations.CanAndNetworkLayer := by
  unfold Obligations.CanAndNetworkLayer
  intro s port addr name pgn arp n c x onCan waiting answered answers sends out shown contested engine hw
  have h : Cleared n c := clearLines_cleared hw
  obtain ⟨e1, e2, -⟩ := h.address_eq
  refine ⟨fun hc => addressClaim_idle name ?_, fun k hk h4 hc => addressClaim_gives hw hk h4 hc, fun hc => isoRequest_idle pgn ?_,
    fun hh h4 => isoRequest_gives hw hh h4 pgn, periodic_idle, fun hc => ?_, (arpIcmp_gives hw port arp).1, (arpIcmp_gives hw port arp).2⟩
  · refine hc.imp (fun hp => (h.port_eq 3).trans hp) fun hn hx => ?_
    obtain ⟨hh, hcl, ha⟩ := hx
    exact hn ⟨hh, e1.symm.trans hcl, e2.symm.trans ha⟩
  · rw [← h.port_eq] at hc
    exact hc
  · exact periodic_gives hw hc

end

section
/-! Modbus: reads, writes and connections (17 R535 to R543, Table 17.6). -/

namespace Sys2Proof.Machine.Node

variable {n m c : Node} {p unit fn : Nat}

/-! One answer to a request. -/

/-- The port after the answer to a request, which a broadcast does not have. -/
def replied (n : Node) (p unit : Nat) (x : NetMsg) (s : PortSt) : PortSt := if broadcast p unit then s else sentOn n.txIdle x s

/-- The port of a request that is taken. -/
def takenOn (s : PortSt) : PortSt := { s with accepted := satInc 0xFFFF s.accepted }

/-- The port of a request that is refused. -/
def refusedOn (s : PortSt) : PortSt := { s with rejected := satInc 0xFFFF s.rejected }

theorem sendOn_reply (b : Bool) (hw : twf {} n.ext.ports = true) (x : NetMsg) :
    PortsStep n [p] (fun s => if b then s else sentOn n.txIdle x s) (if b then n else n.sendOn p x) := by
  cases b
  · exact updPort_step hw p (sentOn n.txIdle x)
  · refine ⟨rfl, hw, fun i => ?_⟩
    simp

theorem PortsStep.comp {l : List Nat} {f g : PortSt → PortSt} (h : PortsStep n l f m) (k : PortsStep m l g c) :
    PortsStep n l (g ∘ f) c := by
  refine ⟨?_, k.wf, fun i => ?_⟩
  · rw [k.eq, h.eq]
    rfl
  · rw [k.get, h.get]
    split <;> rfl

theorem modAnswer_ok (hw : twf {} n.ext.ports = true) (d : List Nat) :
    PortsStep n [p] (n.replied p unit (.modbus unit fn d) ∘ takenOn) (n.modAnswer p unit fn (.ok d)) := by
  have h := updPort_step hw p takenOn
  exact h.comp (sendOn_reply (broadcast p unit) h.wf _)

theorem modAnswer_error (hw : twf {} n.ext.ports = true) (code : Nat) :
    PortsStep (n.extFlag 3) [p] (n.replied p unit (.modbusExc unit fn code) ∘ refusedOn) (n.modAnswer p unit fn (.error code)) := by
  have h := updPort_step (n := n.extFlag 3) hw p refusedOn
  exact h.comp (sendOn_reply (broadcast p unit) h.wf _)

/-- The port of a request of this step, and what it answers. -/
def answered (n : Node) (p unit : Nat) (x : NetMsg) (f : PortSt → PortSt) : PortSt := n.replied p unit x (f (quietPort (n.portSt p)))

/-- One port changes in a step, and the flags are those given. -/
def OneFlagged (n : Node) (p : Nat) (v : PortSt) (flags : BitVec 7) (m : Node) : Prop :=
  m.portSt p = v ∧ m.ext.flags = flags ∧ (∀ i, i ≠ p → i < 6 → m.portSt i = quietPort (n.portSt i)) ∧ Keeps [.ext] n m

theorem NoLines.oneFlagged {f : PortSt → PortSt} (h : NoLines n c) (hp : p < 6) (k : Node) (hk : k = c ∨ k = c.extFlag 3)
    (g : PortsStep k [p] f m) (hm : Within [.ext] c m) : OneFlagged n p (f (quietPort (n.portSt p))) k.ext.flags m := by
  have hg (i : Nat) : k.portSt i = c.portSt i := by rcases hk with rfl | rfl <;> rfl
  refine ⟨?_, ?_, fun i hi h6 => ?_, h.keeps.trans hm.keeps⟩
  · rw [g.get, if_pos (List.mem_singleton.2 rfl), hg, h.port p hp]
  · rw [g.eq]
    rfl
  · rw [g.get, if_neg (by simpa using hi), hg, h.port i h6]

theorem Cleared.modOk (h : Cleared n c) (hp : p < 6) (d : List Nat) :
    OneFlagged n p (n.answered p unit (.modbus unit fn d) takenOn) n.ext.flags (c.modAnswer p unit fn (.ok d)) := by
  have ho := h.noLines.oneFlagged hp c (.inl rfl) (modAnswer_ok (unit := unit) (fn := fn) h.twf d) (.modAnswer .rfl)
  rw [h.noLines.flags] at ho
  have hr : c.replied p unit (.modbus unit fn d) = n.replied p unit (.modbus unit fn d) := by
    funext s
    rw [replied, replied, h.txIdle_eq]
  rw [hr] at ho
  exact ho

theorem Cleared.modError (h : Cleared n c) (hp : p < 6) (code : Nat) :
    OneFlagged n p (n.answered p unit (.modbusExc unit fn code) refusedOn) (setBit n.ext.flags 3) (c.modAnswer p unit fn (.error code)) := by
  have ho := h.noLines.oneFlagged hp (c.extFlag 3) (.inr rfl) (modAnswer_error (unit := unit) (fn := fn) h.twf code) (.modAnswer .rfl)
  have hf : (c.extFlag 3).ext.flags = setBit n.ext.flags 3 := congrArg (setBit · 3) h.noLines.flags
  rw [hf] at ho
  have hr : c.replied p unit (.modbusExc unit fn code) = n.replied p unit (.modbusExc unit fn code) := by
    funext s
    rw [replied, replied, h.txIdle_eq]
  rw [hr] at ho
  exact ho

/-! Reads. -/

theorem modReadFn_foreign {sp : ModSpace} {start cnt most : Nat} (h : n.modUnit p unit = false ∨ broadcast p unit = true) :
    n.modReadFn p unit fn sp start cnt most = n := by
  refine if_pos ?_
  rcases h with h | h <;> simp [h]

theorem modReadFn_own {sp : ModSpace} {start cnt most : Nat} (h : n.modUnit p unit = true) (hb : broadcast p unit = false) :
    n.modReadFn p unit fn sp start cnt most = n.modAnswer p unit fn (n.modReadRange sp start cnt most) := by
  refine if_neg ?_
  simp [h, hb]

theorem modReadRange_size {sp : ModSpace} {start cnt most : Nat} (h : cnt = 0 ∨ most < cnt) : n.modReadRange sp start cnt most = .error 3 :=
  if_pos h

theorem modReadRange_of {sp : ModSpace} {start cnt most : Nat} (h1 : 1 ≤ cnt) (h2 : cnt ≤ most) :
    n.modReadRange sp start cnt most = (n.modReads sp start cnt).elim (.error 2) .ok := by
  rw [modReadRange, if_neg (by omega)]
  cases n.modReads sp start cnt <;> rfl

/-! Lists of optional values. -/

theorem mapM_cons_some {α β : Type} {f : α → Option β} {x : α} {l : List α} {r : List β} (h : (x :: l).mapM f = some r) :
    ∃ y k, f x = some y ∧ l.mapM f = some k ∧ r = y :: k := by
  rw [List.mapM_cons] at h
  cases hx : f x with
  | none => simp [hx] at h
  | some y =>
    cases hl : l.mapM f with
    | none => simp [hx, hl] at h
    | some k =>
      rw [hx, hl] at h
      exact ⟨y, k, rfl, rfl, (Option.some.inj h).symm⟩

theorem mapM_length {α β : Type} {f : α → Option β} {l : List α} {r : List β} (h : l.mapM f = some r) : r.length = l.length := by
  induction l generalizing r with
  | nil =>
    rw [List.mapM_nil] at h
    rw [← (Option.some.inj h : [] = r)]
    rfl
  | cons x l ih =>
    obtain ⟨y, k, -, hk, rfl⟩ := mapM_cons_some h
    rw [List.length_cons, List.length_cons, ih hk]

theorem mapM_none {α β : Type} {f : α → Option β} {l : List α} {x : α} (hx : x ∈ l) (h : f x = none) : l.mapM f = none := by
  rw [Option.eq_none_iff_forall_ne_some]
  intro r hr
  induction l generalizing r with
  | nil => exact absurd hx (by simp)
  | cons z l ih =>
    obtain ⟨y, k, hy, hk, -⟩ := mapM_cons_some hr
    rcases List.mem_cons.1 hx with rfl | hx
    · rw [h] at hy
      cases hy
    · exact ih hx k hk

theorem mapM_some {α β : Type} {f : α → Option β} {l : List α} (h : ∀ x ∈ l, (f x).isSome = true) : ∃ r, l.mapM f = some r := by
  induction l with
  | nil => exact ⟨[], rfl⟩
  | cons x l ih =>
    obtain ⟨y, hy⟩ := Option.isSome_iff_exists.1 (h x List.mem_cons_self)
    obtain ⟨r, hr⟩ := ih fun z hz => h z (List.mem_cons_of_mem _ hz)
    refine ⟨y :: r, ?_⟩
    rw [List.mapM_cons, hy, hr]
    rfl

theorem modReads_length {sp : ModSpace} {start cnt : Nat} {l : List Nat} (h : n.modReads sp start cnt = some l) : l.length = cnt := by
  rw [mapM_length h, List.length_range]

/-! Connections. -/

theorem tcpOpen_deaf (h : (n.hears p && (n.port p).any fun k => k.service 1) = false) : n.tcpOpen p = n := by
  refine if_pos ?_
  rw [← Bool.not_and, h]
  rfl

theorem tcpOpen_full (h : (n.hears p && (n.port p).any fun k => k.service 1) = true) (hc : (n.portSt p).conns = 0xF) :
    n.tcpOpen p = n.answerOn p .tcpRefuse := by
  have hf : (List.range 4).find? (fun i => !bit (n.portSt p).conns i) = none := by
    rw [hc]
    decide
  rw [tcpOpen, if_neg (by rw [← Bool.not_and, h]; decide), hf]

theorem tcpOpen_free {i : Fin 4} (h : (n.hears p && (n.port p).any fun k => k.service 1) = true) (hc : bit (n.portSt p).conns i.val = false)
    (hl : ∀ j : Fin 4, j < i → bit (n.portSt p).conns j.val = true) :
    n.tcpOpen p = (n.updPort p fun s => { s with conns := setBit s.conns i.val }).answerOn p (.tcpAccept i.val) := by
  have hf : (List.range 4).find? (fun i => !bit (n.portSt p).conns i) = some i.val := by
    rw [List.find?_range_eq_some]
    refine ⟨by simp [hc], by simp, fun j hj => ?_⟩
    have hx := hl ⟨j, by omega⟩ hj
    simp at hx
    simp [hx]
  rw [tcpOpen, if_neg (by rw [← Bool.not_and, h]; decide), hf]

theorem answerOn_step (hw : twf {} n.ext.ports = true) (x : NetMsg) : PortsStep n [p] (answerOf n.txIdle x) (n.answerOn p x) :=
  updPort_step hw p (answerOf n.txIdle x)

theorem Cleared.answerAfter (h : Cleared n c) (hp : p < 6) (f : PortSt → PortSt) (x : NetMsg) :
    OneFlagged n p (answerOf n.txIdle x (f (quietPort (n.portSt p)))) n.ext.flags ((c.updPort p f).answerOn p x) := by
  have hu := updPort_step h.twf p f
  have hs := hu.comp (answerOn_step (p := p) hu.wf x)
  have hi : (c.updPort p f).txIdle = n.txIdle := h.txIdle_eq
  have ho := h.noLines.oneFlagged hp c (.inl rfl) hs (.answerOn (.updPort .rfl))
  rw [h.noLines.flags, hi] at ho
  exact ho

/-! Writes of coils. -/

theorem writeCoils_foreign {start : Nat} {vs : List Bool} {echo : List Nat} (h : n.modUnit p unit = false) :
    n.writeCoils p unit fn start vs echo = n := if_pos (by simp [h])

section Coils

variable {start : Nat} {vs : List Bool} {echo : List Nat} (h : n.modUnit p unit = true)
include h

theorem writeCoils_size (hs : vs = [] ∨ 1968 < vs.length) :
    n.writeCoils p unit fn start vs echo = n.modAnswer p unit fn (.error 3) := by
  rw [writeCoils, if_neg (by simp [h]), if_pos (by simpa using hs)]

theorem writeCoils_eq (hs : vs ≠ []) (hl : vs.length ≤ 1968) : n.writeCoils p unit fn start vs echo =
    ((List.range vs.length).mapM fun i => n.modAt .coil (start + i)).elim (n.modAnswer p unit fn (.error 2)) fun l =>
      ((l.zip vs).foldl (fun n (m, v) => if v then n.coilCommand p m.1 else n) n).modAnswer p unit fn (.ok echo) := by
  rw [writeCoils, if_neg (by simp [h]), if_neg (by simpa [hs] using hl)]
  cases (List.range vs.length).mapM fun i => n.modAt .coil (start + i) <;> rfl

theorem writeCoils_unmapped {i : Nat} (hl : vs.length ≤ 1968) (hi : i < vs.length) (hm : n.modAt .coil (start + i) = none) :
    n.writeCoils p unit fn start vs echo = n.modAnswer p unit fn (.error 2) := by
  have hs : vs ≠ [] := by
    rintro rfl
    exact Nat.not_lt_zero _ hi
  rw [writeCoils_eq h hs hl, mapM_none (List.mem_range.2 hi) hm]
  rfl

theorem writeCoils_off (hs : vs ≠ []) (hl : vs.length ≤ 1968) (hm : ∀ i, i < vs.length → (n.modAt .coil (start + i)).isSome = true)
    (hv : ∀ b ∈ vs, b = false) : n.writeCoils p unit fn start vs echo = n.modAnswer p unit fn (.ok echo) := by
  obtain ⟨l, he⟩ := mapM_some (f := fun i => n.modAt .coil (start + i)) (l := List.range vs.length) fun i hi => hm i (List.mem_range.1 hi)
  have hf (r : List ((ModbusCfg × Nat) × Bool)) (hr : ∀ x ∈ r, x.2 = false) (k : Node) :
      r.foldl (fun n (m, v) => if v then n.coilCommand p m.1 else n) k = k := by
    induction r generalizing k with
    | nil => rfl
    | cons x r ih =>
      obtain ⟨a, b⟩ := x
      have hb : ¬ b = true := by simp [show b = false from hr (a, b) List.mem_cons_self]
      rw [List.foldl_cons]
      dsimp only
      rw [if_neg hb]
      exact ih (fun y hy => hr y (List.mem_cons_of_mem _ hy)) k
  rw [writeCoils_eq h hs hl, he]
  refine congrArg (modAnswer · p unit fn (.ok echo)) (hf _ (fun x hx => ?_) n)
  obtain ⟨a, b⟩ := x
  exact hv b (List.of_mem_zip hx).2

theorem writeCoils_on {e : ModbusCfg × Nat} (hm : n.modAt .coil start = some e) :
    n.writeCoils p unit fn start [true] echo = (n.coilCommand p e.1).modAnswer p unit fn (.ok echo) := by
  rw [writeCoils_eq h (by simp) (by simp)]
  simp [hm]

end Coils

/-! Writes of registers. -/

theorem writeRegister_foreign {a : Nat} (h : n.modUnit p unit = false) : n.writeRegister p unit a = n := if_pos (by simp [h])

theorem writeRegister_own {a : Nat} (h : n.modUnit p unit = true) :
    n.writeRegister p unit a = n.modAnswer p unit 6 (.error (if (n.modAt .holding a).isSome then 1 else 2)) := if_neg (by simp [h])

theorem writeRegisters_foreign {a : Nat} {vs : List (BitVec 16)} (h : n.modUnit p unit = false) : n.writeRegisters p unit a vs = n :=
  if_pos (by simp [h])

theorem readWrite_foreign {a rstart rn : Nat} {vs : List (BitVec 16)} (h : n.modUnit p unit = false ∨ broadcast p unit = true) :
    n.readWrite p unit rstart rn a vs = n := by
  refine if_pos ?_
  rcases h with h | h <;> simp [h]

/-- The node with a tunable to be written at the next epoch boundary. -/
def tuneQueued (n : Node) (cell item : Nat) (w : B64) : Node :=
  n.mFab fun f => { f with tunePend := putTune f.tunePend ⟨cell, item, tuneRaw item w⟩ }

section Registers

variable {a cell item : Nat} {vs : List (BitVec 16)} {w : B64}

theorem writeRegs_size (h : vs = [] ∨ 123 < vs.length) : n.writeRegs a vs = (3, n) := if_pos (by simpa using h)

theorem writeRegs_unmapped (h0 : vs ≠ []) (hl : vs.length ≤ 123) (h : wholeTunables n vs.length a vs = none) : n.writeRegs a vs = (2, n) := by
  rw [writeRegs, if_neg (by simpa [h0] using hl), h]

theorem writeRegs_one (hl : vs.length ≤ 123) (h : wholeTunables n vs.length a vs = some [(cell, item, w)]) :
    n.writeRegs a vs = if n.tuneException (cell, item, w) ≠ 0 then (n.tuneException (cell, item, w), n) else (0, n.tuneQueued cell item w) := by
  have h0 : vs ≠ [] := by
    rintro rfl
    simp [wholeTunables] at h
  rw [writeRegs, if_neg (by simpa [h0] using hl), h]
  rfl

theorem writeRegisters_own {m : Node} {code : Nat} (hu : n.modUnit p unit = true) (h : n.writeRegs a vs = (code, m)) :
    n.writeRegisters p unit a vs = m.modAnswer p unit 16 (if code = 0 then .ok [a, vs.length] else .error code) := by
  rw [writeRegisters, if_neg (by simp [hu]), h]

theorem readWrite_own {m : Node} {code rstart rn : Nat} (hu : n.modUnit p unit = true) (hb : broadcast p unit = false)
    (h : n.writeRegs a vs = (code, m)) : n.readWrite p unit rstart rn a vs =
      m.modAnswer p unit 23 (if code = 0 then m.modReadRange .holding rstart rn 125 else .error code) := by
  rw [readWrite, if_neg (by simp [hu, hb]), h]

end Registers

/-! A tunable that waits is not read before it is written, and a read does not look at the ports. -/

theorem readSrc_tuneQueued (cell item : Nat) (w : B64) (x : Source) (age : Option Nat) :
    (n.tuneQueued cell item w).readSrc age x = n.readSrc age x := by
  induction x generalizing age with
  | staleOf x ih => exact congrArg (fun r : Reading => boolReading r.stale) (ih none)
  | _ => rfl

theorem readSrc_withPorts (t : Tab PortSt) (x : Source) (age : Option Nat) : (n.withPorts t).readSrc age x = n.readSrc age x := by
  induction x generalizing age with
  | staleOf x ih => exact congrArg (fun r : Reading => boolReading r.stale) (ih none)
  | _ => rfl

theorem modRead_tuneQueued (cell item : Nat) (w : B64) (e : ModbusCfg) (k : Nat) : (n.tuneQueued cell item w).modRead e k = n.modRead e k := by
  have hs (x : Source) : (n.tuneQueued cell item w).shownSource x = n.shownSource x := by
    unfold shownSource
    rw [readSrc_tuneQueued]
    rfl
  unfold modRead
  cases e.item <;> simp only [hs] <;> rfl

theorem modRead_withPorts (t : Tab PortSt) (e : ModbusCfg) (k : Nat) : (n.withPorts t).modRead e k = n.modRead e k := by
  have hs (x : Source) : (n.withPorts t).shownSource x = n.shownSource x := by
    unfold shownSource
    rw [readSrc_withPorts]
    rfl
  unfold modRead
  cases e.item <;> simp only [hs] <;> rfl

theorem modReads_tuneQueued (cell item : Nat) (w : B64) (sp : ModSpace) (start cnt : Nat) :
    (n.tuneQueued cell item w).modReads sp start cnt = n.modReads sp start cnt := by
  have ha (i : Nat) : (n.tuneQueued cell item w).modAt sp i = n.modAt sp i := rfl
  unfold modReads
  simp only [modRead_tuneQueued, ha]

theorem Cleared.modReads_eq (h : Cleared n c) (sp : ModSpace) (start cnt : Nat) : c.modReads sp start cnt = n.modReads sp start cnt := by
  obtain ⟨t, rfl, -, -⟩ := h
  have ha (i : Nat) : (n.withPorts t).modAt sp i = n.modAt sp i := rfl
  unfold modReads
  simp only [modRead_withPorts, ha]

theorem Cleared.modAt_eq (h : Cleared n c) (sp : ModSpace) (a : Nat) : c.modAt sp a = n.modAt sp a := by
  obtain ⟨_, rfl, -, -⟩ := h
  rfl

theorem Cleared.tuneException_eq (h : Cleared n c) (x : Nat × Nat × B64) : c.tuneException x = n.tuneException x := by
  obtain ⟨_, rfl, -, -⟩ := h
  rfl

theorem Cleared.wholeTunables_eq (h : Cleared n c) (f a : Nat) (vs : List (BitVec 16)) :
    wholeTunables c f a vs = wholeTunables n f a vs := by
  induction f generalizing a vs with
  | zero => rfl
  | succ f ih => simp only [wholeTunables, ih, h.modAt_eq]

/-! What a request leaves. -/

/-- The port after the answer of this step, before the request is counted. -/
def replyOn (n : Node) (p unit : Nat) (x : NetMsg) : PortSt :=
  let q := quietPort (n.portSt p)
  if broadcast p unit then q
  else if n.txIdle then { q with queue := q.queue ++ [⟨.state, noAlert, x⟩] } else { q with
    line := [x]
    sent := (q.sent + 1) % 2 ^ 32 }

theorem answered_refused (n : Node) (p unit : Nat) (x : NetMsg) :
    n.answered p unit x refusedOn = { n.replyOn p unit x with rejected := satInc 0xFFFF (quietPort (n.portSt p)).rejected } := by
  unfold answered replied replyOn
  cases broadcast p unit
  · unfold sentOn
    cases n.txIdle <;> rfl
  · rfl

theorem answered_taken (n : Node) (p unit : Nat) (x : NetMsg) :
    n.answered p unit x takenOn = { n.replyOn p unit x with accepted := satInc 0xFFFF (quietPort (n.portSt p)).accepted } := by
  unfold answered replied replyOn
  cases broadcast p unit
  · unfold sentOn
    cases n.txIdle <;> rfl
  · rfl

/-- A request refused: its exception, and the host's notice. -/
def Throws (n : Node) (p unit fn code : Nat) (m : Node) : Prop :=
  m.portSt p = { n.replyOn p unit (.modbusExc unit fn code) with rejected := satInc 0xFFFF (quietPort (n.portSt p)).rejected } ∧ m.ext.flags = setBit n.ext.flags 3 ∧ Keeps [.ext] n m

/-- A request taken, which changes the parts listed. -/
def Takes (n : Node) (p unit fn : Nat) (d : List Nat) (l : List Part) (m : Node) : Prop :=
  m.portSt p = { n.replyOn p unit (.modbus unit fn d) with accepted := satInc 0xFFFF (quietPort (n.portSt p)).accepted } ∧ m.ext.flags = n.ext.flags ∧ Keeps (.ext :: l) n m

theorem Cleared.throws (h : Cleared n c) (hp : p < 6) (code : Nat) : Throws n p unit fn code (c.modAnswer p unit fn (.error code)) := by
  obtain ⟨h1, h2, -, h3⟩ := h.modError (unit := unit) (fn := fn) hp code
  exact ⟨h1.trans (answered_refused ..), h2, h3⟩

theorem Cleared.takes (h : Cleared n c) (hp : p < 6) (d : List Nat) : Takes n p unit fn d [] (c.modAnswer p unit fn (.ok d)) := by
  obtain ⟨h1, h2, -, h3⟩ := h.modOk (unit := unit) (fn := fn) hp d
  exact ⟨h1.trans (answered_taken ..), h2, h3⟩

theorem Cleared.tuneQueued (h : Cleared n c) (cell item : Nat) (w : B64) : Cleared (n.tuneQueued cell item w) (c.tuneQueued cell item w) := by
  have hf : c.fab = n.fab := h.keeps.part .fab (by decide)
  obtain ⟨t, rfl, ht, hq⟩ := h
  exact ⟨t, rfl, ht, hq⟩

theorem Cleared.takesTune (h : Cleared n c) (hp : p < 6) (cell item : Nat) (w : B64) (d : List Nat) :
    Takes n p unit fn d [.fab] ((c.tuneQueued cell item w).modAnswer p unit fn (.ok d)) ∧
      ((c.tuneQueued cell item w).modAnswer p unit fn (.ok d)).fab = (n.tuneQueued cell item w).fab := by
  obtain ⟨h1, h2, -, h3⟩ := (h.tuneQueued cell item w).modOk (unit := unit) (fn := fn) hp d
  exact ⟨⟨h1.trans (answered_taken ..), h2, ((show Within [.fab] n _ from .mFab .rfl).keeps.mono (by decide)).trans (h3.mono (by decide))⟩,
    h3.part .fab (by decide)⟩

theorem fabNet_own {o : Option Nat} {op target arg path : Nat} (h : n.dest o = .own) : ∃ q,
    (n.fabNet o op target arg path).fab.queue = n.fab.queue ++ [q] ∧ q.op = op ∧ q.target = target ∧ q.path = path ∧
      Within [.fab] n (n.fabNet o op target arg path) := by
  simp only [fabNet, h]
  exact ⟨_, arrive_queue _ _, rfl, rfl, rfl, .arrive (.takeCmdId .rfl)⟩

theorem callNet_own {o : Option Nat} {op target arg path : Nat} (h : n.dest o = .own) : ∃ q,
    (n.callNet o op target arg path).fab.queue = n.fab.queue ++ [q] ∧ q.op = op ∧ q.target = target ∧ q.path = path ∧
      Within [.fab] n (n.callNet o op target arg path) := by
  simp only [callNet, h]
  exact ⟨_, arrive_queue _ _, rfl, rfl, rfl, .arrive (.takeCmdId .rfl)⟩

/-- The command of a coil joins the queue. -/
def CoilQueued (n : Node) (op target : Nat) (m : Node) : Prop := ∃ q, m.fab.queue = n.fab.queue ++ [q] ∧ q.op = op ∧ q.target = target ∧ q.path = 2

theorem coilCommand_own {e : ModbusCfg} {o k : Nat} (hq : n.mayQueue p = true) (hd : n.dest (some o) = .own) :
    (e.item = .ackPoint o k → CoilQueued n 1 k (n.coilCommand p e) ∧ Within [.fab] (n.countCmd p) (n.coilCommand p e)) ∧
    (e.item = .ackGroup o k → CoilQueued n 2 k (n.coilCommand p e) ∧ Within [.fab] (n.countCmd p) (n.coilCommand p e)) ∧
    (e.item = .callAck o k → CoilQueued n 0x11 k (n.coilCommand p e) ∧ Within [.fab] (n.countCmd p) (n.coilCommand p e)) := by
  have hd' : (n.countCmd p).dest (some o) = .own := hd
  refine ⟨fun h => ?_, fun h => ?_, fun h => ?_⟩
  · obtain ⟨q, h1, h2, h3, h4, h5⟩ := fabNet_own (op := 1) (target := k) (arg := 0) (path := 2) hd'
    have he : n.coilCommand p e = (n.countCmd p).fabNet (some o) 1 k 0 2 := by
      simp only [coilCommand, hq, h]
      rfl
    rw [he]
    exact ⟨⟨q, h1, h2, h3, h4⟩, h5⟩
  · obtain ⟨q, h1, h2, h3, h4, h5⟩ := fabNet_own (op := 2) (target := k) (arg := 0) (path := 2) hd'
    have he : n.coilCommand p e = (n.countCmd p).fabNet (some o) 2 k 0 2 := by
      simp only [coilCommand, hq, h]
      rfl
    rw [he]
    exact ⟨⟨q, h1, h2, h3, h4⟩, h5⟩
  · obtain ⟨q, h1, h2, h3, h4, h5⟩ := callNet_own (op := 0x11) (target := k) (arg := 0) (path := 2) hd'
    have he : n.coilCommand p e = (n.countCmd p).callNet (some o) 0x11 k 0 2 := by
      simp only [coilCommand, hq, h]
      rfl
    rw [he]
    exact ⟨⟨q, h1, h2, h3, h4⟩, h5⟩

theorem Cleared.coilTaken (h : Cleared n c) (hp : p < 6) {k : Node} {op target : Nat} (d : List Nat) (hq : CoilQueued c op target k)
    (hk : Within [.fab] (c.countCmd p) k) :
    let m := k.modAnswer p unit fn (.ok d)
    CoilQueued n op target m ∧ (m.portSt p).cmds = (quietPort (n.portSt p)).cmds + 1 ∧
      (m.portSt p).accepted = satInc 0xFFFF (quietPort (n.portSt p)).accepted ∧ Keeps [.ext, .fab] n m := by
  have hu := updPort_step h.twf p fun s => { s with cmds := s.cmds + 1 }
  have hs : k.portSt p = { quietPort (n.portSt p) with cmds := (quietPort (n.portSt p)).cmds + 1 } := by
    have he : k.portSt p = (c.countCmd p).portSt p := by rw [portSt, portSt, hk.part .ext]
    rw [he, ← h.portSt_eq hp]
    exact (hu.get p).trans (if_pos (List.mem_singleton.2 rfl))
  have hw : Machine.twf {} k.ext.ports = true := by
    rw [hk.part .ext]
    exact hu.wf
  have hm := modAnswer_ok (unit := unit) (fn := fn) (p := p) hw d
  have ha : Within [.ext] k (k.modAnswer p unit fn (.ok d)) := .modAnswer .rfl
  have hp2 : (k.modAnswer p unit fn (.ok d)).portSt p = k.replied p unit (.modbus unit fn d) (takenOn (k.portSt p)) :=
    (hm.get p).trans (if_pos (List.mem_singleton.2 rfl))
  have hf : c.fab = n.fab := h.keeps.part .fab (by decide)
  rw [hs] at hp2
  refine ⟨?_, ?_, ?_, ?_⟩
  · obtain ⟨q, h1, hr⟩ := hq
    refine ⟨q, ?_, hr⟩
    rw [ha.part .fab, h1, hf]
  · rw [hp2]
    unfold replied sentOn
    split
    · rfl
    · split <;> rfl
  · rw [hp2]
    unfold replied sentOn
    split
    · rfl
    · split <;> rfl
  · exact ((h.keeps.mono (by decide)).trans ((show Within [.ext] c _ from .countCmd .rfl).keeps.mono (by decide))).trans
      ((hk.keeps.mono (by decide)).trans (ha.keeps.mono (by decide)))

end Sys2Proof.Machine.Node

open Sys2Proof Sys2Proof.Machine Sys2Proof.Machine.Node

section Given

variable {s : State} (hw : twf {} s.node.ext.ports = true) (port : Fin 6)
include hw

theorem modRead_gives {i : Instr} {unit fn start cnt most : Nat} {sp : ModSpace}
    (hi : exec i s = s.run fun n => n.clearLines.modReadFn port.val unit fn sp start cnt most) :
    let c := s.node.clearLines
    let throws (code : Nat) := Gives i s (OneFlagged s.node port.val
      (sentOn s.node.txIdle (.modbusExc unit fn code) (refusedOn (quietPort (s.node.portSt port.val)))) (setBit s.node.ext.flags 3))
    (c.modUnit port.val unit = false ∨ broadcast port.val unit = true → Answers i s c) ∧
    (c.modUnit port.val unit = true → broadcast port.val unit = false →
      (cnt = 0 ∨ most < cnt → throws 3) ∧
      (1 ≤ cnt → cnt ≤ most →
        (c.modReads sp start cnt = none → throws 2) ∧
        ∀ l, c.modReads sp start cnt = some l → l.length = cnt ∧
          Gives i s (OneFlagged s.node port.val
            (sentOn s.node.txIdle (.modbus unit fn l) (takenOn (quietPort (s.node.portSt port.val)))) s.node.ext.flags))) := by
  intro c throws
  have h : Cleared s.node c := clearLines_cleared hw
  have hgive (q : Node → Prop) (hq : q (c.modReadFn port.val unit fn sp start cnt most)) : Gives i s q := .of_run _ hi hq
  refine ⟨fun hf => .of_run _ hi (modReadFn_foreign hf), fun hu hb => ⟨fun hs => hgive _ ?_, fun h1 h2 => ⟨fun hr => hgive _ ?_,
    fun l hr => ⟨modReads_length hr, hgive _ ?_⟩⟩⟩⟩
  · rw [modReadFn_own hu hb, modReadRange_size hs]
    have ho := h.modError (unit := unit) (fn := fn) port.isLt 3
    rwa [answered, replied, if_neg (by simp [hb])] at ho
  · rw [modReadFn_own hu hb, modReadRange_of h1 h2, hr]
    have ho := h.modError (unit := unit) (fn := fn) port.isLt 2
    rwa [answered, replied, if_neg (by simp [hb])] at ho
  · rw [modReadFn_own hu hb, modReadRange_of h1 h2, hr]
    have ho := h.modOk (unit := unit) (fn := fn) port.isLt l
    rwa [answered, replied, if_neg (by simp [hb])] at ho

theorem tcp_gives (conn : Fin 4) :
    let c := s.node.clearLines
    let x := quietPort (s.node.portSt port.val)
    let tcp := c.hears port.val && (s.node.port port.val).any fun k => k.service 1
    (tcp = false → Answers (.tcpConnect port) s c) ∧
    (tcp = true → x.conns = 0xF → Gives (.tcpConnect port) s (OneFlagged s.node port.val (answerOf s.node.txIdle .tcpRefuse x) s.node.ext.flags)) ∧
    (tcp = true → bit x.conns conn.val = false → (∀ i : Fin 4, i < conn → bit x.conns i.val = true) → Gives (.tcpConnect port) s
      (OneFlagged s.node port.val (answerOf s.node.txIdle (.tcpAccept conn.val) { x with conns := setBit x.conns conn.val }) s.node.ext.flags)) ∧
    (bit x.conns conn.val = false → Answers (.tcpIdleClose port conn) s c) ∧
    (bit x.conns conn.val = true → Gives (.tcpIdleClose port conn) s
      (OneFlagged s.node port.val (answerOf s.node.txIdle (.tcpClose conn.val) { x with conns := clrBit x.conns conn.val }) s.node.ext.flags)) := by
  intro c x tcp
  have h : Cleared s.node c := clearLines_cleared hw
  have hx : c.portSt port.val = x := h.portSt_eq port.isLt
  have hp : c.port port.val = s.node.port port.val := h.port_eq _
  have hopen (q : Node → Prop) (hq : q (c.tcpOpen port.val)) : Gives (.tcpConnect port) s q :=
    .of_run (fun n => n.clearLines.tcpOpen port.val) rfl hq
  have hclose : exec (.tcpIdleClose port conn) s = s.run fun n => if bit (n.clearLines.portSt port.val).conns conn.val then
      (n.clearLines.updPort port.val fun s => { s with conns := clrBit s.conns conn.val }).answerOn port.val (.tcpClose conn.val)
      else n.clearLines := rfl
  have ht : tcp = (c.hears port.val && (c.port port.val).any fun k => k.service 1) := by rw [hp]
  rw [ht]
  refine ⟨fun hf => .of_run (fun n => n.clearLines.tcpOpen port.val) rfl (tcpOpen_deaf hf), fun hf hc => hopen _ ?_,
    fun hf hc hl => hopen _ ?_, fun hc => .of_run _ hclose (if_neg ?_), fun hc => .of_run _ hclose ?_⟩
  · rw [tcpOpen_full hf (hx ▸ hc)]
    have ha := h.noLines.answerOn h.txIdle_eq port.isLt .tcpRefuse
    obtain ⟨h1, h2, -, h4, h5⟩ := ha
    exact ⟨h1, h4, h2, h5⟩
  · rw [tcpOpen_free hf (hx ▸ hc) (hx ▸ hl)]
    exact h.answerAfter port.isLt (fun s => { s with conns := setBit s.conns conn.val }) _
  · rw [show s.node.clearLines.portSt port.val = x from hx, hc]
    decide
  · rw [show s.node.clearLines.portSt port.val = x from hx, if_pos hc]
    exact h.answerAfter port.isLt (fun s => { s with conns := clrBit s.conns conn.val }) _

omit hw in
theorem modWrite_foreign {unit a rstart rn : Nat} (v : BitVec 16) (vs : List (BitVec 16)) (bs : List Bool)
    (h : s.node.clearLines.modUnit port.val unit = false) :
    let c := s.node.clearLines
    Answers (.writeSingleCoil port unit a true) s c ∧ Answers (.writeSingleCoil port unit a false) s c ∧
      Answers (.writeSingleRegister port unit a v) s c ∧ Answers (.writeMultipleCoils port unit a bs) s c ∧
      Answers (.writeMultipleRegisters port unit a vs) s c ∧ Answers (.readWriteRegisters port unit rstart rn a vs) s c :=
  ⟨.of_run (fun n => n.clearLines.writeCoils port.val unit 5 a [true] [a, 0xFF00]) rfl (writeCoils_foreign h),
    .of_run (fun n => n.clearLines.writeCoils port.val unit 5 a [false] [a, 0]) rfl (writeCoils_foreign h),
    .of_run (fun n => n.clearLines.writeRegister port.val unit a) rfl (writeRegister_foreign h),
    .of_run (fun n => n.clearLines.writeCoils port.val unit 15 a bs [a, bs.length]) rfl (writeCoils_foreign h),
    .of_run (fun n => n.clearLines.writeRegisters port.val unit a vs) rfl (writeRegisters_foreign h),
    .of_run (fun n => n.clearLines.readWrite port.val unit rstart rn a vs) rfl (readWrite_foreign (.inl h))⟩

omit hw in
theorem readWrite_broadcast {unit a rstart rn : Nat} (vs : List (BitVec 16)) (h : broadcast port.val unit = true) :
    Answers (.readWriteRegisters port unit rstart rn a vs) s s.node.clearLines :=
  .of_run (fun n => n.clearLines.readWrite port.val unit rstart rn a vs) rfl (readWrite_foreign (.inr h))

section Own

variable {unit : Nat} (hu : s.node.clearLines.modUnit port.val unit = true) (a : Nat)
include hu

theorem writeRegister_gives (v : BitVec 16) : Gives (.writeSingleRegister port unit a v) s
    (Throws s.node port.val unit 6 (if (s.node.modAt .holding a).isSome then 1 else 2)) := by
  have h := clearLines_cleared hw
  refine .of_run (fun n => n.clearLines.writeRegister port.val unit a) rfl ?_
  rw [writeRegister_own hu, ← h.modAt_eq]
  exact h.throws port.isLt _

theorem writeCoil_gives :
    (∀ b, s.node.modAt .coil a = none → Gives (.writeSingleCoil port unit a b) s (Throws s.node port.val unit 5 2)) ∧
    ((s.node.modAt .coil a).isSome = true → Gives (.writeSingleCoil port unit a false) s (Takes s.node port.val unit 5 [a, 0] [])) := by
  have h := clearLines_cleared hw
  have hgive (b : Bool) (q : Node → Prop) (hq : q (s.node.clearLines.writeCoils port.val unit 5 a [b] [a, if b then 0xFF00 else 0])) :
      Gives (.writeSingleCoil port unit a b) s q :=
    .of_run (fun n => n.clearLines.writeCoils port.val unit 5 a [b] [a, if b then 0xFF00 else 0]) rfl hq
  rw [← h.modAt_eq]
  refine ⟨fun b hm => hgive b _ ?_, fun hm => hgive false _ ?_⟩
  · rw [writeCoils_unmapped hu (i := 0) (by simp) (by simp) hm]
    exact h.throws port.isLt _
  · rw [writeCoils_off hu (by simp) (by simp) (fun i hi => by rwa [show i = 0 by simpa using hi]) (by simp)]
    exact h.takes port.isLt _

theorem writeCoil_queues {e : ModbusCfg × Nat} {o k : Nat} (hm : s.node.modAt .coil a = some e) (hd : s.node.dest (some o) = .own)
    (hq : (quietPort (s.node.portSt port.val)).cmds < 16) :
    let queued (op : Nat) := Gives (.writeSingleCoil port unit a true) s fun m => CoilQueued s.node op k m ∧
      (m.portSt port.val).cmds = (quietPort (s.node.portSt port.val)).cmds + 1 ∧
      (m.portSt port.val).accepted = satInc 0xFFFF (quietPort (s.node.portSt port.val)).accepted ∧ Keeps [.ext, .fab] s.node m
    (e.1.item = .ackPoint o k → queued 1) ∧ (e.1.item = .ackGroup o k → queued 2) ∧ (e.1.item = .callAck o k → queued 0x11) := by
  intro queued
  have h := clearLines_cleared hw
  rw [← h.modAt_eq] at hm
  rw [← h.dest_eq] at hd
  have hy : s.node.clearLines.mayQueue port.val = true := by
    rw [mayQueue, h.portSt_eq port.isLt]
    exact decide_eq_true hq
  obtain ⟨h1, h2, h3⟩ := coilCommand_own (e := e.1) (k := k) hy hd
  have hgive (op : Nat) (hc : CoilQueued s.node.clearLines op k (s.node.clearLines.coilCommand port.val e.1) ∧
      Within [.fab] (s.node.clearLines.countCmd port.val) (s.node.clearLines.coilCommand port.val e.1)) : queued op := by
    refine .of_run (fun n => n.clearLines.writeCoils port.val unit 5 a [true] [a, 0xFF00]) rfl ?_
    rw [writeCoils_on hu hm]
    exact h.coilTaken port.isLt _ hc.1 hc.2
  exact ⟨fun hi => hgive 1 (h1 hi), fun hi => hgive 2 (h2 hi), fun hi => hgive 0x11 (h3 hi)⟩

theorem writeCoils_gives (bs : List Bool) :
    (bs = [] ∨ 1968 < bs.length → Gives (.writeMultipleCoils port unit a bs) s (Throws s.node port.val unit 15 3)) ∧
    (∀ i, bs.length ≤ 1968 → i < bs.length → s.node.modAt .coil (a + i) = none →
      Gives (.writeMultipleCoils port unit a bs) s (Throws s.node port.val unit 15 2)) ∧
    (bs ≠ [] → bs.length ≤ 1968 → (∀ i, i < bs.length → (s.node.modAt .coil (a + i)).isSome = true) → (∀ b ∈ bs, b = false) →
      Gives (.writeMultipleCoils port unit a bs) s (Takes s.node port.val unit 15 [a, bs.length] [])) := by
  have h := clearLines_cleared hw
  have hgive (q : Node → Prop) (hq : q (s.node.clearLines.writeCoils port.val unit 15 a bs [a, bs.length])) :
      Gives (.writeMultipleCoils port unit a bs) s q :=
    .of_run (fun n => n.clearLines.writeCoils port.val unit 15 a bs [a, bs.length]) rfl hq
  refine ⟨fun hs => hgive _ ?_, fun i hl hi hm => hgive _ ?_, fun h0 hl hm hv => hgive _ ?_⟩
  · rw [writeCoils_size hu hs]
    exact h.throws port.isLt _
  · rw [← h.modAt_eq] at hm
    rw [writeCoils_unmapped hu hl hi hm]
    exact h.throws port.isLt _
  · rw [writeCoils_off hu h0 hl (fun i hi => by rw [h.modAt_eq]; exact hm i hi) hv]
    exact h.takes port.isLt _

theorem writeRegisters_throws {vs : List (BitVec 16)} {code : Nat} (hc : code ≠ 0)
    (hr : s.node.clearLines.writeRegs a vs = (code, s.node.clearLines)) :
    Gives (.writeMultipleRegisters port unit a vs) s (Throws s.node port.val unit 16 code) := by
  have h := clearLines_cleared hw
  refine .of_run (fun n => n.clearLines.writeRegisters port.val unit a vs) rfl ?_
  rw [writeRegisters_own hu hr, if_neg hc]
  exact h.throws port.isLt _

theorem writeRegisters_gives (vs : List (BitVec 16)) :
    (vs = [] ∨ 123 < vs.length → Gives (.writeMultipleRegisters port unit a vs) s (Throws s.node port.val unit 16 3)) ∧
    (vs ≠ [] → vs.length ≤ 123 → Node.wholeTunables s.node vs.length a vs = none →
      Gives (.writeMultipleRegisters port unit a vs) s (Throws s.node port.val unit 16 2)) := by
  have h := clearLines_cleared hw
  refine ⟨fun hs => writeRegisters_throws hw port hu a (by decide) (writeRegs_size hs), fun h0 hl hn =>
    writeRegisters_throws hw port hu a (by decide) (writeRegs_unmapped h0 hl ?_)⟩
  rw [h.wholeTunables_eq]
  exact hn

theorem writeTunable_gives (rstart rn : Nat) {vs : List (BitVec 16)} {cell item : Nat} {w : B64} (hl : vs.length ≤ 123)
    (hn : Node.wholeTunables s.node vs.length a vs = some [(cell, item, w)]) :
    (s.node.tuneException (cell, item, w) ≠ 0 →
      Gives (.writeMultipleRegisters port unit a vs) s (Throws s.node port.val unit 16 (s.node.tuneException (cell, item, w))) ∧
      (broadcast port.val unit = false → Gives (.readWriteRegisters port unit rstart rn a vs) s
        (Throws s.node port.val unit 23 (s.node.tuneException (cell, item, w))))) ∧
    (s.node.tuneException (cell, item, w) = 0 →
      Gives (.writeMultipleRegisters port unit a vs) s (fun m => Takes s.node port.val unit 16 [a, vs.length] [.fab] m ∧
        m.fab = (s.node.tuneQueued cell item w).fab) ∧
      ∀ l, broadcast port.val unit = false → 1 ≤ rn → rn ≤ 125 → s.node.modReads .holding rstart rn = some l →
        Gives (.readWriteRegisters port unit rstart rn a vs) s fun m => Takes s.node port.val unit 23 l [.fab] m ∧
          m.fab = (s.node.tuneQueued cell item w).fab) := by
  have h := clearLines_cleared hw
  rw [← h.wholeTunables_eq] at hn
  have hr := writeRegs_one hl hn
  rw [h.tuneException_eq] at hr
  have hwrite (q : Node → Prop) (hq : q (s.node.clearLines.writeRegisters port.val unit a vs)) :
      Gives (.writeMultipleRegisters port unit a vs) s q := .of_run (fun n => n.clearLines.writeRegisters port.val unit a vs) rfl hq
  have hboth (q : Node → Prop) (hq : q (s.node.clearLines.readWrite port.val unit rstart rn a vs)) :
      Gives (.readWriteRegisters port unit rstart rn a vs) s q :=
    .of_run (fun n => n.clearLines.readWrite port.val unit rstart rn a vs) rfl hq
  refine ⟨fun hc => ?_, fun hc => ?_⟩
  · rw [if_pos hc] at hr
    refine ⟨writeRegisters_throws hw port hu a hc hr, fun hb => hboth _ ?_⟩
    rw [readWrite_own hu hb hr, if_neg hc]
    exact h.throws port.isLt _
  · rw [if_neg (not_not.2 hc)] at hr
    refine ⟨hwrite _ ?_, fun l hb h1 h2 hl => hboth _ ?_⟩
    · rw [writeRegisters_own hu hr, if_pos rfl]
      exact h.takesTune port.isLt _ _ _ _
    · rw [readWrite_own hu hb hr, if_pos rfl, modReadRange_of h1 h2, modReads_tuneQueued, h.modReads_eq, hl]
      exact h.takesTune port.isLt _ _ _ _

end Own

end Given

theorem Gives.imp {i : Instr} {s : State} {q r : Node → Prop} (h : Gives i s q) (g : ∀ m, q m → r m) : Gives i s r := by
  obtain ⟨t, he, hp, hq⟩ := h
  exact ⟨t, he, hp, g _ hq⟩

/-- Settles O56: the answer or exception of each function on the port it came in on, and what its writes queue. -/
theorem modbus : Obligations.Modbus := by
  unfold Obligations.Modbus
  refine ⟨?_, ?_⟩
  · intro s port conn unit start cnt n c p x one sent answered reads tcp hw
    exact ⟨modRead_gives hw port rfl, modRead_gives hw port rfl, modRead_gives hw port rfl, modRead_gives hw port rfl,
      tcp_gives hw port conn⟩
  · intro s port unit a rstart rn v vs bs n c p x reply throws done foreign hw
    refine ⟨fun h => modWrite_foreign port v vs bs h, fun h => readWrite_broadcast port vs h, fun h => ?_⟩
    have hu : c.modUnit p unit = true := Bool.eq_true_of_not_eq_false h
    obtain ⟨hc1, hc2⟩ := writeCoil_gives hw port hu a
    obtain ⟨hm1, hm2, hm3⟩ := writeCoils_gives hw port hu a bs
    obtain ⟨hr1, hr2⟩ := writeRegisters_gives hw port hu a vs
    refine ⟨writeRegister_gives hw port hu a v, hc1, fun hm => ?_, fun e o k hm hd hq => ?_, hm1, hm2, fun h0 hl hm hv => ?_,
      hr1, hr2, fun cell item w hl hn => ?_⟩
    · exact Gives.imp (hc2 hm) fun m ⟨ha, hb, hk⟩ => ⟨ha, hb, hk, trivial⟩
    · obtain ⟨h1, h2, h3⟩ := writeCoil_queues hw port hu a (k := k) hm hd hq
      exact ⟨h1, fun hi => Gives.imp (h2 hi) fun m ⟨ha, _, _, hk⟩ => ⟨ha, hk⟩,
        fun hi => Gives.imp (h3 hi) fun m ⟨ha, _, _, hk⟩ => ⟨ha, hk⟩⟩
    · exact Gives.imp (hm3 h0 hl hm hv) fun m ⟨ha, hb, hk⟩ => ⟨ha, hb, hk, trivial⟩
    · obtain ⟨h1, h2⟩ := writeTunable_gives hw port hu a rstart rn hl hn
      refine ⟨h1, fun hc => ?_⟩
      obtain ⟨h3, h4⟩ := h2 hc
      exact ⟨Gives.imp h3 fun m ⟨⟨ha, hb, hk⟩, hf⟩ => ⟨ha, hb, hk, hf⟩,
        fun l hb hr1 hr2 hl => Gives.imp (h4 l hb hr1 hr2 hl) fun m ⟨⟨ha, hb, hk⟩, hf⟩ => ⟨ha, hb, hk, hf⟩⟩

end

section
/-! Ports that leave service and come back, and the replay of records (17 R516, R545, R546, R549, R550). -/

namespace Sys2Proof.Machine.Node

variable {n m c : Node} {p : Nat}

/-! A refresh sends what a port shows; it moves no port. -/

/-- The states of the ports, the alerts and the result of the last port command stand. -/
def StatesStand (n m : Node) : Prop := twf {} n.ext.ports = true → twf {} m.ext.ports = true ∧
  (∀ i, (m.portSt i).state = (n.portSt i).state) ∧ m.ext.alerts = n.ext.alerts ∧ m.ext.cmdResult = n.ext.cmdResult

namespace StatesStand

theorem rfl : StatesStand n n := fun hw => ⟨hw, fun _ => Eq.refl _, Eq.refl _, Eq.refl _⟩

theorem trans {k : Node} (h : StatesStand n m) (g : StatesStand m k) : StatesStand n k := by
  intro hw
  obtain ⟨h1, h2, h3, h4⟩ := h hw
  obtain ⟨g1, g2, g3, g4⟩ := g h1
  exact ⟨g1, fun i => (g2 i).trans (h2 i), g3.trans h3, g4.trans h4⟩

theorem ite {b : Prop} [Decidable b] {x y : Node} (hx : StatesStand n x) (hy : StatesStand n y) : StatesStand n (if b then x else y) := by
  split <;> assumption

theorem foldl {β : Type} {f : Node → β → Node} (h : ∀ n x, StatesStand n (f n x)) (l : List β) (n : Node) : StatesStand n (l.foldl f n) :=
  foldl_rel (fun _ => rfl) trans h l n

theorem setPort {v : PortSt} (hv : v.state = (n.portSt p).state) : StatesStand n (n.setPort p v) := by
  intro hw
  refine ⟨twf_setPort hw p v, fun i => ?_, Eq.refl _, Eq.refl _⟩
  by_cases hi : i = p
  · subst hi
    rw [portSt_setPort hw, hv]
  · rw [portSt_setPort_other hw hi]

theorem updPort {f : PortSt → PortSt} (hf : ∀ s, (f s).state = s.state) : StatesStand n (n.updPort p f) := setPort (hf _)

theorem extFlag (i : Nat) : StatesStand n (n.extFlag i) := fun hw => ⟨hw, fun _ => Eq.refl _, Eq.refl _, Eq.refl _⟩

end StatesStand

theorem sendOn_states (x : NetMsg) : StatesStand n (n.sendOn p x) := by
  refine .updPort fun s => ?_
  split <;> rfl

theorem queueState_states (x : QMsg) : StatesStand n (n.queueState p x) := by
  unfold queueState
  dsimp only
  refine .ite (.setPort rfl) ?_
  split
  · refine .trans ?_ (.extFlag 2)
    exact .setPort rfl
  · split
    · exact .setPort rfl
    · refine .trans ?_ (.extFlag 1)
      exact .setPort rfl

theorem startSentence_states : StatesStand n (n.startSentence p) := by
  unfold startSentence
  dsimp only
  refine .ite .rfl ?_
  split
  · exact .rfl
  · exact .setPort rfl

theorem emit_states (kind : QKind) (alert : Nat) (x : NetMsg) : StatesStand n (n.emit p kind alert x) := by
  unfold emit
  refine .ite (.trans ?_ startSentence_states) (.foldl (fun _ _ => .ite (sendOn_states x) .rfl) _ _)
  exact .ite (queueState_states _) (.ite (.updPort fun _ => rfl) .rfl)

theorem emitAlf_states (kind : QKind) (i : Nat) (a : AlertCfg) : StatesStand n (n.emitAlf p kind i a) :=
  .trans (emit_states _ _ _) (.updPort fun _ => rfl)

theorem emitAlr_states (kind : QKind) (i : Nat) (a : AlertCfg) : StatesStand n (n.emitAlr p kind i a) := by
  unfold emitAlr
  split
  · exact emit_states _ _ _
  · exact .rfl

theorem emitN2k_states (i : Nat) (a : AlertCfg) (text : Bool) : StatesStand n (n.emitN2k p i a text) := by
  unfold emitN2k
  exact .ite .rfl (.ite (.trans (sendOn_states _) (sendOn_states _)) (sendOn_states _))

theorem emitChange_states (i : Nat) (a : AlertCfg) : StatesStand n (n.emitChange p i a) := by
  unfold emitChange
  split
  · exact .rfl
  · next k _ =>
    refine .ite .rfl (.ite (emitN2k_states _ _ _) (.ite ?_ .rfl))
    have h : StatesStand n (if k.alf then n.emitAlf p .state i a else n) := .ite (emitAlf_states _ _ _) .rfl
    exact .ite (h.trans (emitAlr_states _ _ _)) h

theorem emitAlc_states : StatesStand n (n.emitAlc p) := .foldl (fun _ _ => emit_states _ _ _) _ _

theorem refreshPort_states : StatesStand n (n.refreshPort p) := by
  unfold refreshPort
  dsimp only
  refine .ite .rfl ?_
  have h : StatesStand n ((n.twins p).foldl (fun n q => n.updPort q fun s => { s with refresh := false }) n) := by
    refine .foldl (fun _ _ => ?_) _ _
    exact .updPort fun _ => rfl
  generalize (n.twins p).foldl (fun n q => n.updPort q fun s => { s with refresh := false }) n = a at *
  have g : StatesStand n ((a.portAlerts p).foldl (fun n (i, c) => if (n.alertSt i).shown then n.emitChange p i c else n) a) :=
    h.trans (.foldl (fun _ _ => .ite (emitChange_states _ _) .rfl) _ _)
  exact .ite (g.trans emitAlc_states) g

/-! A port that changes its state. -/

/-- The port in another state; out of service it drops what it had to send. -/
def portMoved (s : PortSt) (new : Nat) : PortSt :=
  let gone := new == 2 || new == 3 || new == 5
  { s with state := new, cur := if gone then none else s.cur, queue := if gone then [] else s.queue }

/-- The flag of the state that a port moves to. -/
def moveFlags (f : BitVec 7) (new : Nat) : BitVec 7 := if new = 2 then setBit f 0 else if new = 3 then setBit f 4 else f

theorem portMove_ext {new : Nat} (h : (n.portSt p).state ≠ new) :
    (n.portMove p new).ext = { (n.setPort p (portMoved (n.portSt p) new)).ext with flags := moveFlags n.ext.flags new } := by
  unfold portMove
  dsimp only
  rw [if_neg h, (Within.later .rfl : Within [.jrnl, .tide, .pair] _ _).part .ext]
  unfold moveFlags
  split
  · rfl
  · split <;> rfl

section Moves

variable (hw : twf {} n.ext.ports = true) {new : Nat} (h : (n.portSt p).state ≠ new)
include hw h

theorem portMove_portSt : (n.portMove p new).portSt p = portMoved (n.portSt p) new := by
  have hp := portSt_setPort hw p (portMoved (n.portSt p) new)
  rw [portSt, portMove_ext h]
  exact hp

theorem twf_portMove : twf {} (n.portMove p new).ext.ports = true := by
  rw [portMove_ext h]
  exact twf_setPort hw p _

/-- A port that comes back moves to its role, and sends what it shows. -/
theorem portReturns_state (hl : n.liveState = new) : ((n.portReturns p).portSt p).state = new ∧
    (n.portReturns p).ext.alerts = n.ext.alerts ∧ (n.portReturns p).ext.cmdResult = n.ext.cmdResult := by
  subst hl
  obtain ⟨-, hs, ha, hr⟩ := refreshPort_states (p := p) (twf_portMove hw h)
  have he := portMove_ext h
  refine ⟨?_, ?_, ?_⟩
  · rw [portReturns, hs, portMove_portSt hw h]
    rfl
  · rw [portReturns, ha, he]
    rfl
  · rw [portReturns, hr, he]
    rfl

end Moves

/-! The events of a port. -/

theorem portEvent_none (h : n.port p = none) (ev : PortEvent) (t : Nat) : n.portEvent p ev t = n := by
  simp only [portEvent, h]

/-- The port serves: it is up, or silent. -/
def works (s : PortSt) : Prop := s.state = 1 ∨ s.state = 4

theorem works_iff (s : PortSt) : (s.state == portUp || s.state == portSilent) = true ↔ works s := by
  simp [works, portUp, portSilent]

/-- The failure that the link of a port shows. -/
def markFailed (n : Node) (p : Nat) (v : Bool) : Node := n.updPort p fun s => { s with failed := v }

section Event

variable {k : PortCfg} (hk : n.port p = some k) (t : Nat)
include hk

theorem portEvent_down (h4 : k.kind ≠ 4) :
    (works (n.portSt p) → n.portEvent p .down t = (n.markFailed p true).portMove p 2) ∧
    (¬ works (n.portSt p) → n.portEvent p .down t = n.markFailed p true) := by
  unfold portEvent
  simp only [hk, h4, if_false]
  exact ⟨fun h => if_pos ((works_iff _).2 h), fun h => if_neg (mt (works_iff _).1 h)⟩

theorem portEvent_unlinked (h : (k.ethernet && !n.ethClock) = true) : n.portEvent p .up t = n := by
  unfold portEvent
  simp only [hk]
  exact if_pos h

theorem portEvent_up (h : ¬ (k.ethernet && !n.ethClock) = true) :
    ((n.portSt p).state = 2 → n.portEvent p .up t = (n.markFailed p false).portReturns p) ∧
    ((n.portSt p).state ≠ 2 → n.portEvent p .up t = n.markFailed p false) := by
  unfold portEvent
  simp only [hk]
  rw [if_neg h]
  exact ⟨fun h2 => if_pos h2, fun h2 => if_neg h2⟩

/-- The times at which the bus went off lately, with this one. -/
def offNow (t : Nat) (s : PortSt) : PortSt := { s with busOffAt := (s.busOffAt.filter fun x => decide (t < x + 60000000)) ++ [t] }

theorem portEvent_busOff (h4 : k.kind = 4) (hx : works (n.portSt p)) :
    n.portEvent p .busOff t = (n.updPort p (offNow t)).portMove p 3 := by
  unfold portEvent
  simp only [hk]
  rw [(works_iff _).2 hx]
  exact if_pos (by simp [h4])

end Event

/-- A port out of service has nothing to send, and keeps its counts. -/
def Cut (n : Node) (p state : Nat) (m : Node) : Prop :=
  (m.portSt p).state = state ∧ (m.portSt p).queue = [] ∧ (m.portSt p).cur = none ∧ (m.portSt p).sent = (quietPort (n.portSt p)).sent ∧
    m.ext.alerts = n.ext.alerts ∧ Keeps [.ext, .rtc, .jrnl, .tide, .pair] n m

/-- The node at the time of an event of a port, with nothing on the lines. -/
structure AtEvent (n a : Node) : Prop where
  wf : twf {} a.ext.ports = true
  port : ∀ i < 6, a.portSt i = quietPort (n.portSt i)
  alerts : a.ext.alerts = n.ext.alerts
  cfg : ∀ i, a.port i = n.port i
  clock : a.ethClock = n.ethClock
  live : a.liveState = n.liveState
  keeps : Keeps [.ext, .rtc] n a

theorem Cleared.atEvent (h : Cleared n c) (t : Nat) : AtEvent n (c.setNow t) := by
  have hp := fun i hi => h.portSt_eq (i := i) hi
  have hw := h.twf
  have hk : Keeps [.ext, .rtc] n (c.setNow t) :=
    (h.keeps.mono (by decide)).trans ((show Within [.rtc] c _ from .setNow .rfl).keeps.mono (by decide))
  obtain ⟨_, rfl, -, -⟩ := h
  exact ⟨hw, hp, rfl, fun _ => rfl, rfl, rfl, hk⟩

namespace AtEvent

variable {a : Node} (h : AtEvent n a) (hp : p < 6)
include h hp

theorem updPort {f : PortSt → PortSt} : (a.updPort p f).portSt p = f (quietPort (n.portSt p)) := by
  rw [portSt_updPort h.wf, h.port p hp]

theorem cut {f : PortSt → PortSt} (hf : ∀ s, (f s).state = s.state ∧ (f s).sent = s.sent) {new : Nat} (hn : new = 2 ∨ new = 3)
    (hx : works (quietPort (n.portSt p))) : Cut n p new ((a.updPort p f).portMove p new) ∧
      ((a.updPort p f).portMove p new).ext.flags = moveFlags a.ext.flags new ∧
      (((a.updPort p f).portMove p new).portSt p).busOffAt = (f (quietPort (n.portSt p))).busOffAt := by
  have hw := twf_updPort h.wf p f
  have hs : (a.updPort p f).portSt p = f (quietPort (n.portSt p)) := h.updPort hp
  have hne : ((a.updPort p f).portSt p).state ≠ new := by
    rw [hs, (hf _).1]
    rcases hx with hx | hx <;> rcases hn with rfl | rfl <;> simp [hx]
  have hm := portMove_portSt hw hne
  have hg : (new == 2 || new == 3 || new == 5) = true := by rcases hn with rfl | rfl <;> rfl
  have he := portMove_ext hne
  have hk : Within [.ext, .jrnl, .tide, .pair] a ((a.updPort p f).portMove p new) := .portMove (.updPort .rfl)
  rw [hs] at hm
  refine ⟨⟨?_, ?_, ?_, ?_, ?_, (h.keeps.mono (by decide)).trans (hk.keeps.mono (by decide))⟩, ?_, ?_⟩
  · rw [hm]
    rfl
  · rw [hm]
    exact if_pos hg
  · rw [hm]
    exact if_pos hg
  · rw [hm]
    exact (hf _).2
  · rw [he, ← h.alerts]
    rfl
  · rw [he]
    rfl
  · rw [hm]
    rfl

theorem returns {f : PortSt → PortSt} (hf : ∀ s, (f s).state = s.state) (hx : (quietPort (n.portSt p)).state ≠ n.liveState) :
    (((a.updPort p f).portReturns p).portSt p).state = n.liveState ∧ ((a.updPort p f).portReturns p).ext.alerts = n.ext.alerts ∧
      Keeps [.ext, .rtc, .jrnl, .tide, .pair] n ((a.updPort p f).portReturns p) := by
  have hw := twf_updPort h.wf p f
  have hs : (a.updPort p f).portSt p = f (quietPort (n.portSt p)) := h.updPort hp
  have hl : (a.updPort p f).liveState = n.liveState := h.live
  obtain ⟨h1, h2, -⟩ := portReturns_state (new := n.liveState) hw (by rwa [hs, hf]) hl
  have hk : Within [.ext, .jrnl, .tide, .pair] a ((a.updPort p f).portReturns p) := .portReturns (.updPort .rfl)
  exact ⟨h1, h2.trans h.alerts, (h.keeps.mono (by decide)).trans (hk.keeps.mono (by decide))⟩

end AtEvent

/-! The restart of the bus. -/

/-- The wait of a bus off before it restarts, longer after three times in a minute. -/
def offWait (s : PortSt) : Nat := if 3 ≤ s.busOffAt.length then 60000000 else 1000000

theorem busOffReturn_idle (h : (n.portSt p).state ≠ 3 ∨ n.coreHeld = true) : n.busOffReturn p = n := by
  refine if_neg ?_
  rcases h with h | h <;> simp [h]

theorem busOffReturn_off {b : Nat} (h : (n.portSt p).state = 3) (hh : n.coreHeld = false) (hb : (n.portSt p).busOffAt.getLast? = some b) :
    n.busOffReturn p = (n.setNow (b + offWait (n.portSt p))).portReturns p := by
  unfold busOffReturn
  dsimp only
  rw [if_pos (by simp [h, hh]), hb]
  rfl

/-! The commands of the host to a port. -/

/-- A port command refused, with its code. -/
def extTurned (n : Node) (code : Nat) : Node := (n.mExt fun e => { e with cmdResult := code }).extFlag 6

theorem extCommand_refused {op port code : Nat} (h : n.extRefusal op port = code) (h0 : code ≠ 0) : n.extCommand op port = n.extTurned code := by
  unfold extCommand
  dsimp only
  rw [h]
  exact if_pos h0

theorem extRefusal_locked {op : Nat} (port : Nat) (h : op = 1 ∨ op = 2) (hm : n.sec.maint = false) : n.extRefusal op port = 1 := by
  refine if_pos ⟨h, ?_⟩
  simp [hm]

theorem extRefusal_unlocked {op port : Nat} (h : op = 1 ∨ op = 2 ∨ op = 3) (hm : op ≠ 3 → n.sec.maint = true) :
    n.extRefusal op port = if (n.port port).all (fun k => k.kind == 0) then 3 else 0 := by
  unfold extRefusal
  rw [if_neg, if_neg (by omega)]
  rintro ⟨h1, h2⟩
  rw [hm (by omega)] at h2
  exact absurd h2 (by decide)

/-- The port command's result, before the port moves. -/
def extTaken (n : Node) : Node := n.mExt fun e => { e with cmdResult := 0 }

section Taken

variable {port : Nat} {k : PortCfg} (hk : n.port port = some k) (h0 : k.kind ≠ 0)
include hk h0

theorem extRefusal_taken {op : Nat} (h : op = 1 ∨ op = 2 ∨ op = 3) (hm : op ≠ 3 → n.sec.maint = true) : n.extRefusal op port = 0 := by
  rw [extRefusal_unlocked h hm, hk]
  simp [h0]

theorem extCommand_disable (hm : n.sec.maint = true) : n.extCommand 1 port = n.extTaken.portMove port 5 := by
  unfold extCommand
  dsimp only
  rw [extRefusal_taken hk h0 (.inl rfl) fun _ => hm]
  rfl

theorem extCommand_enable (hm : n.sec.maint = true) (h5 : (n.portSt port).state = 5) : n.extCommand 2 port =
    if n.freshState port = 2 then n.extTaken.portMove port 2 else n.extTaken.portReturns port := by
  unfold extCommand
  dsimp only
  rw [extRefusal_taken hk h0 (.inr (.inl rfl)) fun _ => hm]
  exact if_pos h5

theorem extCommand_clear : n.extCommand 3 port =
    n.extTaken.updPort port fun s => { s with coalesced := 0, sent := 0, accepted := 0, rejected := 0 } := by
  unfold extCommand
  dsimp only
  rw [extRefusal_taken hk h0 (.inr (.inr rfl)) fun h => absurd rfl h]
  rfl

end Taken

/-- A port outside the step's lines, too, has all but its line. -/
theorem clearLines_port (hw : twf {} n.ext.ports = true) (i : Nat) : quietPort (n.clearLines.portSt i) = quietPort (n.portSt i) := by
  obtain ⟨-, -, hi⟩ := foldl_updPort quietPort (by decide : (List.range 6).Nodup) hw
  have h : n.clearLines.portSt i = if i ∈ List.range 6 then quietPort (n.portSt i) else n.portSt i := hi i
  rw [h]
  split <;> rfl

/-! The replay of records. -/

theorem replayAsk_unserved {space first cnt : Nat} (h : ¬ (n.sends p = true ∧ (n.port p).any (·.records) = true)) :
    n.replayAsk p space first cnt = n := by
  refine if_pos ?_
  rw [not_and_or, Bool.not_eq_true, Bool.not_eq_true] at h
  rcases h with h | h <;> simp [h]

/-- The code with which a replay is refused, or 0. -/
def replayCode (n : Node) (space cnt : Nat) : Nat :=
  if n.ext.replay.isSome then 1 else if space ≠ n.space then 2 else if cnt = 0 ∨ 4096 < cnt then 3 else 0

theorem replayCode_space {space cnt : Nat} (hr : n.ext.replay = none) (hs : space ≠ n.space) : n.replayCode space cnt = 2 := by
  rw [replayCode, if_neg (by simp [hr]), if_pos hs]

theorem replayCode_own {space cnt : Nat} (hr : n.ext.replay = none) (hs : space = n.space) :
    n.replayCode space cnt = if cnt = 0 ∨ 4096 < cnt then 3 else 0 := by
  rw [replayCode, if_neg (by simp [hr]), if_neg (not_not.2 hs)]

section Served

variable {space first cnt : Nat} (h : n.sends p = true ∧ (n.port p).any (·.records) = true)
include h

theorem replayAsk_refused {code : Nat} (hc : n.replayCode space cnt = code) (h0 : code ≠ 0) :
    n.replayAsk p space first cnt = ((n.rejected p).extFlag 5).sendOn p (.kvrn (n.kvHead true code space 0)) := by
  subst hc
  obtain ⟨h1, h2⟩ := h
  unfold replayAsk
  rw [if_neg (by simp [h1, h2])]
  exact if_pos h0

theorem replayAsk_taken (hc : n.replayCode space cnt = 0) :
    n.replayAsk p space first cnt = (n.acceptedOn p).mExt fun e => { e with replay := some ⟨p, space, first, first + cnt - 1⟩ } := by
  obtain ⟨h1, h2⟩ := h
  unfold replayAsk
  rw [if_neg (by simp [h1, h2])]
  exact if_neg (not_not.2 hc)

end Served

theorem replayNext_idle (h : n.ext.replay = none ∨ n.coreHeld = true) : n.replayNext = n := by
  unfold replayNext
  split
  · rfl
  · next r hr =>
    exact if_pos (h.resolve_left (by simp [hr]))

/-- The replay after a datagram, which ends with the last of its records. -/
def replayAfter (n : Node) (r : Replay) : Node := n.mExt fun e => { e with
  replay := if (n.heldRange r.next r.last).length ≤ 40 then none else
    some { r with next := ((n.heldRange r.next r.last).take 40).getLast?.elim r.next fun x => x.seq + 1 } }

theorem Cleared.kvHead_eq (h : Cleared n c) (r : Bool) (a b d : Nat) : c.kvHead r a b d = n.kvHead r a b d := by
  obtain ⟨_, rfl, -, -⟩ := h
  rfl

theorem Cleared.replay_eq (h : Cleared n c) : c.ext.replay = n.ext.replay := by
  obtain ⟨_, rfl, -, -⟩ := h
  rfl

theorem Cleared.heldRange_eq (h : Cleared n c) (a b : Nat) : c.heldRange a b = n.heldRange a b := by
  obtain ⟨_, rfl, -, -⟩ := h
  rfl

theorem replayNext_sends {r : Replay} (h : n.ext.replay = some r) (hs : n.sends r.port = true) (hl : n.heldRange r.next r.last ≠ []) :
    n.replayNext = (n.replayAfter r).sendOn r.port (.kvrs
      (n.kvHead false (if (n.heldRange r.next r.last).length ≤ 40 then 3 else 1) r.space ((n.heldRange r.next r.last).take 40).length)
      ((n.heldRange r.next r.last).take 40)) := by
  have hh : ¬ n.coreHeld = true := by
    rw [sends, Bool.and_eq_true] at hs
    simpa using hs.2
  have he : ((n.heldRange r.next r.last).take 40).isEmpty = false := by
    cases hx : n.heldRange r.next r.last with
    | nil => exact absurd hx hl
    | cons _ _ => rfl
  unfold replayNext
  rw [h]
  dsimp only
  rw [if_neg hh, he]
  simp only [decide_eq_true_eq]
  generalize hk : n.mExt _ = k
  have hka : n.replayAfter r = k := hk
  have hks : k.sends r.port = true := by
    rw [← hk]
    exact hs
  have hkv (f l : Nat) : k.kvHead false f r.space l = n.kvHead false f r.space l := by
    rw [← hk]
    rfl
  rw [hka, hks, hkv]
  by_cases h40 : (n.heldRange r.next r.last).length ≤ 40
  · simp only [h40, decide_true, if_true]
    rfl
  · simp only [h40, decide_false, if_false]
    rfl

end Sys2Proof.Machine.Node

open Sys2Proof Sys2Proof.Machine Sys2Proof.Machine.Node

section Given

variable {s : State} (hw : twf {} s.node.ext.ports = true) (port : Fin 6)
include hw

theorem portEvents_none (t : Nat) (h : s.node.port port.val = none) (ev : PortEvent) :
    Answers (.portStateChange port ev t) s (s.node.clearLines.setNow t) :=
  .of_run (fun n => (n.clearLines.setNow t).portEvent port.val ev t) rfl
    (portEvent_none (((clearLines_cleared hw).atEvent t).cfg _ |>.trans h) ev t)

section Mapped

variable {k : PortCfg} (hk : s.node.port port.val = some k) (t : Nat)
include hk

theorem portGoesDown (h4 : k.kind ≠ 4) :
    (works (quietPort (s.node.portSt port.val)) → Gives (.portStateChange port .down t) s fun m =>
      Cut s.node port.val 2 m ∧ bit m.ext.flags 0 = true) ∧
    (¬ works (quietPort (s.node.portSt port.val)) → Gives (.portStateChange port .down t) s fun m =>
      m.portSt port.val = { quietPort (s.node.portSt port.val) with failed := true } ∧ Keeps [.ext, .rtc] s.node m) := by
  have h := (clearLines_cleared hw).atEvent t
  have hgive (q : Node → Prop) (hq : q ((s.node.clearLines.setNow t).portEvent port.val .down t)) :
      Gives (.portStateChange port .down t) s q := .of_run (fun n => (n.clearLines.setNow t).portEvent port.val .down t) rfl hq
  generalize s.node.clearLines.setNow t = a at *
  obtain ⟨h1, h2⟩ := portEvent_down ((h.cfg _).trans hk) t h4
  rw [h.port _ port.isLt] at h1 h2
  refine ⟨fun hx => hgive _ ?_, fun hx => hgive _ ?_⟩
  · rw [h1 hx]
    obtain ⟨hc, hf, -⟩ := h.cut port.isLt (f := fun s => { s with failed := true }) (fun _ => ⟨rfl, rfl⟩) (.inl rfl) hx
    refine ⟨hc, ?_⟩
    rw [markFailed, hf]
    exact bit_setBit_same _ (by decide)
  · rw [h2 hx]
    exact ⟨h.updPort port.isLt, (h.keeps.mono (by decide)).trans ((show Within [.ext] a _ from .updPort .rfl).keeps.mono (by decide))⟩

theorem portGoesOff (h4 : k.kind = 4) (hx : works (quietPort (s.node.portSt port.val))) :
    Gives (.portStateChange port .busOff t) s fun m => Cut s.node port.val 3 m ∧ bit m.ext.flags 4 = true ∧
      (m.portSt port.val).busOffAt.getLast? = some t := by
  have h := (clearLines_cleared hw).atEvent t
  have hgive (q : Node → Prop) (hq : q ((s.node.clearLines.setNow t).portEvent port.val .busOff t)) :
      Gives (.portStateChange port .busOff t) s q := .of_run (fun n => (n.clearLines.setNow t).portEvent port.val .busOff t) rfl hq
  generalize s.node.clearLines.setNow t = a at *
  have hx' := hx
  rw [← h.port _ port.isLt] at hx'
  refine hgive _ ?_
  rw [portEvent_busOff ((h.cfg _).trans hk) t h4 hx']
  obtain ⟨hc, hf, hb⟩ := h.cut port.isLt (f := offNow t) (fun _ => ⟨rfl, rfl⟩) (.inr rfl) hx
  refine ⟨hc, ?_, ?_⟩
  · rw [hf]
    exact bit_setBit_same _ (by decide)
  · rw [hb]
    exact List.getLast?_concat

theorem portComesUp :
    (¬ (k.ethernet = false ∨ s.node.ethClock = true) → Answers (.portStateChange port .up t) s (s.node.clearLines.setNow t)) ∧
    ((quietPort (s.node.portSt port.val)).state = 2 → k.ethernet = false ∨ s.node.ethClock = true →
      Gives (.portStateChange port .up t) s fun m => (m.portSt port.val).state = (if s.node.ownDuty then 1 else 4) ∧
        m.ext.alerts = s.node.ext.alerts ∧ Keeps [.ext, .rtc, .jrnl, .tide, .pair] s.node m) ∧
    ((quietPort (s.node.portSt port.val)).state ≠ 2 → k.ethernet = false ∨ s.node.ethClock = true →
      Gives (.portStateChange port .up t) s fun m =>
        m.portSt port.val = { quietPort (s.node.portSt port.val) with failed := false } ∧ Keeps [.ext, .rtc] s.node m) := by
  have h := (clearLines_cleared hw).atEvent t
  have hgive (q : Node → Prop) (hq : q ((s.node.clearLines.setNow t).portEvent port.val .up t)) :
      Gives (.portStateChange port .up t) s q := .of_run (fun n => (n.clearLines.setNow t).portEvent port.val .up t) rfl hq
  have hstay (hq : (s.node.clearLines.setNow t).portEvent port.val .up t = s.node.clearLines.setNow t) :
      Answers (.portStateChange port .up t) s (s.node.clearLines.setNow t) :=
    .of_run (fun n => (n.clearLines.setNow t).portEvent port.val .up t) rfl hq
  generalize s.node.clearLines.setNow t = a at *
  have hlink : (k.ethernet = false ∨ s.node.ethClock = true) ↔ ¬ (k.ethernet && !a.ethClock) = true := by
    rw [h.clock]
    cases k.ethernet <;> cases s.node.ethClock <;> decide
  rw [hlink]
  have hk' := (h.cfg _).trans hk
  refine ⟨fun hl => hstay (portEvent_unlinked hk' t (not_not.1 hl)), fun h2 hl => hgive _ ?_, fun h2 hl => hgive _ ?_⟩
  · obtain ⟨he, -⟩ := portEvent_up hk' t hl
    rw [h.port _ port.isLt] at he
    rw [he h2]
    refine h.returns port.isLt (fun _ => rfl) ?_
    rw [h2, liveState]
    split <;> decide
  · obtain ⟨-, he⟩ := portEvent_up hk' t hl
    rw [h.port _ port.isLt] at he
    rw [he h2]
    exact ⟨h.updPort port.isLt, (h.keeps.mono (by decide)).trans ((show Within [.ext] a _ from .updPort .rfl).keeps.mono (by decide))⟩

end Mapped

theorem busOffRestart_idle (h : (s.node.portSt 3).state ≠ 3 ∨ s.node.coreHeld = true) : Answers .busOffRestart s s.node.clearLines := by
  have hc := clearLines_cleared hw
  refine .of_run (fun n => n.clearLines.busOffReturn 3) rfl (busOffReturn_idle ?_)
  rw [hc.portSt_eq (by decide), hc.coreHeld_eq]
  exact h

theorem busOffRestart_gives {b : Nat} (h3 : (s.node.portSt 3).state = 3) (hh : s.node.coreHeld = false)
    (hb : (s.node.portSt 3).busOffAt.getLast? = some b) : Gives .busOffRestart s fun m =>
      m.rtc.now = max s.node.rtc.now (b + offWait (s.node.portSt 3)) ∧ (m.portSt 3).state = (if s.node.ownDuty then 1 else 4) ∧
        Keeps [.ext, .rtc, .jrnl, .tide, .pair] s.node m := by
  have hc := clearLines_cleared hw
  have hgive (q : Node → Prop) (hq : q (s.node.clearLines.busOffReturn 3)) : Gives .busOffRestart s q :=
    .of_run (fun n => n.clearLines.busOffReturn 3) rfl hq
  generalize s.node.clearLines = c at *
  refine hgive _ ?_
  have hx : c.portSt 3 = quietPort (s.node.portSt 3) := hc.portSt_eq (by decide)
  rw [busOffReturn_off (by rw [hx]; exact h3) (hc.coreHeld_eq.trans hh) (by rw [hx]; exact hb), hx]
  have h := hc.atEvent (b + offWait (quietPort (s.node.portSt 3)))
  have hn : (c.setNow (b + offWait (quietPort (s.node.portSt 3)))).rtc.now = max s.node.rtc.now (b + offWait (s.node.portSt 3)) := by
    have hr : c.rtc = s.node.rtc := hc.keeps.part .rtc (by decide)
    rw [← hr]
    rfl
  generalize c.setNow (b + offWait (quietPort (s.node.portSt 3))) = a at *
  have hk : Within [.ext, .jrnl, .tide, .pair] a (a.portReturns 3) := .portReturns .rfl
  obtain ⟨h1, -, -⟩ := portReturns_state (p := 3) h.wf (new := s.node.liveState) (by
    rw [h.port 3 (by decide), show (quietPort (s.node.portSt 3)).state = 3 from h3, liveState]
    split <;> decide) h.live
  exact ⟨by rw [hk.part .rtc, hn], h1, (h.keeps.mono (by decide)).trans (hk.keeps.mono (by decide))⟩

omit hw in
theorem extCommand_answers {op : Nat} {q code : Nat} {i : Instr} (hi : exec i s = s.run fun n => n.clearLines.extCommand op q)
    (hr : s.node.clearLines.extRefusal op q = code) (h0 : code ≠ 0) (hf : s.node.clearLines.ext.flags = s.node.ext.flags) :
    Answers i s { s.node.clearLines with ext := { s.node.clearLines.ext with cmdResult := code, flags := setBit s.node.ext.flags 6 } } := by
  refine .of_run _ hi ?_
  rw [← hf]
  exact extCommand_refused hr h0

theorem extCommands_locked (op : BitVec 3) (hm : s.node.sec.maint = false) :
    let turned : Node := { s.node.clearLines with ext := { s.node.clearLines.ext with
      cmdResult := 1, flags := setBit s.node.ext.flags 6 } }
    Answers (.disable op) s turned ∧ Answers (.enable op) s turned := by
  have hc := clearLines_cleared hw
  have hm' : s.node.clearLines.sec.maint = false := by
    rw [hc.keeps.part .sec (by decide)]
    exact hm
  exact ⟨extCommand_answers (op := 1) (q := op.toNat) rfl (extRefusal_locked op.toNat (.inl rfl) hm') (by decide) hc.noLines.flags,
    extCommand_answers (op := 2) (q := op.toNat) rfl (extRefusal_locked op.toNat (.inr rfl) hm') (by decide) hc.noLines.flags⟩

theorem extCommands_unmapped (op : BitVec 3) (hp : s.node.port op.toNat = none) :
    let turned : Node := { s.node.clearLines with ext := { s.node.clearLines.ext with
      cmdResult := 3, flags := setBit s.node.ext.flags 6 } }
    Answers (.clearCounts op) s turned ∧ (s.node.sec.maint = true → Answers (.disable op) s turned ∧ Answers (.enable op) s turned) := by
  have hc := clearLines_cleared hw
  have hx (k : Nat) (h : k = 1 ∨ k = 2 ∨ k = 3) (hm : k ≠ 3 → s.node.sec.maint = true) :
      s.node.clearLines.extRefusal k op.toNat = 3 := by
    rw [extRefusal_unlocked h fun hk => by rw [hc.keeps.part .sec (by decide)]; exact hm hk, hc.port_eq, hp]
    rfl
  exact ⟨extCommand_answers (op := 3) (q := op.toNat) rfl (hx 3 (by decide) fun h => absurd rfl h) (by decide) hc.noLines.flags, fun hm =>
    ⟨extCommand_answers (op := 1) (q := op.toNat) rfl (hx 1 (by decide) fun _ => hm) (by decide) hc.noLines.flags,
      extCommand_answers (op := 2) (q := op.toNat) rfl (hx 2 (by decide) fun _ => hm) (by decide) hc.noLines.flags⟩⟩

section Taken

variable {op : BitVec 3} {k : PortCfg} (hk : s.node.port op.toNat = some k) (h0 : k.kind ≠ 0)
include hk h0

theorem disable_gives (hm : s.node.sec.maint = true) (h5 : (s.node.portSt op.toNat).state ≠ 5) : Gives (.disable op) s fun m =>
    (m.portSt op.toNat).state = 5 ∧ (m.portSt op.toNat).queue = [] ∧ (m.portSt op.toNat).cur = none ∧ m.ext.cmdResult = 0 ∧
      Keeps [.ext, .jrnl, .tide, .pair] s.node m := by
  have hc := clearLines_cleared hw
  have hq := clearLines_port hw op.toNat
  have hgive (q : Node → Prop) (hq : q (s.node.clearLines.extCommand 1 op.toNat)) : Gives (.disable op) s q :=
    .of_run (fun n => n.clearLines.extCommand 1 op.toNat) rfl hq
  generalize s.node.clearLines = c at *
  refine hgive _ ?_
  have hm' : c.sec.maint = true := by
    rw [hc.keeps.part .sec (by decide)]
    exact hm
  rw [extCommand_disable ((hc.port_eq _).trans hk) h0 hm']
  have hst : (c.portSt op.toNat).state = (s.node.portSt op.toNat).state := (congrArg PortSt.state hq :)
  have hs : (c.extTaken.portSt op.toNat).state ≠ 5 := fun hx => h5 (hst.symm.trans hx)
  have hp := portMove_portSt (n := c.extTaken) hc.twf hs
  have hw' : Within [.ext, .jrnl, .tide, .pair] c (c.extTaken.portMove op.toNat 5) := .portMove (.mExt .rfl)
  refine ⟨by rw [hp]; rfl, by rw [hp]; rfl, by rw [hp]; rfl, ?_, (hc.keeps.mono (by decide)).trans hw'.keeps⟩
  rw [portMove_ext hs]
  rfl

theorem enable_gives (hm : s.node.sec.maint = true) (h5 : (s.node.portSt op.toNat).state = 5) : Gives (.enable op) s fun m =>
    (m.portSt op.toNat).state = (if (s.node.portSt op.toNat).failed || (k.ethernet && !s.node.ethClock) then 2
      else if s.node.ownDuty then 1 else 4) ∧ m.ext.cmdResult = 0 ∧ Keeps [.ext, .jrnl, .tide, .pair] s.node m := by
  have hc := clearLines_cleared hw
  have hq := clearLines_port hw op.toNat
  have hgive (q : Node → Prop) (hq : q (s.node.clearLines.extCommand 2 op.toNat)) : Gives (.enable op) s q :=
    .of_run (fun n => n.clearLines.extCommand 2 op.toNat) rfl hq
  generalize s.node.clearLines = c at *
  refine hgive _ ?_
  have hm' : c.sec.maint = true := by
    rw [hc.keeps.part .sec (by decide)]
    exact hm
  have hs : (c.portSt op.toNat).state = (s.node.portSt op.toNat).state := (congrArg PortSt.state hq :)
  have hfa : (c.portSt op.toNat).failed = (s.node.portSt op.toNat).failed := (congrArg PortSt.failed hq :)
  have hfresh : c.freshState op.toNat = if (s.node.portSt op.toNat).failed || (k.ethernet && !s.node.ethClock) then 2
      else if s.node.ownDuty then 1 else 4 := by
    have ha := hc.atEvent 0
    rw [freshState, hfa, hc.port_eq, hk, show c.ethClock = s.node.ethClock from ha.clock, show c.liveState = s.node.liveState from ha.live]
    rfl
  rw [extCommand_enable ((hc.port_eq _).trans hk) h0 hm' (hs.trans h5), ← hfresh]
  have hx : (c.extTaken.portSt op.toNat).state = 5 := hs.trans h5
  split
  · next h2 =>
    have hs2 : (c.extTaken.portSt op.toNat).state ≠ 2 := by
      rw [hx]
      decide
    have hp := portMove_portSt (n := c.extTaken) hc.twf hs2
    have hw' : Within [.ext, .jrnl, .tide, .pair] c (c.extTaken.portMove op.toNat 2) := .portMove (.mExt .rfl)
    refine ⟨by rw [hp, h2]; rfl, ?_, (hc.keeps.mono (by decide)).trans hw'.keeps⟩
    rw [portMove_ext hs2]
    rfl
  · next h2 =>
    have hl : c.freshState op.toNat = c.liveState := by
      unfold freshState at h2 ⊢
      split at h2
      · exact absurd rfl h2
      · next hn => rw [if_neg hn]
    have hne : (c.extTaken.portSt op.toNat).state ≠ c.liveState := by
      rw [hx, liveState]
      split <;> decide
    obtain ⟨h1, -, h3⟩ := portReturns_state (n := c.extTaken) hc.twf hne rfl
    have hw' : Within [.ext, .jrnl, .tide, .pair] c (c.extTaken.portReturns op.toNat) := .portReturns (.mExt .rfl)
    exact ⟨h1.trans hl.symm, h3, (hc.keeps.mono (by decide)).trans hw'.keeps⟩

theorem clearCounts_gives : Gives (.clearCounts op) s fun m => m.ext.cmdResult = 0 ∧ (m.portSt op.toNat).coalesced = 0 ∧
    (m.portSt op.toNat).sent = 0 ∧ (m.portSt op.toNat).accepted = 0 ∧ (m.portSt op.toNat).rejected = 0 ∧
    (m.portSt op.toNat).state = (s.node.portSt op.toNat).state ∧ (m.portSt op.toNat).queue = (s.node.portSt op.toNat).queue ∧
    Keeps [.ext] s.node m := by
  have hc := clearLines_cleared hw
  have hq := clearLines_port hw op.toNat
  have hgive (q : Node → Prop) (hq : q (s.node.clearLines.extCommand 3 op.toNat)) : Gives (.clearCounts op) s q :=
    .of_run (fun n => n.clearLines.extCommand 3 op.toNat) rfl hq
  generalize s.node.clearLines = c at *
  refine hgive _ ?_
  rw [extCommand_clear ((hc.port_eq _).trans hk) h0]
  have hp := portSt_updPort (n := c.extTaken) hc.twf op.toNat fun s => { s with coalesced := 0, sent := 0, accepted := 0, rejected := 0 }
  have hw' : Within [.ext] c (c.extTaken.updPort op.toNat fun s => { s with coalesced := 0, sent := 0, accepted := 0, rejected := 0 }) :=
    .updPort (.mExt .rfl)
  refine ⟨rfl, by rw [hp], by rw [hp], by rw [hp], by rw [hp], ?_, ?_, hc.keeps.trans hw'.keeps⟩
  · rw [hp]
    exact (congrArg PortSt.state hq :)
  · rw [hp]
    exact (congrArg PortSt.queue hq :)

end Taken

section Replay

variable (space : Fin 16) (first cnt : Nat)

theorem replayRequest_unserved (h : ¬ (s.node.sends port.val = true ∧ (s.node.port port.val).any (·.records) = true)) :
    Answers (.replayRequest port space first cnt) s s.node.clearLines := by
  have hc := clearLines_cleared hw
  refine .of_run (fun n => n.clearLines.replayAsk port.val space.val first cnt) rfl (replayAsk_unserved ?_)
  rw [hc.sends_eq port.isLt, hc.port_eq]
  exact h

variable (h : s.node.sends port.val = true ∧ (s.node.port port.val).any (·.records) = true)
include h

theorem replayRequest_refused {code : Nat} (hcode : s.node.replayCode space.val cnt = code) (h0 : code ≠ 0) :
    Gives (.replayRequest port space first cnt) s fun m =>
      m.portSt port.val = sentOn s.node.txIdle (.kvrn (s.node.kvHead true code space.val 0)) (refusedOn (quietPort (s.node.portSt port.val))) ∧
        bit m.ext.flags 5 = true ∧ m.ext.replay = s.node.ext.replay ∧ Keeps [.ext] s.node m := by
  have hc := clearLines_cleared hw
  have hgive (q : Node → Prop) (hq : q (s.node.clearLines.replayAsk port.val space.val first cnt)) :
      Gives (.replayRequest port space first cnt) s q := .of_run (fun n => n.clearLines.replayAsk port.val space.val first cnt) rfl hq
  have hs : s.node.clearLines.replayCode space.val cnt = code := by
    rw [← hcode]
    obtain ⟨_, he, -, -⟩ := hc
    rw [he]
    rfl
  rw [← hc.sends_eq port.isLt, ← hc.port_eq] at h
  generalize s.node.clearLines = c at *
  refine hgive _ ?_
  rw [replayAsk_refused h hs h0]
  have hu := updPort_step (n := (c.extFlag 3).extFlag 5) hc.twf port.val refusedOn
  have hp := hu.get port.val
  have hx : ((c.extFlag 3).extFlag 5).portSt port.val = quietPort (s.node.portSt port.val) := hc.portSt_eq port.isLt
  rw [if_pos (List.mem_singleton.2 rfl), hx] at hp
  have hv := updPort_step hu.wf port.val (sentOn c.txIdle (.kvrn (c.kvHead true code space.val 0)))
  have hg := hv.get port.val
  rw [if_pos (List.mem_singleton.2 rfl), hp] at hg
  refine ⟨?_, ?_, ?_, hc.keeps.trans (show Within [.ext] c _ from .sendOn (.extFlag (.rejected .rfl))).keeps⟩
  · rw [← hc.txIdle_eq, ← hc.kvHead_eq]
    exact hg
  · exact bit_setBit_same _ (by decide)
  · obtain ⟨_, rfl, -, -⟩ := hc
    rfl

theorem replayRequest_taken (hcode : s.node.replayCode space.val cnt = 0) :
    Gives (.replayRequest port space first cnt) s fun m =>
      m.portSt port.val = takenOn (quietPort (s.node.portSt port.val)) ∧
        m.ext.replay = some ⟨port.val, space.val, first, first + cnt - 1⟩ ∧ m.ext.flags = s.node.ext.flags ∧ Keeps [.ext] s.node m := by
  have hc := clearLines_cleared hw
  have hgive (q : Node → Prop) (hq : q (s.node.clearLines.replayAsk port.val space.val first cnt)) :
      Gives (.replayRequest port space first cnt) s q := .of_run (fun n => n.clearLines.replayAsk port.val space.val first cnt) rfl hq
  have hs : s.node.clearLines.replayCode space.val cnt = 0 := by
    rw [← hcode]
    obtain ⟨_, he, -, -⟩ := hc
    rw [he]
    rfl
  rw [← hc.sends_eq port.isLt, ← hc.port_eq] at h
  generalize s.node.clearLines = c at *
  refine hgive _ ?_
  rw [replayAsk_taken h hs]
  obtain ⟨hp, -, -, hf, -⟩ := hc.noLines.onPort port.isLt takenOn
  exact ⟨hp, rfl, hf, hc.keeps.trans (show Within [.ext] c _ from .mExt (.acceptedOn .rfl)).keeps⟩

end Replay

theorem replaySend_idle (h : s.node.ext.replay = none ∨ s.node.coreHeld = true) : Answers .replaySend s s.node.clearLines := by
  have hc := clearLines_cleared hw
  refine .of_run (fun n => n.clearLines.replayNext) rfl (replayNext_idle ?_)
  rw [hc.replay_eq, hc.coreHeld_eq]
  exact h

theorem replaySend_gives {r : Replay} (h : s.node.ext.replay = some r) (h6 : r.port < 6) (hs : s.node.sends r.port = true)
    (hl : s.node.heldRange r.next r.last ≠ []) : Gives .replaySend s fun m =>
      let l := (s.node.heldRange r.next r.last).take 40
      let final := if (s.node.heldRange r.next r.last).length ≤ 40 then 3 else 1
      m.portSt r.port = sentOn s.node.txIdle (.kvrs (s.node.kvHead false final r.space l.length) l) (quietPort (s.node.portSt r.port)) ∧
        (m.ext.replay = none ↔ (s.node.heldRange r.next r.last).length ≤ 40) ∧ Keeps [.ext] s.node m := by
  have hc := clearLines_cleared hw
  have hgive (q : Node → Prop) (hq : q s.node.clearLines.replayNext) : Gives .replaySend s q :=
    .of_run (fun n => n.clearLines.replayNext) rfl hq
  generalize s.node.clearLines = c at *
  refine hgive _ ?_
  have hr : c.heldRange r.next r.last = s.node.heldRange r.next r.last := hc.heldRange_eq _ _
  rw [replayNext_sends (hc.replay_eq.trans h) ((hc.sends_eq h6).trans hs) (by rwa [hr]), hc.kvHead_eq, hr]
  have hp := portSt_updPort (n := c.replayAfter r) hc.twf r.port (sentOn c.txIdle (.kvrs (s.node.kvHead false
    (if (s.node.heldRange r.next r.last).length ≤ 40 then 3 else 1) r.space ((s.node.heldRange r.next r.last).take 40).length)
    ((s.node.heldRange r.next r.last).take 40)))
  have hx : (c.replayAfter r).portSt r.port = quietPort (s.node.portSt r.port) := hc.portSt_eq h6
  rw [hx] at hp
  refine ⟨?_, ?_, hc.keeps.trans (show Within [.ext] c _ from .sendOn (.mExt .rfl)).keeps⟩
  · rw [← hc.txIdle_eq]
    exact hp
  · change (if (c.heldRange r.next r.last).length ≤ 40 then none else some _) = none ↔ _
    rw [hr]
    split
    · next hle => simp [hle]
    · next hle => simp [hle]

end Given

/-- Settles O57: each event of a port by its state, the host's port commands, and the replay's course. -/
theorem portsAndReplay : Obligations.PortsAndReplay := by
  unfold Obligations.PortsAndReplay
  intro s port op space first cnt t n c p x works q turned cut replays sent linkable refuses hw
  refine ⟨fun h => ⟨portEvents_none hw port t h _, portEvents_none hw port t h _, portEvents_none hw port t h _⟩,
    fun k hk => ⟨fun hx h4 => (portGoesDown hw port hk t h4).1 hx, fun hx h4 => portGoesOff hw port hk t h4 hx,
      (portComesUp hw port hk t).1, (portComesUp hw port hk t).2.1, fun h4 hx => (portGoesDown hw port hk t h4).2 hx,
      (portComesUp hw port hk t).2.2⟩,
    busOffRestart_idle hw, fun b h3 hh hb => busOffRestart_gives hw h3 hh hb, extCommands_locked hw op, extCommands_unmapped hw op,
    fun k hk h0 => ⟨disable_gives hw hk h0, enable_gives hw hk h0, clearCounts_gives hw hk h0⟩,
    replayRequest_unserved hw port space first cnt, ?_, ?_, ?_, ?_, replaySend_idle hw, fun r => replaySend_gives hw⟩
  · intro h hr
    exact replayRequest_refused hw port space first cnt h (if_pos hr) (by decide)
  · intro h hr hs
    exact replayRequest_refused hw port space first cnt h (replayCode_space hr hs) (by decide)
  · intro h hr hs hn
    exact replayRequest_refused hw port space first cnt h ((replayCode_own hr hs).trans (if_pos hn)) (by decide)
  · intro h hr hs h1 h2
    exact replayRequest_taken hw port space first cnt h ((replayCode_own hr hs).trans (if_neg (by omega)))

end

section
/-! The frames of the host port (18 R552 to R563, R569, Tables 18.1 to 18.4). -/

namespace Sys2Proof.Machine.Node

variable {n m : Node}

/-! The response that goes out. -/

theorem sendResp_sys (r : Resp) : (n.sendResp r).sys = { n.sys with
    miso := r
    misoIrq := n.hirq
    hpCrc := if r.code = 2 then satInc 0xFF n.sys.hpCrc else n.sys.hpCrc
    hpLen := if r.code = 3 then satInc 0xFF n.sys.hpLen else n.sys.hpLen
    hpTime := if r.code = 4 then satInc 0xFF n.sys.hpTime else n.sys.hpTime
    hpNotReady := if r.code = 1 then satInc 0xFF n.sys.hpNotReady else n.sys.hpNotReady
    irq := if r.code ∈ [2, 3, 4] then setBit n.sys.irq 8 else n.sys.irq } := by
  unfold sendResp
  have hm : r.code ∈ [2, 3, 4] ↔ r.code = 2 ∨ r.code = 3 ∨ r.code = 4 := by simp
  by_cases h : r.code = 2 ∨ r.code = 3 ∨ r.code = 4
  · dsimp only
    rw [if_pos h, if_pos (hm.2 h)]
    rfl
  · dsimp only
    rw [if_neg h, if_neg (mt hm.1 h)]
    rfl

theorem sendResp_bridges (r : Resp) : (n.sendResp r).bridges = n.bridges := by
  rw [bridges, bridges, (Within.sendResp .rfl : Within [.sys] n _).part .clk]

/-- The bytes of a response before their CRC. -/
def respBytes (n : Node) : List Byte :=
  BitVec.ofNat 8 (b2n n.sys.misoIrq * 128 + n.sys.miso.fcnt % 8 * 16 + n.sys.miso.code % 16) ::
    (beBytes 2 n.sys.miso.addr ++ beBytes 4 n.sys.miso.data.toNat)

theorem misoBytes_eq : n.misoBytes = n.respBytes ++ beBytes 2 (crc16 n.respBytes) := rfl

theorem respBytes_length : n.respBytes.length = 7 := rfl

theorem misoBytes_spec : ∃ b : List Byte, n.misoBytes = b ++ beBytes 2 (crc16 b) ∧ b.length = 7 ∧
    b.drop 1 = beBytes 2 n.sys.miso.addr ++ beBytes 4 n.sys.miso.data.toNat ∧
    b.headD 0 = BitVec.ofNat 8 (b2n n.sys.misoIrq * 128 + n.sys.miso.fcnt % 8 * 16 + n.sys.miso.code % 16) :=
  ⟨n.respBytes, misoBytes_eq, respBytes_length, rfl, rfl⟩

/-- The response that went out, its count, and the port's event for a response that tells of an error. -/
theorem sendResp_spec (r : Resp) :
    let m := (n.sendResp r).sys
    m.miso = r ∧ m.misoIrq = n.hirq ∧ m.fcnt = n.sys.fcnt ∧ m.resp = n.sys.resp ∧
      m.hpCrc = (if r.code = 2 then satInc 0xFF n.sys.hpCrc else n.sys.hpCrc) ∧
      m.hpLen = (if r.code = 3 then satInc 0xFF n.sys.hpLen else n.sys.hpLen) ∧
      m.hpTime = (if r.code = 4 then satInc 0xFF n.sys.hpTime else n.sys.hpTime) ∧
      m.hpNotReady = (if r.code = 1 then satInc 0xFF n.sys.hpNotReady else n.sys.hpNotReady) ∧
      m.irq = (if r.code ∈ [2, 3, 4] then setBit n.sys.irq 8 else n.sys.irq) ∧ Keeps [.sys] n (n.sendResp r) := by
  rw [sendResp_sys]
  exact ⟨rfl, rfl, rfl, rfl, rfl, rfl, rfl, rfl, rfl, (Within.sendResp .rfl : Within [.sys] n _).keeps⟩

/-! A frame that the port answers. -/

/-- The port after a frame that takes a number: the pending response has gone out. -/
def frameBegun (n : Node) : Node := (n.sendResp (n.sys.resp.getD noResp)).mSys fun s => { s with fcnt := (n.sys.fcnt + 1) % 8, resp := none }

/-- The port with the response of a frame. -/
def respLeft (n : Node) (k code addr : Nat) (d : Word) : Node := n.mSys fun s => { s with wait := none, resp := some ⟨code, k, addr, d⟩ }

theorem answer_eq (f : HostFrame) (code : Nat) : n.answer f code =
    if code = 0 && n.bridges then n.frameBegun.mSys fun s => { s with wait := some f } else n.frameBegun.frameDone f n.sys.fcnt code := by
  have hf : (n.sendResp (n.sys.resp.getD noResp)).sys.fcnt = n.sys.fcnt := by rw [sendResp_sys]
  have hb : n.frameBegun.bridges = n.bridges := sendResp_bridges _
  rw [← hb]
  unfold answer frameBegun
  dsimp only
  rw [hf]

theorem answer_error {code : Nat} (h : code ≠ 0) (f : HostFrame) :
    n.answer f code = n.frameBegun.respLeft n.sys.fcnt code f.addr.toNat 0 := by
  rw [answer_eq, if_neg (by simp [h]), frameDone, if_neg h]
  rfl

theorem answer_waits (h : n.bridges = true) (f : HostFrame) : n.answer f 0 = n.frameBegun.mSys fun s => { s with wait := some f } := by
  rw [answer_eq, if_pos (by simp [h])]

theorem answer_runs (h : n.bridges = false) (f : HostFrame) : n.answer f 0 =
    (n.frameBegun.frameRuns f).2.respLeft n.sys.fcnt 0 f.addr.toNat (n.frameBegun.frameRuns f).1 := by
  rw [answer_eq, if_neg (by simp [h])]
  rfl

theorem hostFrame_unheard (h : n.portServes = false) (f : HostFrame) (g : FrameForm) : n.hostFrame f g = n := if_pos (by simp [h])

theorem lateFrame_unheard (h : n.portServes = false) : n.lateFrame = n := if_pos (by simp [h])

theorem hostFrame_early (h : n.portServes = true) {g : FrameForm} (hg : g = .early ∨ n.sys.wait.isSome = true) (f : HostFrame) :
    n.hostFrame f g = n.earlyFrame := by
  rw [hostFrame, if_neg (by simp [h]), if_pos hg]

theorem hostFrame_answers (h : n.portServes = true) (hw : n.sys.wait = none) {g : FrameForm} (hg : g ≠ .early) (f : HostFrame) :
    n.hostFrame f g = n.answer f (n.frameCode f g) := by
  rw [hostFrame, if_neg (by simp [h]), if_neg (by simp [hg, hw])]

theorem lateFrame_answers (h : n.portServes = true) (hw : n.sys.wait = none) : n.lateFrame = n.answer ⟨0, 0, 0⟩ 4 := by
  rw [lateFrame, if_neg (by simp [h]), if_neg (by simp [hw])]

theorem lateFrame_early (h : n.portServes = true) (hw : n.sys.wait.isSome = true) : n.lateFrame = n.earlyFrame := by
  rw [lateFrame, if_neg (by simp [h]), if_pos hw]

theorem earlyFrame_waiting {f : HostFrame} (h : n.sys.wait = some f) :
    n.earlyFrame = n.sendResp ⟨1, (n.sys.fcnt + 7) % 8, f.addr.toNat, 0⟩ := by
  simp only [earlyFrame, h]

theorem earlyFrame_pending {r : Resp} (hw : n.sys.wait = none) (h : n.sys.resp = some r) : n.earlyFrame = n.sendResp ⟨1, r.fcnt, r.addr, 0⟩ := by
  simp only [earlyFrame, hw, h]

theorem earlyFrame_none (hw : n.sys.wait = none) (h : n.sys.resp = none) : n.earlyFrame = n := by
  simp only [earlyFrame, hw, h]

/-! The code of a frame. -/

theorem frameCode_wrong {f : HostFrame} {crc : BitVec 16} (h : crc16 (HostFrame.bytes f) ≠ crc.toNat) : n.frameCode f (.full crc) = 2 := by
  simp only [frameCode, if_neg h]

theorem frameCode_right {f : HostFrame} {crc : BitVec 16} (h : crc16 (HostFrame.bytes f) = crc.toNat) : n.frameCode f (.full crc) = n.targetCode f := by
  simp only [frameCode, if_pos h]

theorem frameCode_badCmd (f : HostFrame) (c : Byte) (crc : BitVec 16) :
    n.frameCode f (.badCmd c crc) = if crc16 (HostFrame.bytes { f with cmd := c }) = crc.toNat then 5 else 2 := by
  simp only [frameCode]

theorem hostFrame_bytes (f : HostFrame) : HostFrame.bytes f = f.cmd :: (beBytes 2 f.addr.toNat ++ beBytes 4 f.data.toNat) := rfl

theorem targetCode_nop {f : HostFrame} (h : f.cmd = 0) : n.targetCode f = 0 := if_pos h

theorem targetCode_at {f : HostFrame} (h : f.cmd ≠ 0) : n.targetCode f = n.addrCode f.addr.toNat := if_neg h

/-! A frame that waited for the end of BRIDGE. -/

theorem frameResumes_bridges {f : HostFrame} (h : n.sys.wait = some f) (hb : n.bridges = true) : n.frameResumes = n := by
  simp only [frameResumes, h, hb, if_true]

theorem frameResumes_writes {f : HostFrame} (h : n.sys.wait = some f) (hb : n.bridges = false) (hc : f.cmd = 2)
    (ha : n.addrCode f.addr.toNat = 0) :
    n.frameResumes = (n.writeReg f.addr.toNat f.data).respLeft ((n.sys.fcnt + 7) % 8) 0 f.addr.toNat 0 := by
  have ht : n.targetCode f = 0 := by
    rw [targetCode, if_neg (by simp [hc]), ha]
  simp only [frameResumes, h, hb, ht, frameDone, frameRuns, hc]
  rfl

end Sys2Proof.Machine.Node

open Sys2Proof Sys2Proof.Machine Sys2Proof.Machine.Node

/-- The three commands of the host with one address and data, each with the frame that carries it. -/
def frameRows (a : BitVec 16) (w : Word) (g : FrameForm) : List (Instr × HostFrame) :=
  [(.nop (a, w, g), ⟨0, a, w⟩), (.read a (w, g), ⟨1, a, w⟩), (.write a w g, ⟨2, a, w⟩)]

theorem frameRows_run {a : BitVec 16} {w : Word} {g : FrameForm} {e : Instr × HostFrame} (h : e ∈ frameRows a w g) (s : State) :
    exec e.1 s = s.run (fun n => n.hostFrame e.2 g) ∧ e.2.addr = a ∧ e.2.data = w := by
  simp only [frameRows, List.mem_cons, List.not_mem_nil, or_false] at h
  rcases h with rfl | rfl | rfl <;> exact ⟨rfl, rfl, rfl⟩

section Given

variable {s : State} {a : BitVec 16} {w : Word}

theorem frames_unheard (h : s.node.portServes = false) :
    (∀ g, ∀ e ∈ frameRows a w g, Answers e.1 s s.node) ∧ Answers .hostFrameTimeout s s.node :=
  ⟨fun _ _ he => .of_run _ (frameRows_run he s).1 (hostFrame_unheard h _ _), .of_run lateFrame rfl (lateFrame_unheard h)⟩

theorem frames_waiting {f : HostFrame} (h : s.node.portServes = true) (hw : s.node.sys.wait = some f) :
    let m := s.node.sendResp ⟨1, (s.node.sys.fcnt + 7) % 8, f.addr.toNat, 0⟩
    (∀ g, ∀ e ∈ frameRows a w g, Answers e.1 s m) ∧ Answers .hostFrameTimeout s m := by
  have hs : s.node.sys.wait.isSome = true := by rw [hw]; rfl
  refine ⟨fun g e he => .of_run _ (frameRows_run he s).1 ?_, .of_run lateFrame rfl ?_⟩
  · rw [hostFrame_early h (.inr hs), earlyFrame_waiting hw]
  · rw [lateFrame_early h hs, earlyFrame_waiting hw]

section Served

variable (h : s.node.portServes = true) (hw : s.node.sys.wait = none)
include h hw

theorem frames_early : (s.node.sys.resp = none → ∀ e ∈ frameRows a w .early, Answers e.1 s s.node) ∧
    ∀ r, s.node.sys.resp = some r → ∀ e ∈ frameRows a w .early, Answers e.1 s (s.node.sendResp ⟨1, r.fcnt, r.addr, 0⟩) := by
  refine ⟨fun hr e he => .of_run _ (frameRows_run he s).1 ?_, fun r hr e he => .of_run _ (frameRows_run he s).1 ?_⟩
  · rw [hostFrame_early h (.inl rfl), earlyFrame_none hw hr]
  · rw [hostFrame_early h (.inl rfl), earlyFrame_pending hw hr]

/-- A frame that is not executed leaves its code. -/
theorem frame_error {g : FrameForm} (hg : g ≠ .early) {code : Nat} (h0 : code ≠ 0) {e : Instr × HostFrame} (he : e ∈ frameRows a w g)
    (hc : s.node.frameCode e.2 g = code) : Answers e.1 s (s.node.frameBegun.respLeft s.node.sys.fcnt code a.toNat 0) := by
  obtain ⟨hr, ha, -⟩ := frameRows_run he s
  refine .of_run _ hr ?_
  rw [hostFrame_answers h hw hg, hc, answer_error h0, ha]

theorem frameTimeout_answers : Answers .hostFrameTimeout s (s.node.frameBegun.respLeft s.node.sys.fcnt 4 0 0) := by
  refine .of_run lateFrame rfl ?_
  rw [lateFrame_answers h hw, answer_error (by decide)]
  rfl

/-- A frame that is executed, or waits while CORE is in BRIDGE. -/
theorem frame_runs {crc : BitVec 16} {e : Instr × HostFrame} (he : e ∈ frameRows a w (.full crc))
    (hc : s.node.frameCode e.2 (.full crc) = 0) :
    (s.node.bridges = false → Answers e.1 s ((s.node.frameBegun.frameRuns e.2).2.respLeft s.node.sys.fcnt 0 a.toNat
      (s.node.frameBegun.frameRuns e.2).1)) ∧
    (s.node.bridges = true → Answers e.1 s (s.node.frameBegun.mSys fun s => { s with wait := some e.2 })) := by
  obtain ⟨hr, ha, -⟩ := frameRows_run he s
  refine ⟨fun hb => .of_run _ hr ?_, fun hb => .of_run _ hr ?_⟩
  · rw [hostFrame_answers h hw (by simp), hc, answer_runs hb, ha]
  · rw [hostFrame_answers h hw (by simp), hc, answer_waits hb]

end Served

end Given

/-- Settles O58: what the port leaves of each form of frame, by the response pending and the frame that waits. -/
theorem hostFrames : Obligations.HostFrames := by
  unfold Obligations.HostFrames
  intro s a w n y served begun left waits code rows right
  have hbegun : begun = n.frameBegun := rfl
  refine ⟨fun r => sendResp_spec r, misoBytes_spec, frames_unheard, fun f h hw => frames_waiting h hw,
    fun h hw => ⟨(frames_early h hw).1, (frames_early h hw).2, frameTimeout_answers h hw, ?_, ?_, ?_, ?_, ?_, ?_⟩, ?_⟩
  · intro e he
    exact frame_error h hw (by decide) (by decide) he rfl
  · intro crc e he hr
    obtain ⟨-, ha, hd⟩ := frameRows_run he s
    refine frame_error h hw (by simp) (by decide) he (frameCode_wrong fun hx => hr ?_)
    rwa [hostFrame_bytes, ha, hd] at hx
  · intro cmd crc e he
    obtain ⟨-, ha, hd⟩ := frameRows_run he s
    refine frame_error h hw (by simp) (by split <;> decide) he ?_
    rw [frameCode_badCmd, hostFrame_bytes, ha, hd]
  · intro crc hr
    have he : (Instr.nop (a, w, .full crc), (⟨0, a, w⟩ : HostFrame)) ∈ frameRows a w (.full crc) := by simp [frameRows]
    exact frame_runs h hw he ((frameCode_right (f := ⟨0, a, w⟩) hr).trans (targetCode_nop rfl))
  · intro crc hr
    have he : (Instr.read a (w, .full crc), (⟨1, a, w⟩ : HostFrame)) ∈ frameRows a w (.full crc) := by simp [frameRows]
    have hc : n.frameCode ⟨1, a, w⟩ (.full crc) = code := (frameCode_right (f := ⟨1, a, w⟩) hr).trans (targetCode_at (show (1 : Byte) ≠ 0 by decide))
    exact ⟨fun h0 => frame_error h hw (by simp) h0 he hc, fun h0 => (frame_runs h hw he (hc.trans h0)).1,
      fun h0 => (frame_runs h hw he (hc.trans h0)).2⟩
  · intro crc hr
    have he : (Instr.write a w (.full crc), (⟨2, a, w⟩ : HostFrame)) ∈ frameRows a w (.full crc) := by simp [frameRows]
    have hc : n.frameCode ⟨2, a, w⟩ (.full crc) = code := (frameCode_right (f := ⟨2, a, w⟩) hr).trans (targetCode_at (show (2 : Byte) ≠ 0 by decide))
    exact ⟨fun h0 => frame_error h hw (by simp) h0 he hc, fun h0 => (frame_runs h hw he (hc.trans h0)).1,
      fun h0 => (frame_runs h hw he (hc.trans h0)).2⟩
  · intro d f m hm
    exact ⟨fun hb => .of_run (fun n => (n.rampNext d).frameResumes) rfl (frameResumes_bridges hm hb),
      fun hb hc ha => .of_run (fun n => (n.rampNext d).frameResumes) rfl (frameResumes_writes hm hb hc ha)⟩

end

section
/-! Register writes by their access codes, HOST_RESET, HP_CLEAR and HVIO (00 Table 0.2, 18 R557, R567, R569, 20 R600). -/

namespace Sys2Proof.Machine.Node

variable {n : Node}

/-! Which addresses answer (18 R561, R562). -/

theorem addrCode_none {a : Nat} (h : n.regView a = none) : n.addrCode a = 6 := by
  unfold addrCode
  rw [h]
  rfl

theorem addrCode_noImage {a : Nat} (h : (n.regView a).isSome = true) (hl : 0x200 ≤ a) (hu : a < 0x2400) (hi : n.img = none) :
    n.addrCode a = 7 := by
  have hv : (n.regView a).isNone = false := by simpa [Option.isSome_iff_ne_none] using h
  simp [addrCode, hv, hi, Nat.not_lt.mpr hl, Nat.not_le.mpr hu]

/-- The registers of SYS answer wherever the port serves. -/
theorem addrCode_sys {a : Nat} (h : (n.regView a).isSome = true) (hl : a < 0x200) : n.addrCode a = 0 := by
  have hv : (n.regView a).isNone = false := by simpa [Option.isSome_iff_ne_none] using h
  simp [addrCode, hv, hl]

/-- After the start the registers of a configured node answer, those of SOLV while it serves. -/
theorem addrCode_served {a : Nat} (h : (n.regView a).isSome = true) (hp : n.pwr.phase = .done) (hi : n.img.isSome = true)
    (hs : a < 0x1800 ∨ 0x1A00 ≤ a ∨ n.solvServes = true) : n.addrCode a = 0 := by
  have hv : (n.regView a).isNone = false := by simpa [Option.isSome_iff_ne_none] using h
  have hn : n.img.isNone = false := by simpa [Option.isSome_iff_ne_none] using hi
  have hw : ¬((0x1800 ≤ a ∧ a < 0x1A00) ∧ n.solvServes = false) := by
    rintro ⟨⟨hl, hu⟩, hf⟩
    rcases hs with hs | hs | hs
    · omega
    · omega
    · simp [hf] at hs
  simp [addrCode, hv, hp, hn, hw]

section Given
variable {s : State} {w : Word} {a : BitVec 16} {k : Nat} {m : Node}

theorem write_unserved (h : s.node.portServes = false ∨ s.node.addrCode a.toNat ≠ 0) : Answers (.registerWrite a w) s s.node := by
  refine .of_run (fun n => if n.portServes && n.addrCode a.toNat == 0 then n.writeReg a.toNat w else n) rfl ?_
  exact if_neg (by rcases h with h | h <;> simp [h])

theorem write_served (h : s.node.portServes = true) (hc : s.node.addrCode a.toNat = 0) :
    Answers (.registerWrite a w) s (s.node.writeReg a.toNat w) := by
  refine .of_run (fun n => if n.portServes && n.addrCode a.toNat == 0 then n.writeReg a.toNat w else n) rfl ?_
  exact if_pos (by simp [h, hc])

/-- What the write of one register leaves, where the port serves its address. -/
theorem write_at (h : s.node.portServes = true) (hc : s.node.addrCode k = 0) (hk : k < 2 ^ 16) (hm : s.node.writeReg k w = m) :
    Answers (.registerWrite (BitVec.ofNat 16 k) w) s m := by
  have ht : (BitVec.ofNat 16 k).toNat = k := Nat.mod_eq_of_lt hk
  rw [← hm]
  conv => arg 3; rw [← ht]
  exact write_served h (by rwa [ht])

/-- A register that takes no write keeps the node whether or not its address answers. -/
theorem write_readOnly (hk : k < 2 ^ 16) (hm : s.node.writeReg k w = s.node) : Answers (.registerWrite (BitVec.ofNat 16 k) w) s s.node := by
  have ht : (BitVec.ofNat 16 k).toNat = k := Nat.mod_eq_of_lt hk
  by_cases h : s.node.portServes = true ∧ s.node.addrCode k = 0
  · exact write_at h.1 h.2 hk hm
  · refine write_unserved ?_
    rw [ht]
    by_cases hp : s.node.portServes = true
    · exact .inr fun hc => h ⟨hp, hc⟩
    · exact .inl (by simpa using hp)

theorem sys_write (h : s.node.portServes = true) (hv : (s.node.regView k).isSome = true) (hl : k < 0x200) (hm : s.node.writeReg k w = m) :
    Answers (.registerWrite (BitVec.ofNat 16 k) w) s m :=
  write_at h (addrCode_sys hv hl) (by omega) hm

end Given

/-! HOST_RESET (18 R567). -/

theorem askReset_told (key : Nat) {code : Nat} (h : n.resetRefusal key = code) : n.askReset key = { n with sys := { n.sys with
    cmdResult := code
    resetPend := n.sys.resetPend || code == 0 } } := by
  rw [← h]
  rfl

theorem resetRefusal_key {key : Nat} (h : key ≠ 0x5253) : n.resetRefusal key = 2 := if_pos h

theorem resetRefusal_barred {key : Nat} (h : key = 0x5253) (ha : ¬(n.sec.maint = true ∨ n.sys.unconfigured = true)) :
    n.resetRefusal key = 3 := by
  obtain ⟨hm, hu⟩ := not_or.mp ha
  simp [resetRefusal, h, hm, hu]

theorem resetRefusal_pending {key : Nat} (h : key = 0x5253) (ha : n.sec.maint = true ∨ n.sys.unconfigured = true)
    (hp : n.sys.resetPend = true) : n.resetRefusal key = 4 := by
  rcases ha with ha | ha <;> simp [resetRefusal, h, ha, hp]

theorem resetRefusal_taken {key : Nat} (h : key = 0x5253) (ha : n.sec.maint = true ∨ n.sys.unconfigured = true)
    (hp : n.sys.resetPend = false) : n.resetRefusal key = 0 := by
  rcases ha with ha | ha <;> simp [resetRefusal, h, ha, hp]

/-- What a restart for the host leaves of a node. -/
structure HostRestart (n m : Node) : Prop where
  cause : m.pwr.cause = 5
  phase : m.pwr.phase = .c
  mode : m.pwr.mode = .run
  pend : m.sys.resetPend = false
  fcnt : m.sys.fcnt = 0
  img : m.img = none
  fab : m.fab = {}
  call : m.call = {}
  solv : m.solv = {}
  lane : m.lane = {}
  tide : m.tide = {}
  ext : m.ext = {}
  enrolled : m.sec.enrolled = n.sec.enrolled
  maint : m.sec.maint = false
  straps : m.sys.straps = n.sys.straps
  islands : m.loop.islands = n.loop.islands

theorem hostRestart_restart : HostRestart n (n.restart 5 .c) := by
  obtain ⟨r, st, due, -, hr⟩ := n.coreReset_eq
  unfold restart
  rw [hr]
  constructor <;> rfl

theorem HostRestart.of_kept {k m : Node} (h : HostRestart k m) (hsys : k.sys = n.sys) (hsec : k.sec = n.sec) (hloop : k.loop = n.loop) :
    HostRestart n m :=
  { h with
    enrolled := h.enrolled.trans (congrArg Sec.enrolled hsec)
    straps := h.straps.trans (congrArg Sys.straps hsys)
    islands := h.islands.trans (congrArg Loops.islands hloop) }

theorem resetNow_restarts (hp : n.sys.resetPend = true) (ht : n.timed = true) : HostRestart n n.resetNow := by
  unfold resetNow
  rw [if_pos (by simp [hp, ht])]
  dsimp only
  generalize hg : (n.setNow (n.nextMultiple tickLen)).mRtc _ = g
  have hr : Within [.rtc] n g := by
    rw [← hg]
    exact .mRtc (.setNow .rfl)
  have hl : Within [.rtc, .fab, .dio, .jrnl, .stor, .tide, .pair, .ext, .free] n
      ((if g.inserted then g.leaveRing .off 7 else g).flushAll.selectModes modeSafe) :=
    .selectModes (.flushAll (.iteThen (.after hr .rfl (by decide)) (.leaveRing .rfl)))
  exact hostRestart_restart.of_kept (hl.part .sys) (hl.part .sec) (hl.part .loop)

end Sys2Proof.Machine.Node

open Sys2Proof Sys2Proof.Machine Sys2Proof.Machine.Node

/-- Settles O59: an address answers by its register and the node's start, and a write acts on the register it names; HOST_RESET by its
first refusal, and a restart that keeps what `coreReset` keeps. -/
theorem registerWritesAndReset : Obligations.RegisterWritesAndReset := by
  unfold Obligations.RegisterWritesAndReset
  refine ⟨?_, ?_⟩
  · intro s a w
    dsimp only
    refine ⟨write_unserved, write_served, addrCode_none, addrCode_noImage, fun h => ⟨?_, ?_, ?_, ?_⟩, fun h hp hi => ?_⟩
    · simp only [List.forall_mem_cons, List.not_mem_nil, false_imp_iff, implies_true, and_true]
      exact ⟨write_readOnly (by decide) rfl, write_readOnly (by decide) rfl, write_readOnly (by decide) rfl, write_readOnly (by decide) rfl,
        write_readOnly (by decide) rfl, write_readOnly (by decide) rfl, write_readOnly (by decide) rfl, write_readOnly (by decide) rfl⟩
    · exact sys_write h rfl (by decide) rfl
    · exact sys_write h rfl (by decide) rfl
    · exact sys_write h rfl (by decide) rfl
    · have hw {k : Nat} {m : Node} (hv : (s.node.regView k).isSome = true) (hk : k < 0x1800 ∨ 0x1A00 ≤ k ∨ s.node.solvServes = true)
          (hu : k < 2 ^ 16) (hm : s.node.writeReg k w = m) : Answers (.registerWrite (BitVec.ofNat 16 k) w) s m :=
        write_at h (addrCode_served hv hp hi hk) hu hm
      refine ⟨hw rfl (by omega) (by decide) rfl, ?_, hw rfl (by omega) (by decide) rfl, hw rfl (by omega) (by decide) rfl,
        hw rfl (by omega) (by decide) rfl, hw rfl (by omega) (by decide) rfl, fun hs => ⟨?_, ?_⟩⟩
      · simp only [List.forall_mem_cons, List.not_mem_nil, false_imp_iff, implies_true, and_true]
        exact ⟨write_readOnly (by decide) rfl, write_readOnly (by decide) rfl, write_readOnly (by decide) rfl, write_readOnly (by decide) rfl⟩
      · refine hw rfl (.inr (.inr hs)) (by decide) ?_
        have hb : bitsOf 0 18 w = w.toNat % 2 ^ 18 := by rw [bitsOf, pow_zero, Nat.div_one]
        rw [← hb]
        rfl
      · exact hw rfl (.inr (.inr hs)) (by decide) rfl
  · intro s key
    dsimp only
    have hkey : key ≠ 0x5253 → key.toNat ≠ 0x5253 := fun h ht => h (BitVec.eq_of_toNat_eq ht)
    have hask {c : Nat} {m : Node} (hc : s.node.resetRefusal key.toNat = c) (hm : { s.node with sys := { s.node.sys with
        cmdResult := c
        resetPend := s.node.sys.resetPend || c == 0 } } = m) : Answers (.hostReset key) s m :=
      .of_run (fun n => n.askReset key.toNat) rfl ((askReset_told _ hc).trans hm)
    refine ⟨fun h => hask (resetRefusal_key (hkey h)) ?_, fun h ha => hask (resetRefusal_barred (congrArg BitVec.toNat h) ha) ?_,
      fun h ha hp => hask (resetRefusal_pending (congrArg BitVec.toNat h) ha hp) ?_,
      fun h ha hp => hask (resetRefusal_taken (congrArg BitVec.toNat h) ha hp) ?_, .of_run clearErrors rfl rfl, fun h => ?_, fun hp ht => ?_,
      .of_run (fun n => (n.mSys fun x => { x with hvio := false }).portGone) rfl rfl,
      .of_run (fun n => n.mSys fun x => { x with hvio := true }) rfl rfl⟩
    · simp
    · simp
    · simp [hp]
    · simp
    · exact .of_run resetNow rfl (if_neg (by rcases h with h | h <;> simp [h]))
    · obtain ⟨⟩ := resetNow_restarts hp ht
      refine .of_run resetNow rfl ?_
      exact ⟨‹_›, ‹_›, ‹_›, ‹_›, ‹_›, ‹_›, ‹_›, ‹_›, ‹_›, ‹_›, ‹_›, ‹_›, ‹_›, ‹_›, ‹_›, ‹_›⟩

end

section
/-! How flash operations end, and how the store fails and returns (19 R576 to R579, R582, R592, R595, R596). -/

namespace Sys2Proof.Machine

variable {α : Type} {d : α}

/-- A table whose entries are changed in place, none to the value of an unlisted key, keeps its form. -/
theorem twfFrom_map [DecidableEq α] {m : Tab α} {f : Nat × α → Nat × α} {lo : Nat} (hf : ∀ e, (f e).1 = e.1) (hd : ∀ e, e.2 ≠ d → (f e).2 ≠ d)
    (h : twfFrom d lo m = true) : twfFrom d lo (m.map f) = true := by
  induction m generalizing lo with
  | nil => rfl
  | cons e m ih =>
    obtain ⟨j, w⟩ := e
    simp only [twfFrom, Bool.and_eq_true, decide_eq_true_eq] at h
    obtain ⟨⟨hlo, hw⟩, ht⟩ := h
    rw [List.map_cons, show f (j, w) = (j, (f (j, w)).2) from Prod.ext (hf (j, w)) rfl]
    simp only [twfFrom, Bool.and_eq_true, decide_eq_true_eq]
    exact ⟨⟨hlo, hd (j, w) hw⟩, ih ht⟩

/-- What a change in place keeps of an entry, it keeps of what every key reads. -/
theorem tget_map_read {β : Type} {m : Tab α} {f : Nat × α → Nat × α} (g : α → β) (hf : ∀ e, (f e).1 = e.1) (hg : ∀ e, g (f e).2 = g e.2) (k : Nat) :
    g (tget d (m.map f) k) = g (tget d m k) := by
  induction m with
  | nil => rfl
  | cons e m ih =>
    obtain ⟨j, w⟩ := e
    rw [List.map_cons, show f (j, w) = (j, (f (j, w)).2) from Prod.ext (hf (j, w)) rfl]
    simp only [tget]
    split
    · exact hg (j, w)
    · split
      · rfl
      · exact ih

end Sys2Proof.Machine

namespace Sys2Proof.Machine.Node

variable {n m : Node} {k : Nat}

/-! A sector retired (19 R578). -/

/-- The sector `k` is retired and its flag is set, in a table of sectors in its form. -/
structure SectorRetired (k : Nat) (m : Node) : Prop where
  cls : (m.sector k).cls = .retired
  flag : bit m.stor.flags 1 = true
  form : twf {} m.stor.sectors = true

/-- What changes neither the sectors nor the flag keeps a sector retired. -/
theorem SectorRetired.of_same (h : SectorRetired k n) (hs : m.stor.sectors = n.stor.sectors) (hf : bit m.stor.flags 1 = bit n.stor.flags 1) :
    SectorRetired k m :=
  ⟨by rw [sector_congr hs]; exact h.cls, hf.trans h.flag, by rw [hs]; exact h.form⟩

theorem addOnce_flags (op : FlashOp) : (n.addOnce op).stor.flags = n.stor.flags := by
  unfold addOnce flashAdd
  split
  · rfl
  · dsimp only [mStor]
    split
    · rfl
    · split <;> rfl

theorem flashAdd_sectors (op : FlashOp) : (n.flashAdd op).stor.sectors = n.stor.sectors ∧ (n.flashAdd op).stor.flags = n.stor.flags := by
  unfold flashAdd
  dsimp only [mStor]
  split
  · exact ⟨rfl, rfl⟩
  · split <;> exact ⟨rfl, rfl⟩

theorem SectorRetired.addOnce (h : SectorRetired k n) (op : FlashOp) : SectorRetired k (n.addOnce op) :=
  h.of_same (addOnce_sectors op) (by rw [addOnce_flags])

/-- A passing erase empties the slots of retired sectors, and no more. -/
theorem SectorRetired.passRetired (h : SectorRetired k n) (a b : Nat) : SectorRetired k (n.passRetired a b) := by
  refine ⟨(tget_map_read Sector.cls (fun e => ?_) (fun e => ?_) k).trans h.cls, h.flag, twfFrom_map (fun e => ?_) (fun e hd => ?_) h.form⟩
  · split <;> rfl
  · split <;> rfl
  · split <;> rfl
  · split
    next hr =>
      intro he
      have hc : e.2.cls = .erasedOk := (congrArg Sector.cls he :)
      rw [hr.1] at hc
      cases hc
    · exact hd

theorem SectorRetired.eraseAhead (h : SectorRetired k n) (a : Nat) : SectorRetired k (n.eraseAhead a) := by
  unfold Node.eraseAhead
  dsimp only
  refine List.foldlRecOn _ _ (h.passRetired _ _) fun m hm x _ => ?_
  split
  · exact hm
  · exact hm.addOnce _

/-- The journal opens an erased sector, so never a retired one. -/
theorem SectorRetired.openJournal (h : SectorRetired k n) : SectorRetired k n.openJournal := by
  unfold Node.openJournal
  dsimp only
  split
  · exact h
  · split
    next he =>
      have hne : k ≠ n.jrnlNext := fun hk => by
        rw [← hk, h.cls] at he
        cases he
      have hu : SectorRetired k (n.updSector n.jrnlNext fun s => { s with cls := .data, serial := n.nextSerial jrnlFirst jrnlLast }) :=
        ⟨(congrArg Sector.cls (tget_tset_other h.form hne _)).trans h.cls, h.flag, twf_tset h.form _ _⟩
      exact hu.eraseAhead _
    · exact h.addOnce _

theorem SectorRetired.pickNext (h : SectorRetired k n) : SectorRetired k n.pickNext := by
  have ho : SectorRetired k (if n.unwritten.isEmpty then n else n.openJournal) := by
    split
    · exact h
    · exact h.openJournal
  unfold Node.pickNext
  split
  · exact h.of_same rfl rfl
  · dsimp only
    generalize (if n.unwritten.isEmpty then n else n.openJournal) = m at ho
    split
    · exact ho.of_same rfl rfl
    · split
      · exact ho.of_same rfl rfl
      · split <;> exact ho.of_same rfl rfl

theorem SectorRetired.failStore (h : SectorRetired k n) (c : Nat) : SectorRetired k (n.failStore c) :=
  h.of_same rfl (bit_setBit_other _ (by decide))

theorem sectorRetired_retireSector (hw : twf {} n.stor.sectors = true) (k : Nat) : SectorRetired k (n.retireSector k) := by
  have hr : SectorRetired k ((n.updSector k fun s => { s with cls := .retired }).storFlag 1) :=
    ⟨(congrArg Sector.cls (tget_tset_same hw k _) :), bit_setBit_same _ (by decide), twf_tset hw k _⟩
  obtain ⟨hs, hf⟩ := flashAdd_sectors (n := (n.updSector k fun s => { s with cls := .retired }).storFlag 1) (.ident (.retired k))
  have hq := hr.of_same hs (by rw [hf])
  unfold retireSector
  dsimp only
  split
  · exact hq.failStore 3
  · exact hq

/-! Programs. -/

theorem programDone_erase {op : FlashOp} {b : Bool} (h : n.stor.cur = some op) (he : op.erases.isSome = true) : n.programDone b = n := by
  rw [programDone, h]
  exact if_pos he

theorem programDone_fails {op : FlashOp} (h : n.stor.cur = some op) (he : op.erases = none) :
    n.programDone false = (n.mStor fun s => { s with timeouts := 0 }).attemptFails op := by
  rw [programDone, h]
  exact if_neg (by simp [he])

theorem attemptFails_again (op : FlashOp) (h : n.stor.tries < 3) : n.attemptFails op = { n with stor := { n.stor with
    flags := setBit n.stor.flags 0
    tries := n.stor.tries + 1 } } :=
  if_pos h

theorem attemptFails_page (recs : List Record) (h : 3 ≤ n.stor.tries) (ho : n.jrnlOpen = some k) :
    n.attemptFails (.jrnl recs) = ((n.storFlag 0).retireSector k).pickNext := by
  have ho' : (n.storFlag 0).jrnlOpen = some k := ho
  refine (if_neg (Nat.not_lt.2 h)).trans ?_
  simp only [programFailed, ho']

/-! Erases. -/

theorem eraseDone_program {op : FlashOp} {b : Bool} (h : n.stor.cur = some op) (he : op.erases = none) : n.eraseDone b = n := by
  rw [eraseDone, h]
  exact if_neg (by simp [he])

theorem eraseDone_erase {op : FlashOp} {b : Bool} (h : n.stor.cur = some op) (he : op.erases.isSome = true) :
    n.eraseDone b = (n.mStor fun s => { s with timeouts := 0 }).eraseEnds op b := by
  rw [eraseDone, h]
  exact if_pos he

theorem eraseEnds_retires (hw : twf {} n.stor.sectors = true) (k : Nat) : SectorRetired k (n.eraseEnds (.eraseAhead k) false) := by
  have hr := sectorRetired_retireSector hw k
  refine SectorRetired.pickNext ?_
  split
  · exact hr
  · split
    · exact hr.eraseAhead _
    · exact hr

/-- With nothing to write, the store's next choice leaves the sectors. -/
theorem pickNext_sectors (h : n.unwritten = []) : n.pickNext.stor.sectors = n.stor.sectors := by
  have hsame : (if n.unwritten.isEmpty then n else n.openJournal) = n := if_pos (by rw [h]; rfl)
  unfold pickNext
  rw [hsame]
  split
  · rfl
  · dsimp only
    split
    · rfl
    · split
      · rfl
      · split <;> rfl

theorem eraseEnds_erased (hw : twf {} n.stor.sectors = true) (hu : n.unwritten = []) (k i : Nat) :
    (n.eraseEnds (.eraseAhead k) true).sector i = if i = k then { cls := .erasedOk, erases := n.erasesAfter k } else n.sector i := by
  have he : (n.eraseEnds (.eraseAhead k) true).sector i = (n.erasedSector k).sector i :=
    sector_congr (pickNext_sectors (n := n.erasedSector k) hu) i
  rw [he]
  split
  next hi =>
    rw [hi]
    exact tget_tset_same hw k _
  next hi => exact tget_tset_other hw hi _

theorem bankEraseStep_next (b : Bool) (h : k < 127) : (n.bankEraseStep b k).stor.cur = some (.bankErase b (k + 1)) := by
  unfold bankEraseStep
  dsimp only
  rw [if_pos h]
  rfl

theorem eraseEnds_bank (b ok : Bool) (h : k < 127) : (n.eraseEnds (.bankErase b k) ok).stor.cur = some (.bankErase b (k + 1)) ∧
    Keeps [.stor, .sec] n (n.eraseEnds (.bankErase b k) ok) := by
  cases ok with
  | true => exact ⟨bankEraseStep_next b h, (Within.bankEraseStep .rfl : Within [.stor, .sec] n (n.bankEraseStep b k)).keeps⟩
  | false =>
    exact ⟨bankEraseStep_next b h, (Within.bankEraseStep (.storFlag .rfl) : Within [.stor, .sec] n ((n.storFlag 0).bankEraseStep b k)).keeps⟩

/-! Timeouts. -/

/-- A timeout counted and flagged. -/
def timeoutCounted (n : Node) : Node := (n.mStor fun s => { s with timeouts := s.timeouts + 1 }).storFlag 3

theorem flashTimesOut_third {op : FlashOp} (h : n.stor.cur = some op) (ht : 2 ≤ n.stor.timeouts) :
    n.flashTimesOut = n.timeoutCounted.failStore 1 := by
  rw [flashTimesOut, h]
  exact if_pos (show 3 ≤ n.stor.timeouts + 1 by omega)

theorem flashTimesOut_erase {op : FlashOp} (h : n.stor.cur = some op) (ht : n.stor.timeouts < 2) (he : op.erases.isSome = true) :
    n.flashTimesOut = n.timeoutCounted.eraseEnds op false := by
  rw [flashTimesOut, h]
  exact (if_neg (show ¬ 3 ≤ n.stor.timeouts + 1 by omega)).trans (if_pos he)

theorem flashTimesOut_program {op : FlashOp} (h : n.stor.cur = some op) (ht : n.stor.timeouts < 2) (he : op.erases = none) :
    n.flashTimesOut = n.timeoutCounted.attemptFails op := by
  rw [flashTimesOut, h]
  exact (if_neg (show ¬ 3 ≤ n.stor.timeouts + 1 by omega)).trans (if_neg (by simp [he]))

/-! Operations that end with their sector retired, erased or gone on from. -/

/-- A count of timeouts begun anew. -/
def timeoutsOver (n : Node) : Node := n.mStor fun s => { s with timeouts := 0 }

theorem programDone_retires {recs : List Record} (h : n.stor.cur = some (.jrnl recs)) (ht : 3 ≤ n.stor.tries) (ho : n.jrnlOpen = some k)
    (hw : twf {} n.stor.sectors = true) :
    SectorRetired k (n.programDone false) ∧ Keeps [.stor, .jrnl, .sec] n (n.programDone false) := by
  have he : n.programDone false = ((n.timeoutsOver.storFlag 0).retireSector k).pickNext :=
    (programDone_fails h rfl).trans (attemptFails_page (n := n.timeoutsOver) recs ht ho)
  have hk : Within [.stor, .jrnl, .sec] n ((n.timeoutsOver.storFlag 0).retireSector k).pickNext :=
    .pickNext (.retireSector (.storFlag (.mStor .rfl)))
  rw [he]
  exact ⟨(sectorRetired_retireSector (n := n.timeoutsOver.storFlag 0) hw k).pickNext, hk.keeps⟩

theorem eraseDone_retires (h : n.stor.cur = some (.eraseAhead k)) (hw : twf {} n.stor.sectors = true) :
    SectorRetired k (n.eraseDone false) ∧ Keeps [.stor, .jrnl, .sec] n (n.eraseDone false) := by
  have he : n.eraseDone false = n.timeoutsOver.eraseEnds (.eraseAhead k) false := eraseDone_erase h rfl
  have hk : Within [.stor, .jrnl, .sec] n (n.timeoutsOver.eraseEnds (.eraseAhead k) false) := .eraseEnds (.mStor .rfl)
  rw [he]
  exact ⟨eraseEnds_retires (n := n.timeoutsOver) hw k, hk.keeps⟩

theorem flashTimesOut_retires (h : n.stor.cur = some (.eraseAhead k)) (ht : n.stor.timeouts < 2) (hw : twf {} n.stor.sectors = true) :
    SectorRetired k n.flashTimesOut ∧ Keeps [.stor, .jrnl, .sec] n n.flashTimesOut := by
  have he : n.flashTimesOut = n.timeoutCounted.eraseEnds (.eraseAhead k) false := flashTimesOut_erase h ht rfl
  have hk : Within [.stor, .jrnl, .sec] n (n.timeoutCounted.eraseEnds (.eraseAhead k) false) := .eraseEnds (.storFlag (.mStor .rfl))
  rw [he]
  exact ⟨eraseEnds_retires (n := n.timeoutCounted) hw k, hk.keeps⟩

theorem eraseDone_erased (h : n.stor.cur = some (.eraseAhead k)) (hw : twf {} n.stor.sectors = true) (hu : n.unwritten = []) :
    (n.eraseDone true).sector k = { cls := .erasedOk, erases := n.erasesAfter k } ∧
      (∀ i, i ≠ k → (n.eraseDone true).sector i = n.sector i) ∧ Keeps [.stor] n (n.eraseDone true) := by
  have he : n.eraseDone true = n.timeoutsOver.eraseEnds (.eraseAhead k) true := eraseDone_erase h rfl
  have hk : Within [.stor] n (n.timeoutsOver.erasedSector k).pickNext := .pickNext (.erasedSector (.mStor .rfl))
  have hs := fun i => eraseEnds_erased (n := n.timeoutsOver) hw hu k i
  rw [he]
  exact ⟨(hs k).trans (if_pos rfl), fun i hi => (hs i).trans (if_neg hi), hk.keeps⟩

theorem eraseDone_bank {b ok : Bool} (h : n.stor.cur = some (.bankErase b k)) (hk : k < 127) :
    (n.eraseDone ok).stor.cur = some (.bankErase b (k + 1)) ∧ Keeps [.stor, .sec] n (n.eraseDone ok) := by
  have he : n.eraseDone ok = n.timeoutsOver.eraseEnds (.bankErase b k) ok := eraseDone_erase h rfl
  obtain ⟨hc, hs⟩ := eraseEnds_bank (n := n.timeoutsOver) b ok hk
  rw [he]
  exact ⟨hc, (Within.mStor .rfl : Within [.stor, .sec] n n.timeoutsOver).keeps.trans hs⟩

/-! The store fails and returns (19 R592, R595). -/

/-- A failed store: it runs nothing, and its sectors and the RAM ring stand. -/
structure StoreFailed (n : Node) (cause : Nat) (m : Node) : Prop where
  state : m.stor.state = 2
  cause : m.stor.failCause = cause
  cur : m.stor.cur = none
  susp : m.stor.susp = none
  wait : m.stor.wait = []
  flag : bit m.stor.flags 4 = true
  sectors : m.stor.sectors = n.stor.sectors
  ident : m.stor.ident = n.stor.ident
  flashOk : m.jrnl.flashOk = false
  ram : m.jrnl.ram = n.jrnl.ram
  stands : Keeps [.stor, .jrnl, .sec] n m

theorem storeFailed_failStore (c : Nat) : StoreFailed n c (n.failStore c) := by
  have hk : Within [.stor, .jrnl, .sec] n (n.failStore c) := .failStore .rfl
  exact ⟨rfl, rfl, rfl, rfl, rfl, bit_setBit_same _ (by decide), rfl, rfl, rfl, rfl, hk.keeps⟩

/-- The store back in service. -/
def storeBack (n : Node) : Node := { n with
  stor := { n.stor with
    state := 1
    failCause := 0
    timeouts := 0 }
  jrnl := { n.jrnl with flashOk := true } }

theorem probeStore_idle {a : Bool} (h : n.stor.state ≠ 2 ∨ a = false ∨ n.stor.failCause ≠ 1) : n.probeStore a = n :=
  if_neg (by rcases h with h | h | h <;> simp [h])

theorem probeStore_back (hs : n.stor.state = 2) (hc : n.stor.failCause = 1) : n.probeStore true = n.storeBack.retryEra :=
  if_pos (by simp [hs, hc])

theorem retryEra_none (h : n.stor.eraPend = none) : n.retryEra = n := by rw [retryEra, h]

theorem retryEra_some {v : Nat} (h : n.stor.eraPend = some v) (hf : n.flashHas (.ident (.era v)) = false) :
    n.retryEra = n.flashAdd (.ident (.era v)) := by
  rw [retryEra, h]
  exact if_neg (by rw [hf]; decide)

theorem probeCommand_idle {a : Bool} (h : n.stor.state ≠ 2) : n.probeCommand a = { n with stor := { n.stor with
    cmdResult := 2
    flags := setBit n.stor.flags 6 } } :=
  if_neg h

theorem probeCommand_failed {a : Bool} (h : n.stor.state = 2) :
    n.probeCommand a = (n.mStor fun s => { s with cmdResult := 0 }).probeStore a :=
  if_pos h

/-! Re-erases after the start (19 R596). -/

theorem flashAdd_state (op : FlashOp) : (n.flashAdd op).stor.state = n.stor.state := by
  unfold flashAdd
  dsimp only [mStor]
  split
  · rfl
  · split <;> rfl

/-- The operation added last is held, and those held before are held still. -/
theorem flashHas_flashAdd (op x : FlashOp) (h : n.stor.state ≠ 2) (hx : x = op ∨ n.flashHas x = true) : (n.flashAdd op).flashHas x = true := by
  unfold flashHas flashAdd at *
  dsimp only [mStor]
  rw [if_neg h]
  cases hc : n.stor.cur with
  | none =>
    rcases hx with rfl | hx
    · simp
    · simp_all
      tauto
  | some c =>
    rcases hx with rfl | hx
    · simp
    · simp_all
      tauto

theorem flashHas_addOnce (op x : FlashOp) (h : n.stor.state ≠ 2) (hx : x = op ∨ n.flashHas x = true) : (n.addOnce op).flashHas x = true := by
  unfold addOnce
  split
  next hop =>
    rcases hx with rfl | hx
    · exact hop
    · exact hx
  · exact flashHas_flashAdd op x h hx

theorem addOnce_state (op : FlashOp) : (n.addOnce op).stor.state = n.stor.state := by
  unfold addOnce
  split
  · rfl
  · exact flashAdd_state op

/-- The re-erases given to a list of sectors. -/
def repairAll (n : Node) (l : List (Nat × Sector)) : Node := l.foldl (fun n e => n.addOnce (.repair e.1)) n

theorem repairAll_sectors (l : List (Nat × Sector)) : (n.repairAll l).stor.sectors = n.stor.sectors :=
  List.foldlRecOn l _ (motive := fun m : Node => m.stor.sectors = n.stor.sectors) rfl fun _ hm _ _ => (addOnce_sectors _).trans hm

theorem flashHas_repairAll (l : List (Nat × Sector)) (x : FlashOp) (h : n.stor.state ≠ 2) (hx : x ∈ l.map (fun e => FlashOp.repair e.1) ∨
    n.flashHas x = true) : (n.repairAll l).flashHas x = true := by
  induction l generalizing n with
  | nil => exact hx.resolve_left (by simp)
  | cons e l ih =>
    refine ih (n := n.addOnce (.repair e.1)) (by rw [addOnce_state]; exact h) ?_
    rcases hx with hx | hx
    · rcases List.mem_cons.1 hx with he | hx
      · exact .inr (flashHas_addOnce _ _ h (.inl he))
      · exact .inl hx
    · exact .inr (flashHas_addOnce _ _ h (.inr hx))

theorem reerase_started (h : n.pwr.phase = .done) : n.reerase =
    n.repairAll (n.stor.sectors.filter fun e => e.2.cls == .blank || e.2.cls == .unknown) :=
  if_pos (by rw [h]; rfl)

/-! The commands. -/

theorem storeRuns_held {f : Node → Node} (h : n.coreHeld = true) : n.storeRuns f = n := if_pos h

theorem storeRuns_runs {f : Node → Node} (h : n.coreHeld = false) : n.storeRuns f = f n := if_neg (by simp [h])

section Given
variable {s : State}

theorem flash_idle (b : Bool) (h : s.node.stor.cur = none ∨ s.node.coreHeld = true) :
    Answers (.flashProgramDone b) s s.node ∧ Answers (.flashEraseDone b) s s.node ∧ Answers .flashTimeout s s.node := by
  have hr {f : Node → Node} (hf : s.node.stor.cur = none → f s.node = s.node) : s.node.storeRuns f = s.node := by
    unfold storeRuns
    split
    · rfl
    next hh => exact hf (h.resolve_right hh)
  exact ⟨.of_run (fun n => n.storeRuns fun n => n.programDone b) rfl (hr fun hc => by rw [programDone, hc]),
    .of_run (fun n => n.storeRuns fun n => n.eraseDone b) rfl (hr fun hc => by rw [eraseDone, hc]),
    .of_run (fun n => n.storeRuns flashTimesOut) rfl (hr fun hc => by rw [flashTimesOut, hc])⟩

theorem flash_other {b : Bool} {op : FlashOp} (h : s.node.stor.cur = some op) :
    (op.erases.isSome = true → Answers (.flashProgramDone b) s s.node) ∧ (op.erases = none → Answers (.flashEraseDone b) s s.node) := by
  have hr {f : Node → Node} (hf : f s.node = s.node) : s.node.storeRuns f = s.node := by
    unfold storeRuns
    split
    · rfl
    · exact hf
  exact ⟨fun he => .of_run (fun n => n.storeRuns fun n => n.programDone b) rfl (hr (programDone_erase h he)),
    fun he => .of_run (fun n => n.storeRuns fun n => n.eraseDone b) rfl (hr (eraseDone_program h he))⟩

section
variable (hc : s.node.coreHeld = false) {q : Node → Prop} {m : Node}
include hc

theorem program_gives {b : Bool} (hq : q (s.node.programDone b)) : Gives (.flashProgramDone b) s q := by
  refine .of_run (fun n => n.storeRuns fun n => n.programDone b) rfl ?_
  rwa [storeRuns_runs hc]

theorem erase_gives {b : Bool} (hq : q (s.node.eraseDone b)) : Gives (.flashEraseDone b) s q := by
  refine .of_run (fun n => n.storeRuns fun n => n.eraseDone b) rfl ?_
  rwa [storeRuns_runs hc]

theorem timeout_gives (hq : q s.node.flashTimesOut) : Gives .flashTimeout s q := by
  refine .of_run (fun n => n.storeRuns flashTimesOut) rfl ?_
  rwa [storeRuns_runs hc]

theorem program_answers {b : Bool} (hm : s.node.programDone b = m) : Answers (.flashProgramDone b) s m :=
  .of_run (fun n => n.storeRuns fun n => n.programDone b) rfl ((storeRuns_runs hc).trans hm)

theorem timeout_answers (hm : s.node.flashTimesOut = m) : Answers .flashTimeout s m :=
  .of_run (fun n => n.storeRuns flashTimesOut) rfl ((storeRuns_runs hc).trans hm)

end

end Given

end Sys2Proof.Machine.Node

open Sys2Proof Sys2Proof.Machine Sys2Proof.Machine.Node

/-- Settles O60: a retired sector stays retired through the store's next choice, and an operation given to the store is held until it
ends. -/
theorem flashStore : Obligations.FlashStore := by
  unfold Obligations.FlashStore
  refine ⟨?_, ?_⟩
  · intro s n retired
    have hret {k : Nat} {m : Node} (h : SectorRetired k m ∧ Keeps [.stor, .jrnl, .sec] n m) : retired k m := ⟨h.1.cls, h.1.flag, h.2⟩
    refine ⟨fun b h => flash_idle b h, fun b op h => flash_other h, fun op hh hc he ht => ⟨?_, fun h2 => ?_⟩, fun op hh hc h2 => ?_,
      fun recs k hh hc ht ho hw => ?_, fun k hh hc hw => ⟨?_, fun h2 => ?_, fun hu => ?_⟩, fun b k ok hh hc hk => ?_⟩
    · exact program_answers hh ((programDone_fails hc he).trans (attemptFails_again op ht))
    · exact timeout_answers hh ((flashTimesOut_program hc h2 he).trans (attemptFails_again op ht))
    · refine timeout_gives hh ?_
      rw [flashTimesOut_third hc h2]
      have hf := storeFailed_failStore (n := n.timeoutCounted) 1
      have hk : Within [.stor, .jrnl, .sec] n (n.timeoutCounted.failStore 1) := .failStore (.storFlag (.mStor .rfl))
      exact ⟨hf.state, hf.cause, hf.cur, hf.wait, hf.flashOk, hf.sectors, hk.keeps⟩
    · exact program_gives hh (hret (programDone_retires hc ht ho hw))
    · exact erase_gives hh (hret (eraseDone_retires hc hw))
    · exact timeout_gives hh (hret (flashTimesOut_retires hc h2 hw))
    · exact erase_gives hh (eraseDone_erased hc hw hu)
    · exact erase_gives hh (eraseDone_bank hc hk)
  · intro s n back failed
    have hfailed {c : Nat} : failed c (n.failStore c) := by
      obtain ⟨⟩ := storeFailed_failStore (n := n) c
      exact ⟨‹_›, ‹_›, ‹_›, ‹_›, ‹_›, ‹_›, ‹_›, ‹_›, ‹_›, ‹_›, ‹_›⟩
    have hprobe {a : Bool} {m : Node} (hm : n.probeStore a = m) : Answers (.epochProbe a) s m := .of_run (fun n => n.probeStore a) rfl hm
    have hcommand {a : Bool} {m : Node} (hm : n.probeCommand a = m) : Answers (.probe a) s m := .of_run (fun n => n.probeCommand a) rfl hm
    refine ⟨.of_run (fun n => n.failStore (if true then 2 else if 1535 - n.retiredIn jrnlFirst jrnlLast < 8 then 3 else 1)) rfl hfailed,
      .of_run (fun n => n.failStore (if false then 2 else if 1535 - n.retiredIn jrnlFirst jrnlLast < 8 then 3 else 1)) rfl hfailed,
      fun a hs => ⟨hprobe (probeStore_idle (.inl hs)), hcommand (probeCommand_idle hs)⟩,
      fun a hs h => ⟨hprobe (probeStore_idle (.inr h)), hcommand ((probeCommand_failed hs).trans (probeStore_idle (n := n.mStor fun s => { s with cmdResult := 0 }) (.inr h)))⟩,
      fun hs hc he => ⟨hprobe ((probeStore_back hs hc).trans (retryEra_none he)),
        hcommand ((probeCommand_failed hs).trans
          ((probeStore_back (n := n.mStor fun s => { s with cmdResult := 0 }) hs hc).trans (retryEra_none he)))⟩,
      fun v hs hc he h1 h2 h3 => hprobe ((probeStore_back hs hc).trans (retryEra_some he ?_)), fun h => ?_, fun hp hh hs => ?_⟩
    · show (n.stor.cur == _ || n.stor.susp == _ || n.stor.wait.contains _) = false
      rw [h1, h2, h3]
      rfl
    · refine .of_run (fun n => n.storeRuns reerase) rfl ?_
      unfold storeRuns
      split
      · rfl
      next hh => exact if_neg (by simpa using h.resolve_right hh)
    · refine .of_run (fun n => n.storeRuns reerase) rfl ?_
      rw [storeRuns_runs hh, reerase_started hp]
      refine ⟨fun e he hc => ?_, repairAll_sectors _, ?_⟩
      · refine flashHas_repairAll _ _ hs (.inl (List.mem_map.2 ⟨e, List.mem_filter.2 ⟨he, ?_⟩, rfl⟩))
        rcases hc with hc | hc <;> simp [hc]
      · exact (Within.foldl _ .rfl fun _ _ => .addOnce .rfl : Within [.stor] n (n.repairAll _)).keeps

end

end
